-- ==== Sys2Proof/Word.lean ====
section
/-! DEFINITION. The word types of the LWM-4516 and their plainest arithmetic: 32-bit registers and lanes
(04/R120, 02/R56), 64-bit pairs, bytes and little-endian joins (00/R16). -/

namespace Sys2Proof

/-- One byte of memory. -/
abbrev Byte := BitVec 8
/-- A scalar register, a lane word, an instruction word. -/
abbrev Word := BitVec 32
/-- A register pair, a pointer, a literal. -/
abbrev DWord := BitVec 64

/-- The pair with low half `lo` and high half `hi` (04/R120). -/
def DWord.join (hi lo : Word) : DWord := hi ++ lo
/-- The low half of a pair. -/
def DWord.lo (x : DWord) : Word := x.extractLsb' 0 32
/-- The high half of a pair. -/
def DWord.hi (x : DWord) : Word := x.extractLsb' 32 32

/-- The `n` bytes of `x`, least significant first (00/R16). -/
def leBytes : Nat → Nat → List Byte
  | 0, _ => []
  | n + 1, x => BitVec.ofNat 8 x :: leBytes n (x / 256)

/-- The number whose bytes, least significant first, are `bs` (00/R16). -/
def ofLE : List Byte → Nat
  | [] => 0
  | b :: bs => b.toNat + 256 * ofLE bs

/-- `x` rounded down to a multiple of `n`. -/
def alignDown (n x : Nat) : Nat := x - x % n

/-- Ceiling of `x / n`. -/
def ceilDiv (x n : Nat) : Nat := (x + n - 1) / n

end Sys2Proof
end

