-- ==== Sys2Proof/Syntax.lean ====
section
/-! DEFINITION. The syntax of the LWM-4516: register fields, operand records of the extended forms (03/R96 to R101),
the names events refer to, and the ONE inductive `Instr` with one constructor per row of spec/opcode_table.json.
An instruction row carries its decoded fields; an event row (a device, host, peer or fault step) reads the facts that
come with it from outside the device from State.facts. Rows with fields stand first: Lean's runtime bounds the number of
constructors with fields. -/

namespace Sys2Proof

/-- A scalar register field, s0 to s63 (03/R93). -/
abbrev SReg := BitVec 6
/-- A core: die in bits 8:7, quad of the die in 6:2, core of the quad in 1:0 (00/R3). -/
abbrev CoreId := BitVec 9
/-- A quad: die in bits 6:5, quad of the die in 4:0. -/
abbrev QuadId := BitVec 7
/-- A context, 0 to 4095 (18/R436). -/
abbrev CtxId := BitVec 12
/-- A launch queue, 0 to 255 (12/R328). -/
abbrev QueueId := BitVec 8
/-- A Carillon port, 0 to 23 (15/R400). -/
abbrev PortId := Fin 24
/-- A UNIT value (17/R424). -/
abbrev UnitId := BitVec 32

/-- A gang: its launch and its linear index in the grid, x fastest (12/R192). -/
structure GangKey where
  launch : Nat
  gang : Nat
  deriving DecidableEq, Repr

/-- A block: its gang and its index in the gang (06/R181). -/
structure BlockKey where
  launch : Nat
  gang : Nat
  blk : Nat
  deriving DecidableEq, Repr

/-- A wave: the coordinates that name it (06/R181). -/
structure WaveKey where
  launch : Nat
  gang : Nat
  blk : Nat
  wid : Nat
  deriving DecidableEq, Repr

/-- The block of a wave. -/
def WaveKey.block (k : WaveKey) : BlockKey := ⟨k.launch, k.gang, k.blk⟩
/-- The gang of a block. -/
def BlockKey.gangKey (k : BlockKey) : GangKey := ⟨k.launch, k.gang⟩
/-- The gang of a wave. -/
def WaveKey.gangKey (k : WaveKey) : GangKey := ⟨k.launch, k.gang⟩

/-- The format codes of 02/R56 that a register may carry (02/R57). -/
inductive Fmt where
  | b32 | s32 | n32 | f32 | h16x2 | bf16x2 | s64 | f64 | e4m3x4 | e5m2x4 | t8x4 | t6x5 | s8x4 | s4x8 | z4x8
  deriving DecidableEq, Repr

/-- Trap causes (04/R146). -/
inductive Cause where
  | illop | illfmt | align | prot | tagchk | bound | stack | accslot | barobj | barmm | bufovf | shadow | poison
  | watch | brk | trapi | fetch | queueerr | snaperr | ckhard | launcherr
  deriving DecidableEq, Repr

/-- Park causes (04/R146). -/
inductive ParkCause where
  | page | shadowpark | residency
  deriving DecidableEq, Repr

/-- The levels with a place of their own (00/R22). -/
inductive Level where
  | w | b | g | d | x
  deriving DecidableEq, Repr

/-- The VX form (03/R96). -/
structure VX where
  f : BitVec 4
  i : BitVec 1
  va : BitVec 8
  vd : BitVec 8
  la : BitVec 4
  bov : BitVec 4
  sat : BitVec 1
  rnd : BitVec 2
  rfmt : BitVec 5
  vc : BitVec 8
  vb : BitVec 8
  imm : Word
  deriving DecidableEq, Repr

/-- The MX form (03/R98). -/
structure MX where
  as : BitVec 2
  voff : BitVec 8
  xt : BitVec 3
  vt : BitVec 8
  la : BitVec 4
  v : BitVec 1
  aop : BitVec 5
  order : BitVec 3
  sx : BitVec 1
  lvl : BitVec 3
  width : BitVec 3
  off : Word
  deriving DecidableEq, Repr

/-- The MS form (03/R99). -/
structure MS where
  as : BitVec 2
  sb : SReg
  sa : SReg
  sd : SReg
  la : BitVec 4
  v : BitVec 1
  aop : BitVec 5
  order : BitVec 3
  sx : BitVec 1
  lvl : BitVec 3
  width : BitVec 3
  off : Word
  deriving DecidableEq, Repr

/-- The ML form (03/R101). -/
structure ML where
  mode : BitVec 5
  sb : SReg
  sa : SReg
  acc : BitVec 4
  la : BitVec 4
  pb : BitVec 4
  fmtB : BitVec 5
  pa : BitVec 4
  fmtA : BitVec 5
  incB : BitVec 10
  incA : BitVec 10
  steps1 : BitVec 12
  deriving DecidableEq, Repr

/-- A fault in the array's step sums: element (row, col) is off by `delta` units of 2^-48 (10/R300, R303). -/
structure StepFlip where
  row : Nat
  col : Nat
  delta : Int
  deriving DecidableEq, Repr

/-- Why the checker disagreed (01/R45, R46): a value mismatch, with the lines of a mismatched load, or a result
mismatch; the pipe that produced the claim is the instruction's. -/
inductive FlushCause where
  | value (lines : List Nat)
  | result
  deriving DecidableEq, Repr

/-- A remote atomic's operation as it arrives (15/R404). -/
structure AtomicOp where
  aop : BitVec 5
  wide : Bool
  x : DWord
  c : DWord
  deriving DecidableEq, Repr

/-- What verification of a staged firmware image finds (18/R440, R442). -/
structure Image where
  role : BitVec 2
  die : BitVec 2
  version : Nat
  stateVersion : Nat
  signatureOk : Bool
  measurement : List Byte
  deriving DecidableEq, Repr

/-- The facts that come from outside the device with an event: which unit, wave, block or peer it concerns, the data
the host or a peer sends, what the physical world did. An event row reads the fields its meaning names. -/
structure Facts where
  core : CoreId := 0
  quad : QuadId := 0
  sched : BitVec 2 := 0
  wave : WaveKey := ⟨0, 0, 0, 0⟩
  launch : Nat := 0
  gang : Nat := 0
  blk : Nat := 0
  id : BitVec 4 := 0
  ctx : CtxId := 0
  queue : QueueId := 0
  port : PortId := 0
  unit : UnitId := 0
  dev : Nat := 0
  tag : BitVec 8 := 0
  num : Nat := 0
  addr : Nat := 0
  size : Nat := 0
  val : DWord := 0
  ok : Bool := true
  data : List Byte := []
  units : List (UnitId × Nat × Nat) := []
  bad : Option Nat := none
  flip : Option StepFlip := none
  flush : FlushCause := .value []
  op : AtomicOp := ⟨0, false, 0, 0⟩
  ftime : Nat := 0
  pwr : Nat := 0
  deriving DecidableEq, Repr

/-- The block the facts name. -/
def Facts.block (f : Facts) : BlockKey := ⟨f.launch, f.gang, f.blk⟩
/-- The gang the facts name. -/
def Facts.gangKey (f : Facts) : GangKey := ⟨f.launch, f.gang⟩

/-- One constructor per row of spec/opcode_table.json; each docstring names the rule the row cites. -/
inductive Instr where
  /-- SADD (R123). -/
  | sadd (sd : SReg) (sa : SReg) (sb : SReg)
  /-- SADD_LITERAL (R123). -/
  | saddLiteral (sd : SReg) (sa : SReg) (lit : DWord)
  /-- SSUB (R123). -/
  | ssub (sd : SReg) (sa : SReg) (sb : SReg)
  /-- SSUB_LITERAL (R123). -/
  | ssubLiteral (sd : SReg) (sa : SReg) (lit : DWord)
  /-- SMUL (R123). -/
  | smul (sd : SReg) (sa : SReg) (sb : SReg)
  /-- SMUL_LITERAL (R123). -/
  | smulLiteral (sd : SReg) (sa : SReg) (lit : DWord)
  /-- SMULHI (R123). -/
  | smulhi (sd : SReg) (sa : SReg) (sb : SReg)
  /-- SMULHI_LITERAL (R123). -/
  | smulhiLiteral (sd : SReg) (sa : SReg) (lit : DWord)
  /-- SMULHU (R123). -/
  | smulhu (sd : SReg) (sa : SReg) (sb : SReg)
  /-- SMULHU_LITERAL (R123). -/
  | smulhuLiteral (sd : SReg) (sa : SReg) (lit : DWord)
  /-- SDIV (R124). -/
  | sdiv (sd : SReg) (sa : SReg) (sb : SReg)
  /-- SDIV_LITERAL (R124). -/
  | sdivLiteral (sd : SReg) (sa : SReg) (lit : DWord)
  /-- SDIVU (R124). -/
  | sdivu (sd : SReg) (sa : SReg) (sb : SReg)
  /-- SDIVU_LITERAL (R124). -/
  | sdivuLiteral (sd : SReg) (sa : SReg) (lit : DWord)
  /-- SREM (R124). -/
  | srem (sd : SReg) (sa : SReg) (sb : SReg)
  /-- SREM_LITERAL (R124). -/
  | sremLiteral (sd : SReg) (sa : SReg) (lit : DWord)
  /-- SREMU (R124). -/
  | sremu (sd : SReg) (sa : SReg) (sb : SReg)
  /-- SREMU_LITERAL (R124). -/
  | sremuLiteral (sd : SReg) (sa : SReg) (lit : DWord)
  /-- SAND (R123). -/
  | sand (sd : SReg) (sa : SReg) (sb : SReg)
  /-- SAND_LITERAL (R123). -/
  | sandLiteral (sd : SReg) (sa : SReg) (lit : DWord)
  /-- SOR (R123). -/
  | sor (sd : SReg) (sa : SReg) (sb : SReg)
  /-- SOR_LITERAL (R123). -/
  | sorLiteral (sd : SReg) (sa : SReg) (lit : DWord)
  /-- SXOR (R123). -/
  | sxor (sd : SReg) (sa : SReg) (sb : SReg)
  /-- SXOR_LITERAL (R123). -/
  | sxorLiteral (sd : SReg) (sa : SReg) (lit : DWord)
  /-- SANDN (R123). -/
  | sandn (sd : SReg) (sa : SReg) (sb : SReg)
  /-- SANDN_LITERAL (R123). -/
  | sandnLiteral (sd : SReg) (sa : SReg) (lit : DWord)
  /-- SSHL (R123). -/
  | sshl (sd : SReg) (sa : SReg) (sb : SReg)
  /-- SSHL_LITERAL (R123). -/
  | sshlLiteral (sd : SReg) (sa : SReg) (lit : DWord)
  /-- SSHR (R123). -/
  | sshr (sd : SReg) (sa : SReg) (sb : SReg)
  /-- SSHR_LITERAL (R123). -/
  | sshrLiteral (sd : SReg) (sa : SReg) (lit : DWord)
  /-- SSAR (R123). -/
  | ssar (sd : SReg) (sa : SReg) (sb : SReg)
  /-- SSAR_LITERAL (R123). -/
  | ssarLiteral (sd : SReg) (sa : SReg) (lit : DWord)
  /-- SROL (R123). -/
  | srol (sd : SReg) (sa : SReg) (sb : SReg)
  /-- SROL_LITERAL (R123). -/
  | srolLiteral (sd : SReg) (sa : SReg) (lit : DWord)
  /-- SMIN (R123). -/
  | smin (sd : SReg) (sa : SReg) (sb : SReg)
  /-- SMIN_LITERAL (R123). -/
  | sminLiteral (sd : SReg) (sa : SReg) (lit : DWord)
  /-- SMAX (R123). -/
  | smax (sd : SReg) (sa : SReg) (sb : SReg)
  /-- SMAX_LITERAL (R123). -/
  | smaxLiteral (sd : SReg) (sa : SReg) (lit : DWord)
  /-- SMINU (R123). -/
  | sminu (sd : SReg) (sa : SReg) (sb : SReg)
  /-- SMINU_LITERAL (R123). -/
  | sminuLiteral (sd : SReg) (sa : SReg) (lit : DWord)
  /-- SMAXU (R123). -/
  | smaxu (sd : SReg) (sa : SReg) (sb : SReg)
  /-- SMAXU_LITERAL (R123). -/
  | smaxuLiteral (sd : SReg) (sa : SReg) (lit : DWord)
  /-- SADDC (R123). -/
  | saddc (sd : SReg) (sa : SReg) (sb : SReg)
  /-- SADDC_LITERAL (R123). -/
  | saddcLiteral (sd : SReg) (sa : SReg) (lit : DWord)
  /-- SCMP (R127). -/
  | scmp (c : BitVec 3) (sa : SReg) (sb : SReg)
  /-- SCMP_LITERAL (R127). -/
  | scmpLiteral (c : BitVec 3) (sa : SReg) (lit : DWord)
  /-- SCMPN (R127). -/
  | scmpn (c : BitVec 3) (sa : SReg) (sb : SReg)
  /-- SCMPN_LITERAL (R127). -/
  | scmpnLiteral (c : BitVec 3) (sa : SReg) (lit : DWord)
  /-- SSEL (R127). -/
  | ssel (sd : SReg) (sa : SReg) (sb : SReg)
  /-- SSEL_LITERAL (R127). -/
  | sselLiteral (sd : SReg) (sa : SReg) (lit : DWord)
  /-- SMOV (R128). -/
  | smov (sd : SReg) (sa : SReg)
  /-- SLI (R128). -/
  | sli (sd : SReg) (imm : BitVec 9)
  /-- SLI_LITERAL (R128). -/
  | sliLiteral (sd : SReg) (lit : DWord)
  /-- SLID (R128). -/
  | slid (sd : SReg) (lit : DWord)
  /-- SADDI (R128). -/
  | saddi (sd : SReg) (sa : SReg) (imm : BitVec 9)
  /-- SBFE (R125). -/
  | sbfe (sd : SReg) (sa : SReg) (sb : SReg)
  /-- SBFE_LITERAL (R125). -/
  | sbfeLiteral (sd : SReg) (sa : SReg) (lit : DWord)
  /-- SBFI (R125). -/
  | sbfi (sd : SReg) (sa : SReg) (sb : SReg)
  /-- SBFI_LITERAL (R125). -/
  | sbfiLiteral (sd : SReg) (sa : SReg) (lit : DWord)
  /-- SPOP (R126). -/
  | spop (sd : SReg) (sa : SReg)
  /-- SCLZ (R126). -/
  | sclz (sd : SReg) (sa : SReg)
  /-- SCTZ (R126). -/
  | sctz (sd : SReg) (sa : SReg)
  /-- SBREV (R126). -/
  | sbrev (sd : SReg) (sa : SReg)
  /-- SADDD (R129). -/
  | saddd (sd : SReg) (sa : SReg) (sb : SReg)
  /-- SADDD_LITERAL (R129). -/
  | sadddLiteral (sd : SReg) (sa : SReg) (lit : DWord)
  /-- SSUBD (R129). -/
  | ssubd (sd : SReg) (sa : SReg) (sb : SReg)
  /-- SSUBD_LITERAL (R129). -/
  | ssubdLiteral (sd : SReg) (sa : SReg) (lit : DWord)
  /-- SMULD (R129). -/
  | smuld (sd : SReg) (sa : SReg) (sb : SReg)
  /-- SMULD_LITERAL (R129). -/
  | smuldLiteral (sd : SReg) (sa : SReg) (lit : DWord)
  /-- SSHLD (R129). -/
  | sshld (sd : SReg) (sa : SReg) (sb : SReg)
  /-- SSHLD_LITERAL (R129). -/
  | sshldLiteral (sd : SReg) (sa : SReg) (lit : DWord)
  /-- SSHRD (R129). -/
  | sshrd (sd : SReg) (sa : SReg) (sb : SReg)
  /-- SSHRD_LITERAL (R129). -/
  | sshrdLiteral (sd : SReg) (sa : SReg) (lit : DWord)
  /-- SCMPD (R129). -/
  | scmpd (c : BitVec 3) (sa : SReg) (sb : SReg)
  /-- SCMPD_LITERAL (R129). -/
  | scmpdLiteral (c : BitVec 3) (sa : SReg) (lit : DWord)
  /-- BR (R132). -/
  | br (disp : BitVec 21)
  /-- BSC (R132). -/
  | bsc (disp : BitVec 21)
  /-- BSNC (R132). -/
  | bsnc (disp : BitVec 21)
  /-- BEZ (R132). -/
  | bez (sa : SReg) (disp : BitVec 15)
  /-- BNZ (R132). -/
  | bnz (sa : SReg) (disp : BitVec 15)
  /-- BEXZ (R132). -/
  | bexz (disp : BitVec 21)
  /-- BEXNZ (R132). -/
  | bexnz (disp : BitVec 21)
  /-- BCMZ (R132). -/
  | bcmz (disp : BitVec 21)
  /-- BCMNZ (R132). -/
  | bcmnz (disp : BitVec 21)
  /-- JMPR (R133). -/
  | jmpr (sa : SReg)
  /-- CALL (R135). -/
  | call (la : BitVec 4) (f : BitVec 8) (disp : Word)
  /-- CALLR (R135). -/
  | callr (sa : SReg) (imm : BitVec 9)
  /-- RET (R136). -/
  | ret (imm : BitVec 9)
  /-- TRAP (R151). -/
  | trap (imm : BitVec 9)
  /-- SRD (R141). -/
  | srd (sd : SReg) (imm : BitVec 9)
  /-- SWR (R141). -/
  | swr (sa : SReg) (imm : BitVec 9)
  /-- MAND (R130). -/
  | mand (sd : SReg)
  /-- MANDN (R130). -/
  | mandn (sd : SReg)
  /-- MELSE (R130). -/
  | melse (sa : SReg)
  /-- MREST (R130). -/
  | mrest (sa : SReg)
  /-- MCNT (R130). -/
  | mcnt (sd : SReg)
  /-- MFIRST (R130). -/
  | mfirst (sd : SReg)
  /-- SLD (R238). -/
  | sld (sd : SReg) (sa : SReg) (imm : BitVec 9)
  /-- SLD_MS (R238). -/
  | sldMs (m : MS)
  /-- SLD_OFFSET64 (R102). -/
  | sldOffset64 (m : MS) (lit : DWord)
  /-- SST (R238). -/
  | sst (sd : SReg) (sa : SReg) (imm : BitVec 9)
  /-- SST_MS (R238). -/
  | sstMs (m : MS)
  /-- SST_OFFSET64 (R102). -/
  | sstOffset64 (m : MS) (lit : DWord)
  /-- SATOM (R242). -/
  | satom (m : MS)
  /-- SATOM_OFFSET64 (R102). -/
  | satomOffset64 (m : MS) (lit : DWord)
  /-- XLD (R226). -/
  | xld (xt : BitVec 3) (sa : SReg)
  /-- XINV (R227). -/
  | xinv (xt : BitVec 3)
  /-- COMMIT (R205). -/
  | commit (lvl : BitVec 3)
  /-- ABORT (R209). -/
  | abort (lvl : BitVec 3)
  /-- MARK (R211). -/
  | mark (lvl : BitVec 3)
  /-- ACQ (R220). -/
  | acq (lvl : BitVec 3)
  /-- FENCE (R220). -/
  | fence (lvl : BitVec 3)
  /-- CFL (R249). -/
  | cfl (sd : SReg) (sa : SReg) (sb : SReg)
  /-- CIV (R249). -/
  | civ (sd : SReg) (sa : SReg) (sb : SReg)
  /-- CWB (R249). -/
  | cwb (sd : SReg) (sa : SReg) (sb : SReg)
  /-- ICI (R252). -/
  | ici (sd : SReg) (sa : SReg) (sb : SReg)
  /-- BAR_SYNC (R257). -/
  | barSync (c : BitVec 1) (n : BitVec 5) (id : BitVec 4)
  /-- BAR_ARRIVE (R257). -/
  | barArrive (n : BitVec 5) (id : BitVec 4)
  /-- GONG_ARRIVE (R261). -/
  | gongArrive (tag : BitVec 3)
  /-- GONG_WAIT (R261). -/
  | gongWait (tag : BitVec 3)
  /-- MB_INIT (R265). -/
  | mbInit (sa : SReg) (sb : SReg)
  /-- MB_INIT_LITERAL (R265). -/
  | mbInitLiteral (sa : SReg) (lit : DWord)
  /-- MB_ARRIVE (R266). -/
  | mbArrive (sa : SReg) (sb : SReg)
  /-- MB_ARRIVE_LITERAL (R266). -/
  | mbArriveLiteral (sa : SReg) (lit : DWord)
  /-- MB_WAIT (R267). -/
  | mbWait (sd : SReg) (sa : SReg) (sb : SReg)
  /-- MB_WAIT_LITERAL (R267). -/
  | mbWaitLiteral (sd : SReg) (sa : SReg) (lit : DWord)
  /-- MB_TEST (R267). -/
  | mbTest (sd : SReg) (sa : SReg)
  /-- QPUSH (R270). -/
  | qpush (q : BitVec 3) (sa : SReg)
  /-- QPOP (R270). -/
  | qpop (q : BitVec 3) (sd : SReg)
  /-- QTRY (R270). -/
  | qtry (q : BitVec 3) (sd : SReg)
  /-- CPKICK (R279). -/
  | cpkick (sa : SReg)
  /-- CPSEAL (R280). -/
  | cpseal (sd : SReg)
  /-- CPWAIT (R280). -/
  | cpwait (sb : SReg)
  /-- CPWAIT_LITERAL (R280). -/
  | cpwaitLiteral (lit : DWord)
  /-- CPTEST (R280). -/
  | cptest (sb : SReg)
  /-- CPTEST_LITERAL (R280). -/
  | cptestLiteral (lit : DWord)
  /-- LNCH (R332). -/
  | lnch (sa : SReg) (sb : SReg)
  /-- SNAP (R388). -/
  | snap (sd : SReg) (sa : SReg) (sb : SReg)
  /-- SNAP_LITERAL (R388). -/
  | snapLiteral (sd : SReg) (sa : SReg) (lit : DWord)
  /-- SACC (R389). -/
  | sacc (sa : SReg)
  /-- SREJ (R390). -/
  | srej (sa : SReg)
  /-- SQRY (R393). -/
  | sqry (sd : SReg) (sa : SReg)
  /-- MLOOP (R305). -/
  | mloop (m : ML)
  /-- MWAIT (R307). -/
  | mwait (acc : BitVec 4)
  /-- ACZ (R307). -/
  | acz (acc : BitVec 4)
  /-- ACREL (R308). -/
  | acrel (acc : BitVec 4)
  /-- ACLD (R310). -/
  | acld (acc : BitVec 4) (sa : SReg)
  /-- ACST (R311). -/
  | acst (acc : BitVec 4) (sa : SReg)
  /-- ACRD (R312). -/
  | acrd (x : VX)
  /-- ACWR (R313). -/
  | acwr (x : VX)
  /-- VADD (R159). -/
  | vadd (vd : BitVec 7) (va : BitVec 7) (vb : BitVec 7)
  /-- VADD_VX (R159). -/
  | vaddVx (x : VX)
  /-- VSUB (R159). -/
  | vsub (vd : BitVec 7) (va : BitVec 7) (vb : BitVec 7)
  /-- VSUB_VX (R159). -/
  | vsubVx (x : VX)
  /-- VMUL (R159). -/
  | vmul (vd : BitVec 7) (va : BitVec 7) (vb : BitVec 7)
  /-- VMUL_VX (R159). -/
  | vmulVx (x : VX)
  /-- VFMA (R159). -/
  | vfma (vd : BitVec 7) (va : BitVec 7) (vb : BitVec 7)
  /-- VFMA_VX (R159). -/
  | vfmaVx (x : VX)
  /-- VMAD (R159). -/
  | vmad (vd : BitVec 7) (va : BitVec 7) (vb : BitVec 7)
  /-- VMAD_VX (R159). -/
  | vmadVx (x : VX)
  /-- VMULHI (R159). -/
  | vmulhi (vd : BitVec 7) (va : BitVec 7) (vb : BitVec 7)
  /-- VMULHI_VX (R159). -/
  | vmulhiVx (x : VX)
  /-- VMIN (R160). -/
  | vmin (vd : BitVec 7) (va : BitVec 7) (vb : BitVec 7)
  /-- VMIN_VX (R160). -/
  | vminVx (x : VX)
  /-- VMAX (R160). -/
  | vmax (vd : BitVec 7) (va : BitVec 7) (vb : BitVec 7)
  /-- VMAX_VX (R160). -/
  | vmaxVx (x : VX)
  /-- VABS (R160). -/
  | vabs (vd : BitVec 7) (va : BitVec 7)
  /-- VABS_VX (R160). -/
  | vabsVx (x : VX)
  /-- VNEG (R160). -/
  | vneg (vd : BitVec 7) (va : BitVec 7)
  /-- VNEG_VX (R160). -/
  | vnegVx (x : VX)
  /-- VCMP (R161). -/
  | vcmp (c : BitVec 7) (va : BitVec 7) (vb : BitVec 7)
  /-- VCMP_VX (R161). -/
  | vcmpVx (x : VX)
  /-- VSEL (R162). -/
  | vsel (vd : BitVec 7) (va : BitVec 7) (vb : BitVec 7)
  /-- VSEL_VX (R162). -/
  | vselVx (x : VX)
  /-- VMOV (R163). -/
  | vmov (vd : BitVec 7) (va : BitVec 7)
  /-- VMOV_VX (R163). -/
  | vmovVx (x : VX)
  /-- VAND (R163). -/
  | vand (vd : BitVec 7) (va : BitVec 7) (vb : BitVec 7)
  /-- VAND_VX (R163). -/
  | vandVx (x : VX)
  /-- VOR (R163). -/
  | vor (vd : BitVec 7) (va : BitVec 7) (vb : BitVec 7)
  /-- VOR_VX (R163). -/
  | vorVx (x : VX)
  /-- VXOR (R163). -/
  | vxor (vd : BitVec 7) (va : BitVec 7) (vb : BitVec 7)
  /-- VXOR_VX (R163). -/
  | vxorVx (x : VX)
  /-- VANDN (R163). -/
  | vandn (vd : BitVec 7) (va : BitVec 7) (vb : BitVec 7)
  /-- VANDN_VX (R163). -/
  | vandnVx (x : VX)
  /-- VSHL (R163). -/
  | vshl (vd : BitVec 7) (va : BitVec 7) (vb : BitVec 7)
  /-- VSHL_VX (R163). -/
  | vshlVx (x : VX)
  /-- VSHR (R163). -/
  | vshr (vd : BitVec 7) (va : BitVec 7) (vb : BitVec 7)
  /-- VSHR_VX (R163). -/
  | vshrVx (x : VX)
  /-- VSAR (R163). -/
  | vsar (vd : BitVec 7) (va : BitVec 7) (vb : BitVec 7)
  /-- VSAR_VX (R163). -/
  | vsarVx (x : VX)
  /-- VPOP (R163). -/
  | vpop (vd : BitVec 7) (va : BitVec 7)
  /-- VPOP_VX (R163). -/
  | vpopVx (x : VX)
  /-- VCLZ (R163). -/
  | vclz (vd : BitVec 7) (va : BitVec 7)
  /-- VCLZ_VX (R163). -/
  | vclzVx (x : VX)
  /-- VBFE (R163). -/
  | vbfe (x : VX)
  /-- VBFI (R163). -/
  | vbfi (x : VX)
  /-- VMOVS (R164). -/
  | vmovs (vd : BitVec 7) (sb : SReg)
  /-- VMOVS_LITERAL (R164). -/
  | vmovsLiteral (vd : BitVec 7) (lit : DWord)
  /-- VLANE (R164). -/
  | vlane (vd : BitVec 7)
  /-- VCVT (R166). -/
  | vcvt (x : VX)
  /-- VTAG (R167). -/
  | vtag (x : VX)
  /-- VDOT (R168). -/
  | vdot (x : VX)
  /-- VRED (R169). -/
  | vred (x : VX)
  /-- VSHFL (R171). -/
  | vshfl (x : VX)
  /-- VBCAST (R172). -/
  | vbcast (x : VX)
  /-- VGETL (R173). -/
  | vgetl (sd : SReg) (va : BitVec 7) (sb : SReg)
  /-- VGETL_LITERAL (R173). -/
  | vgetlLiteral (sd : SReg) (va : BitVec 7) (lit : DWord)
  /-- VSETL (R173). -/
  | vsetl (vd : BitVec 7) (sa : SReg) (sb : SReg)
  /-- VSETL_LITERAL (R173). -/
  | vsetlLiteral (vd : BitVec 7) (sa : SReg) (lit : DWord)
  /-- VRCP (R174). -/
  | vrcp (vd : BitVec 7) (va : BitVec 7)
  /-- VRCP_VX (R174). -/
  | vrcpVx (x : VX)
  /-- VRSQ (R174). -/
  | vrsq (vd : BitVec 7) (va : BitVec 7)
  /-- VRSQ_VX (R174). -/
  | vrsqVx (x : VX)
  /-- VSQRT (R174). -/
  | vsqrt (vd : BitVec 7) (va : BitVec 7)
  /-- VSQRT_VX (R174). -/
  | vsqrtVx (x : VX)
  /-- VEXP2 (R174). -/
  | vexp2 (vd : BitVec 7) (va : BitVec 7)
  /-- VEXP2_VX (R174). -/
  | vexp2Vx (x : VX)
  /-- VLOG2 (R174). -/
  | vlog2 (vd : BitVec 7) (va : BitVec 7)
  /-- VLOG2_VX (R174). -/
  | vlog2Vx (x : VX)
  /-- VSINPI (R174). -/
  | vsinpi (vd : BitVec 7) (va : BitVec 7)
  /-- VSINPI_VX (R174). -/
  | vsinpiVx (x : VX)
  /-- VCOSPI (R174). -/
  | vcospi (vd : BitVec 7) (va : BitVec 7)
  /-- VCOSPI_VX (R174). -/
  | vcospiVx (x : VX)
  /-- VTANH (R174). -/
  | vtanh (vd : BitVec 7) (va : BitVec 7)
  /-- VTANH_VX (R174). -/
  | vtanhVx (x : VX)
  /-- VLD (R236). -/
  | vld (m : MX)
  /-- VLD_OFFSET64 (R102). -/
  | vldOffset64 (m : MX) (lit : DWord)
  /-- VST (R237). -/
  | vst (m : MX)
  /-- VST_OFFSET64 (R102). -/
  | vstOffset64 (m : MX) (lit : DWord)
  /-- VATOM (R242). -/
  | vatom (m : MX)
  /-- VATOM_OFFSET64 (R102). -/
  | vatomOffset64 (m : MX) (lit : DWord)
  /-- UNASSIGNED_OPCODE (R107). -/
  | unassignedOpcode (w : Word)
  /-- BRK (R151). -/
  | brk
  /-- TRET (R152). -/
  | tret
  /-- NOP (R139). -/
  | nop
  /-- WEND (R140). -/
  | wend
  /-- YIELD (R139). -/
  | yield
  /-- FBAR (R253). -/
  | fbar
  /-- MCMC (R130). -/
  | mcmc
  /-- MSETALL (R130). -/
  | msetall
  /-- COMMIT_B_V (R208). -/
  | commitBV
  /-- YIELD_RESUME (R139). -/
  | yieldResume
  /-- WALKER_LINE (R251). -/
  | walkerLine
  /-- BARRIER_RELEASE (R258). -/
  | barrierRelease
  /-- GONG_RELEASE (R261). -/
  | gongRelease
  /-- MB_WAIT_TIMEOUT (R267). -/
  | mbWaitTimeout
  /-- COPY_REQUEST_FETCH (R277). -/
  | copyRequestFetch
  /-- COPY_LINE_TRANSFER (R273). -/
  | copyLineTransfer
  /-- COPY_REQUEST_END (R277). -/
  | copyRequestEnd
  /-- SNAPSHOT_RESTORE_COMPLETE (R392). -/
  | snapshotRestoreComplete
  /-- POOL_WRITER_PROCEED (R387). -/
  | poolWriterProceed
  /-- LOOP_START (R296). -/
  | loopStart
  /-- K_STEP (R305). -/
  | kStep
  /-- ROW_CHECK_VERDICT (R300). -/
  | rowCheckVerdict
  /-- CHECKER_ONLY_STEP (R302). -/
  | checkerOnlyStep
  /-- LOOP_END (R305). -/
  | loopEnd
  /-- FLUSH (R40). -/
  | flush
  /-- CHECKER_ONLY_MODE (R47). -/
  | checkerOnlyMode
  /-- WATCHDOG (R195). -/
  | watchdog
  /-- WAVE_STARVED (R342). -/
  | waveStarved
  /-- STACK_CACHE_WRITEBACK (R190). -/
  | stackCacheWriteback
  /-- BLOCK_DISPATCH (R183). -/
  | blockDispatch
  /-- GANG_START (R336). -/
  | gangStart
  /-- BLOCK_RETIREMENT (R188). -/
  | blockRetirement
  /-- LAUNCH_COMPLETION (R326). -/
  | launchCompletion
  /-- LAUNCH_ACCEPT (R324). -/
  | launchAccept
  /-- DEPENDENCE_EVALUATION (R325). -/
  | dependenceEvaluation
  /-- GONG_TAG_GRANT (R333). -/
  | gongTagGrant
  /-- CANDIDATE_AGED (R337). -/
  | candidateAged
  /-- PRIORITY_PREEMPTION (R343). -/
  | priorityPreemption
  /-- GANG_SAVE (R344). -/
  | gangSave
  /-- GANG_RESTORE (R346). -/
  | gangRestore
  /-- POWER_ESTIMATE (R339). -/
  | powerEstimate
  /-- THROTTLE_CHANGE (R450). -/
  | throttleChange
  /-- THERMAL_SHUTDOWN (R450). -/
  | thermalShutdown
  /-- PARK_RESUME (R362). -/
  | parkResume
  /-- PARK_KILL (R362). -/
  | parkKill
  /-- SHOOTDOWN_RANGE (R360). -/
  | shootdownRange
  /-- SHOOTDOWN_CONTEXT (R360). -/
  | shootdownContext
  /-- SHOOTDOWN_RBT (R360). -/
  | shootdownRbt
  /-- DEVICE_FLUSH (R375). -/
  | deviceFlush
  /-- DIRECTORY_RECOVERY (R372). -/
  | directoryRecovery
  /-- POOLSIZE_WRITE (R385). -/
  | poolsizeWrite
  /-- CONTEXT_CREATE (R439). -/
  | contextCreate
  /-- CONTEXT_SWITCH_OUT (R343). -/
  | contextSwitchOut
  /-- CONTEXT_SWITCH_IN (R439). -/
  | contextSwitchIn
  /-- CONTEXT_KILL (R394). -/
  | contextKill
  /-- QTAIL_WRITE (R331). -/
  | qtailWrite
  /-- QSTAT_SKIP (R330). -/
  | qstatSkip
  /-- QSTAT_RETRY (R330). -/
  | qstatRetry
  /-- ERHEAD_WRITE (R396). -/
  | erheadWrite
  /-- ERSIZE_WRITE (R396). -/
  | ersizeWrite
  /-- TRHEAD_WRITE (R448). -/
  | trheadWrite
  /-- TRACE_SYNC (R449). -/
  | traceSync
  /-- WAVE_SAMPLE (R446). -/
  | waveSample
  /-- LINK_REPLAY (R400). -/
  | linkReplay
  /-- PORT_RETRAIN (R400). -/
  | portRetrain
  /-- REMOTE_WRITE_ARRIVAL (R401). -/
  | remoteWriteArrival
  /-- REMOTE_WRITE_ACK (R406). -/
  | remoteWriteAck
  /-- REMOTE_ATOMIC_ARRIVAL (R404). -/
  | remoteAtomicArrival
  /-- REMOTE_ATOMIC_RESPONSE (R404). -/
  | remoteAtomicResponse
  /-- ATOMIC_RESEND (R405). -/
  | atomicResend
  /-- ATOMIC_TABLE_EXPIRY (R404). -/
  | atomicTableExpiry
  /-- RETRY_WINDOW_EXPIRY (R405). -/
  | retryWindowExpiry
  /-- ROUTES_DOWN_TIMEOUT (R408). -/
  | routesDownTimeout
  /-- LOSTSET_WRITE (R408). -/
  | lostsetWrite
  /-- DEBUG_HALT (R412). -/
  | debugHalt
  /-- DEBUG_RESUME (R412). -/
  | debugResume
  /-- FIRMWARE_STAGE (R442). -/
  | firmwareStage
  /-- FIRMWARE_SWAP (R442). -/
  | firmwareSwap
  /-- FIRMWARE_ABANDON (R442). -/
  | firmwareAbandon
  /-- HANDOVER_SAFE_POINT (R442). -/
  | handoverSafePoint
  /-- FIRMWARE_HEARTBEAT (R442). -/
  | firmwareHeartbeat
  /-- HEARTBEAT_MISSED (R442). -/
  | heartbeatMissed
  /-- PROBATION_END (R442). -/
  | probationEnd
  /-- COLD_RESET (R441). -/
  | coldReset
  /-- WARM_RESET (R18). -/
  | warmReset
  /-- ATTESTATION (R444). -/
  | attestation
  /-- UNITCMD_RETEST (R431). -/
  | unitcmdRetest
  /-- UNITCMD_READMIT (R431). -/
  | unitcmdReadmit
  /-- UNITCMD_FENCE (R431). -/
  | unitcmdFence
  /-- UNITCMD_STRONG_CODE (R432). -/
  | unitcmdStrongCode
  /-- UNITCMD_SECDED (R432). -/
  | unitcmdSecded
  /-- HOURLY_HALVING (R426). -/
  | hourlyHalving
  /-- BIN_CHANGE (R428). -/
  | binChange
  /-- BIST_COMPLETE (R429). -/
  | bistComplete
  /-- READMISSION (R429). -/
  | readmission
  /-- SCRUB_SWEEP (R432). -/
  | scrubSweep
  /-- MMS_REFRESH (R378). -/
  | mmsRefresh
  /-- HOST_COHERENT_WRITE (R395). -/
  | hostCoherentWrite
  /-- HOST_COHERENT_READ (R395). -/
  | hostCoherentRead
  /-- REGISTER_WRITE (R19). -/
  | registerWrite
  /-- INSTRUCTION_FETCH_FAILURE (R108). -/
  | instructionFetchFailure
  /-- REMOTE_READ_ARRIVAL (R399). -/
  | remoteReadArrival
  /-- RESPONSE_ACK_ARRIVAL (R404). -/
  | responseAckArrival
  /-- RESPONSE_ACK_DEADLINE (R404). -/
  | responseAckDeadline
  /-- WRITE_RESEND (R401). -/
  | writeResend
  /-- RETRAINING_COMPLETE (R400). -/
  | retrainingComplete
  /-- ROUTE_RETURN (R400). -/
  | routeReturn
  deriving DecidableEq, Repr

end Sys2Proof
end

