-- ==== Sys2Proof/WellFormed.lean ====
section
/-! DEFINITION. Well-formedness: the checks of step 3 of 03/R108 that the encoding alone decides, whatever the state
and the tags: field ranges, pair indices, uses of a field that the opcode map does not list (03/R94 to R106, 05/R157,
08/R231, R241, R243). An instruction that fails raises ILLOP. Event rows have no encoding and are well-formed. -/

namespace Sys2Proof

/-- A field that names a pair holds an even index (03/R103). -/
def evenReg {n : Nat} (r : BitVec n) : Bool := r.toNat % 2 == 0
/-- The high half of a 32-bit literal is zero (03/R95). -/
def litWord (l : DWord) : Bool := l.hi == 0#32
/-- A condition code 0 to 5 (03/R105). -/
def condOk {n : Nat} (c : BitVec n) : Bool := decide (c.toNat ≤ 5)
/-- A field that names three consecutive scalar registers holds 61 or less (03/R103). -/
def tripleOk (r : SReg) : Bool := decide (r.toNat ≤ 61)
/-- `imm9` of CALLR, RET is F / 8, 0 to 31 (03/R105). -/
def slideOk (i : BitVec 9) : Bool := decide (i.toNat ≤ 31)

/-- Which fields of the VX form an opcode uses by the encoding alone (03/R97, R106, 05/R157). -/
structure VXUse where
  vd : Bool := true
  va : Bool := true
  vb : Bool := false
  vc : Bool := false
  imm : Bool := false
  i : Bool := false
  f : Bool := false
  rnd : Bool := false
  sat : Bool := false
  rfmt : Bool := false
  bov : Bool := false

/-- Every field the opcode does not use is zero; with I = 1 imm32 takes the place of vb (03/R94, R97). -/
def VX.uses (x : VX) (u : VXUse) : Bool :=
  (u.vd || x.vd == 0#8) && (u.va || x.va == 0#8) && (u.vb || x.vb == 0#8) && (u.vc || x.vc == 0#8) &&
  (u.i || x.i == 0#1) && (x.i == 0#1 || x.vb == 0#8) && (u.imm || x.i == 1#1 || x.imm == 0#32) &&
  (u.f || x.f == 0#4) && (u.rnd || x.rnd == 0#2) && (u.sat || x.sat == 0#1) && (u.rfmt || x.rfmt == 0#5) &&
  (u.bov || x.bov == 0#4)

/-- A shuffle or broadcast width (03/R106). -/
def widthOk (w : Nat) : Bool := w == 8 || w == 16 || w == 32 || w == 96
/-- imm32 bits 7:0: the width of a lane exchange. -/
def VX.width (x : VX) : Nat := (x.imm.extractLsb' 0 8).toNat
/-- imm32 bits 15:8: the delta or source lane. -/
def VX.delta (x : VX) : Nat := (x.imm.extractLsb' 8 8).toNat

/-- VSHFL's fields (03/R106, 05/R171). -/
def VX.shflOk (x : VX) : Bool :=
  x.uses { vb := x.f == 0#4, imm := true, f := true } && x.imm.extractLsb' 16 16 == 0#16 &&
  decide (x.f.toNat ≤ 3) && widthOk x.width &&
  (if x.f = 0#4 then x.delta == 0 else decide (0 < x.delta ∧ x.delta < x.width))

/-- VBCAST's fields (03/R106, 05/R172). -/
def VX.bcastOk (x : VX) : Bool :=
  x.uses { imm := true } && x.imm.extractLsb' 16 16 == 0#16 && widthOk x.width && decide (x.delta < x.width)

/-- Offset 4:0 and width 12:8 of VBFE and VBFI; other bits zero (05/R163). -/
def VX.bitFieldOk (x : VX) : Bool :=
  x.uses { imm := true } && x.imm.extractLsb' 5 3 == 0#3 && x.imm.extractLsb' 13 19 == 0#19

/-- VCVT: rfmt 0 (B32) is ILLOP; rnd 00 into a tapered format (05/R165, 02/R72). -/
def VX.cvtOk (x : VX) : Bool :=
  x.uses { vc := true, rnd := true, sat := true, rfmt := true, bov := true } && x.rfmt != 0#5 &&
  (!(x.rfmt == 0x0A#5 || x.rfmt == 0x0B#5) || x.rnd == 0#2)

/-- VRED: F is an operator 0 to 5; rnd and sat only on ADD (05/R157, R169). -/
def VX.redOk (x : VX) : Bool :=
  x.uses { f := true, rnd := x.f == 0#4, sat := x.f == 0#4, bov := true } && decide (x.f.toNat ≤ 5)

/-- Which of the memory instructions a word 1 belongs to. -/
inductive MemKind where
  | load | store | atomic
  deriving DecidableEq, Repr

/-- The atomic operation codes of 03/R98. -/
def aopOk (a : BitVec 5) : Bool := decide (a.toNat ≤ 0x0A) || (decide (0x10 ≤ a.toNat) && decide (a.toNat ≤ 0x17)) || a == 0x1A#5
/-- The update-only forms (03/R98). -/
def updateOnly (a : BitVec 5) : Bool := decide (0x10 ≤ a.toNat)
/-- CAS. -/
def isCas (a : BitVec 5) : Bool := a == 0x09#5

/-- The checks on word 1 of MX and MS (03/R98, 08/R218, R231, R241, R243). -/
def memWordOk (k : MemKind) (as : BitVec 2) (v : BitVec 1) (aop : BitVec 5) (order : BitVec 3) (sx : BitVec 1)
    (lvl width : BitVec 3) : Bool :=
  decide (as.toNat ≤ 1) && lvl != 7#3 && decide (width.toNat ≤ 4) && decide (order.toNat ≤ 4) &&
  (order != 4#3 || decide (3 ≤ lvl.toNat)) &&
  (match k with
   | .load => v == 0#1 && aop == 0#5 && (sx == 0#1 || decide (width.toNat ≤ 1)) && order != 2#3 && order != 3#3
   | .store => v == 0#1 && aop == 0#5 && sx == 0#1 && order != 1#3 && order != 3#3
   | .atomic =>
     sx == 0#1 && aopOk aop && (width == 2#3 || width == 3#3) &&
     (!updateOnly aop || (v == 0#1 && as == 0#2 && (lvl == 3#3 || lvl == 4#3) && (order == 0#3 || order == 2#3) &&
        (aop != 0x1A#5 || width == 2#3))))

/-- A vector memory instruction (08/R231, R242): xt zero for local, data registers aligned to the width. -/
def MX.ok (m : MX) (k : MemKind) : Bool :=
  memWordOk k m.as m.v m.aop m.order m.sx m.lvl m.width && (m.as == 0#2 || m.xt == 0#3) &&
  (if k = .atomic then
     (if isCas m.aop then m.vt.toNat % (if m.width = 3#3 then 4 else 2) == 0
      else m.width != 3#3 || m.vt.toNat % 2 == 0)
   else (m.width != 3#3 || m.vt.toNat % 2 == 0) && (m.width != 4#3 || m.vt.toNat % 4 == 0))

/-- A scalar memory instruction in MS form (03/R99, 08/R231, R238, R242). -/
def MS.ok (m : MS) (k : MemKind) : Bool :=
  memWordOk k m.as m.v m.aop m.order m.sx m.lvl m.width && m.width != 4#3 && (m.as != 0#2 || evenReg m.sa) &&
  (m.width != 3#3 || evenReg m.sd) &&
  (if k = .atomic then (m.width != 3#3 || evenReg m.sb) && (m.v == 1#1 || isCas m.aop || m.sd == 0#6)
   else m.sb == 0#6)

/-- MLOOP's mode and plane counts (03/R101, 10/R304). -/
def ML.ok (m : ML) : Bool :=
  m.mode.extractLsb' 4 1 == 0#1 && m.mode.extractLsb' 0 2 != 3#2 &&
  (m.mode.extractLsb' 3 1 == 0#1 || (m.fmtA == 0#5 && m.fmtB == 0#5)) &&
  decide (1 ≤ m.pa.toNat ∧ m.pa.toNat ≤ 8) && decide (1 ≤ m.pb.toNat ∧ m.pb.toNat ≤ 8)

/-- An OP that the opcode map assigns on pipe `p`, with the LEN values it lists (03/R105, R106, R107). -/
def lenListed (p op len : Nat) : Bool :=
  if p = 0 then
    (len == 0 && (decide (op ≤ 0x26) || op == 0x28 || (decide (0x40 ≤ op) && decide (op ≤ 0x57) && op != 0x49) ||
      (decide (0x60 ≤ op) && decide (op ≤ 0x67)) || op == 0x80 || op == 0x81 || op == 0x83 || op == 0x84 ||
      (decide (0x90 ≤ op) && decide (op ≤ 0xA6)) || (decide (0xB0 ≤ op) && decide (op ≤ 0xB3)) ||
      (decide (0xC1 ≤ op) && decide (op ≤ 0xC5)))) ||
    (len == 2 && (decide (op ≤ 0x17) || op == 0x19 || op == 0x1A || op == 0x1B || (decide (0x20 ≤ op) && decide (op ≤ 0x27)) ||
      op == 0x9C || op == 0x9D || op == 0x9E || op == 0xA5 || op == 0xA6 || op == 0xB0)) ||
    (len == 1 && (op == 0x49 || op == 0x80 || op == 0x81 || op == 0x82 || op == 0xC0)) ||
    (len == 3 && (op == 0x80 || op == 0x81 || op == 0x82))
  else
    (len == 0 && (decide (op ≤ 0x14) || op == 0x17 || op == 0x18 || op == 0x1C || op == 0x22 || op == 0x23 ||
      (decide (0x30 ≤ op) && decide (op ≤ 0x37)))) ||
    (len == 1 && ((decide (op ≤ 0x1D) && op != 0x0D && op != 0x1C) || op == 0x20 || op == 0x21 ||
      (decide (0x30 ≤ op) && decide (op ≤ 0x37)) || (decide (0x40 ≤ op) && decide (op ≤ 0x42)) || op == 0x50 || op == 0x51)) ||
    (len == 2 && (op == 0x0D || op == 0x22 || op == 0x23)) ||
    (len == 3 && decide (0x40 ≤ op) && decide (op ≤ 0x42))

/-- LEN, P and OP of a word 0 (03/R91). -/
def wordLen (w : Word) : Nat := (w.extractLsb' 0 2).toNat
@[inherit_doc wordLen] def wordP (w : Word) : Nat := (w.extractLsb' 2 1).toNat
@[inherit_doc wordLen] def wordOp (w : Word) : Nat := (w.extractLsb' 3 8).toNat

/-- The check of 03/R108 step 3 for each row. -/
def Instr.wellFormed : Instr → Bool
  | .sadd _ _ _ => true
  | .saddLiteral _ _ lit => litWord lit
  | .ssub _ _ _ => true
  | .ssubLiteral _ _ lit => litWord lit
  | .smul _ _ _ => true
  | .smulLiteral _ _ lit => litWord lit
  | .smulhi _ _ _ => true
  | .smulhiLiteral _ _ lit => litWord lit
  | .smulhu _ _ _ => true
  | .smulhuLiteral _ _ lit => litWord lit
  | .sdiv _ _ _ => true
  | .sdivLiteral _ _ lit => litWord lit
  | .sdivu _ _ _ => true
  | .sdivuLiteral _ _ lit => litWord lit
  | .srem _ _ _ => true
  | .sremLiteral _ _ lit => litWord lit
  | .sremu _ _ _ => true
  | .sremuLiteral _ _ lit => litWord lit
  | .sand _ _ _ => true
  | .sandLiteral _ _ lit => litWord lit
  | .sor _ _ _ => true
  | .sorLiteral _ _ lit => litWord lit
  | .sxor _ _ _ => true
  | .sxorLiteral _ _ lit => litWord lit
  | .sandn _ _ _ => true
  | .sandnLiteral _ _ lit => litWord lit
  | .sshl _ _ _ => true
  | .sshlLiteral _ _ lit => litWord lit
  | .sshr _ _ _ => true
  | .sshrLiteral _ _ lit => litWord lit
  | .ssar _ _ _ => true
  | .ssarLiteral _ _ lit => litWord lit
  | .srol _ _ _ => true
  | .srolLiteral _ _ lit => litWord lit
  | .smin _ _ _ => true
  | .sminLiteral _ _ lit => litWord lit
  | .smax _ _ _ => true
  | .smaxLiteral _ _ lit => litWord lit
  | .sminu _ _ _ => true
  | .sminuLiteral _ _ lit => litWord lit
  | .smaxu _ _ _ => true
  | .smaxuLiteral _ _ lit => litWord lit
  | .saddc _ _ _ => true
  | .saddcLiteral _ _ lit => litWord lit
  | .scmp c _ _ => condOk c
  | .scmpLiteral c _ lit => condOk c && litWord lit
  | .scmpn c _ _ => condOk c
  | .scmpnLiteral c _ lit => condOk c && litWord lit
  | .ssel _ _ _ => true
  | .sselLiteral _ _ lit => litWord lit
  | .smov _ _ => true
  | .sli _ _ => true
  | .sliLiteral _ lit => litWord lit
  | .slid sd _ => evenReg sd
  | .saddi _ _ _ => true
  | .sbfe _ _ _ => true
  | .sbfeLiteral _ _ lit => litWord lit
  | .sbfi _ _ _ => true
  | .sbfiLiteral _ _ lit => litWord lit
  | .spop _ _ => true
  | .sclz _ _ => true
  | .sctz _ _ => true
  | .sbrev _ _ => true
  | .saddd sd sa sb => evenReg sd && evenReg sa && evenReg sb
  | .sadddLiteral sd sa _ => evenReg sd && evenReg sa
  | .ssubd sd sa sb => evenReg sd && evenReg sa && evenReg sb
  | .ssubdLiteral sd sa _ => evenReg sd && evenReg sa
  | .smuld sd sa sb => evenReg sd && evenReg sa && evenReg sb
  | .smuldLiteral sd sa _ => evenReg sd && evenReg sa
  | .sshld sd sa _ => evenReg sd && evenReg sa
  | .sshldLiteral sd sa lit => evenReg sd && evenReg sa && litWord lit
  | .sshrd sd sa _ => evenReg sd && evenReg sa
  | .sshrdLiteral sd sa lit => evenReg sd && evenReg sa && litWord lit
  | .scmpd c sa sb => condOk c && evenReg sa && evenReg sb
  | .scmpdLiteral c sa _ => condOk c && evenReg sa
  | .br _ => true
  | .bsc _ => true
  | .bsnc _ => true
  | .bez _ _ => true
  | .bnz _ _ => true
  | .bexz _ => true
  | .bexnz _ => true
  | .bcmz _ => true
  | .bcmnz _ => true
  | .jmpr sa => evenReg sa
  | .call _ f _ => f.toNat % 8 == 0
  | .callr sa imm => evenReg sa && slideOk imm
  | .ret imm => slideOk imm
  | .trap imm => decide (imm.toNat ≤ 255)
  | .brk => true
  | .tret => true
  | .nop => true
  | .wend => true
  | .yield => true
  | .yieldResume => true
  | .fbar => true
  | .srd _ _ => true
  | .swr _ _ => true
  | .mand sd => tripleOk sd
  | .mandn sd => tripleOk sd
  | .melse sa => tripleOk sa
  | .mrest sa => tripleOk sa
  | .mcnt _ => true
  | .mfirst _ => true
  | .mcmc => true
  | .msetall => true
  | .sld _ sa _ => evenReg sa
  | .sldMs m => m.ok .load
  | .sldOffset64 m _ => m.ok .load && m.off == 0#32
  | .sst _ sa _ => evenReg sa
  | .sstMs m => m.ok .store
  | .sstOffset64 m _ => m.ok .store && m.off == 0#32
  | .satom m => m.ok .atomic
  | .satomOffset64 m _ => m.ok .atomic && m.off == 0#32
  | .xld _ sa => evenReg sa
  | .xinv _ => true
  | .commit lvl => decide (1 ≤ lvl.toNat ∧ lvl.toNat ≤ 4)
  | .commitBV => true
  | .abort lvl => decide (lvl.toNat ≤ 2)
  | .mark lvl => decide (lvl.toNat ≤ 2)
  | .acq lvl => decide (1 ≤ lvl.toNat ∧ lvl.toNat ≤ 4)
  | .fence lvl => decide (1 ≤ lvl.toNat ∧ lvl.toNat ≤ 4)
  | .cfl _ sa _ => evenReg sa
  | .civ _ sa _ => evenReg sa
  | .cwb _ sa _ => evenReg sa
  | .ici _ sa _ => evenReg sa
  | .walkerLine => true
  | .barSync _ n _ => decide (1 ≤ n.toNat ∧ n.toNat ≤ 16)
  | .barArrive n _ => decide (1 ≤ n.toNat ∧ n.toNat ≤ 16)
  | .barrierRelease => true
  | .gongArrive _ => true
  | .gongWait _ => true
  | .gongRelease => true
  | .mbInit _ _ => true
  | .mbInitLiteral _ lit => litWord lit
  | .mbArrive _ _ => true
  | .mbArriveLiteral _ lit => litWord lit
  | .mbWait _ _ _ => true
  | .mbWaitLiteral _ _ lit => litWord lit
  | .mbWaitTimeout => true
  | .mbTest _ _ => true
  | .qpush _ _ => true
  | .qpop _ _ => true
  | .qtry _ _ => true
  | .cpkick _ => true
  | .cpseal _ => true
  | .cpwait _ => true
  | .cpwaitLiteral lit => litWord lit
  | .cptest _ => true
  | .cptestLiteral lit => litWord lit
  | .copyRequestFetch => true
  | .copyLineTransfer => true
  | .copyRequestEnd => true
  | .lnch sa _ => evenReg sa
  | .snap _ sa _ => evenReg sa
  | .snapLiteral _ sa lit => evenReg sa && litWord lit
  | .sacc _ => true
  | .srej _ => true
  | .snapshotRestoreComplete => true
  | .sqry sd _ => evenReg sd
  | .poolWriterProceed => true
  | .mloop m => m.ok
  | .loopStart => true
  | .kStep => true
  | .rowCheckVerdict => true
  | .checkerOnlyStep => true
  | .loopEnd => true
  | .mwait _ => true
  | .acz _ => true
  | .acrel _ => true
  | .acld _ _ => true
  | .acst _ _ => true
  | .acrd x => x.uses { va := false, imm := true, f := true, bov := true } && x.imm.extractLsb' 6 26 == 0#26
  | .acwr x => x.uses { vd := false, imm := true, f := true, bov := true } && x.imm.extractLsb' 6 26 == 0#26
  | .vadd _ _ _ => true
  | .vaddVx x => x.uses { vb := true, i := true, rnd := true, sat := true, bov := true }
  | .vsub _ _ _ => true
  | .vsubVx x => x.uses { vb := true, i := true, rnd := true, sat := true, bov := true }
  | .vmul _ _ _ => true
  | .vmulVx x => x.uses { vb := true, i := true, rnd := true, sat := true, bov := true }
  | .vfma _ _ _ => true
  | .vfmaVx x => x.uses { vb := true, vc := true, i := true, rnd := true, sat := true, bov := true }
  | .vmad _ _ _ => true
  | .vmadVx x => x.uses { vb := true, vc := true, i := true, sat := true, bov := true }
  | .vmulhi _ _ _ => true
  | .vmulhiVx x => x.uses { vb := true, i := true, bov := true }
  | .vmin _ _ _ => true
  | .vminVx x => x.uses { vb := true, i := true, bov := true }
  | .vmax _ _ _ => true
  | .vmaxVx x => x.uses { vb := true, i := true, bov := true }
  | .vabs _ _ => true
  | .vabsVx x => x.uses { sat := true, bov := true }
  | .vneg _ _ => true
  | .vnegVx x => x.uses { sat := true, bov := true }
  | .vcmp c _ _ => condOk c
  | .vcmpVx x => x.uses { vd := false, vb := true, i := true, f := true } && condOk x.f
  | .vsel _ _ _ => true
  | .vselVx x => x.uses { vb := true }
  | .vmov _ _ => true
  | .vmovVx x => x.uses {}
  | .vand _ _ _ => true
  | .vandVx x => x.uses { vb := true, i := true }
  | .vor _ _ _ => true
  | .vorVx x => x.uses { vb := true, i := true }
  | .vxor _ _ _ => true
  | .vxorVx x => x.uses { vb := true, i := true }
  | .vandn _ _ _ => true
  | .vandnVx x => x.uses { vb := true, i := true }
  | .vshl _ _ _ => true
  | .vshlVx x => x.uses { vb := true, i := true }
  | .vshr _ _ _ => true
  | .vshrVx x => x.uses { vb := true, i := true }
  | .vsar _ _ _ => true
  | .vsarVx x => x.uses { vb := true, i := true }
  | .vpop _ _ => true
  | .vpopVx x => x.uses {}
  | .vclz _ _ => true
  | .vclzVx x => x.uses {}
  | .vbfe x => x.bitFieldOk
  | .vbfi x => x.bitFieldOk
  | .vmovs _ _ => true
  | .vmovsLiteral _ lit => litWord lit
  | .vlane _ => true
  | .vcvt x => x.cvtOk
  | .vtag x => x.uses { va := false, imm := true } && x.imm.extractLsb' 9 23 == 0#23
  | .vdot x => x.uses { vb := true, vc := true, sat := true, bov := true }
  | .vred x => x.redOk
  | .vshfl x => x.shflOk
  | .vbcast x => x.bcastOk
  | .vgetl _ _ _ => true
  | .vgetlLiteral _ _ lit => litWord lit
  | .vsetl _ _ _ => true
  | .vsetlLiteral _ _ lit => litWord lit
  | .vrcp _ _ => true
  | .vrcpVx x => x.uses { bov := true }
  | .vrsq _ _ => true
  | .vrsqVx x => x.uses { bov := true }
  | .vsqrt _ _ => true
  | .vsqrtVx x => x.uses { bov := true }
  | .vexp2 _ _ => true
  | .vexp2Vx x => x.uses { bov := true }
  | .vlog2 _ _ => true
  | .vlog2Vx x => x.uses { bov := true }
  | .vsinpi _ _ => true
  | .vsinpiVx x => x.uses { bov := true }
  | .vcospi _ _ => true
  | .vcospiVx x => x.uses { bov := true }
  | .vtanh _ _ => true
  | .vtanhVx x => x.uses { bov := true }
  | .vld m => m.ok .load
  | .vldOffset64 m _ => m.ok .load && m.off == 0#32
  | .vst m => m.ok .store
  | .vstOffset64 m _ => m.ok .store && m.off == 0#32
  | .vatom m => m.ok .atomic
  | .vatomOffset64 m _ => m.ok .atomic && m.off == 0#32
  | .flush => true
  | .checkerOnlyMode => true
  | .watchdog => true
  | .waveStarved => true
  | .stackCacheWriteback => true
  | .blockDispatch => true
  | .gangStart => true
  | .blockRetirement => true
  | .launchCompletion => true
  | .launchAccept => true
  | .dependenceEvaluation => true
  | .gongTagGrant => true
  | .candidateAged => true
  | .priorityPreemption => true
  | .gangSave => true
  | .gangRestore => true
  | .powerEstimate => true
  | .throttleChange => true
  | .thermalShutdown => true
  | .parkResume => true
  | .parkKill => true
  | .shootdownRange => true
  | .shootdownContext => true
  | .shootdownRbt => true
  | .deviceFlush => true
  | .directoryRecovery => true
  | .poolsizeWrite => true
  | .contextCreate => true
  | .contextSwitchOut => true
  | .contextSwitchIn => true
  | .contextKill => true
  | .qtailWrite => true
  | .qstatSkip => true
  | .qstatRetry => true
  | .erheadWrite => true
  | .ersizeWrite => true
  | .trheadWrite => true
  | .traceSync => true
  | .waveSample => true
  | .linkReplay => true
  | .portRetrain => true
  | .remoteWriteArrival => true
  | .remoteWriteAck => true
  | .remoteAtomicArrival => true
  | .remoteAtomicResponse => true
  | .atomicResend => true
  | .atomicTableExpiry => true
  | .retryWindowExpiry => true
  | .routesDownTimeout => true
  | .lostsetWrite => true
  | .debugHalt => true
  | .debugResume => true
  | .firmwareStage => true
  | .firmwareSwap => true
  | .firmwareAbandon => true
  | .handoverSafePoint => true
  | .firmwareHeartbeat => true
  | .heartbeatMissed => true
  | .probationEnd => true
  | .coldReset => true
  | .warmReset => true
  | .attestation => true
  | .unitcmdRetest => true
  | .unitcmdReadmit => true
  | .unitcmdFence => true
  | .unitcmdStrongCode => true
  | .unitcmdSecded => true
  | .hourlyHalving => true
  | .binChange => true
  | .bistComplete => true
  | .readmission => true
  | .scrubSweep => true
  | .mmsRefresh => true
  | .hostCoherentWrite => true
  | .hostCoherentRead => true
  | .registerWrite => true
  | .unassignedOpcode w => !lenListed (wordP w) (wordOp w) (wordLen w)
  | .instructionFetchFailure => true
  | .remoteReadArrival => true
  | .responseAckArrival => true
  | .responseAckDeadline => true
  | .writeResend => true
  | .retrainingComplete => true
  | .routeReturn => true

end Sys2Proof
end

