-- ==== Sys2Proof/Decode.lean ====
section
/-! DEFINITION. Decoding and encoding (03/R90 to R108). `decodeWords` reads an instruction from its words, total on any
bits; a pattern that is no instruction is rejected by name, but for an OP or LEN the map does not list, which is the
row UNASSIGNED_OPCODE. `encode` lays an instruction out from the same tables. -/

namespace Sys2Proof

/-- Why a bit pattern is not a legal instruction; each raises ILLOP (03/R94, R108). -/
inductive Reject where
  /-- A field the opcode does not use, or a reserved bit, is non-zero (03/R94). -/
  | reservedField
  /-- A field value out of its range, by the encoding alone (03/R108 step 3). -/
  | illFormed
  deriving DecidableEq, Repr

/-- What decoding answers. -/
abbrev Decoded := Except Reject Instr

/-- The field of `n` bits of `w` whose least significant bit is `lo`. -/
def field (w : Word) (lo n : Nat) : BitVec n := w.extractLsb' lo n

/-- Answers `i` when the bits that must be zero are zero (03/R94). -/
def zeros (ok : Bool) (i : Instr) : Decoded := if ok then .ok i else .error .reservedField

/-- The number of words of an instruction by LEN (03/R90). -/
def lenWords : Nat → Nat
  | 0 => 1 | 1 => 3 | 2 => 3 | _ => 5

/-- MX words 0, 1 and 2 (03/R98). -/
def mxOf (w0 w1 w2 : Word) : MX :=
  { as := field w0 30 2, voff := field w0 22 8, xt := field w0 19 3, vt := field w0 11 8, la := field w1 28 4,
    v := field w1 15 1, aop := field w1 10 5, order := field w1 7 3, sx := field w1 6 1, lvl := field w1 3 3,
    width := field w1 0 3, off := w2 }

/-- MS words 0, 1 and 2 (03/R99). -/
def msOf (w0 w1 w2 : Word) : MS :=
  { as := field w0 29 2, sb := field w0 23 6, sa := field w0 17 6, sd := field w0 11 6, la := field w1 28 4,
    v := field w1 15 1, aop := field w1 10 5, order := field w1 7 3, sx := field w1 6 1, lvl := field w1 3 3,
    width := field w1 0 3, off := w2 }

/-- VX words 0, 1 and 2 (03/R96). -/
def vxOf (w0 w1 w2 : Word) : VX :=
  { f := field w0 28 4, i := field w0 27 1, va := field w0 19 8, vd := field w0 11 8, la := field w1 28 4,
    bov := field w1 24 4, sat := field w1 23 1, rnd := field w1 21 2, rfmt := field w1 16 5, vc := field w1 8 8,
    vb := field w1 0 8, imm := w2 }

/-- ML words 0, 1 and 2 (03/R101). -/
def mlOf (w0 w1 w2 : Word) : ML :=
  { mode := field w0 27 5, sb := field w0 21 6, sa := field w0 15 6, acc := field w0 11 4, la := field w1 28 4,
    pb := field w1 14 4, fmtB := field w1 9 5, pa := field w1 5 4, fmtA := field w1 0 5, incB := field w2 22 10,
    incA := field w2 12 10, steps1 := field w2 0 12 }

/-- LEN 00: one word, P = 0 (03/R105). -/
def decodeOneS (op : Nat) (w0 : Word) : Decoded :=
  match op with
  | 0x0 => zeros (field w0 29 3 == 0#3) (.sadd (field w0 11 6) (field w0 17 6) (field w0 23 6))
  | 0x1 => zeros (field w0 29 3 == 0#3) (.ssub (field w0 11 6) (field w0 17 6) (field w0 23 6))
  | 0x2 => zeros (field w0 29 3 == 0#3) (.smul (field w0 11 6) (field w0 17 6) (field w0 23 6))
  | 0x3 => zeros (field w0 29 3 == 0#3) (.smulhi (field w0 11 6) (field w0 17 6) (field w0 23 6))
  | 0x4 => zeros (field w0 29 3 == 0#3) (.smulhu (field w0 11 6) (field w0 17 6) (field w0 23 6))
  | 0x5 => zeros (field w0 29 3 == 0#3) (.sdiv (field w0 11 6) (field w0 17 6) (field w0 23 6))
  | 0x6 => zeros (field w0 29 3 == 0#3) (.sdivu (field w0 11 6) (field w0 17 6) (field w0 23 6))
  | 0x7 => zeros (field w0 29 3 == 0#3) (.srem (field w0 11 6) (field w0 17 6) (field w0 23 6))
  | 0x8 => zeros (field w0 29 3 == 0#3) (.sremu (field w0 11 6) (field w0 17 6) (field w0 23 6))
  | 0x9 => zeros (field w0 29 3 == 0#3) (.sand (field w0 11 6) (field w0 17 6) (field w0 23 6))
  | 0xa => zeros (field w0 29 3 == 0#3) (.sor (field w0 11 6) (field w0 17 6) (field w0 23 6))
  | 0xb => zeros (field w0 29 3 == 0#3) (.sxor (field w0 11 6) (field w0 17 6) (field w0 23 6))
  | 0xc => zeros (field w0 29 3 == 0#3) (.sandn (field w0 11 6) (field w0 17 6) (field w0 23 6))
  | 0xd => zeros (field w0 29 3 == 0#3) (.sshl (field w0 11 6) (field w0 17 6) (field w0 23 6))
  | 0xe => zeros (field w0 29 3 == 0#3) (.sshr (field w0 11 6) (field w0 17 6) (field w0 23 6))
  | 0xf => zeros (field w0 29 3 == 0#3) (.ssar (field w0 11 6) (field w0 17 6) (field w0 23 6))
  | 0x10 => zeros (field w0 29 3 == 0#3) (.srol (field w0 11 6) (field w0 17 6) (field w0 23 6))
  | 0x11 => zeros (field w0 29 3 == 0#3) (.smin (field w0 11 6) (field w0 17 6) (field w0 23 6))
  | 0x12 => zeros (field w0 29 3 == 0#3) (.smax (field w0 11 6) (field w0 17 6) (field w0 23 6))
  | 0x13 => zeros (field w0 29 3 == 0#3) (.sminu (field w0 11 6) (field w0 17 6) (field w0 23 6))
  | 0x14 => zeros (field w0 29 3 == 0#3) (.smaxu (field w0 11 6) (field w0 17 6) (field w0 23 6))
  | 0x15 => zeros (field w0 11 6 == 0#6) (.scmp (field w0 29 3) (field w0 17 6) (field w0 23 6))
  | 0x16 => zeros (field w0 11 6 == 0#6) (.scmpn (field w0 29 3) (field w0 17 6) (field w0 23 6))
  | 0x17 => zeros (field w0 29 3 == 0#3) (.ssel (field w0 11 6) (field w0 17 6) (field w0 23 6))
  | 0x18 => zeros (field w0 23 9 == 0#9) (.smov (field w0 11 6) (field w0 17 6))
  | 0x19 => zeros (field w0 17 6 == 0#6) (.sli (field w0 11 6) (field w0 23 9))
  | 0x1a => zeros (field w0 29 3 == 0#3) (.sbfe (field w0 11 6) (field w0 17 6) (field w0 23 6))
  | 0x1b => zeros (field w0 29 3 == 0#3) (.sbfi (field w0 11 6) (field w0 17 6) (field w0 23 6))
  | 0x1c => zeros (field w0 23 9 == 0#9) (.spop (field w0 11 6) (field w0 17 6))
  | 0x1d => zeros (field w0 23 9 == 0#9) (.sclz (field w0 11 6) (field w0 17 6))
  | 0x1e => zeros (field w0 23 9 == 0#9) (.sctz (field w0 11 6) (field w0 17 6))
  | 0x1f => zeros (field w0 23 9 == 0#9) (.sbrev (field w0 11 6) (field w0 17 6))
  | 0x20 => zeros (field w0 29 3 == 0#3) (.saddd (field w0 11 6) (field w0 17 6) (field w0 23 6))
  | 0x21 => zeros (field w0 29 3 == 0#3) (.ssubd (field w0 11 6) (field w0 17 6) (field w0 23 6))
  | 0x22 => zeros (field w0 29 3 == 0#3) (.sshld (field w0 11 6) (field w0 17 6) (field w0 23 6))
  | 0x23 => zeros (field w0 29 3 == 0#3) (.sshrd (field w0 11 6) (field w0 17 6) (field w0 23 6))
  | 0x24 => zeros (field w0 11 6 == 0#6) (.scmpd (field w0 29 3) (field w0 17 6) (field w0 23 6))
  | 0x25 => zeros (field w0 29 3 == 0#3) (.smuld (field w0 11 6) (field w0 17 6) (field w0 23 6))
  | 0x26 => zeros (field w0 29 3 == 0#3) (.saddc (field w0 11 6) (field w0 17 6) (field w0 23 6))
  | 0x28 => zeros (true) (.saddi (field w0 11 6) (field w0 17 6) (field w0 23 9))
  | 0x40 => zeros (true) (.br (field w0 11 21))
  | 0x41 => zeros (true) (.bsc (field w0 11 21))
  | 0x42 => zeros (true) (.bsnc (field w0 11 21))
  | 0x43 => zeros (true) (.bez (field w0 11 6) (field w0 17 15))
  | 0x44 => zeros (true) (.bnz (field w0 11 6) (field w0 17 15))
  | 0x45 => zeros (true) (.bexz (field w0 11 21))
  | 0x46 => zeros (true) (.bexnz (field w0 11 21))
  | 0x47 => zeros (true) (.bcmz (field w0 11 21))
  | 0x48 => zeros (true) (.bcmnz (field w0 11 21))
  | 0x4a => zeros (field w0 11 6 == 0#6) (.callr (field w0 17 6) (field w0 23 9))
  | 0x4b => zeros (field w0 11 12 == 0#12) (.ret (field w0 23 9))
  | 0x4c => zeros (field w0 23 9 == 0#9 && field w0 11 6 == 0#6) (.jmpr (field w0 17 6))
  | 0x4d => zeros (field w0 11 12 == 0#12) (.trap (field w0 23 9))
  | 0x4e => zeros (field w0 11 21 == 0#21) (.tret)
  | 0x4f => zeros (field w0 11 21 == 0#21) (.brk)
  | 0x50 => zeros (field w0 11 21 == 0#21) (.nop)
  | 0x51 => zeros (field w0 11 21 == 0#21) (.wend)
  | 0x52 => zeros (field w0 11 21 == 0#21) (.yield)
  | 0x53 => zeros (field w0 17 6 == 0#6) (.srd (field w0 11 6) (field w0 23 9))
  | 0x54 => zeros (field w0 11 6 == 0#6) (.swr (field w0 17 6) (field w0 23 9))
  | 0x55 => zeros (field w0 29 3 == 0#3 && field w0 11 6 == 0#6) (.lnch (field w0 17 6) (field w0 23 6))
  | 0x56 => zeros (field w0 29 3 == 0#3) (.ici (field w0 11 6) (field w0 17 6) (field w0 23 6))
  | 0x57 => zeros (field w0 11 21 == 0#21) (.fbar)
  | 0x60 => zeros (field w0 17 15 == 0#15) (.mand (field w0 11 6))
  | 0x61 => zeros (field w0 17 15 == 0#15) (.mandn (field w0 11 6))
  | 0x62 => zeros (field w0 23 9 == 0#9 && field w0 11 6 == 0#6) (.melse (field w0 17 6))
  | 0x63 => zeros (field w0 23 9 == 0#9 && field w0 11 6 == 0#6) (.mrest (field w0 17 6))
  | 0x64 => zeros (field w0 17 15 == 0#15) (.mcnt (field w0 11 6))
  | 0x65 => zeros (field w0 17 15 == 0#15) (.mfirst (field w0 11 6))
  | 0x66 => zeros (field w0 11 21 == 0#21) (.mcmc)
  | 0x67 => zeros (field w0 11 21 == 0#21) (.msetall)
  | 0x80 => zeros (true) (.sld (field w0 11 6) (field w0 17 6) (field w0 23 9))
  | 0x81 => zeros (true) (.sst (field w0 11 6) (field w0 17 6) (field w0 23 9))
  | 0x83 => zeros (field w0 23 9 == 0#9 && field w0 14 3 == 0#3) (.xld (field w0 11 3) (field w0 17 6))
  | 0x84 => zeros (field w0 14 18 == 0#18) (.xinv (field w0 11 3))
  | 0x90 => if field w0 14 1 = 1#1 then zeros (field w0 15 17 == 0#17 && field w0 11 3 == 1#3) .commitBV
      else zeros (field w0 15 17 == 0#17) (.commit (field w0 11 3))
  | 0x91 => zeros (field w0 14 18 == 0#18) (.abort (field w0 11 3))
  | 0x92 => zeros (field w0 14 18 == 0#18) (.mark (field w0 11 3))
  | 0x93 => zeros (field w0 14 18 == 0#18) (.acq (field w0 11 3))
  | 0x94 => zeros (field w0 14 18 == 0#18) (.fence (field w0 11 3))
  | 0x95 => zeros (field w0 29 3 == 0#3) (.cfl (field w0 11 6) (field w0 17 6) (field w0 23 6))
  | 0x96 => zeros (field w0 29 3 == 0#3) (.civ (field w0 11 6) (field w0 17 6) (field w0 23 6))
  | 0x97 => zeros (field w0 29 3 == 0#3) (.cwb (field w0 11 6) (field w0 17 6) (field w0 23 6))
  | 0x98 => zeros (field w0 21 11 == 0#11) (.barSync (field w0 20 1) (field w0 15 5) (field w0 11 4))
  | 0x99 => zeros (field w0 20 12 == 0#12) (.barArrive (field w0 15 5) (field w0 11 4))
  | 0x9a => zeros (field w0 14 18 == 0#18) (.gongArrive (field w0 11 3))
  | 0x9b => zeros (field w0 14 18 == 0#18) (.gongWait (field w0 11 3))
  | 0x9c => zeros (field w0 29 3 == 0#3 && field w0 11 6 == 0#6) (.mbInit (field w0 17 6) (field w0 23 6))
  | 0x9d => zeros (field w0 29 3 == 0#3 && field w0 11 6 == 0#6) (.mbArrive (field w0 17 6) (field w0 23 6))
  | 0x9e => zeros (field w0 29 3 == 0#3) (.mbWait (field w0 11 6) (field w0 17 6) (field w0 23 6))
  | 0x9f => zeros (field w0 23 9 == 0#9) (.mbTest (field w0 11 6) (field w0 17 6))
  | 0xa0 => zeros (field w0 23 6 == 0#6 && field w0 11 6 == 0#6) (.qpush (field w0 29 3) (field w0 17 6))
  | 0xa1 => zeros (field w0 17 12 == 0#12) (.qpop (field w0 29 3) (field w0 11 6))
  | 0xa2 => zeros (field w0 17 12 == 0#12) (.qtry (field w0 29 3) (field w0 11 6))
  | 0xa3 => zeros (field w0 23 9 == 0#9 && field w0 11 6 == 0#6) (.cpkick (field w0 17 6))
  | 0xa4 => zeros (field w0 17 15 == 0#15) (.cpseal (field w0 11 6))
  | 0xa5 => zeros (field w0 29 3 == 0#3 && field w0 11 12 == 0#12) (.cpwait (field w0 23 6))
  | 0xa6 => zeros (field w0 29 3 == 0#3 && field w0 11 12 == 0#12) (.cptest (field w0 23 6))
  | 0xb0 => zeros (field w0 29 3 == 0#3) (.snap (field w0 11 6) (field w0 17 6) (field w0 23 6))
  | 0xb1 => zeros (field w0 23 9 == 0#9 && field w0 11 6 == 0#6) (.sacc (field w0 17 6))
  | 0xb2 => zeros (field w0 23 9 == 0#9 && field w0 11 6 == 0#6) (.srej (field w0 17 6))
  | 0xb3 => zeros (field w0 23 9 == 0#9) (.sqry (field w0 11 6) (field w0 17 6))
  | 0xc1 => zeros (field w0 15 17 == 0#17) (.mwait (field w0 11 4))
  | 0xc2 => zeros (field w0 21 11 == 0#11) (.acld (field w0 11 4) (field w0 15 6))
  | 0xc3 => zeros (field w0 21 11 == 0#11) (.acst (field w0 11 4) (field w0 15 6))
  | 0xc4 => zeros (field w0 15 17 == 0#17) (.acz (field w0 11 4))
  | 0xc5 => zeros (field w0 15 17 == 0#17) (.acrel (field w0 11 4))
  | _ => .ok (.unassignedOpcode w0)

/-- LEN 00: one word, P = 1 (03/R106). -/
def decodeOneV (op : Nat) (w0 : Word) : Decoded :=
  match op with
  | 0x0 => zeros (true) (.vadd (field w0 11 7) (field w0 18 7) (field w0 25 7))
  | 0x1 => zeros (true) (.vsub (field w0 11 7) (field w0 18 7) (field w0 25 7))
  | 0x2 => zeros (true) (.vmul (field w0 11 7) (field w0 18 7) (field w0 25 7))
  | 0x3 => zeros (true) (.vfma (field w0 11 7) (field w0 18 7) (field w0 25 7))
  | 0x4 => zeros (true) (.vmad (field w0 11 7) (field w0 18 7) (field w0 25 7))
  | 0x5 => zeros (true) (.vmulhi (field w0 11 7) (field w0 18 7) (field w0 25 7))
  | 0x6 => zeros (true) (.vmin (field w0 11 7) (field w0 18 7) (field w0 25 7))
  | 0x7 => zeros (true) (.vmax (field w0 11 7) (field w0 18 7) (field w0 25 7))
  | 0x8 => zeros (field w0 25 7 == 0#7) (.vabs (field w0 11 7) (field w0 18 7))
  | 0x9 => zeros (field w0 25 7 == 0#7) (.vneg (field w0 11 7) (field w0 18 7))
  | 0xa => zeros (true) (.vcmp (field w0 11 7) (field w0 18 7) (field w0 25 7))
  | 0xb => zeros (true) (.vsel (field w0 11 7) (field w0 18 7) (field w0 25 7))
  | 0xc => zeros (field w0 25 7 == 0#7) (.vmov (field w0 11 7) (field w0 18 7))
  | 0xd => zeros (field w0 31 1 == 0#1 && field w0 18 7 == 0#7) (.vmovs (field w0 11 7) (field w0 25 6))
  | 0xe => zeros (true) (.vand (field w0 11 7) (field w0 18 7) (field w0 25 7))
  | 0xf => zeros (true) (.vor (field w0 11 7) (field w0 18 7) (field w0 25 7))
  | 0x10 => zeros (true) (.vxor (field w0 11 7) (field w0 18 7) (field w0 25 7))
  | 0x11 => zeros (true) (.vandn (field w0 11 7) (field w0 18 7) (field w0 25 7))
  | 0x12 => zeros (true) (.vshl (field w0 11 7) (field w0 18 7) (field w0 25 7))
  | 0x13 => zeros (true) (.vshr (field w0 11 7) (field w0 18 7) (field w0 25 7))
  | 0x14 => zeros (true) (.vsar (field w0 11 7) (field w0 18 7) (field w0 25 7))
  | 0x17 => zeros (field w0 25 7 == 0#7) (.vpop (field w0 11 7) (field w0 18 7))
  | 0x18 => zeros (field w0 25 7 == 0#7) (.vclz (field w0 11 7) (field w0 18 7))
  | 0x1c => zeros (field w0 18 14 == 0#14) (.vlane (field w0 11 7))
  | 0x22 => zeros (field w0 31 1 == 0#1 && field w0 17 1 == 0#1) (.vgetl (field w0 11 6) (field w0 18 7) (field w0 25 6))
  | 0x23 => zeros (field w0 31 1 == 0#1 && field w0 24 1 == 0#1) (.vsetl (field w0 11 7) (field w0 18 6) (field w0 25 6))
  | 0x30 => zeros (field w0 25 7 == 0#7) (.vrcp (field w0 11 7) (field w0 18 7))
  | 0x31 => zeros (field w0 25 7 == 0#7) (.vrsq (field w0 11 7) (field w0 18 7))
  | 0x32 => zeros (field w0 25 7 == 0#7) (.vsqrt (field w0 11 7) (field w0 18 7))
  | 0x33 => zeros (field w0 25 7 == 0#7) (.vexp2 (field w0 11 7) (field w0 18 7))
  | 0x34 => zeros (field w0 25 7 == 0#7) (.vlog2 (field w0 11 7) (field w0 18 7))
  | 0x35 => zeros (field w0 25 7 == 0#7) (.vsinpi (field w0 11 7) (field w0 18 7))
  | 0x36 => zeros (field w0 25 7 == 0#7) (.vcospi (field w0 11 7) (field w0 18 7))
  | 0x37 => zeros (field w0 25 7 == 0#7) (.vtanh (field w0 11 7) (field w0 18 7))
  | _ => .ok (.unassignedOpcode w0)

/-- LEN 01: a 96-bit form, P = 0 (03/R105). -/
def decodeExtS (op : Nat) (w0 w1 w2 : Word) : Decoded :=
  match op with
  | 0x49 => zeros (field w0 11 21 == 0#21 && field w1 8 20 == 0#20) (.call (field w1 28 4) (field w1 0 8) w2)
  | 0x80 => zeros (field w0 31 1 == 0#1 && field w1 16 12 == 0#12) (.sldMs (msOf w0 w1 w2))
  | 0x81 => zeros (field w0 31 1 == 0#1 && field w1 16 12 == 0#12) (.sstMs (msOf w0 w1 w2))
  | 0x82 => zeros (field w0 31 1 == 0#1 && field w1 16 12 == 0#12) (.satom (msOf w0 w1 w2))
  | 0xc0 => zeros (field w1 18 10 == 0#10) (.mloop (mlOf w0 w1 w2))
  | _ => .ok (.unassignedOpcode w0)

/-- LEN 01: a 96-bit form, P = 1 (03/R106). -/
def decodeExtV (op : Nat) (w0 w1 w2 : Word) : Decoded :=
  match op with
  | 0x0 => zeros (true) (.vaddVx (vxOf w0 w1 w2))
  | 0x1 => zeros (true) (.vsubVx (vxOf w0 w1 w2))
  | 0x2 => zeros (true) (.vmulVx (vxOf w0 w1 w2))
  | 0x3 => zeros (true) (.vfmaVx (vxOf w0 w1 w2))
  | 0x4 => zeros (true) (.vmadVx (vxOf w0 w1 w2))
  | 0x5 => zeros (true) (.vmulhiVx (vxOf w0 w1 w2))
  | 0x6 => zeros (true) (.vminVx (vxOf w0 w1 w2))
  | 0x7 => zeros (true) (.vmaxVx (vxOf w0 w1 w2))
  | 0x8 => zeros (true) (.vabsVx (vxOf w0 w1 w2))
  | 0x9 => zeros (true) (.vnegVx (vxOf w0 w1 w2))
  | 0xa => zeros (true) (.vcmpVx (vxOf w0 w1 w2))
  | 0xb => zeros (true) (.vselVx (vxOf w0 w1 w2))
  | 0xc => zeros (true) (.vmovVx (vxOf w0 w1 w2))
  | 0xe => zeros (true) (.vandVx (vxOf w0 w1 w2))
  | 0xf => zeros (true) (.vorVx (vxOf w0 w1 w2))
  | 0x10 => zeros (true) (.vxorVx (vxOf w0 w1 w2))
  | 0x11 => zeros (true) (.vandnVx (vxOf w0 w1 w2))
  | 0x12 => zeros (true) (.vshlVx (vxOf w0 w1 w2))
  | 0x13 => zeros (true) (.vshrVx (vxOf w0 w1 w2))
  | 0x14 => zeros (true) (.vsarVx (vxOf w0 w1 w2))
  | 0x15 => zeros (true) (.vbfe (vxOf w0 w1 w2))
  | 0x16 => zeros (true) (.vbfi (vxOf w0 w1 w2))
  | 0x17 => zeros (true) (.vpopVx (vxOf w0 w1 w2))
  | 0x18 => zeros (true) (.vclzVx (vxOf w0 w1 w2))
  | 0x19 => zeros (true) (.vcvt (vxOf w0 w1 w2))
  | 0x1a => zeros (true) (.vtag (vxOf w0 w1 w2))
  | 0x1b => zeros (true) (.vdot (vxOf w0 w1 w2))
  | 0x1d => zeros (true) (.vred (vxOf w0 w1 w2))
  | 0x20 => zeros (true) (.vshfl (vxOf w0 w1 w2))
  | 0x21 => zeros (true) (.vbcast (vxOf w0 w1 w2))
  | 0x30 => zeros (true) (.vrcpVx (vxOf w0 w1 w2))
  | 0x31 => zeros (true) (.vrsqVx (vxOf w0 w1 w2))
  | 0x32 => zeros (true) (.vsqrtVx (vxOf w0 w1 w2))
  | 0x33 => zeros (true) (.vexp2Vx (vxOf w0 w1 w2))
  | 0x34 => zeros (true) (.vlog2Vx (vxOf w0 w1 w2))
  | 0x35 => zeros (true) (.vsinpiVx (vxOf w0 w1 w2))
  | 0x36 => zeros (true) (.vcospiVx (vxOf w0 w1 w2))
  | 0x37 => zeros (true) (.vtanhVx (vxOf w0 w1 w2))
  | 0x40 => zeros (field w1 16 12 == 0#12) (.vld (mxOf w0 w1 w2))
  | 0x41 => zeros (field w1 16 12 == 0#12) (.vst (mxOf w0 w1 w2))
  | 0x42 => zeros (field w1 16 12 == 0#12) (.vatom (mxOf w0 w1 w2))
  | 0x50 => zeros (true) (.acrd (vxOf w0 w1 w2))
  | 0x51 => zeros (true) (.acwr (vxOf w0 w1 w2))
  | _ => .ok (.unassignedOpcode w0)

/-- LEN 10: one word and a literal, P = 0 (03/R105). -/
def decodeLitS (op : Nat) (w0 w1 w2 : Word) : Decoded :=
  match op with
  | 0x0 => zeros (field w0 23 9 == 0#9) (.saddLiteral (field w0 11 6) (field w0 17 6) (w2 ++ w1))
  | 0x1 => zeros (field w0 23 9 == 0#9) (.ssubLiteral (field w0 11 6) (field w0 17 6) (w2 ++ w1))
  | 0x2 => zeros (field w0 23 9 == 0#9) (.smulLiteral (field w0 11 6) (field w0 17 6) (w2 ++ w1))
  | 0x3 => zeros (field w0 23 9 == 0#9) (.smulhiLiteral (field w0 11 6) (field w0 17 6) (w2 ++ w1))
  | 0x4 => zeros (field w0 23 9 == 0#9) (.smulhuLiteral (field w0 11 6) (field w0 17 6) (w2 ++ w1))
  | 0x5 => zeros (field w0 23 9 == 0#9) (.sdivLiteral (field w0 11 6) (field w0 17 6) (w2 ++ w1))
  | 0x6 => zeros (field w0 23 9 == 0#9) (.sdivuLiteral (field w0 11 6) (field w0 17 6) (w2 ++ w1))
  | 0x7 => zeros (field w0 23 9 == 0#9) (.sremLiteral (field w0 11 6) (field w0 17 6) (w2 ++ w1))
  | 0x8 => zeros (field w0 23 9 == 0#9) (.sremuLiteral (field w0 11 6) (field w0 17 6) (w2 ++ w1))
  | 0x9 => zeros (field w0 23 9 == 0#9) (.sandLiteral (field w0 11 6) (field w0 17 6) (w2 ++ w1))
  | 0xa => zeros (field w0 23 9 == 0#9) (.sorLiteral (field w0 11 6) (field w0 17 6) (w2 ++ w1))
  | 0xb => zeros (field w0 23 9 == 0#9) (.sxorLiteral (field w0 11 6) (field w0 17 6) (w2 ++ w1))
  | 0xc => zeros (field w0 23 9 == 0#9) (.sandnLiteral (field w0 11 6) (field w0 17 6) (w2 ++ w1))
  | 0xd => zeros (field w0 23 9 == 0#9) (.sshlLiteral (field w0 11 6) (field w0 17 6) (w2 ++ w1))
  | 0xe => zeros (field w0 23 9 == 0#9) (.sshrLiteral (field w0 11 6) (field w0 17 6) (w2 ++ w1))
  | 0xf => zeros (field w0 23 9 == 0#9) (.ssarLiteral (field w0 11 6) (field w0 17 6) (w2 ++ w1))
  | 0x10 => zeros (field w0 23 9 == 0#9) (.srolLiteral (field w0 11 6) (field w0 17 6) (w2 ++ w1))
  | 0x11 => zeros (field w0 23 9 == 0#9) (.sminLiteral (field w0 11 6) (field w0 17 6) (w2 ++ w1))
  | 0x12 => zeros (field w0 23 9 == 0#9) (.smaxLiteral (field w0 11 6) (field w0 17 6) (w2 ++ w1))
  | 0x13 => zeros (field w0 23 9 == 0#9) (.sminuLiteral (field w0 11 6) (field w0 17 6) (w2 ++ w1))
  | 0x14 => zeros (field w0 23 9 == 0#9) (.smaxuLiteral (field w0 11 6) (field w0 17 6) (w2 ++ w1))
  | 0x15 => zeros (field w0 23 6 == 0#6 && field w0 11 6 == 0#6) (.scmpLiteral (field w0 29 3) (field w0 17 6) (w2 ++ w1))
  | 0x16 => zeros (field w0 23 6 == 0#6 && field w0 11 6 == 0#6) (.scmpnLiteral (field w0 29 3) (field w0 17 6) (w2 ++ w1))
  | 0x17 => zeros (field w0 23 9 == 0#9) (.sselLiteral (field w0 11 6) (field w0 17 6) (w2 ++ w1))
  | 0x19 => zeros (field w0 17 15 == 0#15) (.sliLiteral (field w0 11 6) (w2 ++ w1))
  | 0x1a => zeros (field w0 23 9 == 0#9) (.sbfeLiteral (field w0 11 6) (field w0 17 6) (w2 ++ w1))
  | 0x1b => zeros (field w0 23 9 == 0#9) (.sbfiLiteral (field w0 11 6) (field w0 17 6) (w2 ++ w1))
  | 0x20 => zeros (field w0 23 9 == 0#9) (.sadddLiteral (field w0 11 6) (field w0 17 6) (w2 ++ w1))
  | 0x21 => zeros (field w0 23 9 == 0#9) (.ssubdLiteral (field w0 11 6) (field w0 17 6) (w2 ++ w1))
  | 0x22 => zeros (field w0 23 9 == 0#9) (.sshldLiteral (field w0 11 6) (field w0 17 6) (w2 ++ w1))
  | 0x23 => zeros (field w0 23 9 == 0#9) (.sshrdLiteral (field w0 11 6) (field w0 17 6) (w2 ++ w1))
  | 0x24 => zeros (field w0 23 6 == 0#6 && field w0 11 6 == 0#6) (.scmpdLiteral (field w0 29 3) (field w0 17 6) (w2 ++ w1))
  | 0x25 => zeros (field w0 23 9 == 0#9) (.smuldLiteral (field w0 11 6) (field w0 17 6) (w2 ++ w1))
  | 0x26 => zeros (field w0 23 9 == 0#9) (.saddcLiteral (field w0 11 6) (field w0 17 6) (w2 ++ w1))
  | 0x27 => zeros (field w0 17 15 == 0#15) (.slid (field w0 11 6) (w2 ++ w1))
  | 0x9c => zeros (field w0 23 9 == 0#9 && field w0 11 6 == 0#6) (.mbInitLiteral (field w0 17 6) (w2 ++ w1))
  | 0x9d => zeros (field w0 23 9 == 0#9 && field w0 11 6 == 0#6) (.mbArriveLiteral (field w0 17 6) (w2 ++ w1))
  | 0x9e => zeros (field w0 23 9 == 0#9) (.mbWaitLiteral (field w0 11 6) (field w0 17 6) (w2 ++ w1))
  | 0xa5 => zeros (field w0 11 21 == 0#21) (.cpwaitLiteral (w2 ++ w1))
  | 0xa6 => zeros (field w0 11 21 == 0#21) (.cptestLiteral (w2 ++ w1))
  | 0xb0 => zeros (field w0 23 9 == 0#9) (.snapLiteral (field w0 11 6) (field w0 17 6) (w2 ++ w1))
  | _ => .ok (.unassignedOpcode w0)

/-- LEN 10: one word and a literal, P = 1 (03/R106). -/
def decodeLitV (op : Nat) (w0 w1 w2 : Word) : Decoded :=
  match op with
  | 0xd => zeros (field w0 18 14 == 0#14) (.vmovsLiteral (field w0 11 7) (w2 ++ w1))
  | 0x22 => zeros (field w0 25 7 == 0#7 && field w0 17 1 == 0#1) (.vgetlLiteral (field w0 11 6) (field w0 18 7) (w2 ++ w1))
  | 0x23 => zeros (field w0 24 8 == 0#8) (.vsetlLiteral (field w0 11 7) (field w0 18 6) (w2 ++ w1))
  | _ => .ok (.unassignedOpcode w0)

/-- LEN 11: a 96-bit form and a literal, P = 0 (03/R105). -/
def decodeExtLitS (op : Nat) (w0 w1 w2 w3 w4 : Word) : Decoded :=
  match op with
  | 0x80 => zeros (field w0 31 1 == 0#1 && field w1 16 12 == 0#12) (.sldOffset64 (msOf w0 w1 w2) (w4 ++ w3))
  | 0x81 => zeros (field w0 31 1 == 0#1 && field w1 16 12 == 0#12) (.sstOffset64 (msOf w0 w1 w2) (w4 ++ w3))
  | 0x82 => zeros (field w0 31 1 == 0#1 && field w1 16 12 == 0#12) (.satomOffset64 (msOf w0 w1 w2) (w4 ++ w3))
  | _ => .ok (.unassignedOpcode w0)

/-- LEN 11: a 96-bit form and a literal, P = 1 (03/R106). -/
def decodeExtLitV (op : Nat) (w0 w1 w2 w3 w4 : Word) : Decoded :=
  match op with
  | 0x40 => zeros (field w1 16 12 == 0#12) (.vldOffset64 (mxOf w0 w1 w2) (w4 ++ w3))
  | 0x41 => zeros (field w1 16 12 == 0#12) (.vstOffset64 (mxOf w0 w1 w2) (w4 ++ w3))
  | 0x42 => zeros (field w1 16 12 == 0#12) (.vatomOffset64 (mxOf w0 w1 w2) (w4 ++ w3))
  | _ => .ok (.unassignedOpcode w0)

/-- The instruction of up to five words, before the checks of `Instr.wellFormed`. -/
def decodeRaw (w0 w1 w2 w3 w4 : Word) : Decoded :=
  if lenListed (wordP w0) (wordOp w0) (wordLen w0) then
    match wordLen w0, wordP w0 with
    | 0, 0 => decodeOneS (wordOp w0) w0
    | 0, _ => decodeOneV (wordOp w0) w0
    | 1, 0 => decodeExtS (wordOp w0) w0 w1 w2
    | 1, _ => decodeExtV (wordOp w0) w0 w1 w2
    | 2, 0 => decodeLitS (wordOp w0) w0 w1 w2
    | 2, _ => decodeLitV (wordOp w0) w0 w1 w2
    | _, 0 => decodeExtLitS (wordOp w0) w0 w1 w2 w3 w4
    | _, _ => decodeExtLitV (wordOp w0) w0 w1 w2 w3 w4
  else .ok (.unassignedOpcode w0)

/-- An ill-formed instruction is rejected by name (03/R108 step 3). -/
def checkForm (i : Instr) : Decoded := if i.wellFormed then .ok i else .error .illFormed

/-- The instruction of up to five words: words past the instruction's length are not read. -/
def decodeWords (w0 w1 w2 w3 w4 : Word) : Decoded :=
  match decodeRaw w0 w1 w2 w3 w4 with
  | .ok i => checkForm i
  | .error r => .error r

/-- Word `k` of a list of bytes, little-endian (00/R16). -/
def wordAt (bs : List Byte) (k : Nat) : Word := BitVec.ofNat 32 (ofLE ((bs.drop (4 * k)).take 4))

/-- Decoding from bytes at the instruction's address; bytes past the end of the list read zero. -/
def decodeBytes (bs : List Byte) : Decoded :=
  decodeWords (wordAt bs 0) (wordAt bs 1) (wordAt bs 2) (wordAt bs 3) (wordAt bs 4)

/-- Five words with the bits of `w` numbered from word 0's bit 0. -/
def tableWord (w k : Nat) : Word := BitVec.ofNat 32 (w / 2 ^ (32 * k))

/-- What the decoder reads from an instruction whose first `nbits` bits are `w`, the rest zero. -/
def decodeTableWord (nbits w : Nat) : Option Instr :=
  let v := w % 2 ^ nbits
  match decodeBytes (leBytes 20 v) with
  | .ok i => some i
  | .error _ => none

/-- Words of the MX form (03/R98). -/
def mxWords (op : BitVec 8) (len : BitVec 2) (m : MX) : List Word :=
  [m.as ++ m.voff ++ m.xt ++ m.vt ++ op ++ 1#1 ++ len,
   m.la ++ 0#12 ++ m.v ++ m.aop ++ m.order ++ m.sx ++ m.lvl ++ m.width, m.off]

/-- Words of the MS form (03/R99). -/
def msWords (op : BitVec 8) (len : BitVec 2) (m : MS) : List Word :=
  [0#1 ++ m.as ++ m.sb ++ m.sa ++ m.sd ++ op ++ 0#1 ++ len,
   m.la ++ 0#12 ++ m.v ++ m.aop ++ m.order ++ m.sx ++ m.lvl ++ m.width, m.off]

/-- Words of the VX form (03/R96). -/
def vxWords (op : BitVec 8) (len : BitVec 2) (x : VX) : List Word :=
  [x.f ++ x.i ++ x.va ++ x.vd ++ op ++ 1#1 ++ len,
   x.la ++ x.bov ++ x.sat ++ x.rnd ++ x.rfmt ++ x.vc ++ x.vb, x.imm]

/-- Words of the ML form (03/R101). -/
def mlWords (op : BitVec 8) (len : BitVec 2) (m : ML) : List Word :=
  [m.mode ++ m.sb ++ m.sa ++ m.acc ++ op ++ 0#1 ++ len,
   m.la ++ 0#10 ++ m.pb ++ m.fmtB ++ m.pa ++ m.fmtA, m.incB ++ m.incA ++ m.steps1]

/-- The words of an instruction; an event row has none. -/
def encode : Instr → List Word
  | .sadd sd sa sb => [(0#3 ++ sb ++ sa ++ sd ++ 0x0#8 ++ 0#1 ++ 0#2 : Word)]
  | .saddLiteral sd sa lit => [(0#9 ++ sa ++ sd ++ 0x0#8 ++ 0#1 ++ 2#2 : Word), lit.lo, lit.hi]
  | .ssub sd sa sb => [(0#3 ++ sb ++ sa ++ sd ++ 0x1#8 ++ 0#1 ++ 0#2 : Word)]
  | .ssubLiteral sd sa lit => [(0#9 ++ sa ++ sd ++ 0x1#8 ++ 0#1 ++ 2#2 : Word), lit.lo, lit.hi]
  | .smul sd sa sb => [(0#3 ++ sb ++ sa ++ sd ++ 0x2#8 ++ 0#1 ++ 0#2 : Word)]
  | .smulLiteral sd sa lit => [(0#9 ++ sa ++ sd ++ 0x2#8 ++ 0#1 ++ 2#2 : Word), lit.lo, lit.hi]
  | .smulhi sd sa sb => [(0#3 ++ sb ++ sa ++ sd ++ 0x3#8 ++ 0#1 ++ 0#2 : Word)]
  | .smulhiLiteral sd sa lit => [(0#9 ++ sa ++ sd ++ 0x3#8 ++ 0#1 ++ 2#2 : Word), lit.lo, lit.hi]
  | .smulhu sd sa sb => [(0#3 ++ sb ++ sa ++ sd ++ 0x4#8 ++ 0#1 ++ 0#2 : Word)]
  | .smulhuLiteral sd sa lit => [(0#9 ++ sa ++ sd ++ 0x4#8 ++ 0#1 ++ 2#2 : Word), lit.lo, lit.hi]
  | .sdiv sd sa sb => [(0#3 ++ sb ++ sa ++ sd ++ 0x5#8 ++ 0#1 ++ 0#2 : Word)]
  | .sdivLiteral sd sa lit => [(0#9 ++ sa ++ sd ++ 0x5#8 ++ 0#1 ++ 2#2 : Word), lit.lo, lit.hi]
  | .sdivu sd sa sb => [(0#3 ++ sb ++ sa ++ sd ++ 0x6#8 ++ 0#1 ++ 0#2 : Word)]
  | .sdivuLiteral sd sa lit => [(0#9 ++ sa ++ sd ++ 0x6#8 ++ 0#1 ++ 2#2 : Word), lit.lo, lit.hi]
  | .srem sd sa sb => [(0#3 ++ sb ++ sa ++ sd ++ 0x7#8 ++ 0#1 ++ 0#2 : Word)]
  | .sremLiteral sd sa lit => [(0#9 ++ sa ++ sd ++ 0x7#8 ++ 0#1 ++ 2#2 : Word), lit.lo, lit.hi]
  | .sremu sd sa sb => [(0#3 ++ sb ++ sa ++ sd ++ 0x8#8 ++ 0#1 ++ 0#2 : Word)]
  | .sremuLiteral sd sa lit => [(0#9 ++ sa ++ sd ++ 0x8#8 ++ 0#1 ++ 2#2 : Word), lit.lo, lit.hi]
  | .sand sd sa sb => [(0#3 ++ sb ++ sa ++ sd ++ 0x9#8 ++ 0#1 ++ 0#2 : Word)]
  | .sandLiteral sd sa lit => [(0#9 ++ sa ++ sd ++ 0x9#8 ++ 0#1 ++ 2#2 : Word), lit.lo, lit.hi]
  | .sor sd sa sb => [(0#3 ++ sb ++ sa ++ sd ++ 0xa#8 ++ 0#1 ++ 0#2 : Word)]
  | .sorLiteral sd sa lit => [(0#9 ++ sa ++ sd ++ 0xa#8 ++ 0#1 ++ 2#2 : Word), lit.lo, lit.hi]
  | .sxor sd sa sb => [(0#3 ++ sb ++ sa ++ sd ++ 0xb#8 ++ 0#1 ++ 0#2 : Word)]
  | .sxorLiteral sd sa lit => [(0#9 ++ sa ++ sd ++ 0xb#8 ++ 0#1 ++ 2#2 : Word), lit.lo, lit.hi]
  | .sandn sd sa sb => [(0#3 ++ sb ++ sa ++ sd ++ 0xc#8 ++ 0#1 ++ 0#2 : Word)]
  | .sandnLiteral sd sa lit => [(0#9 ++ sa ++ sd ++ 0xc#8 ++ 0#1 ++ 2#2 : Word), lit.lo, lit.hi]
  | .sshl sd sa sb => [(0#3 ++ sb ++ sa ++ sd ++ 0xd#8 ++ 0#1 ++ 0#2 : Word)]
  | .sshlLiteral sd sa lit => [(0#9 ++ sa ++ sd ++ 0xd#8 ++ 0#1 ++ 2#2 : Word), lit.lo, lit.hi]
  | .sshr sd sa sb => [(0#3 ++ sb ++ sa ++ sd ++ 0xe#8 ++ 0#1 ++ 0#2 : Word)]
  | .sshrLiteral sd sa lit => [(0#9 ++ sa ++ sd ++ 0xe#8 ++ 0#1 ++ 2#2 : Word), lit.lo, lit.hi]
  | .ssar sd sa sb => [(0#3 ++ sb ++ sa ++ sd ++ 0xf#8 ++ 0#1 ++ 0#2 : Word)]
  | .ssarLiteral sd sa lit => [(0#9 ++ sa ++ sd ++ 0xf#8 ++ 0#1 ++ 2#2 : Word), lit.lo, lit.hi]
  | .srol sd sa sb => [(0#3 ++ sb ++ sa ++ sd ++ 0x10#8 ++ 0#1 ++ 0#2 : Word)]
  | .srolLiteral sd sa lit => [(0#9 ++ sa ++ sd ++ 0x10#8 ++ 0#1 ++ 2#2 : Word), lit.lo, lit.hi]
  | .smin sd sa sb => [(0#3 ++ sb ++ sa ++ sd ++ 0x11#8 ++ 0#1 ++ 0#2 : Word)]
  | .sminLiteral sd sa lit => [(0#9 ++ sa ++ sd ++ 0x11#8 ++ 0#1 ++ 2#2 : Word), lit.lo, lit.hi]
  | .smax sd sa sb => [(0#3 ++ sb ++ sa ++ sd ++ 0x12#8 ++ 0#1 ++ 0#2 : Word)]
  | .smaxLiteral sd sa lit => [(0#9 ++ sa ++ sd ++ 0x12#8 ++ 0#1 ++ 2#2 : Word), lit.lo, lit.hi]
  | .sminu sd sa sb => [(0#3 ++ sb ++ sa ++ sd ++ 0x13#8 ++ 0#1 ++ 0#2 : Word)]
  | .sminuLiteral sd sa lit => [(0#9 ++ sa ++ sd ++ 0x13#8 ++ 0#1 ++ 2#2 : Word), lit.lo, lit.hi]
  | .smaxu sd sa sb => [(0#3 ++ sb ++ sa ++ sd ++ 0x14#8 ++ 0#1 ++ 0#2 : Word)]
  | .smaxuLiteral sd sa lit => [(0#9 ++ sa ++ sd ++ 0x14#8 ++ 0#1 ++ 2#2 : Word), lit.lo, lit.hi]
  | .saddc sd sa sb => [(0#3 ++ sb ++ sa ++ sd ++ 0x26#8 ++ 0#1 ++ 0#2 : Word)]
  | .saddcLiteral sd sa lit => [(0#9 ++ sa ++ sd ++ 0x26#8 ++ 0#1 ++ 2#2 : Word), lit.lo, lit.hi]
  | .scmp c sa sb => [(c ++ sb ++ sa ++ 0#6 ++ 0x15#8 ++ 0#1 ++ 0#2 : Word)]
  | .scmpLiteral c sa lit => [(c ++ 0#6 ++ sa ++ 0#6 ++ 0x15#8 ++ 0#1 ++ 2#2 : Word), lit.lo, lit.hi]
  | .scmpn c sa sb => [(c ++ sb ++ sa ++ 0#6 ++ 0x16#8 ++ 0#1 ++ 0#2 : Word)]
  | .scmpnLiteral c sa lit => [(c ++ 0#6 ++ sa ++ 0#6 ++ 0x16#8 ++ 0#1 ++ 2#2 : Word), lit.lo, lit.hi]
  | .ssel sd sa sb => [(0#3 ++ sb ++ sa ++ sd ++ 0x17#8 ++ 0#1 ++ 0#2 : Word)]
  | .sselLiteral sd sa lit => [(0#9 ++ sa ++ sd ++ 0x17#8 ++ 0#1 ++ 2#2 : Word), lit.lo, lit.hi]
  | .smov sd sa => [(0#9 ++ sa ++ sd ++ 0x18#8 ++ 0#1 ++ 0#2 : Word)]
  | .sli sd imm => [(imm ++ 0#6 ++ sd ++ 0x19#8 ++ 0#1 ++ 0#2 : Word)]
  | .sliLiteral sd lit => [(0#15 ++ sd ++ 0x19#8 ++ 0#1 ++ 2#2 : Word), lit.lo, lit.hi]
  | .slid sd lit => [(0#15 ++ sd ++ 0x27#8 ++ 0#1 ++ 2#2 : Word), lit.lo, lit.hi]
  | .saddi sd sa imm => [(imm ++ sa ++ sd ++ 0x28#8 ++ 0#1 ++ 0#2 : Word)]
  | .sbfe sd sa sb => [(0#3 ++ sb ++ sa ++ sd ++ 0x1a#8 ++ 0#1 ++ 0#2 : Word)]
  | .sbfeLiteral sd sa lit => [(0#9 ++ sa ++ sd ++ 0x1a#8 ++ 0#1 ++ 2#2 : Word), lit.lo, lit.hi]
  | .sbfi sd sa sb => [(0#3 ++ sb ++ sa ++ sd ++ 0x1b#8 ++ 0#1 ++ 0#2 : Word)]
  | .sbfiLiteral sd sa lit => [(0#9 ++ sa ++ sd ++ 0x1b#8 ++ 0#1 ++ 2#2 : Word), lit.lo, lit.hi]
  | .spop sd sa => [(0#9 ++ sa ++ sd ++ 0x1c#8 ++ 0#1 ++ 0#2 : Word)]
  | .sclz sd sa => [(0#9 ++ sa ++ sd ++ 0x1d#8 ++ 0#1 ++ 0#2 : Word)]
  | .sctz sd sa => [(0#9 ++ sa ++ sd ++ 0x1e#8 ++ 0#1 ++ 0#2 : Word)]
  | .sbrev sd sa => [(0#9 ++ sa ++ sd ++ 0x1f#8 ++ 0#1 ++ 0#2 : Word)]
  | .saddd sd sa sb => [(0#3 ++ sb ++ sa ++ sd ++ 0x20#8 ++ 0#1 ++ 0#2 : Word)]
  | .sadddLiteral sd sa lit => [(0#9 ++ sa ++ sd ++ 0x20#8 ++ 0#1 ++ 2#2 : Word), lit.lo, lit.hi]
  | .ssubd sd sa sb => [(0#3 ++ sb ++ sa ++ sd ++ 0x21#8 ++ 0#1 ++ 0#2 : Word)]
  | .ssubdLiteral sd sa lit => [(0#9 ++ sa ++ sd ++ 0x21#8 ++ 0#1 ++ 2#2 : Word), lit.lo, lit.hi]
  | .smuld sd sa sb => [(0#3 ++ sb ++ sa ++ sd ++ 0x25#8 ++ 0#1 ++ 0#2 : Word)]
  | .smuldLiteral sd sa lit => [(0#9 ++ sa ++ sd ++ 0x25#8 ++ 0#1 ++ 2#2 : Word), lit.lo, lit.hi]
  | .sshld sd sa sb => [(0#3 ++ sb ++ sa ++ sd ++ 0x22#8 ++ 0#1 ++ 0#2 : Word)]
  | .sshldLiteral sd sa lit => [(0#9 ++ sa ++ sd ++ 0x22#8 ++ 0#1 ++ 2#2 : Word), lit.lo, lit.hi]
  | .sshrd sd sa sb => [(0#3 ++ sb ++ sa ++ sd ++ 0x23#8 ++ 0#1 ++ 0#2 : Word)]
  | .sshrdLiteral sd sa lit => [(0#9 ++ sa ++ sd ++ 0x23#8 ++ 0#1 ++ 2#2 : Word), lit.lo, lit.hi]
  | .scmpd c sa sb => [(c ++ sb ++ sa ++ 0#6 ++ 0x24#8 ++ 0#1 ++ 0#2 : Word)]
  | .scmpdLiteral c sa lit => [(c ++ 0#6 ++ sa ++ 0#6 ++ 0x24#8 ++ 0#1 ++ 2#2 : Word), lit.lo, lit.hi]
  | .br disp => [(disp ++ 0x40#8 ++ 0#1 ++ 0#2 : Word)]
  | .bsc disp => [(disp ++ 0x41#8 ++ 0#1 ++ 0#2 : Word)]
  | .bsnc disp => [(disp ++ 0x42#8 ++ 0#1 ++ 0#2 : Word)]
  | .bez sa disp => [(disp ++ sa ++ 0x43#8 ++ 0#1 ++ 0#2 : Word)]
  | .bnz sa disp => [(disp ++ sa ++ 0x44#8 ++ 0#1 ++ 0#2 : Word)]
  | .bexz disp => [(disp ++ 0x45#8 ++ 0#1 ++ 0#2 : Word)]
  | .bexnz disp => [(disp ++ 0x46#8 ++ 0#1 ++ 0#2 : Word)]
  | .bcmz disp => [(disp ++ 0x47#8 ++ 0#1 ++ 0#2 : Word)]
  | .bcmnz disp => [(disp ++ 0x48#8 ++ 0#1 ++ 0#2 : Word)]
  | .jmpr sa => [(0#9 ++ sa ++ 0#6 ++ 0x4c#8 ++ 0#1 ++ 0#2 : Word)]
  | .call la f disp => [(0#21 ++ 0x49#8 ++ 0#1 ++ 1#2 : Word), (la ++ 0#20 ++ f : Word), disp]
  | .callr sa imm => [(imm ++ sa ++ 0#6 ++ 0x4a#8 ++ 0#1 ++ 0#2 : Word)]
  | .ret imm => [(imm ++ 0#12 ++ 0x4b#8 ++ 0#1 ++ 0#2 : Word)]
  | .trap imm => [(imm ++ 0#12 ++ 0x4d#8 ++ 0#1 ++ 0#2 : Word)]
  | .brk => [(0#21 ++ 0x4f#8 ++ 0#1 ++ 0#2 : Word)]
  | .tret => [(0#21 ++ 0x4e#8 ++ 0#1 ++ 0#2 : Word)]
  | .nop => [(0#21 ++ 0x50#8 ++ 0#1 ++ 0#2 : Word)]
  | .wend => [(0#21 ++ 0x51#8 ++ 0#1 ++ 0#2 : Word)]
  | .yield => [(0#21 ++ 0x52#8 ++ 0#1 ++ 0#2 : Word)]
  | .yieldResume => []
  | .fbar => [(0#21 ++ 0x57#8 ++ 0#1 ++ 0#2 : Word)]
  | .srd sd imm => [(imm ++ 0#6 ++ sd ++ 0x53#8 ++ 0#1 ++ 0#2 : Word)]
  | .swr sa imm => [(imm ++ sa ++ 0#6 ++ 0x54#8 ++ 0#1 ++ 0#2 : Word)]
  | .mand sd => [(0#15 ++ sd ++ 0x60#8 ++ 0#1 ++ 0#2 : Word)]
  | .mandn sd => [(0#15 ++ sd ++ 0x61#8 ++ 0#1 ++ 0#2 : Word)]
  | .melse sa => [(0#9 ++ sa ++ 0#6 ++ 0x62#8 ++ 0#1 ++ 0#2 : Word)]
  | .mrest sa => [(0#9 ++ sa ++ 0#6 ++ 0x63#8 ++ 0#1 ++ 0#2 : Word)]
  | .mcnt sd => [(0#15 ++ sd ++ 0x64#8 ++ 0#1 ++ 0#2 : Word)]
  | .mfirst sd => [(0#15 ++ sd ++ 0x65#8 ++ 0#1 ++ 0#2 : Word)]
  | .mcmc => [(0#21 ++ 0x66#8 ++ 0#1 ++ 0#2 : Word)]
  | .msetall => [(0#21 ++ 0x67#8 ++ 0#1 ++ 0#2 : Word)]
  | .sld sd sa imm => [(imm ++ sa ++ sd ++ 0x80#8 ++ 0#1 ++ 0#2 : Word)]
  | .sldMs m => msWords 0x80#8 1#2 m
  | .sldOffset64 m lit => msWords 0x80#8 3#2 m ++ [lit.lo, lit.hi]
  | .sst sd sa imm => [(imm ++ sa ++ sd ++ 0x81#8 ++ 0#1 ++ 0#2 : Word)]
  | .sstMs m => msWords 0x81#8 1#2 m
  | .sstOffset64 m lit => msWords 0x81#8 3#2 m ++ [lit.lo, lit.hi]
  | .satom m => msWords 0x82#8 1#2 m
  | .satomOffset64 m lit => msWords 0x82#8 3#2 m ++ [lit.lo, lit.hi]
  | .xld xt sa => [(0#9 ++ sa ++ 0#3 ++ xt ++ 0x83#8 ++ 0#1 ++ 0#2 : Word)]
  | .xinv xt => [(0#18 ++ xt ++ 0x84#8 ++ 0#1 ++ 0#2 : Word)]
  | .commit lvl => [(0#17 ++ 0#1 ++ lvl ++ 0x90#8 ++ 0#1 ++ 0#2 : Word)]
  | .commitBV => [(0#17 ++ 1#1 ++ 1#3 ++ 0x90#8 ++ 0#1 ++ 0#2 : Word)]
  | .abort lvl => [(0#18 ++ lvl ++ 0x91#8 ++ 0#1 ++ 0#2 : Word)]
  | .mark lvl => [(0#18 ++ lvl ++ 0x92#8 ++ 0#1 ++ 0#2 : Word)]
  | .acq lvl => [(0#18 ++ lvl ++ 0x93#8 ++ 0#1 ++ 0#2 : Word)]
  | .fence lvl => [(0#18 ++ lvl ++ 0x94#8 ++ 0#1 ++ 0#2 : Word)]
  | .cfl sd sa sb => [(0#3 ++ sb ++ sa ++ sd ++ 0x95#8 ++ 0#1 ++ 0#2 : Word)]
  | .civ sd sa sb => [(0#3 ++ sb ++ sa ++ sd ++ 0x96#8 ++ 0#1 ++ 0#2 : Word)]
  | .cwb sd sa sb => [(0#3 ++ sb ++ sa ++ sd ++ 0x97#8 ++ 0#1 ++ 0#2 : Word)]
  | .ici sd sa sb => [(0#3 ++ sb ++ sa ++ sd ++ 0x56#8 ++ 0#1 ++ 0#2 : Word)]
  | .walkerLine => []
  | .barSync c n id => [(0#11 ++ c ++ n ++ id ++ 0x98#8 ++ 0#1 ++ 0#2 : Word)]
  | .barArrive n id => [(0#12 ++ n ++ id ++ 0x99#8 ++ 0#1 ++ 0#2 : Word)]
  | .barrierRelease => []
  | .gongArrive tag => [(0#18 ++ tag ++ 0x9a#8 ++ 0#1 ++ 0#2 : Word)]
  | .gongWait tag => [(0#18 ++ tag ++ 0x9b#8 ++ 0#1 ++ 0#2 : Word)]
  | .gongRelease => []
  | .mbInit sa sb => [(0#3 ++ sb ++ sa ++ 0#6 ++ 0x9c#8 ++ 0#1 ++ 0#2 : Word)]
  | .mbInitLiteral sa lit => [(0#9 ++ sa ++ 0#6 ++ 0x9c#8 ++ 0#1 ++ 2#2 : Word), lit.lo, lit.hi]
  | .mbArrive sa sb => [(0#3 ++ sb ++ sa ++ 0#6 ++ 0x9d#8 ++ 0#1 ++ 0#2 : Word)]
  | .mbArriveLiteral sa lit => [(0#9 ++ sa ++ 0#6 ++ 0x9d#8 ++ 0#1 ++ 2#2 : Word), lit.lo, lit.hi]
  | .mbWait sd sa sb => [(0#3 ++ sb ++ sa ++ sd ++ 0x9e#8 ++ 0#1 ++ 0#2 : Word)]
  | .mbWaitLiteral sd sa lit => [(0#9 ++ sa ++ sd ++ 0x9e#8 ++ 0#1 ++ 2#2 : Word), lit.lo, lit.hi]
  | .mbWaitTimeout => []
  | .mbTest sd sa => [(0#9 ++ sa ++ sd ++ 0x9f#8 ++ 0#1 ++ 0#2 : Word)]
  | .qpush q sa => [(q ++ 0#6 ++ sa ++ 0#6 ++ 0xa0#8 ++ 0#1 ++ 0#2 : Word)]
  | .qpop q sd => [(q ++ 0#12 ++ sd ++ 0xa1#8 ++ 0#1 ++ 0#2 : Word)]
  | .qtry q sd => [(q ++ 0#12 ++ sd ++ 0xa2#8 ++ 0#1 ++ 0#2 : Word)]
  | .cpkick sa => [(0#9 ++ sa ++ 0#6 ++ 0xa3#8 ++ 0#1 ++ 0#2 : Word)]
  | .cpseal sd => [(0#15 ++ sd ++ 0xa4#8 ++ 0#1 ++ 0#2 : Word)]
  | .cpwait sb => [(0#3 ++ sb ++ 0#12 ++ 0xa5#8 ++ 0#1 ++ 0#2 : Word)]
  | .cpwaitLiteral lit => [(0#21 ++ 0xa5#8 ++ 0#1 ++ 2#2 : Word), lit.lo, lit.hi]
  | .cptest sb => [(0#3 ++ sb ++ 0#12 ++ 0xa6#8 ++ 0#1 ++ 0#2 : Word)]
  | .cptestLiteral lit => [(0#21 ++ 0xa6#8 ++ 0#1 ++ 2#2 : Word), lit.lo, lit.hi]
  | .copyRequestFetch => []
  | .copyLineTransfer => []
  | .copyRequestEnd => []
  | .lnch sa sb => [(0#3 ++ sb ++ sa ++ 0#6 ++ 0x55#8 ++ 0#1 ++ 0#2 : Word)]
  | .snap sd sa sb => [(0#3 ++ sb ++ sa ++ sd ++ 0xb0#8 ++ 0#1 ++ 0#2 : Word)]
  | .snapLiteral sd sa lit => [(0#9 ++ sa ++ sd ++ 0xb0#8 ++ 0#1 ++ 2#2 : Word), lit.lo, lit.hi]
  | .sacc sa => [(0#9 ++ sa ++ 0#6 ++ 0xb1#8 ++ 0#1 ++ 0#2 : Word)]
  | .srej sa => [(0#9 ++ sa ++ 0#6 ++ 0xb2#8 ++ 0#1 ++ 0#2 : Word)]
  | .snapshotRestoreComplete => []
  | .sqry sd sa => [(0#9 ++ sa ++ sd ++ 0xb3#8 ++ 0#1 ++ 0#2 : Word)]
  | .poolWriterProceed => []
  | .mloop m => mlWords 0xc0#8 1#2 m
  | .loopStart => []
  | .kStep => []
  | .rowCheckVerdict => []
  | .checkerOnlyStep => []
  | .loopEnd => []
  | .mwait acc => [(0#17 ++ acc ++ 0xc1#8 ++ 0#1 ++ 0#2 : Word)]
  | .acz acc => [(0#17 ++ acc ++ 0xc4#8 ++ 0#1 ++ 0#2 : Word)]
  | .acrel acc => [(0#17 ++ acc ++ 0xc5#8 ++ 0#1 ++ 0#2 : Word)]
  | .acld acc sa => [(0#11 ++ sa ++ acc ++ 0xc2#8 ++ 0#1 ++ 0#2 : Word)]
  | .acst acc sa => [(0#11 ++ sa ++ acc ++ 0xc3#8 ++ 0#1 ++ 0#2 : Word)]
  | .acrd x => vxWords 0x50#8 1#2 x
  | .acwr x => vxWords 0x51#8 1#2 x
  | .vadd vd va vb => [(vb ++ va ++ vd ++ 0x0#8 ++ 1#1 ++ 0#2 : Word)]
  | .vaddVx x => vxWords 0x0#8 1#2 x
  | .vsub vd va vb => [(vb ++ va ++ vd ++ 0x1#8 ++ 1#1 ++ 0#2 : Word)]
  | .vsubVx x => vxWords 0x1#8 1#2 x
  | .vmul vd va vb => [(vb ++ va ++ vd ++ 0x2#8 ++ 1#1 ++ 0#2 : Word)]
  | .vmulVx x => vxWords 0x2#8 1#2 x
  | .vfma vd va vb => [(vb ++ va ++ vd ++ 0x3#8 ++ 1#1 ++ 0#2 : Word)]
  | .vfmaVx x => vxWords 0x3#8 1#2 x
  | .vmad vd va vb => [(vb ++ va ++ vd ++ 0x4#8 ++ 1#1 ++ 0#2 : Word)]
  | .vmadVx x => vxWords 0x4#8 1#2 x
  | .vmulhi vd va vb => [(vb ++ va ++ vd ++ 0x5#8 ++ 1#1 ++ 0#2 : Word)]
  | .vmulhiVx x => vxWords 0x5#8 1#2 x
  | .vmin vd va vb => [(vb ++ va ++ vd ++ 0x6#8 ++ 1#1 ++ 0#2 : Word)]
  | .vminVx x => vxWords 0x6#8 1#2 x
  | .vmax vd va vb => [(vb ++ va ++ vd ++ 0x7#8 ++ 1#1 ++ 0#2 : Word)]
  | .vmaxVx x => vxWords 0x7#8 1#2 x
  | .vabs vd va => [(0#7 ++ va ++ vd ++ 0x8#8 ++ 1#1 ++ 0#2 : Word)]
  | .vabsVx x => vxWords 0x8#8 1#2 x
  | .vneg vd va => [(0#7 ++ va ++ vd ++ 0x9#8 ++ 1#1 ++ 0#2 : Word)]
  | .vnegVx x => vxWords 0x9#8 1#2 x
  | .vcmp c va vb => [(vb ++ va ++ c ++ 0xa#8 ++ 1#1 ++ 0#2 : Word)]
  | .vcmpVx x => vxWords 0xa#8 1#2 x
  | .vsel vd va vb => [(vb ++ va ++ vd ++ 0xb#8 ++ 1#1 ++ 0#2 : Word)]
  | .vselVx x => vxWords 0xb#8 1#2 x
  | .vmov vd va => [(0#7 ++ va ++ vd ++ 0xc#8 ++ 1#1 ++ 0#2 : Word)]
  | .vmovVx x => vxWords 0xc#8 1#2 x
  | .vand vd va vb => [(vb ++ va ++ vd ++ 0xe#8 ++ 1#1 ++ 0#2 : Word)]
  | .vandVx x => vxWords 0xe#8 1#2 x
  | .vor vd va vb => [(vb ++ va ++ vd ++ 0xf#8 ++ 1#1 ++ 0#2 : Word)]
  | .vorVx x => vxWords 0xf#8 1#2 x
  | .vxor vd va vb => [(vb ++ va ++ vd ++ 0x10#8 ++ 1#1 ++ 0#2 : Word)]
  | .vxorVx x => vxWords 0x10#8 1#2 x
  | .vandn vd va vb => [(vb ++ va ++ vd ++ 0x11#8 ++ 1#1 ++ 0#2 : Word)]
  | .vandnVx x => vxWords 0x11#8 1#2 x
  | .vshl vd va vb => [(vb ++ va ++ vd ++ 0x12#8 ++ 1#1 ++ 0#2 : Word)]
  | .vshlVx x => vxWords 0x12#8 1#2 x
  | .vshr vd va vb => [(vb ++ va ++ vd ++ 0x13#8 ++ 1#1 ++ 0#2 : Word)]
  | .vshrVx x => vxWords 0x13#8 1#2 x
  | .vsar vd va vb => [(vb ++ va ++ vd ++ 0x14#8 ++ 1#1 ++ 0#2 : Word)]
  | .vsarVx x => vxWords 0x14#8 1#2 x
  | .vpop vd va => [(0#7 ++ va ++ vd ++ 0x17#8 ++ 1#1 ++ 0#2 : Word)]
  | .vpopVx x => vxWords 0x17#8 1#2 x
  | .vclz vd va => [(0#7 ++ va ++ vd ++ 0x18#8 ++ 1#1 ++ 0#2 : Word)]
  | .vclzVx x => vxWords 0x18#8 1#2 x
  | .vbfe x => vxWords 0x15#8 1#2 x
  | .vbfi x => vxWords 0x16#8 1#2 x
  | .vmovs vd sb => [(0#1 ++ sb ++ 0#7 ++ vd ++ 0xd#8 ++ 1#1 ++ 0#2 : Word)]
  | .vmovsLiteral vd lit => [(0#14 ++ vd ++ 0xd#8 ++ 1#1 ++ 2#2 : Word), lit.lo, lit.hi]
  | .vlane vd => [(0#14 ++ vd ++ 0x1c#8 ++ 1#1 ++ 0#2 : Word)]
  | .vcvt x => vxWords 0x19#8 1#2 x
  | .vtag x => vxWords 0x1a#8 1#2 x
  | .vdot x => vxWords 0x1b#8 1#2 x
  | .vred x => vxWords 0x1d#8 1#2 x
  | .vshfl x => vxWords 0x20#8 1#2 x
  | .vbcast x => vxWords 0x21#8 1#2 x
  | .vgetl sd va sb => [(0#1 ++ sb ++ va ++ 0#1 ++ sd ++ 0x22#8 ++ 1#1 ++ 0#2 : Word)]
  | .vgetlLiteral sd va lit => [(0#7 ++ va ++ 0#1 ++ sd ++ 0x22#8 ++ 1#1 ++ 2#2 : Word), lit.lo, lit.hi]
  | .vsetl vd sa sb => [(0#1 ++ sb ++ 0#1 ++ sa ++ vd ++ 0x23#8 ++ 1#1 ++ 0#2 : Word)]
  | .vsetlLiteral vd sa lit => [(0#8 ++ sa ++ vd ++ 0x23#8 ++ 1#1 ++ 2#2 : Word), lit.lo, lit.hi]
  | .vrcp vd va => [(0#7 ++ va ++ vd ++ 0x30#8 ++ 1#1 ++ 0#2 : Word)]
  | .vrcpVx x => vxWords 0x30#8 1#2 x
  | .vrsq vd va => [(0#7 ++ va ++ vd ++ 0x31#8 ++ 1#1 ++ 0#2 : Word)]
  | .vrsqVx x => vxWords 0x31#8 1#2 x
  | .vsqrt vd va => [(0#7 ++ va ++ vd ++ 0x32#8 ++ 1#1 ++ 0#2 : Word)]
  | .vsqrtVx x => vxWords 0x32#8 1#2 x
  | .vexp2 vd va => [(0#7 ++ va ++ vd ++ 0x33#8 ++ 1#1 ++ 0#2 : Word)]
  | .vexp2Vx x => vxWords 0x33#8 1#2 x
  | .vlog2 vd va => [(0#7 ++ va ++ vd ++ 0x34#8 ++ 1#1 ++ 0#2 : Word)]
  | .vlog2Vx x => vxWords 0x34#8 1#2 x
  | .vsinpi vd va => [(0#7 ++ va ++ vd ++ 0x35#8 ++ 1#1 ++ 0#2 : Word)]
  | .vsinpiVx x => vxWords 0x35#8 1#2 x
  | .vcospi vd va => [(0#7 ++ va ++ vd ++ 0x36#8 ++ 1#1 ++ 0#2 : Word)]
  | .vcospiVx x => vxWords 0x36#8 1#2 x
  | .vtanh vd va => [(0#7 ++ va ++ vd ++ 0x37#8 ++ 1#1 ++ 0#2 : Word)]
  | .vtanhVx x => vxWords 0x37#8 1#2 x
  | .vld m => mxWords 0x40#8 1#2 m
  | .vldOffset64 m lit => mxWords 0x40#8 3#2 m ++ [lit.lo, lit.hi]
  | .vst m => mxWords 0x41#8 1#2 m
  | .vstOffset64 m lit => mxWords 0x41#8 3#2 m ++ [lit.lo, lit.hi]
  | .vatom m => mxWords 0x42#8 1#2 m
  | .vatomOffset64 m lit => mxWords 0x42#8 3#2 m ++ [lit.lo, lit.hi]
  | .flush => []
  | .checkerOnlyMode => []
  | .watchdog => []
  | .waveStarved => []
  | .stackCacheWriteback => []
  | .blockDispatch => []
  | .gangStart => []
  | .blockRetirement => []
  | .launchCompletion => []
  | .launchAccept => []
  | .dependenceEvaluation => []
  | .gongTagGrant => []
  | .candidateAged => []
  | .priorityPreemption => []
  | .gangSave => []
  | .gangRestore => []
  | .powerEstimate => []
  | .throttleChange => []
  | .thermalShutdown => []
  | .parkResume => []
  | .parkKill => []
  | .shootdownRange => []
  | .shootdownContext => []
  | .shootdownRbt => []
  | .deviceFlush => []
  | .directoryRecovery => []
  | .poolsizeWrite => []
  | .contextCreate => []
  | .contextSwitchOut => []
  | .contextSwitchIn => []
  | .contextKill => []
  | .qtailWrite => []
  | .qstatSkip => []
  | .qstatRetry => []
  | .erheadWrite => []
  | .ersizeWrite => []
  | .trheadWrite => []
  | .traceSync => []
  | .waveSample => []
  | .linkReplay => []
  | .portRetrain => []
  | .remoteWriteArrival => []
  | .remoteWriteAck => []
  | .remoteAtomicArrival => []
  | .remoteAtomicResponse => []
  | .atomicResend => []
  | .atomicTableExpiry => []
  | .retryWindowExpiry => []
  | .routesDownTimeout => []
  | .lostsetWrite => []
  | .debugHalt => []
  | .debugResume => []
  | .firmwareStage => []
  | .firmwareSwap => []
  | .firmwareAbandon => []
  | .handoverSafePoint => []
  | .firmwareHeartbeat => []
  | .heartbeatMissed => []
  | .probationEnd => []
  | .coldReset => []
  | .warmReset => []
  | .attestation => []
  | .unitcmdRetest => []
  | .unitcmdReadmit => []
  | .unitcmdFence => []
  | .unitcmdStrongCode => []
  | .unitcmdSecded => []
  | .hourlyHalving => []
  | .binChange => []
  | .bistComplete => []
  | .readmission => []
  | .scrubSweep => []
  | .mmsRefresh => []
  | .hostCoherentWrite => []
  | .hostCoherentRead => []
  | .registerWrite => []
  | .unassignedOpcode w => [w]
  | .instructionFetchFailure => []
  | .remoteReadArrival => []
  | .responseAckArrival => []
  | .responseAckDeadline => []
  | .writeResend => []
  | .retrainingComplete => []
  | .routeReturn => []

/-- The bytes of an instruction, as the device stores them. -/
def encodeBytes (i : Instr) : List Byte := (encode i).flatMap fun w => leBytes 4 w.toNat

/-- The length of an instruction in bytes, from its words (03/R90); an event row has none. -/
def Instr.size (i : Instr) : Nat := 4 * (encode i).length

end Sys2Proof
end

