-- ==== Sys2Proof/Machine/Numbers.lean ====
section
/-! DEFINITION. Number formats (02/R55 to R82): exact values, reading an element, rounding once, the exact sums and the
special functions. Every operation forms an exact value first and narrows at the end. -/

namespace Sys2Proof

/-- The arithmetic flags of STATUS bits 14:8: IV, DZ, OF, UF, NX, SAT, INTRES from bit 0 (02/R62). -/
abbrev Flags := BitVec 7
def fIV : Flags := 1#7
@[inherit_doc Flags] def fDZ : Flags := 2#7
@[inherit_doc Flags] def fOF : Flags := 4#7
@[inherit_doc Flags] def fUF : Flags := 8#7
@[inherit_doc Flags] def fNX : Flags := 16#7
@[inherit_doc Flags] def fSAT : Flags := 32#7
@[inherit_doc Flags] def fINTRES : Flags := 64#7
/-- `f` when the condition holds. -/
def flagIf (c : Bool) (f : Flags) : Flags := if c then f else 0

/-- An exact value: (-1)^neg * m * 2^e with signed zero, an infinity, a NaN (signalling or not), or NaR. -/
inductive Num where
  | fin (neg : Bool) (m : Nat) (e : Int)
  | inf (neg : Bool)
  | nan (signalling : Bool)
  | nar
  deriving DecidableEq, Repr

/-- Rounding modes (02/R67). -/
inductive Rnd where
  | rne | rz | ru | rd
  deriving DecidableEq, Repr

/-- The rnd field (02/R67). -/
def Rnd.ofBits (b : BitVec 2) : Rnd :=
  match b.toNat with
  | 0 => .rne | 1 => .rz | 2 => .ru | _ => .rd

/-- A binary float format: significand bits with the hidden one, least normal exponent, largest exponent. -/
structure FloatFmt where
  prec : Nat
  emin : Int
  emax : Int
  deriving DecidableEq, Repr

def FloatFmt.f32 : FloatFmt := ⟨24, -126, 127⟩
def FloatFmt.f64 : FloatFmt := ⟨53, -1022, 1023⟩
def FloatFmt.h16 : FloatFmt := ⟨11, -14, 15⟩
/-- BF16 (02/R65). -/
def FloatFmt.bf16 : FloatFmt := ⟨8, -126, 127⟩
/-- E4M3 and E5M2 (02/R69). -/
def FloatFmt.e4m3 : FloatFmt := ⟨4, -6, 8⟩
@[inherit_doc FloatFmt.e4m3] def FloatFmt.e5m2 : FloatFmt := ⟨3, -14, 15⟩

/-- The number of bits of `m`. -/
def bitLen (m : Nat) : Nat := if m = 0 then 0 else Nat.log2 m + 1

/-- `m * 2^k`, rounded down when `k` is negative. -/
def shiftBy (m : Nat) (k : Int) : Nat := if 0 ≤ k then m * 2 ^ k.toNat else m / 2 ^ (-k).toNat

/-- `m * 2^e` as an integer at scale `2^s`, for `s ≤ e`. -/
def scaleTo (m : Nat) (e s : Int) : Nat := m * 2 ^ (e - s).toNat

/-- The signed integer of a sign and magnitude. -/
def signed (neg : Bool) (m : Nat) : Int := if neg then -(m : Int) else m

/-- The finite value of a signed integer at scale 2^e; an exact zero takes the sign `zneg`. -/
def Num.ofInt (v : Int) (e : Int) (zneg : Bool := false) : Num :=
  if v = 0 then .fin zneg 0 0 else .fin (decide (v < 0)) v.natAbs e

/-- Whether a value is a NaN or NaR. -/
def Num.isNaN : Num → Bool
  | .nan _ => true | .nar => true | _ => false
/-- Whether reading the value as an arithmetic operand sets IV by itself: a signalling NaN or a NaR (02/R62). -/
def Num.signals : Num → Bool
  | .nan s => s | .nar => true | _ => false
/-- The sign bit. -/
def Num.neg : Num → Bool
  | .fin s _ _ => s | .inf s => s | _ => false
/-- Whether the value is an exact zero. -/
def Num.isZero : Num → Bool
  | .fin _ 0 _ => true | _ => false
/-- The value with its sign inverted. -/
def Num.negate : Num → Num
  | .fin s m e => .fin (!s) m e | .inf s => .inf (!s) | x => x
/-- The value with its sign cleared. -/
def Num.abs : Num → Num
  | .fin _ m e => .fin false m e | .inf _ => .inf false | x => x

/-- Comparison of two finite or infinite values, -0 equal to +0. -/
def Num.cmp (a b : Num) : Ordering :=
  match a, b with
  | .inf s, .inf t => if s = t then .eq else if s then .lt else .gt
  | .inf s, _ => if s then .lt else .gt
  | _, .inf t => if t then .gt else .lt
  | .fin s m e, .fin t n f =>
    let k := min e f
    compare (signed s (scaleTo m e k)) (signed t (scaleTo n f k))
  | _, _ => .eq

/-- a < b for values that are not NaN. -/
def Num.lt (a b : Num) : Bool := a.cmp b == .lt

/-- The sign of an exact zero sum (02/R68). -/
def zeroSign (rnd : Rnd) (a b : Bool) : Bool := if a = b then a else rnd == .rd

/-- a + b exactly, with IV by 02/R62. -/
def Num.add (rnd : Rnd) (a b : Num) : Num × Flags :=
  if a.isNaN || b.isNaN then (.nan false, flagIf (a.signals || b.signals) fIV)
  else match a, b with
    | .inf s, .inf t => if s = t then (.inf s, 0) else (.nan false, fIV)
    | .inf s, _ => (.inf s, 0)
    | _, .inf t => (.inf t, 0)
    | .fin s m e, .fin t n f =>
      let k := min e f
      let v := signed s (scaleTo m e k) + signed t (scaleTo n f k)
      (Num.ofInt v k (zeroSign rnd s t), 0)
    | x, _ => (x, 0)

/-- a * b exactly; the sign is that of both operands together, so a tapered zero times a negative value is -0 (log 62). -/
def Num.mul (a b : Num) : Num × Flags :=
  if a.isNaN || b.isNaN then (.nan false, flagIf (a.signals || b.signals) fIV)
  else match a, b with
    | .fin s m e, .fin t n f => (.fin (s != t) (m * n) (if m * n = 0 then 0 else e + f), 0)
    | _, _ => if a.isZero || b.isZero then (.nan false, fIV) else (.inf (a.neg != b.neg), 0)

/-- a * b + c exactly; a NaN operand gives a NaN, with IV only for a signalling one (log 13). -/
def Num.fma (rnd : Rnd) (a b c : Num) : Num × Flags :=
  if a.isNaN || b.isNaN || c.isNaN then (.nan false, flagIf (a.signals || b.signals || c.signals) fIV)
  else
    let (p, fp) := a.mul b
    if p.isNaN then (p, fp) else p.add rnd c

/-- An approximation from below in magnitude: the exact magnitude is m * 2^e, or lies strictly between it and
(m + 1) * 2^e when `sticky`. -/
structure Mag where
  m : Nat
  e : Int
  sticky : Bool
  deriving DecidableEq, Repr

/-- Whether a rounding adds one to the kept significand. -/
def roundsUp (rnd : Rnd) (neg odd : Bool) (rem half : Nat) (sticky : Bool) : Bool :=
  match rnd with
  | .rne => decide (half < rem) || (rem == half && (sticky || odd))
  | .rz => false
  | .ru => !neg && (rem != 0 || sticky)
  | .rd => neg && (rem != 0 || sticky)

/-- A magnitude rounded to a multiple of 2^q: the multiple and whether it is inexact. `half` of a unit is exact because
one more bit is kept. -/
def roundAt (rnd : Rnd) (neg : Bool) (x : Mag) (q : Int) : Nat × Bool :=
  let s := (q - x.e).toNat
  let up := shiftBy x.m (x.e - q)
  if q ≤ x.e then (up, x.sticky)
  else
    let rem := x.m % 2 ^ s
    (if roundsUp rnd neg (up % 2 == 1) (2 * rem) (2 ^ s) x.sticky then up + 1 else up, rem != 0 || x.sticky)

/-- The largest finite significand and its exponent: all ones, but E4M3 stops at 448 (02/R69). -/
def FloatFmt.maxSig (f : FloatFmt) : Nat := if f = .e4m3 then 14 else 2 ^ f.prec - 1
/-- The exponent of the least bit of the largest finite value. -/
def FloatFmt.maxQ (f : FloatFmt) : Int := f.emax - (f.prec - 1 : Nat)

/-- The bits of a finite value `sig * 2^q` that the format holds. -/
def FloatFmt.pack (f : FloatFmt) (neg : Bool) (sig : Nat) (q : Int) : Nat :=
  let width := (f.emax - f.emin + 3).toNat
  let expBits := if f = .e4m3 then 4 else Nat.log2 width
  let (sig, q) := if sig = 2 ^ f.prec then (sig / 2, q + 1) else (sig, q)
  let body := if sig < 2 ^ (f.prec - 1) then sig
    else (q + (f.prec - 1 : Nat) + 1 - f.emin).toNat * 2 ^ (f.prec - 1) + (sig - 2 ^ (f.prec - 1))
  (if neg then 2 ^ (expBits + f.prec - 1) else 0) + body

/-- The bits of an infinity, of the largest finite value and of the canonical NaN (02/R66, R69). -/
def FloatFmt.infBits (f : FloatFmt) (neg : Bool) : Nat := f.pack neg (2 ^ (f.prec - 1)) (f.maxQ + 1)
@[inherit_doc FloatFmt.infBits] def FloatFmt.maxBits (f : FloatFmt) (neg : Bool) : Nat := f.pack neg f.maxSig f.maxQ
@[inherit_doc FloatFmt.infBits] def FloatFmt.nanBits (f : FloatFmt) : Nat :=
  if f = .e4m3 then 0x7F else f.infBits false + 2 ^ (f.prec - 2)

/-- Rounding a non-zero magnitude into a float format, with its flags (02/R67, R68, R70). -/
def FloatFmt.round (f : FloatFmt) (rnd : Rnd) (sat : Bool) (neg : Bool) (x : Mag) : Nat × Flags :=
  let ex := x.e + (bitLen x.m : Int) - 1
  let q := max ex f.emin - (f.prec - 1 : Nat)
  let (sig, inexact) := roundAt rnd neg x q
  let exceeds := decide (f.maxQ < q) || (q == f.maxQ && decide (f.maxSig < sig))
  if exceeds then
    let toInf := match rnd with
      | .rne => true | .rz => false | .ru => !neg | .rd => neg
    if toInf then
      if sat then (f.maxBits neg, fSAT ||| fNX)
      else if f = .e4m3 then (f.nanBits, fIV ||| fOF ||| fNX)
      else (f.infBits neg, fOF ||| fNX)
    else (f.maxBits neg, fOF ||| fNX)
  else
    let tiny := decide (ex < f.emin - 1) ||
      (ex == f.emin - 1 && (roundAt rnd neg x (ex - (f.prec - 1 : Nat))).1 != 2 ^ f.prec)
    (f.pack neg sig q, flagIf inexact fNX ||| flagIf (tiny && inexact) fUF)

/-- Rounding an exact value into a float format (02/R67 to R70). An infinity that saturates in E4M3 sets SAT alone, not NX too (DESIGN
CHOICE, log 67). -/
def FloatFmt.roundNum (f : FloatFmt) (rnd : Rnd) (sat : Bool) : Num → Nat × Flags
  | .nan _ => (f.nanBits, 0)
  | .nar => (f.nanBits, 0)
  | .inf s => if f = .e4m3 then (if sat then (f.maxBits s, fSAT) else (f.nanBits, fIV)) else (f.infBits s, 0)
  | .fin s 0 _ => (f.pack s 0 0, 0)
  | .fin s m e => f.round rnd sat s ⟨m, e, false⟩

/-- Reading a float element (02/R64, R65, R69); a NaN whose top fraction bit is clear is signalling, E4M3 has none. -/
def FloatFmt.read (f : FloatFmt) (bits : Nat) : Num :=
  let expBits := if f = .e4m3 then 4 else Nat.log2 (f.emax - f.emin + 3).toNat
  let frac := bits % 2 ^ (f.prec - 1)
  let ex := bits / 2 ^ (f.prec - 1) % 2 ^ expBits
  let neg := bits / 2 ^ (expBits + f.prec - 1) % 2 == 1
  if f = .e4m3 then
    if bits % 128 = 127 then .nan false
    else if ex = 0 then .fin neg frac (if frac = 0 then 0 else -9) else .fin neg (8 + frac) ((ex : Int) - 10)
  else if ex = 2 ^ expBits - 1 then
    (if frac = 0 then .inf neg else .nan (frac / 2 ^ (f.prec - 2) % 2 == 0))
  else if ex = 0 then .fin neg frac (if frac = 0 then 0 else f.emin - (f.prec - 1 : Nat))
  else .fin neg (2 ^ (f.prec - 1) + frac) (f.emin + (ex : Int) - 1 - (f.prec - 1 : Nat))

/-- The length of the run of bits equal to `b` from bit `i - 1` down. -/
def runLen (c : Nat) (b : Nat) : Nat → Nat
  | 0 => 0
  | i + 1 => if c / 2 ^ i % 2 = b then 1 + runLen c b i else 0

/-- The value of an n-bit tapered code (02/R71); its one zero is read as +0 (DESIGN CHOICE, log 62). -/
def taperedValue (n c : Nat) : Num :=
  if c = 0 then .fin false 0 0
  else if c = 2 ^ (n - 1) then .nar
  else
    let neg := c / 2 ^ (n - 1) % 2 == 1
    let c := if neg then 2 ^ n - c else c
    let b := c / 2 ^ (n - 2) % 2
    let k := runLen c b (n - 1)
    let rg : Int := if b = 1 then (k : Int) - 1 else -(k : Int)
    let left := n - 1 - k - 1
    let e := if left = 0 then 0 else c / 2 ^ (left - 1) % 2
    let fb := left - 1
    .fin neg (2 ^ fb + c % 2 ^ fb) (2 * rg + e - fb)

/-- The code of the largest finite magnitude. -/
def taperedMax (n : Nat) : Nat := 2 ^ (n - 1) - 1

/-- An exact value into an n-bit tapered code, with its flags (02/R72). -/
def taperedEncode (n : Nat) (x : Num) : Nat × Flags :=
  let sgn (neg : Bool) (q : Nat) : Nat := if neg then (2 ^ n - q) % 2 ^ n else q
  match x with
  | .fin _ 0 _ => (0, 0)
  | .fin neg m e =>
    let a : Num := .fin false m e
    let maxpos := taperedValue n (taperedMax n)
    let minpos := taperedValue n 1
    if a.cmp maxpos != .lt then (sgn neg (taperedMax n), flagIf (a.cmp maxpos == .gt) (fSAT ||| fNX))
    else if a.cmp minpos != .gt then (sgn neg 1, flagIf (a.cmp minpos == .lt) (fSAT ||| fNX))
    else
      let l := bitLen m
      let ex := e + (l : Int) - 1
      let rg := ex / 2
      let eb := (ex - 2 * rg).toNat
      let (reg, rl) := if 0 ≤ rg then ((2 ^ (rg.toNat + 1) - 1) * 2, rg.toNat + 2) else (1, (-rg).toNat + 1)
      let s := (reg * 2 + eb) * 2 ^ (l - 1) + (m - 2 ^ (l - 1))
      let total := rl + 1 + (l - 1)
      if total ≤ n - 1 then (sgn neg (s * 2 ^ (n - 1 - total)), 0)
      else
        let d := total - (n - 1)
        let q := s / 2 ^ d
        let t := s % 2 ^ d
        (sgn neg (if 2 ^ d < 2 * t || (2 ^ d == 2 * t && q % 2 == 1) then q + 1 else q), flagIf (t != 0) fNX)
  | _ => (2 ^ (n - 1), fIV)

/-- An exact value of a tapered result needs NX when the code's value differs: a code one step off differs (02/R72). -/
def integerOf (rnd : Rnd) (neg : Bool) (m : Nat) (e : Int) : Int × Bool :=
  let (v, inexact) := roundAt rnd neg ⟨m, e, false⟩ 0
  (signed neg v, inexact)

/-- The range of an integer format. -/
def Fmt.intRange : Fmt → Option (Int × Int)
  | .s32 => some (-2 ^ 31, 2 ^ 31 - 1)
  | .n32 => some (0, 2 ^ 32 - 1)
  | .s64 => some (-2 ^ 63, 2 ^ 63 - 1)
  | .s8x4 => some (-128, 127)
  | .s4x8 => some (-7, 7)
  | .z4x8 => some (0, 15)
  | _ => none

/-- The float format of a format code. -/
def Fmt.float : Fmt → Option FloatFmt
  | .f32 => some .f32 | .f64 => some .f64 | .h16x2 => some .h16 | .bf16x2 => some .bf16
  | .e4m3x4 => some .e4m3 | .e5m2x4 => some .e5m2 | _ => none

/-- The width of a tapered code. -/
def Fmt.tapered : Fmt → Option Nat
  | .t8x4 => some 8 | .t6x5 => some 6 | _ => none

/-- Elements of a lane word, a pair counting as one (02/R56, 05/R166). -/
def Fmt.count : Fmt → Nat
  | .h16x2 => 2 | .bf16x2 => 2 | .e4m3x4 => 4 | .e5m2x4 => 4 | .t8x4 => 4 | .t6x5 => 5 | .s8x4 => 4
  | .s4x8 => 8 | .z4x8 => 8 | _ => 1

/-- Bits of an element. -/
def Fmt.bits : Fmt → Nat
  | .s64 => 64 | .f64 => 64 | .h16x2 => 16 | .bf16x2 => 16 | .e4m3x4 => 8 | .e5m2x4 => 8 | .t8x4 => 8
  | .t6x5 => 6 | .s8x4 => 8 | .s4x8 => 4 | .z4x8 => 4 | _ => 32

/-- Whether the format occupies a register pair (02/R59). -/
def Fmt.isPair : Fmt → Bool
  | .s64 => true | .f64 => true | _ => false

/-- Whether the format is a float format. -/
def Fmt.isFloat (f : Fmt) : Bool := f.float.isSome
/-- Whether the format is an integer format. -/
def Fmt.isInt (f : Fmt) : Bool := f.intRange.isSome

/-- The format code of 02/R56. -/
def Fmt.code : Fmt → Nat
  | .b32 => 0 | .s32 => 1 | .n32 => 2 | .f32 => 3 | .h16x2 => 4 | .bf16x2 => 5 | .s64 => 6 | .f64 => 7 | .e4m3x4 => 8
  | .e5m2x4 => 9 | .t8x4 => 10 | .t6x5 => 11 | .s8x4 => 12 | .s4x8 => 13 | .z4x8 => 14

/-- The format of a code; codes 0x0F to 0x1F are reserved (02/R56, R57). -/
def Fmt.ofCode (c : Nat) : Option Fmt :=
  [Fmt.b32, .s32, .n32, .f32, .h16x2, .bf16x2, .s64, .f64, .e4m3x4, .e5m2x4, .t8x4, .t6x5, .s8x4, .s4x8, .z4x8][c]?

/-- Element `i` of a lane value (64 bits for a pair). -/
def Fmt.elem (f : Fmt) (x : Nat) (i : Nat) : Nat := x / 2 ^ (f.bits * i) % 2 ^ f.bits

/-- A two's complement number of `n` bits. -/
def toSigned (n x : Nat) : Int := if x < 2 ^ (n - 1) then x else (x : Int) - 2 ^ n

/-- The exact value of an element's bits, with INTRES for S4's reserved code; `z` is a Z4 zero point (02/R76, R77). -/
def Fmt.value (f : Fmt) (bits : Nat) (z : Nat := 0) : Num × Flags :=
  match f.float, f.tapered with
  | some ff, _ => (ff.read bits, 0)
  | _, some n => (taperedValue n bits, 0)
  | _, _ =>
    match f with
    | .s4x8 => if bits = 8 then (.fin false 0 0, fINTRES) else (Num.ofInt (toSigned 4 bits) 0, 0)
    | .z4x8 => (Num.ofInt ((bits : Int) - z) 0, 0)
    | .n32 => (Num.ofInt bits 0, 0)
    | .b32 => (Num.ofInt bits 0, 0)
    | _ => (Num.ofInt (toSigned f.bits bits) 0, 0)

/-- An integer result: wrapped modulo 2^width, or clamped with SAT; S4 is always clamped (02/R75, R76). A negative value into N32 is such a
result, that of a narrower integer too (02/R78; DESIGN CHOICE, log 78). -/
def Fmt.wrap (f : Fmt) (sat : Bool) (v : Int) : Nat × Flags :=
  match f.intRange with
  | some (lo, hi) =>
    if (sat || f = .s4x8) && (v < lo || hi < v) then
      ((max lo (min hi v) % 2 ^ f.bits).toNat, fSAT)
    else ((v % 2 ^ f.bits).toNat, 0)
  | none => ((v % 2 ^ f.bits).toNat, 0)

/-- A float or tapered value into an integer format: rounded; out of range saturates with IV, and without SAT in every format (DESIGN CHOICE, log
78); NaN gives 0 with IV (02/R78). -/
def Fmt.toInt (f : Fmt) (rnd : Rnd) (x : Num) : Nat × Flags :=
  match f.intRange with
  | none => (0, 0)
  | some (lo, hi) =>
    let enc (v : Int) : Nat := (v % 2 ^ f.bits).toNat
    match x with
    | .fin neg m e =>
      let (v, inexact) := integerOf rnd neg m e
      if v < lo then (enc lo, fIV) else if hi < v then (enc hi, fIV) else (enc v, flagIf inexact fNX)
    | .inf neg => (enc (if neg then lo else hi), fIV)
    | _ => (0, fIV)

/-- Round(x, fmt, rnd, sat) of 03/R119; `fromFloat` says that x came from a float or tapered value. -/
def Fmt.round (f : Fmt) (rnd : Rnd) (sat fromFloat : Bool) (x : Num) : Nat × Flags :=
  match f.float, f.tapered with
  | some ff, _ => ff.roundNum rnd sat x
  | _, some n => taperedEncode n x
  | _, _ =>
    if fromFloat then f.toInt rnd x
    else match x with
      | .fin neg m e => f.wrap sat (signed neg (shiftBy m e))
      | _ => (0, fIV)

/-- The exact sum of a list of finite values: a signed integer and its scale. -/
def sumFin : List Num → Int × Int
  | [] => (0, 0)
  | .fin s m e :: xs =>
    let (v, k) := sumFin xs
    if m = 0 then (v, k)
    else if v = 0 then (signed s m, e)
    else
      let q := min e k
      (signed s (scaleTo m e q) + v * 2 ^ (k - q).toNat, q)
  | _ :: xs => sumFin xs

/-- The exact sum with the special values of 02/R80: a NaN, or infinities of both signs, gives NaN with IV. A zero sum is signed as
02/R68 gives: of zeros of one sign it has that sign, any other is -0 in mode RD and +0 in the others; R80 gives +0 for VDOT, which is
RNE always (log 66). A tapered zero counts as +0 (log 62). -/
def exactSum (xs : List Num) (r : Rnd := .rne) : Num × Flags :=
  if xs.any Num.isNaN then (.nan false, fIV)
  else
    let pos := xs.any (· == .inf false)
    let neg := xs.any (· == .inf true)
    if pos && neg then (.nan false, fIV)
    else if pos then (.inf false, 0)
    else if neg then (.inf true, 0)
    else
      let (v, k) := sumFin xs
      let neg := xs.all fun x => x.isZero && x.neg
      (Num.ofInt v k (neg || (r == .rd && !(xs.all fun x => x.isZero && !x.neg))), 0)

/-- The condition codes on an ordering (04/R127). -/
def condHolds (c : Nat) (o : Ordering) : Bool :=
  match c with
  | 0 => o == .eq | 1 => o != .eq | 2 => o == .lt | 3 => o != .gt | 4 => o == .gt | _ => o != .lt

/-- Compare(cond, a, b) of 05/R161 on values, with IV. -/
def compareNum (c : Nat) (a b : Num) : Bool × Flags :=
  if a.isNaN || b.isNaN then
    (c == 1, flagIf (if c ≤ 1 then a.signals || b.signals else true) fIV)
  else (condHolds c (a.cmp b), 0)

/-- The lesser (or greater) of two float values: -0 below +0, a NaN gives a NaN (05/R160). -/
def minMax (greater : Bool) (a b : Num) : Num × Flags :=
  if a.isNaN || b.isNaN then (.nan false, flagIf (a.signals || b.signals) fIV)
  else
    let less := match a.cmp b with
      | .lt => true | .gt => false | .eq => a.neg && !b.neg
    (if less != greater then a else b, 0)

/-! ### Special functions (02/R81, R82): exact where the function is, else an approximation from below whose error lies
far under the distance to a rounding boundary (log 11). -/

/-- The integer square root by bits, from bit `k - 1` down. -/
def isqrtFrom (n : Nat) : Nat → Nat → Nat
  | 0, r => r
  | k + 1, r => isqrtFrom n k (if (r + 2 ^ k) * (r + 2 ^ k) ≤ n then r + 2 ^ k else r)
/-- The integer square root. -/
def isqrt (n : Nat) : Nat := isqrtFrom n (bitLen n / 2 + 1) 0

/-- Bits of the fixed-point approximations. -/
def fxBits : Nat := 512
/-- One in fixed point. -/
def fxOne : Nat := 2 ^ fxBits
/-- Fixed-point product. -/
def fxMul (a b : Nat) : Nat := a * b / fxOne

/-- Σ x^(2k+1)/(2k+1) with alternating signs when `alt`, from term `k`, where p = x^(2k+1). -/
def oddSeries (alt : Bool) (x2 : Nat) : Nat → Nat → Nat → Int
  | 0, _, _ => 0
  | n + 1, k, p =>
    (if alt && k % 2 == 1 then -((p / (2 * k + 1) : Nat) : Int) else ((p / (2 * k + 1) : Nat) : Int)) +
      oddSeries alt x2 n (k + 1) (fxMul p x2)

/-- atanh(x) for x up to 1/3, in fixed point. -/
def fxAtanh (x : Nat) : Nat := (oddSeries false (fxMul x x) 170 0 x).toNat
/-- ln 2 in fixed point. -/
def fxLn2 : Nat := 2 * fxAtanh (fxOne / 3)
/-- atan(1/n) in fixed point. -/
def fxAtanInv (n : Nat) : Nat := (oddSeries true (fxOne / (n * n)) 120 0 (fxOne / n)).toNat
/-- π in fixed point. -/
def fxPi : Nat := 16 * fxAtanInv 5 - 4 * fxAtanInv 239

/-- Σ x^k/k! from term `k`, where t = x^k/k!. -/
def expSeries (x : Nat) : Nat → Nat → Nat → Nat
  | 0, _, _ => 0
  | n + 1, k, t => t + expSeries x n (k + 1) (fxMul t x / (k + 1))
/-- exp(x) for x in [0, 1]. -/
def fxExp (x : Nat) : Nat := expSeries x 110 0 fxOne

/-- Σ (-1)^k x^(2k+1)/(2k+1)!. -/
def sinSeries (x2 : Nat) : Nat → Nat → Nat → Int
  | 0, _, _ => 0
  | n + 1, k, t => (if k % 2 = 0 then (t : Int) else -(t : Int)) +
      sinSeries x2 n (k + 1) (fxMul t x2 / ((2 * k + 2) * (2 * k + 3)))
/-- sin(x) for x in [0, 2]. -/
def fxSin (x : Nat) : Nat := (sinSeries (fxMul x x) 60 0 x).toNat

/-- A fixed-point approximation as a magnitude, its lowest bits dropped. -/
def fxMag (v : Nat) : Mag := ⟨v / 2 ^ 16, 16 - (fxBits : Int), true⟩

/-- A special function's rounding into F32. -/
def f32Of (neg : Bool) (x : Mag) : Nat × Flags := FloatFmt.f32.round .rne false neg x
/-- An exact F32 result. -/
def f32Exact (x : Num) : Nat × Flags := FloatFmt.f32.roundNum .rne false x
/-- The canonical NaN with IV. -/
def f32Invalid : Nat × Flags := (FloatFmt.f32.nanBits, fIV)
/-- One. -/
def Num.one (neg : Bool := false) : Num := .fin neg 1 0

/-- The special functions in opcode order (05/R174). -/
inductive Special where
  | rcp | rsq | sqrt | exp2 | log2 | sinpi | cospi | tanh
  deriving DecidableEq, Repr

/-- 1/x for x = m * 2^e. -/
def rcpMag (m : Nat) (e : Int) : Mag :=
  let k := bitLen m + 40
  ⟨2 ^ k / m, -(k : Int) - e, 2 ^ k % m != 0⟩

/-- √x, and 1/√x, for x = m * 2^e with e made even. -/
def sqrtMag (m : Nat) (e : Int) : Mag :=
  let (m, e) := if e % 2 = 0 then (m, e) else (2 * m, e - 1)
  let v := m * 2 ^ 80
  let r := isqrt v
  ⟨r, e / 2 - 40, r * r != v⟩
@[inherit_doc sqrtMag] def rsqMag (m : Nat) (e : Int) : Mag :=
  let (m, e) := if e % 2 = 0 then (m, e) else (2 * m, e - 1)
  let k := bitLen m + 40
  let r := isqrt (2 ^ (2 * k) / m)
  ⟨r, -(k : Int) - e / 2, r * r * m != 2 ^ (2 * k)⟩

/-- The fraction of x = m * 2^e (e negative) in fixed point. -/
def fxFrac (m : Nat) (e : Int) : Nat := (m % 2 ^ (-e).toNat) * 2 ^ (fxBits - (-e).toNat)

/-- 2^x for a value that is no integer. -/
def exp2Mag (neg : Bool) (m : Nat) (e : Int) : Mag :=
  let whole := m / 2 ^ (-e).toNat
  let fr := fxFrac m e
  let (n, f) : Int × Nat := if neg then (-(whole : Int) - 1, fxOne - fr) else (whole, fr)
  let x := fxMag (fxExp (fxMul f fxLn2))
  ⟨x.m, x.e + n, true⟩

/-- log₂ x for x = m * 2^e that is no power of two: sign and magnitude. -/
def log2Mag (m : Nat) (e : Int) : Bool × Mag :=
  let l := bitLen m
  let ex := e + (l : Int) - 1
  let y := m * 2 ^ (fxBits - (l - 1))
  let z := (y - fxOne) * fxOne / (y + fxOne)
  let v : Int := ex * (fxOne : Int) + ((2 * fxAtanh z * fxOne / fxLn2 : Nat) : Int)
  (decide (v < 0), fxMag v.natAbs)

/-- sin(π r) for r in (0, 1) given in fixed point. -/
def sinPiFrac (r : Nat) : Mag := fxMag (fxSin (fxMul fxPi (if fxOne < 2 * r then fxOne - r else r)))

/-- exp(x) - 1 over exp(x) + 1 for x = 2|a|, |a| below 32, by 2^7 squarings of exp(x / 2^7). -/
def squareTimes : Nat → Nat → Nat
  | 0, x => x
  | n + 1, x => squareTimes n (fxMul x x)
@[inherit_doc squareTimes] def tanhMag (m : Nat) (e : Int) : Mag :=
  if 5 < e + (bitLen m : Int) then ⟨2 ^ 60 - 1, -60, true⟩
  else
    let x := shiftBy m (e + (fxBits : Int) + 1 - 7)
    let ex := squareTimes 7 (fxExp x)
    ⟨(ex - fxOne) * fxOne / (ex + fxOne) / 2 ^ 16, 16 - (fxBits : Int), true⟩

/-- One special function on an F32 value (02/R81, R82). -/
def Special.apply (f : Special) (x : Num) : Nat × Flags :=
  if x.isNaN then (FloatFmt.f32.nanBits, flagIf x.signals fIV)
  else
    match f, x with
    | .rcp, .inf s => f32Exact (.fin s 0 0)
    | .rcp, .fin s 0 _ => (FloatFmt.f32.infBits s, fDZ)
    | .rcp, .fin s m e => f32Of s (rcpMag m e)
    | .rsq, .fin s 0 _ => (FloatFmt.f32.infBits s, fDZ)
    | .rsq, .inf false => f32Exact (.fin false 0 0)
    | .rsq, .fin false m e => f32Of false (rsqMag m e)
    | .sqrt, .fin s 0 _ => f32Exact (.fin s 0 0)
    | .sqrt, .inf false => f32Exact (.inf false)
    | .sqrt, .fin false m e => f32Of false (sqrtMag m e)
    | .exp2, .inf s => if s then f32Exact (.fin false 0 0) else f32Exact (.inf false)
    | .exp2, .fin _ 0 _ => f32Exact .one
    | .exp2, .fin s m e =>
      if 9 < e + (bitLen m : Int) then
        (if s then f32Of false ⟨1, -400, true⟩ else f32Of false ⟨1, 400, true⟩)
      else if 0 ≤ e || m % 2 ^ (-e).toNat = 0 then f32Exact (.fin false 1 (signed s (shiftBy m e)))
      else f32Of false (exp2Mag s m e)
    | .log2, .fin _ 0 _ => (FloatFmt.f32.infBits true, fDZ)
    | .log2, .inf false => f32Exact (.inf false)
    | .log2, .fin false m e =>
      if m = 2 ^ (bitLen m - 1) then f32Exact (Num.ofInt (e + (bitLen m : Int) - 1) 0)
      else let (s, v) := log2Mag m e; f32Of s v
    | .sinpi, .fin s 0 _ => f32Exact (.fin s 0 0)
    | .sinpi, .fin s m e =>
      if 0 ≤ e || m % 2 ^ (-e).toNat = 0 then f32Exact (.fin s 0 0)
      else
        let odd := m / 2 ^ (-e).toNat % 2 == 1
        let r := fxFrac m e
        if 2 * r = fxOne then f32Exact (.one (s != odd)) else f32Of (s != odd) (sinPiFrac r)
    | .cospi, .fin _ 0 _ => f32Exact .one
    | .cospi, .fin _ m e =>
      let odd := shiftBy m e % 2 == 1
      if 0 ≤ e || m % 2 ^ (-e).toNat = 0 then f32Exact (.one odd)
      else
        let r := fxFrac m e
        if 2 * r = fxOne then f32Exact (.fin false 0 0)
        else if 2 * r < fxOne then f32Of odd (sinPiFrac (fxOne / 2 - r))
        else f32Of (!odd) (sinPiFrac (r - fxOne / 2))
    | .tanh, .inf s => f32Exact (.one s)
    | .tanh, .fin s 0 _ => f32Exact (.fin s 0 0)
    | .tanh, .fin s m e => f32Of s (tanhMag m e)
    | _, _ => f32Invalid

/-- A lane value packed from its elements. -/
def Fmt.pack (f : Fmt) (es : List Nat) : Nat := (es.zipIdx.map fun e => e.1 % 2 ^ f.bits * 2 ^ (f.bits * e.2)).sum
/-- The elements of a lane value. -/
def Fmt.elems (f : Fmt) (x : Nat) : List Nat := (List.range f.count).map (f.elem x)

end Sys2Proof

namespace Sys2Proof.Machine

/-! ### One element of a numeric operation (05/R159, R160), and the reduces of the copy engine (09/R273) -/

/-- The numeric operations. -/
inductive NumOp where
  | add | sub | mul | fma | mad | mulhi | min | max | abs | neg
  deriving DecidableEq, Repr

/-- Whether the operation has an addend, or takes one operand. -/
def NumOp.ternary (o : NumOp) : Bool := o == .fma || o == .mad
@[inherit_doc NumOp.ternary] def NumOp.unary (o : NumOp) : Bool := o == .abs || o == .neg

/-- High 32 bits of a product, signed for S32 (05/R159). -/
def mulhiBits (f : Fmt) (a b : Nat) : Nat :=
  if f = .s32 then (toSigned 32 a * toSigned 32 b / 2 ^ 32 % 2 ^ 32).toNat else a * b / 2 ^ 32

/-- One element: exact value, one rounding (05/R159, R160). -/
def NumOp.elem (o : NumOp) (f : Fmt) (rnd : Rnd) (sat : Bool) (a b c : Nat) : Nat × Flags :=
  let (x, fx) := f.value a
  let (y, fy) := f.value b
  let (z, fz) := f.value c
  let (r, fr) : Num × Flags :=
    match o with
    | .add => x.add rnd y
    | .sub => x.add rnd y.negate
    | .mul => x.mul y
    | .fma | .mad => x.fma rnd y z
    | .min => minMax false x y
    | .max => minMax true x y
    | .abs => (x.abs, 0)
    | .neg => (x.negate, 0)
    | .mulhi => (.fin false 0 0, 0)
  let srcs := (fx ||| (if o.unary then 0 else fy)) ||| (if o.ternary then fz else 0)
  if o = .mulhi then (mulhiBits f a b, 0)
  else
    let (bits, fl) := f.round rnd (sat && o != .min && o != .max) false r
    (bits, fl ||| fr ||| srcs)

/-- The word of a reduce's format: 8 bytes for S64 and F64, else 4 (09/R273). -/
def reduceWord (fmtc : Nat) : Nat := if Fmt.ofCode fmtc = some .s64 ∨ Fmt.ofCode fmtc = some .f64 then 8 else 4

/-- A reduce of the bytes `d` with the bytes `x`: OPC 2 to 4 element by element, with no flag, 5 to 7 bitwise (09/R273). -/
def reduceBytes (opc fmtc : Nat) (d x : List Byte) : List Byte :=
  if 5 ≤ opc then
    List.zipWith (fun a b => if opc = 5 then a &&& b else if opc = 6 then a ||| b else a ^^^ b) d x
  else
    let f := (Fmt.ofCode fmtc).getD .b32
    let op : NumOp := if opc = 2 then .add else if opc = 3 then .min else .max
    let one (a b : Nat) : Nat := f.pack (List.zipWith (fun p q => (op.elem f .rne false p q 0).1) (f.elems a) (f.elems b))
    let z := reduceWord fmtc
    (List.range (x.length / z)).flatMap fun i =>
      leBytes z (one (ofLE ((d.drop (z * i)).take z)) (ofLE ((x.drop (z * i)).take z)))

end Sys2Proof.Machine
end

