-- ==== Sys2Proof/Config.lean ====
section
/-! DEFINITION. What the device fixes (capacities, clocks) and the values the manual leaves open. An open value is an
opaque constant with no body, applied to a counter that the step advances, so that nothing can be proved of it. -/

namespace Sys2Proof.Config

/-- Which order the home takes update-only partials in (08/R245): read as the code of a permutation. Log 2. -/
opaque partialOrder : Nat → Nat
/-- Whether a written block is an alias of a read block, named by home and line, in a hashed signature (07/R207, R208). Log 2. -/
opaque aliasHit : Nat → Nat → Nat → Nat → Bool
/-- Which of the old and the new byte a copy whose source and destination overlap delivers (09/R273). Log 2. -/
opaque overlapNew : Nat → Bool
/-- SHA3-256, which 18/R440 and R443 name and do not give. Log 9. -/
opaque sha3 : List Byte → List Byte
/-- The ML-DSA-44 signature by the device attestation key (18/R444). Log 9. -/
opaque attest : List Byte → List Byte
/-- Whether the ML-DSA-44 signature of an image verifies (18/R440). Log 9. -/
opaque signatureOk : List Byte → Bool
/-- What the host reads of a poisoned line over Tabor, which 17/R433 does not give. Log 27. -/
opaque poisonRead : Nat → Byte
/-- The L2 slice, 0 to 255, that a line address is homed at: the hash of 00/R6 is not given. Log 2. -/
opaque homeSlice : Nat → BitVec 8
/-- Which value another wave sees of a bound register that has just been written (02/R89), of those it may see. Log 2. -/
opaque boundSeen : Nat → Nat → Nat

/-- A byte of the image that a save writes to its save slot, by its offset: the layout is not given (12/R345). Log 19. -/
opaque savedByte : Nat → Nat → Byte
/-- Which line a full cache gives up for another (00/R5). Log 2. -/
opaque victim : Nat → Nat
/-- The slice of its die, among `n` that are not fenced, that takes over a fenced slice's line (17/R430). Log 2. -/
opaque rehash : Nat → Nat → Nat

/-- Lines of the private data cache, of the checker cache and of the instruction cache of a core (00/R5). -/
def cacheLines : Nat := 2048
@[inherit_doc cacheLines] def ckcLines : Nat := 1024
@[inherit_doc cacheLines] def icacheLines : Nat := 1024
/-- Lines of the W buffer (07/R197). -/
def wLines : Nat := 64
/-- Kicks a core's copy engine holds (09/R279). -/
def maxKicks : Nat := 32
/-- Ranges of the range scoreboard (09/R281). -/
def maxRanges : Nat := 32
/-- Requests of a walker (08/R251). -/
def maxWalks : Nat := 16
/-- Loops a sequencer holds (10/R296). -/
def maxLoops : Nat := 8
/-- Accepted launches the device holds (12/R331). -/
def maxLaunches : Nat := 64
/-- Wave slots and vector registers of a scheduler (12/R334). -/
def schedWaves : Nat := 12
@[inherit_doc schedWaves] def schedRegs : Nat := 768
/-- Scratchpad bytes of a core (00/R5). -/
def scratchBytes : Nat := 768 * 1024
/-- Block contexts of a core (12/R334). -/
def coreBlocks : Nat := 16
/-- Records the device holds beyond a full event ring (15/R396). -/
def heldRecords : Nat := 256
/-- Remote atomics a requester may have unanswered (15/R404). -/
def maxAtomics : Nat := 64
/-- Cross-device writes a home holds per source (15/R401). -/
def maxHeldWrites : Nat := 512

end Sys2Proof.Config
end

