-- ==== Sys2Proof/Machine/State.lean ====
section
/-! DEFINITION. The state of the LWM-4516 as plain data, and its state after reset. One wave, with its block, gang and
launch, is in focus: an instruction is an instruction of that wave. The others stand in lists. -/

namespace Sys2Proof.Machine

/-- Memory as (address, byte) pairs, addresses strictly rising, no entry 0: an unlisted byte reads 0 (log 3). -/
abbrev Memory := List Host.Cell

/-- A vector register: 96 lanes, its tag (02/R55), its spill-pending bit and spill address (04/R451). -/
structure VReg where
  lanes : Vector Word 96
  fmt : Fmt
  bnd : BitVec 4
  pend : Bool
  paddr : DWord
  deriving DecidableEq, Repr

/-- A vector register at wave creation (06/R184). -/
def VReg.created : VReg := ⟨Vector.replicate 96 0#32, .b32, 0, false, 0⟩

/-- A translation register (08/R226). `dev`, `coh` and `tge` belong to the run FRAME names (13/R357, log 5), `virt` is the 57-bit virtual
address of VBASE when it was translated (13/R350, R360). -/
structure XtReg where
  vbase : DWord
  virt : Nat
  frame : Nat
  limit : Nat
  r : Bool
  w : Bool
  a : Bool
  valid : Bool
  dev : Nat
  coh : Bool
  tge : Bool
  deriving DecidableEq, Repr

/-- An xt that has never been loaded (06/R184, 08/R228). -/
def XtReg.created : XtReg := ⟨0, 0, 0, 0, false, false, false, false, 0, false, false⟩

/-- The numbers of a cross-device write once it has been sent: its 32-bit pair sequence number, its device sequence number, its
commit group, whether it is the group's last member (15/R401), for a reduce the OPC and FMT that the home combines
with (09/R273), and whether its line is poisoned (17/R433). -/
structure Sent where
  pseq : Word
  seq : Nat
  group : Nat
  last : Bool
  red : Option (Nat × Nat)
  poison : Bool
  deriving DecidableEq, Repr

/-- Where a buffered line is held: in its place, in the shadow pool, or in the context save area (07/R213, R214). -/
inductive Held where
  | place | pool | save
  deriving DecidableEq, Repr

/-- One 64-byte line of a W, B or G place: its home, the address the wave formed, the 57-bit virtual address that was translated, its bytes
by offset (a listed offset is a set mask bit), poison, where it is held, the numbers of its write once sent (07/R197, R213, R247, 15/R406),
and whether the last shootdown of its context hit its translation (13/R361). -/
structure BLine where
  isLocal : Bool
  dev : Nat
  line : Nat
  va : DWord
  virt : Nat
  coh : Bool
  bytes : List (Nat × Byte)
  poison : Bool
  held : Held
  sent : Option Sent
  hit : Bool
  deriving DecidableEq, Repr

/-- A place with its mark (07/R196, R211). -/
structure Place where
  lines : List BLine
  marked : Bool
  deriving DecidableEq, Repr

/-- An empty, unmarked place. -/
def Place.empty : Place := ⟨[], false⟩

/-- What a Waiting wave waits for (06/R186). -/
inductive Wait where
  /-- BAR.SYNC: the barrier and whether the generation of its arrival has ended. -/
  | barrier (id : BitVec 4) (released : Bool)
  /-- GONG.WAIT: tag and episode. -/
  | gong (tag : BitVec 3) (episode : Nat)
  /-- MB.WAIT: object, status register, parity, deadline in CYCLE (none: no timeout), and how the wait ended. -/
  | mbwait (obj : Nat) (sd : SReg) (parity : Bool) (deadline : Option Nat) (ended : Option (Bool × Word))
  /-- QPUSH (`push`) or QPOP of a queue, when it began to wait, and the register it names. -/
  | queue (q : BitVec 3) (push : Bool) (ticket : Nat) (r : SReg)
  | cpwait (n : BitVec 4)
  /-- A CPSEAL whose batch number is still in use (09/R280). -/
  | cpseal (n : BitVec 4)
  /-- MWAIT: the accumulator whose loops it waits for. -/
  | mwait (acc : BitVec 4)
  /-- Another access to an accumulator whose loops still run, or an MLOOP that finds the sequencer full (10/R296, R297). -/
  | mbusy
  | accslot
  | range
  /-- A store that needs a line in a full W buffer, whose implicit move waits for a home: the first line's address (07/R213). -/
  | wbfull (addr : DWord)
  | memdep
  /-- A remote access without an answer: its lanes, the lowest one's address and its access code (15/R405). -/
  | remote (lanes : Vector Word 3) (addr : DWord) (access : Nat)
  /-- YIELD: when it retired, and the waves of its set with their issue counts. -/
  | yield (since : Nat) (set : List (WaveKey × Nat))
  deriving DecidableEq, Repr

/-- A park (13/R362); `pool` names the context whose pool it waits on (14/R387). -/
structure Park where
  cause : ParkCause
  handle : Word
  link : Bool
  pool : Option CtxId
  deriving DecidableEq, Repr

/-- The life of a wave (06/R186). A saved wave keeps the life it had, with `Wave.saved` set (12/R344). -/
inductive Life where
  | created
  | ready
  | waiting (w : Wait)
  | parked (p : Park)
  | ended
  deriving DecidableEq, Repr

/-- A report of ERR 0x09 left with a batch: its kick and the slot offset (09/R278). -/
structure BatchReport where
  kick : Nat
  slot : Nat
  deriving DecidableEq, Repr

/-- A byte the stack cache holds: its address, the 57-bit virtual address that was translated, its translation and its value (06/R190,
13/R360). -/
structure StkByte where
  va : Nat
  virt : Nat
  dev : Nat
  pa : Nat
  coh : Bool
  byte : Byte
  deriving DecidableEq, Repr

/-- An accumulator slot (10/R293); `owner` none: free; `release` set: it returns to the free list when its loops end. -/
structure Slot where
  elems : Vector (Vector Word 64) 96
  isF32 : Bool
  bnd : BitVec 4
  flags : BitVec 7
  failed : Bool
  owner : Option WaveKey
  release : Bool
  deriving DecidableEq, Repr

/-- A slot with the values of binding (10/R293). -/
def Slot.bound (o : Option WaveKey) : Slot :=
  ⟨Vector.replicate 96 (Vector.replicate 64 0#32), true, 0, 0, false, o, false⟩

/-- A value of a state register 0x0D, 0x0E or 0x40 to 0x5F that a wave may still see after another wave's SWR, until the
CYCLE of the writer's core that 02/R89 names. -/
structure OldBound where
  index : Nat
  value : Word
  core : CoreId
  until_ : Nat
  deriving DecidableEq, Repr

/-- A wave: every piece of state 12/R345 saves, its coordinates (06/R181) and its place. `released` and `stamped`: the
Commit of a release order and the timestamp of an sc order have been made for the instruction in hand (08/R239). `wrote`: the
words (device, word) that it has written below D and that may still be held there; `floors`: for a word at D the step at which the value it
has read or written was current, which 07/R204 and R217 let no later read of it fall behind; `fetched` and `decoded`: the code
that it has fetched ahead and decoded ahead (08/R253, R254); `issued`: the instruction that a wave in Waiting has issued (06/R187);
`issues`: how often it has issued, `left`: how often it has left Ready otherwise (04/R139), `sampled`: its issues at its last sample
(18/R446). -/
structure Wave where
  key : WaveKey
  ctx : CtxId
  gx : Nat
  gy : Nat
  gz : Nat
  stage : Nat
  core : CoreId
  sched : BitVec 2
  slot : Nat
  stamp : Nat
  prio : Nat
  wbase : Nat
  valloc : Nat
  quota : Nat
  rot : Nat
  pc : DWord
  sregs : Vector Word 64
  vregs : Vector VReg 256
  status : Word
  bndst : Word
  abtn : Word
  tcause : Word
  tpc : DWord
  taddr : DWord
  tmask : Vector Word 3
  tvec : DWord
  slimit : DWord
  sliceIdx : Nat
  seqno : DWord
  errinj : Word
  injCount : Nat
  xts : Vector XtReg 8
  accs : Vector (Option (BitVec 4)) 16
  savedAccs : List (BitVec 4 × Slot)
  wbuf : Place
  sig : List (Bool × Nat × Nat)
  conflict : Bool
  unsealed : List Nat
  nextBatch : BitVec 4
  batchKicks : Vector (List Nat) 16
  reports : List BatchReport
  gong : Vector (Option Nat) 8
  life : Life
  killed : Bool
  saved : Bool
  todo : Option (Vector Word 3)
  released : Bool
  stamped : Bool
  stk : List StkByte
  flushes : Nat
  valMis : Nat
  resMis : Nat
  ckOnly : Bool
  byChecker : Bool
  starved : Bool
  issued : Option Instr
  issues : Nat
  left : Nat
  sampled : Nat
  waitFrom : Nat
  fetched : List (Nat × Byte)
  decoded : List (Nat × Byte)
  oldBounds : List OldBound
  wrote : List (Nat × Nat)
  floors : List (Nat × Nat × Nat)
  deriving DecidableEq, Repr

/-- The wave in focus when there is none: ended, every register 0 (log 4). -/
def Wave.absent : Wave :=
  { key := ⟨0, 0, 0, 0⟩, ctx := 0, gx := 0, gy := 0, gz := 0, stage := 0, core := 0, sched := 0, slot := 0, stamp := 0,
    prio := 0, wbase := 0, valloc := 16, quota := 0, rot := 0, pc := 0, sregs := Vector.replicate 64 0#32,
    vregs := Vector.replicate 256 VReg.created, status := 0, bndst := 0, abtn := 0, tcause := 0, tpc := 0, taddr := 0,
    tmask := Vector.replicate 3 0#32, tvec := 0, slimit := 0, sliceIdx := 0, seqno := 0, errinj := 0, injCount := 0,
    xts := Vector.replicate 8 XtReg.created, accs := Vector.replicate 16 Option.none, savedAccs := [], wbuf := Place.empty, sig := [],
    conflict := false, unsealed := [], nextBatch := 0, batchKicks := Vector.replicate 16 [], reports := [],
    gong := Vector.replicate 8 Option.none, life := .ended, killed := false, saved := false, todo := Option.none, released := false, stamped := false, stk := [],
    flushes := 0, valMis := 0, resMis := 0, ckOnly := false, byChecker := false, starved := false, issued := Option.none, issues := 0, left := 0,
    sampled := 0, waitFrom := 0, fetched := [], decoded := [], oldBounds := [], wrote := [], floors := [] }

/-- A named barrier (09/R255). -/
structure Barrier where
  gen : Bool
  expected : Option Nat
  count : Nat
  cr : Bool
  deriving DecidableEq, Repr

/-- A queue of a block: its declaration and its head, tail and count (09/R268). `cap` 0: undeclared. -/
structure Queue where
  prod : Nat
  cons : Nat
  cap : Nat
  ring : Nat
  head : Nat
  tail : Nat
  count : Nat
  deriving DecidableEq, Repr

/-- A block: local area, slot tags, barriers, queues and the B place (12/R345); `spad` is where its scratchpad run starts
(12/R334). -/
structure Block where
  key : BlockKey
  ctx : CtxId
  core : CoreId
  spad : Nat
  localSize : Nat
  bcap : Nat
  scratch : Memory
  poison : List Nat
  tags : List Nat
  bars : Vector Barrier 16
  queues : Vector Queue 8
  place : Place
  waves : Nat
  retired : Bool
  deriving DecidableEq, Repr

/-- No block. -/
def Block.absent : Block :=
  { key := ⟨0, 0, 0⟩, ctx := 0, core := 0, spad := 0, localSize := 0, bcap := 0, scratch := [], poison := [], tags := [],
    bars := Vector.replicate 16 ⟨false, Option.none, 0, false⟩, queues := Vector.replicate 8 ⟨0, 0, 0, 0, 0, 0, 0⟩,
    place := Place.empty, waves := 0, retired := true }

/-- Where a gang stands (12/R336, R343, R344, 06/R188); a saving gang issues nothing while its engine work ends. -/
inductive GangState where
  | placing | resident | saving | saved | retired
  deriving DecidableEq, Repr

/-- A gang and its G place; `started` orders gangs by age, `killed` marks a gang killed by a park resolution (13/R362), `saveSlot` is
the save slot of its context that it holds (12/R347, log 19). -/
structure Gang where
  key : GangKey
  ctx : CtxId
  quad : QuadId
  state : GangState
  placed : Nat
  blocks : Nat
  gcap : Nat
  place : Place
  waitFrom : Nat
  aged : Bool
  started : Nat
  killed : Bool
  saveSlot : Nat
  deriving DecidableEq, Repr

/-- No gang. -/
def Gang.absent : Gang := ⟨⟨0, 0⟩, 0, 0, .retired, 0, 0, 0, Place.empty, 0, false, 0, false, 0⟩

/-- A role of a launch record (12/R322). -/
structure Role where
  waves : Nat
  valloc : Nat
  acc : Nat
  spad : Nat
  deriving DecidableEq, Repr

/-- A queue declaration of a launch record (12/R323). -/
structure QueueDecl where
  ring : Nat
  cap : Nat
  cons : Nat
  prod : Nat
  deriving DecidableEq, Repr

/-- A launch record (12/R321). -/
structure Rec where
  code : DWord
  tvec : DWord
  gridx : Nat
  gridy : Nat
  gridz : Nat
  bclass : Nat
  prio : Nat
  nroles : Nat
  blocks : Nat
  gbuf : Nat
  bbuf : Nat
  roles : List Role
  queues : List QueueDecl
  gongLvl : List Nat
  gongCount : List Nat
  deps : List (Nat × Nat)
  doneIdx : Nat
  reservedOk : Bool
  deriving DecidableEq, Repr

/-- The empty record. -/
def Rec.absent : Rec := ⟨0, 0, 0, 0, 0, 0, 0, 0, 0, 0, 0, [], [], [], [], [], 0, true⟩

/-- Where a launch stands (12/R333). -/
inductive LaunchState where
  | waiting | ready | placing | running | complete
  deriving DecidableEq, Repr

/-- A Gong tag of a launch: level 0 undeclared, else 1 B, 2 G, 3 D; expected arrivals; arrivals of the current episode;
and the episode (09/R259, R261). -/
structure GongTag where
  level : Nat
  expected : Nat
  arrivals : Nat
  episode : Nat
  deriving DecidableEq, Repr

/-- A launch accepted by the device (12/R333). -/
structure Launch where
  id : Nat
  ctx : CtxId
  queue : QueueId
  count : Nat
  record : Rec
  recPtr : DWord
  state : LaunchState
  depsMet : List Bool
  nextGang : Nat
  returned : List Nat
  retired : Nat
  gong : Vector GongTag 8
  tagsHeld : Nat
  waitFrom : Nat
  aged : Bool
  deriving DecidableEq, Repr

/-- No launch. -/
def Launch.absent : Launch :=
  ⟨0, 0, 0, 0, Rec.absent, 0, .complete, [], 0, [], 0, Vector.replicate 8 ⟨0, 0, 0, 0⟩, 0, 0, false⟩

/-- A cached byte: its offset in the line, its value, and the step at which the cache took it. -/
structure CByte where
  off : Nat
  val : Byte
  at_ : Nat
  deriving DecidableEq, Repr

/-- A line of the private data cache or of the checker cache of a core: its home, the bytes it holds, the offsets that
are dirty on a software-managed page, and the address that the wave which made it dirty had formed (13/R367, R373, 04/R146). -/
structure CacheLine where
  dev : Nat
  line : Nat
  coh : Bool
  bytes : List CByte
  dirty : List Nat
  va : DWord
  deriving DecidableEq, Repr

/-- An update-only partial (08/R244): the peer whose core gathers it (none: this device), the core, home device, whether its page is
coherent, address, operator, width and value; for a peer's line the operand bytes of its lanes, which the home writes before it combines, and whether they are
poisoned (07/R219, 17/R433). -/
structure Partial where
  peer : Option Nat
  core : CoreId
  dev : Nat
  coh : Bool
  addr : Nat
  aop : BitVec 5
  wide : Bool
  val : DWord
  own : List (Nat × Byte)
  bad : Bool
  deriving DecidableEq, Repr

/-- An exact step sum in units of 2^-48, or a special; `made` marks a NaN that arose from elements none of which is a NaN
(10/R289 to R291). -/
inductive StepSum where
  | fin (v : Int)
  | inf (neg : Bool)
  | nan (made : Bool)
  deriving DecidableEq, Repr

/-- A step in the step buffer (10/R300, R301): the array's sums row by row, the exact sums of the operands it read, whether
a reserved S4 code was read, and the row that the checker recomputes. -/
structure Formed where
  arr : List (List StepSum)
  exact : List (List StepSum)
  intres : Bool
  rho : Nat
  deriving DecidableEq, Repr

/-- A loop of the sequencer (10/R296, R305): its MLOOP and where that stands, operand addresses, the next step to form, the next step to
accumulate, the step buffer, and for the step in front how often it has disagreed and whether it is to be formed again. -/
structure Loop where
  id : Nat
  owner : WaveKey
  slot : BitVec 4
  pc : DWord
  m : ML
  a0 : Nat
  b0 : Nat
  formed : Nat
  done : Nat
  buf : List Formed
  disagreed : Nat
  again : Bool
  running : Bool
  failed : Bool
  deriving DecidableEq, Repr

/-- A range of the range scoreboard (09/R281): who entered it, and whether loads wait too. -/
structure Range where
  lo : Nat
  hi : Nat
  blk : BlockKey
  owner : Nat
  isLoop : Bool
  deriving DecidableEq, Repr

/-- A kick of the copy engine and the request it is at (09/R271 to R279); `saved` holds the old values of source bytes
that the request itself has overwritten, `inj` the payload bit an injection flips, `pc` where the CPKICK stands. -/
structure Kick where
  id : Nat
  pc : DWord
  owner : WaveKey
  ctx : CtxId
  raw : List Byte
  off : Nat
  first : Bool
  started : Bool
  row : Nat
  pos : Nat
  sum : Word
  prevCk : Word
  err : Nat
  link : Bool
  ckmm : Bool
  noobj : Bool
  delivered : Nat
  finished : Bool
  held : Option Park
  barslot : Option Nat
  inj : Option Nat
  saved : List (Nat × Byte)
  deriving DecidableEq, Repr

/-- The walker operations (08/R249, R252). -/
inductive WalkOp where
  | cfl | civ | cwb | ici
  deriving DecidableEq, Repr

/-- A request of the walker: the object, the virtual address of the next line, under the bounds entry that the
instruction was checked against, and the lines left (08/R251). -/
structure Walk where
  op : WalkOp
  owner : WaveKey
  ctx : CtxId
  obj : Nat
  va : Nat
  left : Nat
  deriving DecidableEq, Repr

/-- A remote atomic without an answer (15/R404, R405): its tag, wave and lane, home, operation, whether its attempt ended
with LINKLOST, the answer once it has come, when it was sent last, and the lane's own operand bytes, which move with it (07/R219). -/
structure Outstanding where
  tag : BitVec 8
  wave : WaveKey
  lane : Nat
  dev : Nat
  pa : Nat
  op : AtomicOp
  linklost : Bool
  answer : Option DWord
  sentAt : Nat
  own : List (Nat × Byte)
  deriving DecidableEq, Repr

/-- A remote write whose home has not acknowledged it: wave, lane, home, numbers, bytes, and whether the acknowledgement
has come (15/R401, R405). Lane 96 is the fabric endpoint's own: a write that no instruction waits on; 97 plus the number of a
kick is the copy engine's. -/
structure PendingWrite where
  wave : WaveKey
  lane : Nat
  dev : Nat
  sent : Sent
  data : List (Nat × Byte)
  acked : Bool
  deriving DecidableEq, Repr

/-- The self-test that a unit awaits (17/R428 to R431): none; after a move up; at the present bin; one bin down; at bin 2
out of the fence. -/
inductive Retest where
  | no | up | present | down | readmit
  deriving DecidableEq, Repr

/-- Where a CLOSED core goes when it is empty (17/R428, R429, R431). -/
inductive Goal where
  | up | down | fence
  deriving DecidableEq, Repr

/-- A core. `cleanFrom` is the fabric time from which CLEANH counts, `deadTags` the tags of atomics that ended without an
answer with the time until which they are not reused (15/R404), `haltCycle` its CYCLE at a halt, `stamps` the dispatch-stamp
counter of each scheduler (01/R33), `crossed` the unit whose threshold crossing closed it (17/R428), `corrected` the
corrected errors of the hour in the checked registers of schedulers 0 to 3 and in the accumulator slots (17/R432), `moving` the bin from which a change
of bin started that its self-test has not ended (17/R428), `cache` its private data
cache and `ckc` its checker cache (01/R44). `mcnt` holds VPIPE, SPIPE, SFU of schedulers 0 to 3, then TILE (17/R426). -/
structure Core where
  start : BitVec 2
  cycle : Nat
  bin : BitVec 2
  closed : Bool
  goal : Goal
  retest : Retest
  mcnt : Vector Nat 13
  cleanFrom : Nat
  crossed : Option UnitId
  corrected : Vector Nat 5
  cache : List CacheLine
  ckc : List CacheLine
  icache : List (Nat × Byte)
  slots : Vector Slot 16
  loops : List Loop
  stepCtr : Nat
  reexec : Nat
  ranges : List Range
  kicks : List Kick
  walks : List Walk
  scClock : Nat
  sample : Vector (BitVec 4) 4
  stamps : Vector Nat 4
  nextTag : BitVec 8
  atomics : List Outstanding
  writes : List PendingWrite
  deadTags : List (BitVec 8 × Nat)
  haltCycle : Nat
  moving : Option (BitVec 2)
  deriving DecidableEq, Repr

/-- A core when it leaves a cold reset (log 7). -/
def Core.reset : Core :=
  { start := 0, cycle := 0, bin := 0, closed := false, goal := .up, retest := .no, mcnt := Vector.replicate 13 0, cleanFrom := 0, crossed := Option.none, corrected := Vector.replicate 5 0,
    cache := [], ckc := [], icache := [], slots := Vector.replicate 16 (Slot.bound Option.none), loops := [],
    stepCtr := 0, reexec := 0, ranges := [], kicks := [], walks := [], scClock := 0, sample := Vector.replicate 4 0,
    stamps := Vector.replicate 4 0, nextTag := 0, atomics := [], writes := [], deadTags := [], haltCycle := 0, moving := Option.none }

/-- An active snapshot (14/R380 to R388): context, slot, recorded base with its 57-bit virtual address (13/R358), physical range, parent slot, depth, serial, the
shadow lines, each a line, its 64 bytes and its poison, and whether a restore of it is in progress (14/R390). -/
structure Snap where
  ctx : CtxId
  slot : BitVec 4
  base : DWord
  virt : Nat
  lo : Nat
  len : Nat
  parent : Option (BitVec 4)
  depth : Nat
  serial : BitVec 28
  shadow : List (Nat × List Byte × Bool)
  rejecting : Bool
  deriving DecidableEq, Repr

/-- A restore in progress (14/R390, R392): context, the slots that end with it, range, the lines still to write with their
old values, and the wave. -/
structure Restore where
  ctx : CtxId
  slots : List (BitVec 4)
  lo : Nat
  len : Nat
  lines : List (Nat × List Byte × Bool)
  wave : WaveKey
  deriving DecidableEq, Repr

/-- A leaf of the translation tables that a TLB holds (13/R355, R360). -/
structure Leaf where
  dev : Nat
  frame : Nat
  size : Nat
  pin : Bool
  tge : Bool
  coh : Bool
  x : Bool
  a : Bool
  w : Bool
  r : Bool
  deriving DecidableEq, Repr

/-- An entry of the region bounds table (13/R352). -/
structure Region where
  lo : Nat
  hi : Nat
  vah : Bool
  v : Bool
  a : Bool
  w : Bool
  r : Bool
  deriving DecidableEq, Repr

/-- A context: its register block (18/R438, R439), bound registers (02/R83), snapshots and cached entries: the leaves
and the bounds entries that each core, or agent 512 for the rest of the device, holds (13/R354, R360). `cmdHeld`: the command of a switch, 1
out or 2 in, that CTXCMD requests and that waits for a replacement of firmware, or for a save of the context, to end (18/R439, R442); `shmap`: the leaves that were mapped in
the range of a RECALL or a flush when GO was set, as soon as the tables have been read (13/R359, R375). -/
structure Ctx where
  en : Bool
  wcomp : Bool
  diag : Bool
  bclmask : BitVec 16
  cmd : BitVec 2
  wkill : Bool
  lrej : Bool
  kills : Nat
  rbtbase : Nat
  troot : Nat
  evbase : DWord
  evsize : Nat
  stkbase : DWord
  stkslice : Nat
  stkcount : Nat
  savebase : Nat
  savesize : Nat
  savecount : Nat
  wdogk : Nat
  resfree : Nat
  flctl : Bool
  shbase : DWord
  shlen : DWord
  shkind : BitVec 2
  shrecall : Bool
  shgo : Bool
  shmap : Option (List (Nat × Leaf))
  lastLo : Nat
  lastLen : Nat
  lastKind : BitVec 2
  poolbase : Nat
  poolsize : Nat
  poolmode : Bool
  tagbase : Nat
  tagmbase : Nat
  tagmlen : Nat
  bdlo : Vector Word 16
  bdhi : Vector Word 16
  bndact : Word
  bndfmt : Word
  serial : BitVec 28
  killing : Bool
  switchedOut : Bool
  cmdHeld : Option (BitVec 2)
  tlb : List (Nat × Nat × Leaf)
  rbt : List (Nat × BitVec 8 × Region)
  deriving DecidableEq, Repr

/-- A context's registers after a device reset (log 8). -/
def Ctx.reset : Ctx :=
  { en := false, wcomp := false, diag := false, bclmask := 0, cmd := 0, wkill := false, lrej := false, kills := 0,
    rbtbase := 0, troot := 0, evbase := 0, evsize := 0, stkbase := 0, stkslice := 0, stkcount := 0, savebase := 0,
    savesize := 0, savecount := 0, wdogk := 26, resfree := 0, flctl := false, shbase := 0, shlen := 0, shkind := 0,
    shrecall := false, shgo := false, shmap := Option.none, lastLo := 0, lastLen := 0, lastKind := 0, poolbase := 0, poolsize := 0,
    poolmode := false, tagbase := 0, tagmbase := 0, tagmlen := 0, bdlo := Vector.replicate 16 0#32,
    bdhi := Vector.replicate 16 0#32, bndact := 0, bndfmt := 0, serial := 1, killing := false, switchedOut := false, cmdHeld := Option.none, tlb := [], rbt := [] }

/-- A launch queue's register block (12/R328 to R330), the pointers that LNCH named by record count (06/R184), and the
accepted launch that waits at the head for its dependences (12/R331). -/
structure LQueue where
  qbase : DWord
  en : Bool
  src : Bool
  notify : Bool
  ctx : BitVec 16
  qsize : Nat
  head : Word
  tail : Word
  state : BitVec 2
  err : BitVec 8
  lnch : List (Word × DWord)
  pend : Option Nat
  deriving DecidableEq, Repr

/-- A launch queue after reset (log 8). -/
def LQueue.reset : LQueue := ⟨0, false, false, false, 0, 0, 0, 0, 0, 0, [], Option.none⟩

/-- An event record (15/R397): kind, context, sequence number, time and the 40 bytes of its body. -/
structure Rcd where
  kind : Nat
  ctx : Nat
  seq : Nat
  ftime : Nat
  body : List Byte
  deriving DecidableEq, Repr

/-- A ring of records in memory (15/R396, 18/R448). -/
structure Ring where
  base : Nat
  size : Nat
  head : Word
  tail : Word
  lost : Word
  deriving DecidableEq, Repr

/-- A budget class (12/R338). -/
structure Budget where
  cores : Nat
  bw : Nat
  pwr : Nat
  usedBw : Nat
  usedPwr : Nat
  deriving DecidableEq, Repr

/-- A unit with a bin or a code strength of its own: an L2 slice, vault, port, MMS channel or scratchpad (17/R430, R432); `due`: a move of
its bin waits for a replacement of firmware (18/R442). -/
structure BinUnit where
  bin : BitVec 2
  strong : Bool
  corrected : Nat
  retrains : Nat
  cleanFrom : Nat
  retest : Retest
  due : Bool
  deriving DecidableEq, Repr

/-- A unit after a cold reset (17/R427: bin and strength kept, zero after a cold reset). -/
def BinUnit.reset : BinUnit := ⟨0, false, 0, 0, 0, .no, false⟩

/-- A Carillon port (15/R400). -/
structure Port where
  up : Bool
  retraining : Bool
  replays : Nat
  deriving DecidableEq, Repr

/-- A result a home keeps for a remote atomic (15/R404). -/
structure TagEntry where
  core : CoreId
  tag : BitVec 8
  result : DWord
  at_ : Nat
  deriving DecidableEq, Repr

/-- A write that a home holds: until the ones before it arrive, or until its commit group is whole (15/R401). `red` is the
OPC and FMT of a reduce (09/R273), `poison` marks a move of a poisoned line (17/R433), `ftime` is the stamp of its flit (15/R403). -/
structure HeldWrite where
  pseq : Word
  group : Nat
  last : Bool
  data : List (Nat × Byte)
  red : Option (Nat × Nat)
  poison : Bool
  ftime : Nat
  deriving DecidableEq, Repr

/-- How a peer answers: reachable; reachable but its responses are lost; not reachable. -/
inductive Route where
  | up | noAnswer | down
  deriving DecidableEq, Repr

/-- A peer device of the domain (15/R399 to R410): its memory; as a source, its PSEQ order and held writes
here and the results kept for it; as a home, the highest PSEQ of this device it has
performed without a gap, the writes it holds and the results it keeps for this device; the timestamp its responses
carry (07/R221); and its fabric time, which the stamps it receives advance (15/R403). -/
structure Peer where
  dev : Nat
  lost : Bool
  route : Route
  downFrom : Nat
  mem : Memory
  poison : List Nat
  pseqNext : Word
  performed : Word
  held : List HeldWrite
  table : List TagEntry
  outPerformed : Word
  outHeld : List HeldWrite
  outTable : List TagEntry
  scTime : Nat
  ftime : Nat
  deriving DecidableEq, Repr

/-- A message the device sends to a peer (15/R399, R404). -/
inductive Msg where
  | readReply (dev pa : Nat) (data : List Byte) (poison : Bool)
  | atomicReply (dev : Nat) (core : CoreId) (tag : BitVec 8) (val : DWord) (poison : Bool)
  | writeAck (dev : Nat) (pseq : Word)
  | ack (dev : Nat) (core : CoreId) (tag : BitVec 8)
  deriving DecidableEq, Repr

/-- FWSTAT's states (18/R440, R442). -/
inductive FwState where
  | idle | staged | handover | probation | recovery | fallback
  deriving DecidableEq, Repr

/-- A firmware image in a slot (0 A, 1 B, 2 recovery), with the rollback floor of its role (18/R440). The roles are numbered
management, scheduler of dies 0 to 3, fabric. -/
structure Running where
  slot : BitVec 2
  version : Nat
  stateVersion : Nat
  floor : Nat
  measurement : List Byte
  deriving DecidableEq, Repr

/-- The image of every slot after State.reset (log 8). -/
def Running.reset : Running := ⟨0, 0, 0, 0, List.replicate 32 0#8⟩

/-- An entry of the measurement log (18/R443): sequence, role number, reason, fabric time, image. -/
def mlEntry (n role reason ftime : Nat) (r : Running) : List Byte :=
  let die := if 1 ≤ role ∧ role ≤ 4 then role - 1 else 0
  let kind := if role = 0 then 0 else if role = 5 then 2 else 1
  leBytes 8 n ++ leBytes 1 kind ++ leBytes 1 die ++ leBytes 1 r.slot.toNat ++ leBytes 1 reason ++ leBytes 4 r.version ++ leBytes 8 ftime ++
    r.measurement ++ leBytes 8 0

/-- H after the entries of the six images that boot (18/R443). -/
def bootHash (ftime : Nat) (rs : Vector Running 6) : List Byte :=
  (List.range 6).foldl (fun h i => Config.sha3 (h ++ mlEntry (i + 1) i 0 ftime (rs.toList.getD i Running.reset))) (List.replicate 32 0#8)

/-- Device registers (18/R437), sequencer and time (15/R402, R403), firmware (18/R440 to R444); `thresh` and `threshTile`
are THRESH of the configuration records (17/R426; log 23), `unitgo` the unit that the command of UNITCMD in hand acts on (17/R431), `attgo`
bit 31 of ATTCTL (18/R444), `fwgo` GO of FWCTL (18/R440); `bootSlot`: a swap in recovery mode has marked a slot that the next cold
reset boots (18/R441). -/
structure Device where
  thresh : BitVec 8
  threshTile : BitVec 8
  devnum : Nat
  seq : Nat
  ftime : Nat
  ring : Ring
  heldRecs : List Rcd
  trace : Ring
  traceLost : Nat
  unitsel : Word
  unitcmd : BitVec 4
  bists : List (UnitId × Word)
  featack : Vector Word 4
  age : Nat
  gbres : Nat
  halt : Bool
  haltFrom : Nat
  pwrk : Nat
  pkgpwr : Nat
  tj : Nat
  smpEn : Bool
  smpK : Nat
  budgets : Vector Budget 16
  fwRole : BitVec 2
  fwDie : BitVec 2
  fwState : FwState
  fwErr : BitVec 8
  fwMissed : Nat
  fwFrom : Nat
  fwBeat : Nat
  fwsrc : Nat
  fwlen : Nat
  staged : Option Image
  running : Vector Running 6
  images : Vector (Running × Running) 6
  active : Vector Bool 6
  previous : Option (Nat × Running)
  mlbase : Nat
  mlsize : Nat
  mltail : Nat
  mlhash : List Byte
  attsrc : Nat
  attdst : Nat
  attgo : Bool
  powered : Bool
  strap : Bool
  bootSlot : Bool
  fwgo : Bool
  nextHandle : Word
  nextLaunch : Nat
  nextWork : Nat
  nextGroup : Nat
  fwCmd : BitVec 2
  unitgo : Option UnitId
  ticket : Nat
  scLast : Nat
  hostRead : List Byte
  deriving DecidableEq, Repr

/-- The device registers after a cold reset (log 8 where the manual gives none). -/
def Device.reset : Device :=
  { thresh := 8, threshTile := 4, devnum := 0, seq := 1, ftime := 0, ring := ⟨0, 0, 0, 0, 0⟩, heldRecs := [], trace := ⟨0, 0, 0, 0, 0⟩, traceLost := 0,
    unitsel := 0, unitcmd := 0, bists := [], featack := Vector.replicate 4 0#32, age := 4096, gbres := 4096, halt := false,
    haltFrom := 0, pwrk := 16, pkgpwr := 0, tj := 0, smpEn := false, smpK := 12,
    budgets := Vector.replicate 16 ⟨0, 0, 0, 0, 0⟩, fwRole := 0, fwDie := 0, fwState := .idle, fwErr := 0, fwMissed := 0, fwFrom := 0, fwBeat := 0,
    fwsrc := 0, fwlen := 0, staged := Option.none, running := Vector.replicate 6 Running.reset,
    images := Vector.replicate 6 (Running.reset, { Running.reset with slot := 1 }), active := Vector.replicate 6 false,
    previous := Option.none, mlbase := 0, mlsize := 0, mltail := 6, mlhash := bootHash 0 (Vector.replicate 6 Running.reset), attsrc := 0, attdst := 0, attgo := false, powered := true,
    strap := false, bootSlot := false, fwgo := false, nextHandle := 1, nextLaunch := 1, nextWork := 0, nextGroup := 0, fwCmd := 0, unitgo := Option.none, ticket := 0, scLast := 0,
    hostRead := [] }

/-- Who moves next (log 1): the wave in focus, another wave taken into focus, an event of the table with its outside
facts, the passing of ACLK cycles of a core or of nanoseconds, or one of the acts that 00/R1, 07/R204, 13/R354, R360 and 08/R254 leave free: a cache
takes or drops a line (an invalidation, an eviction), a translation or bounds entry is cached or dropped, an instruction
line is cached, dropped, fetched ahead by a wave, or decoded ahead of what it has fetched; an invalidation reaches a checker cache, a home slice finds a signature half full or its
registration table full (13/R368, R369); or a peer writes its own memory, its sc clock goes on, its route changes, or a core of it
performs an update-only operation on a line that is homed here (08/R244, 15/R410); or the device writes the event records that it holds
(15/R396); or a home combines the partials of a line for which a pool had no line, and a writer that a pool held up has had
its turn (14/R387); or the recovery strap of the board is set or cleared (18/R441). -/
inductive Turn where
  | wave
  | focus (k : WaveKey)
  | event (i : Instr) (f : Facts)
  | tick (c : CoreId) (n : Nat)
  | time (n : Nat)
  | cacheFill (c : CoreId) (cx : CtxId) (va : Nat)
  | cacheDrop (c : CoreId) (dev line : Nat)
  | invalidate (c : CoreId) (line : Nat)
  | sigFull (c : CoreId) (slice : BitVec 8)
  | regFull (slice : BitVec 8)
  | tlbFill (cx : CtxId) (agent va : Nat)
  | tlbDrop (cx : CtxId) (agent va : Nat)
  | rbtFill (cx : CtxId) (agent : Nat) (r : BitVec 8)
  | rbtDrop (cx : CtxId) (agent : Nat) (r : BitVec 8)
  | icacheFill (c : CoreId) (line : Nat)
  | icacheDrop (c : CoreId) (line : Nat)
  | fetchAhead (k : WaveKey) (va : Nat)
  | decodeAhead (k : WaveKey) (va : Nat)
  | peerWrite (dev : Nat) (pa : Nat) (data : List Byte)
  | peerSc (dev n : Nat)
  | route (dev : Nat) (r : Route)
  | peerPartial (dev : Nat) (core : CoreId) (coh : Bool) (addr : Nat) (op : AtomicOp)
  | records
  | combine (line : Nat)
  | retried
  | strap (on : Bool)
  deriving DecidableEq, Repr

/-- A directory entry of a home slice: the line, the dies that share it, and the die that holds registered words of it
(13/R371). -/
structure DirEntry where
  line : Nat
  sharers : BitVec 4
  owner : Option (BitVec 2)
  deriving DecidableEq, Repr

/-- The state of the device. `reg` names the agent each word is registered to, newest first; `sigs` the lines in each core's
signature at their home slice, `invals` the invalidations under way to checker caches, `dirs` the directory entries (13/R367 to R371). `poolWait` names
the writers that wait on pools, `retry` the one that is having its turn (14/R387). -/
structure State where
  agenda : List Turn
  facts : Facts
  turn : Nat
  w : Wave
  blk : Block
  gang : Gang
  launch : Launch
  waves : List Wave
  blocks : List Block
  gangs : List Gang
  launches : List Launch
  cores : Vector Core 512
  ctxs : Vector Ctx 4096
  queues : Vector LQueue 256
  mem : Memory
  poison : List Nat
  reg : List (Nat × Nat)
  sigs : List (CoreId × Nat)
  invals : List (CoreId × Nat)
  dirs : List DirEntry
  parts : List Partial
  snaps : List Snap
  restores : List Restore
  slices : Vector BinUnit 256
  vaults : Vector BinUnit 128
  links : Vector BinUnit 24
  channels : Vector BinUnit 1536
  spads : Vector BinUnit 512
  ports : Vector Port 24
  peers : List Peer
  sent : List Msg
  poolWait : List (CtxId × Turn)
  retry : Option (CtxId × Turn)
  dev : Device
  deriving DecidableEq, Repr

/-- The device after a cold reset: no context, no launch, no wave; every field as the manual gives it, or as the log
entries 1 to 10 name it. -/
def State.reset : State :=
  { agenda := [], facts := {}, turn := 0, w := Wave.absent, blk := Block.absent, gang := Gang.absent, launch := Launch.absent,
    waves := [], blocks := [], gangs := [], launches := [], cores := Vector.replicate 512 Core.reset,
    ctxs := Vector.replicate 4096 Ctx.reset, queues := Vector.replicate 256 LQueue.reset, mem := [], poison := [],
    reg := [], sigs := [], invals := [], dirs := [], parts := [], snaps := [], restores := [], slices := Vector.replicate 256 BinUnit.reset, vaults := Vector.replicate 128 BinUnit.reset,
    links := Vector.replicate 24 BinUnit.reset, channels := Vector.replicate 1536 BinUnit.reset,
    spads := Vector.replicate 512 BinUnit.reset, ports := Vector.replicate 24 ⟨true, false, 0⟩, peers := [], sent := [],
    poolWait := [], retry := Option.none, dev := Device.reset }

/-- Why the machine stops with a fault. -/
inductive Fault where
  /-- A host or peer access names a physical address at which 13/R376 says no memory lies; raised by
  HOST_COHERENT_WRITE, HOST_COHERENT_READ and REMOTE_* arrivals. Safe: the manual says no such memory exists. -/
  | noMemory (addr : Nat)
  deriving DecidableEq, Repr

/-- Why an instruction has no meaning in the model. -/
inductive Refusal where
  /-- The row is not modelled yet; raised by its arm of exec alone. Safe. -/
  | notModelled (mnemonic : String)
  deriving DecidableEq, Repr

end Sys2Proof.Machine
end

