-- ==== Sys2Proof/Machine/Memory.lean ====
section
/-! DEFINITION. Memory below the levels: one byte, bytes, lines; the home of a physical address on this device with its
poison, its update-only partials and the copies that snapshots take; the cores' caches; writing through to a peer. -/

namespace Sys2Proof.Machine

/-- Element of a vector indexed by a bit field as wide as the vector is long. -/
def pick {α : Type} {w n : Nat} (v : Vector α n) (i : BitVec w) (h : 2 ^ w = n := by decide) : α :=
  v[i.toNat]'(by have := i.isLt; omega)
@[inherit_doc pick] def put {α : Type} {w n : Nat} (v : Vector α n) (i : BitVec w) (x : α) (h : 2 ^ w = n := by decide) :
    Vector α n :=
  v.set i.toNat x (by have := i.isLt; omega)

/-- A core. -/
def State.core (s : State) (c : CoreId) : Core := pick s.cores c
@[inherit_doc State.core] def State.setCore (s : State) (c : CoreId) (x : Core) : State := { s with cores := put s.cores c x }
/-- A context. -/
def State.ctxOf (s : State) (c : CtxId) : Ctx := pick s.ctxs c
@[inherit_doc State.ctxOf] def State.setCtx (s : State) (c : CtxId) (x : Ctx) : State := { s with ctxs := put s.ctxs c x }
/-- A launch queue. -/
def State.queue (s : State) (q : QueueId) : LQueue := pick s.queues q
@[inherit_doc State.queue] def State.setQueue (s : State) (q : QueueId) (x : LQueue) : State :=
  { s with queues := put s.queues q x }

/-- The byte at an address; an unlisted address reads 0 (log 3). -/
def Memory.read : Memory → Nat → Byte
  | [], _ => 0
  | (k, b) :: m, a => if k = a then b else if a < k then 0 else Memory.read m a

/-- Writing one byte keeps the canonical form. -/
def Memory.write : Memory → Nat → Byte → Memory
  | [], a, b => if b = 0 then [] else [(a, b)]
  | (k, c) :: m, a, b =>
    if a < k then (if b = 0 then (k, c) :: m else (a, b) :: (k, c) :: m)
    else if k = a then (if b = 0 then m else (a, b) :: m)
    else (k, c) :: Memory.write m a b

/-- The canonical form: addresses strictly rising, no listed byte 0. -/
abbrev Memory.wf (m : Memory) : Prop := (∀ c ∈ m, c.2 ≠ 0) ∧ m.Pairwise fun x y => x.1 < y.1

/-- `n` bytes from `a` on, lowest address first. -/
def Memory.bytes (m : Memory) (a n : Nat) : List Byte := (List.range n).map fun i => m.read (a + i)
/-- A little-endian value of `n` bytes (00/R16). -/
def Memory.value (m : Memory) (a n : Nat) : Nat := ofLE (m.bytes a n)
/-- Writes the listed bytes. -/
def Memory.writeAll (m : Memory) (bs : List (Nat × Byte)) : Memory := bs.foldl (fun m b => m.write b.1 b.2) m

/-- Bytes placed from address `a` on. -/
def placed (a : Nat) (bs : List Byte) : List (Nat × Byte) := bs.zipIdx.map fun b => (a + b.2, b.1)

/-- The base of the 64-byte line of an address. -/
def lineOf (a : Nat) : Nat := a / 64

/-- The addresses of this device that hold memory (13/R376). -/
def hasMemory (pa : Nat) : Bool :=
  decide (pa < 0xC000000000) || (decide (0x100000000000 ≤ pa) && decide (pa < 0x100080000000))

/-- The vault a physical address lies in (13/R376). -/
def vaultOf (pa : Nat) : Option (BitVec 7) :=
  if 0x100000000000 ≤ pa ∧ pa < 0x100080000000 then some (BitVec.ofNat 7 ((pa - 0x100000000000) / 2 ^ 24)) else none

/-- The channel of an MMS address, channel n mod 128 of stack n div 128: blocks of 256 bytes interleaved over 1,536 channels
(13/R377). -/
def channelOf (pa : Nat) : Nat := (pa / 256 % 1536 + 769 * (pa / 256 / 1536)) % 1536
/-- The stack of an MMS address (13/R377). -/
def stackOf (pa : Nat) : Nat := channelOf pa / 128

/-- The home slice of a line, on its die by the hash of 00/R6; the lines of a fenced slice go to the remaining slices of its
die (17/R430). The hashes are not given (log 2). -/
def State.slice (s : State) (line : Nat) : BitVec 8 :=
  let h := Config.homeSlice line
  if (pick s.slices h).bin = 3#2 then
    let left := ((List.range 64).map fun i => BitVec.ofNat 8 (h.toNat / 64 * 64 + i)).filter fun i => (pick s.slices i).bin != 3#2
    (left[Config.rehash left.length line % left.length]?).getD h
  else h
/-- The die a line is homed on, which no fence changes (00/R6). -/
def homeDie (line : Nat) : BitVec 2 := (Config.homeSlice line).extractLsb' 6 2
/-- The die of a core. -/
def dieOf (c : CoreId) : BitVec 2 := c.extractLsb' 7 2

/-- Whether the vault of an address is fenced (17/R430). -/
def State.vaultFenced (s : State) (pa : Nat) : Bool :=
  match vaultOf pa with
  | some v => (pick s.vaults v).bin == 3#2
  | none => false

/-- Whether the line of a physical address of this device is poisoned (17/R433, R430). -/
def State.poisoned (s : State) (pa : Nat) : Bool := s.poison.contains (lineOf pa) || s.vaultFenced pa

/-- Every wave, block and gang, the focus first. -/
def State.allWaves (s : State) : List Wave := s.w :: s.waves
@[inherit_doc State.allWaves] def State.allBlocks (s : State) : List Block := s.blk :: s.blocks
@[inherit_doc State.allWaves] def State.allGangs (s : State) : List Gang := s.gang :: s.gangs

/-- Lines of a place held in the shadow pool (07/R213). -/
def Place.spilled (p : Place) : Nat := p.lines.countP (·.held == .pool)
/-- Lines of a place in its own storage. -/
def Place.used (p : Place) : Nat := p.lines.countP (·.held == .place)

/-- POOLUSED: shadow lines of active snapshots and spilled lines of marked levels (14/R385). -/
def State.poolUsed (s : State) (c : CtxId) : Nat :=
  ((s.snaps.filter (·.ctx = c)).map (·.shadow.length)).sum +
  ((s.allWaves.filter (·.ctx = c)).map (·.wbuf.spilled)).sum +
  ((s.allBlocks.filter (·.ctx = c)).map (·.place.spilled)).sum +
  ((s.allGangs.filter (·.ctx = c)).map (·.place.spilled)).sum
/-- Free lines of a context's pool (14/R385). -/
def State.poolFree (s : State) (c : CtxId) : Nat := (s.ctxOf c).poolsize - s.poolUsed c

/-- Whether a line base lies in a snapshot's range. -/
def Snap.covers (p : Snap) (line : Nat) : Bool := decide (lineOf p.lo ≤ line) && decide (line < lineOf (p.lo + p.len))

/-- The deepest active snapshot of each context over a line (14/R382). -/
def State.deepest (s : State) (line : Nat) : List Snap :=
  let over' := s.snaps.filter (·.covers line)
  over'.filter fun p => over'.all fun q => q.ctx != p.ctx || decide (q.depth ≤ p.depth)

/-- The 64 bytes of a line of this device and its poison. -/
def State.lineImage (s : State) (line : Nat) : List Byte × Bool := (s.mem.bytes (64 * line) 64, s.poisoned (64 * line))

/-- Gives a snapshot a shadow line. -/
def State.addShadow (s : State) (p : Snap) (line : Nat) : State :=
  let (bs, bad) := s.lineImage line
  { s with snaps := s.snaps.map fun q =>
      if q.ctx = p.ctx ∧ q.slot = p.slot then { q with shadow := q.shadow ++ [(line, bs, bad)] } else q }

/-- The copies that a write performed at D to a line takes before it (14/R382, R383), but for context `but`. A context
whose pool has no free line stops it. -/
def State.copyOnWrite (s : State) (but : Option CtxId) (line : Nat) : Except CtxId State :=
  (s.deepest line).foldlM (init := s) fun s p =>
    if but = some p.ctx || p.shadow.any (·.1 == line) then .ok s
    else if s.poolFree p.ctx = 0 then .error p.ctx
    else .ok (s.addShadow p line)

/-- A full-line write clears poison; a partial one leaves it (17/R433, R434). -/
def State.clearPoison (s : State) (line : Nat) (bs : List (Nat × Byte)) : State :=
  if bs.length = 64 then { s with poison := s.poison.filter (· != line) } else s

/-- The bytes of one line put into this device's memory, which leaves its poison as it is; a fenced vault discards them (17/R430). -/
def State.putDirty (s : State) (line : Nat) (bs : List (Nat × Byte)) : State :=
  if s.vaultFenced (64 * line) then s else { s with mem := s.mem.writeAll bs }
/-- The bytes of one line put into this device's memory by a single write performed at D; a fenced vault discards them (17/R430). -/
def State.putBytes (s : State) (line : Nat) (bs : List (Nat × Byte)) : State :=
  if s.vaultFenced (64 * line) then s else (s.clearPoison line bs).putDirty line bs

/-! ### Atomic operations (08/R241) -/

/-- A float sum rounded RNE, with no flags (08/R241). -/
def floatSum (f : FloatFmt) (m x : Nat) : Nat := (f.roundNum .rne false ((f.read m).add .rne (f.read x)).1).1

/-- The new memory value of an atomic operation of `n` bits, c being CAS's compare value. -/
def atomicValue (aop : BitVec 5) (n : Nat) (m x c : Nat) : Nat :=
  match aop.toNat with
  | 0x00 | 0x10 => (m + x) % 2 ^ n
  | 0x01 | 0x11 => if toSigned n x < toSigned n m then x else m
  | 0x02 | 0x12 => if toSigned n m < toSigned n x then x else m
  | 0x03 | 0x13 => min m x
  | 0x04 | 0x14 => max m x
  | 0x05 | 0x15 => m &&& x
  | 0x06 | 0x16 => m ||| x
  | 0x07 | 0x17 => m ^^^ x
  | 0x08 => x
  | 0x09 => if m = c then x else m
  | _ => if n = 64 then floatSum .f64 m x else floatSum .f32 m x

/-! ### Caches of a core (13/R367 to R375) -/

/-- The line that some cache lines hold. -/
def lineIn (ls : List CacheLine) (dev line : Nat) : Option CacheLine := ls.find? fun l => l.dev == dev && l.line == line
/-- The line in a core's private data cache. -/
def Core.cached (c : Core) (dev line : Nat) : Option CacheLine := lineIn c.cache dev line
/-- The line in a core's checker cache. -/
def Core.checked (c : Core) (dev line : Nat) : Option CacheLine := lineIn c.ckc dev line

/-- The byte the checker cache holds, and whether it is dirty. -/
def Core.ckByte (c : Core) (dev pa : Nat) : Option (CByte × Bool) := do
  let l ← c.checked dev (lineOf pa)
  let b ← l.bytes.find? fun b => b.off == pa % 64
  return (b, l.dirty.contains b.off)

/-- A line without the bytes that `keep` rejects. -/
def CacheLine.keep (l : CacheLine) (keep : Nat → Bool) : CacheLine :=
  { l with bytes := l.bytes.filter (keep ·.off), dirty := l.dirty.filter keep }

/-- Cache lines without the bytes of one line that `keep` rejects. -/
def dropIn (ls : List CacheLine) (dev line : Nat) (keep : Nat → Bool) : List CacheLine :=
  (ls.map fun l => if l.dev = dev ∧ l.line = line then l.keep keep else l).filter (·.bytes != [])

/-- A core's caches without the bytes of a line that `keep` rejects. -/
def Core.dropBytes (c : Core) (dev line : Nat) (keep : Nat → Bool) : Core :=
  { c with cache := dropIn c.cache dev line keep, ckc := dropIn c.ckc dev line keep }

/-- A core's caches without the clean bytes of a line. -/
def Core.dropClean (c : Core) (dev line : Nat) : Core :=
  let of (ls : List CacheLine) : List CacheLine :=
    (ls.map fun l => if l.dev = dev ∧ l.line = line then l.keep l.dirty.contains else l).filter (·.bytes != [])
  { c with cache := of c.cache, ckc := of c.ckc }

/-- A change of both caches of a core. -/
def Core.mapCaches (c : Core) (f : CacheLine → Option CacheLine) : Core :=
  { c with cache := c.cache.filterMap f, ckc := c.ckc.filterMap f }

/-- Bytes by address put into the line that some cache lines hold, or into a new one: they replace what is held but for dirty
bytes, unless they are dirty themselves; `va` is the address of the wave that makes a line dirty. -/
def fillIn (ls : List CacheLine) (dev line : Nat) (coh dirty : Bool) (now : Nat) (bs : List (Nat × Byte)) (va : DWord) : List CacheLine :=
  let old := (lineIn ls dev line).getD ⟨dev, line, coh, [], [], 0⟩
  let new : List CByte := (bs.map fun b => ⟨b.1 % 64, b.2, now⟩).filter fun b => dirty || !(old.dirty.contains b.off)
  let line' : CacheLine :=
    { old with
      coh := coh
      bytes := (old.bytes.filter fun o => !(new.any (·.off == o.off))) ++ new
      dirty := if dirty then (old.dirty.filter fun o => !(new.any (·.off == o))) ++ new.map (·.off) else old.dirty
      va := if dirty && old.dirty == [] then va else old.va }
  line' :: ls.filter fun l => !(l.dev == dev && l.line == line)

/-- The clean line that gives way when `cap` lines leave no room for a line that is not held (00/R5, log 2). -/
def victimIn (ls : List CacheLine) (cap now dev line : Nat) : Option CacheLine :=
  if (lineIn ls dev line).isSome || decide (ls.length < cap) then none
  else
    let clean := ls.filter (·.dirty == [])
    clean[Config.victim now % clean.length]?

/-- A line taken into some cache lines when there is room for it; a full cache of dirty lines takes none. -/
def takeIn (ls : List CacheLine) (cap dev line : Nat) (coh dirty : Bool) (now : Nat) (bs : List (Nat × Byte)) (va : DWord := 0) :
    List CacheLine :=
  if (lineIn ls dev line).isSome || decide (ls.length < cap) then fillIn ls dev line coh dirty now bs va else ls

/-- A core's private cache, and its checker cache, with a line taken. -/
def Core.take (c : Core) (dev line : Nat) (coh dirty : Bool) (now : Nat) (bs : List (Nat × Byte)) (va : DWord := 0) : Core :=
  { c with cache := takeIn c.cache Config.cacheLines dev line coh dirty now bs va
           ckc := takeIn c.ckc Config.ckcLines dev line coh dirty now bs va }

/-- The word (4 bytes) of an address. -/
def wordOf (pa : Nat) : Nat := pa / 4

/-- The agent a word is registered to (13/R367). -/
def State.registrant (s : State) (pa : Nat) : Option Nat := (s.reg.find? (·.1 == wordOf pa)).map (·.2)

/-- The host's agent number (13/R367); writes that no core makes are registered to it (log 15). -/
def hostAgent : Nat := 512

/-! #### Directory entries and signatures (13/R369, R371) -/

/-- The die, other than its home, that holds registered words of a line: that of the newest registration (log 56). -/
def ownerOf (reg : List (Nat × Nat)) (line : Nat) : Option (BitVec 2) :=
  ((reg.find? fun e => e.1 / 16 == line && decide (e.2 < 512) && dieOf (BitVec.ofNat 9 e.2) != homeDie line).map
    fun e => dieOf (BitVec.ofNat 9 e.2))

/-- Directory entries with a sharing die added, when it is not the line's home (13/R371). -/
def shareDir (ds : List DirEntry) (line : Nat) (d : BitVec 2) : List DirEntry :=
  if d = homeDie line then ds
  else
    let old := (ds.find? (·.line == line)).getD ⟨line, 0, none⟩
    { old with sharers := old.sharers ||| (1#4 <<< d.toNat) } :: ds.filter (·.line != line)

/-- Directory entries of a line after a change of its registrations. -/
def ownDir (ds : List DirEntry) (reg : List (Nat × Nat)) (line : Nat) : List DirEntry :=
  ds.map fun e => if e.line = line then { e with owner := ownerOf reg line } else e

/-- A core takes a line that is homed here: its home slice notes it in the core's signature, and on a coherent page in the
directory entry for a core of another die (13/R369, R371, R373). -/
def State.noteTaken (s : State) (c : CoreId) (dev line : Nat) (coh : Bool) : State :=
  if dev = s.dev.devnum then
    { s with
      sigs := if s.sigs.contains (c, line) then s.sigs else (c, line) :: s.sigs
      dirs := if coh then shareDir s.dirs line (dieOf c) else s.dirs }
  else s

/-- Whether a core's copies of a line are known at its home: the signature names the line, and the directory entry the die
of a core that is not on the home's die (13/R369, R371). -/
def State.knows (s : State) (line : Nat) (e : CoreId × Nat) : Bool :=
  e.2 == line && (dieOf e.1 == homeDie line || s.dirs.any fun d => d.line == line && d.sharers.getLsbD (dieOf e.1).toNat)

/-- A new registration of a word of a line sends invalidations of checker-cache copies to every other agent that may hold the
line (13/R369). They are under way until they are delivered. -/
def State.sendInvals (s : State) (agent line : Nat) : State :=
  { s with invals := s.invals ++ s.sigs.filter fun e => s.knows line e && e.1.toNat != agent && !s.invals.contains e }

/-- The registrations of words, with the directory entries of a line following. -/
def State.setReg (s : State) (reg : List (Nat × Nat)) (line : Nat) : State := { s with reg := reg, dirs := ownDir s.dirs reg line }

/-- A core with its copies of a word dropped. -/
def State.dropWord (s : State) (agent pa : Nat) : State :=
  if agent < 512 then
    let c : CoreId := BitVec.ofNat 9 agent
    s.setCore c ((s.core c).dropBytes s.dev.devnum (lineOf pa) fun o => o / 4 != pa % 64 / 4)
  else s

/-- Registers the word of a byte to an agent: the previous registrant's copies and the agent's older ones go, and other
agents' checker caches are told (13/R367, R369). -/
def State.register (s : State) (agent pa : Nat) : State :=
  let s := match s.registrant pa with
    | some a => s.dropWord a pa
    | none => s
  let s := (s.dropWord agent pa).sendInvals agent (lineOf pa)
  s.setReg ((wordOf pa, agent) :: s.reg.filter (·.1 != wordOf pa)) (lineOf pa)

/-- The words of some bytes registered to an agent. -/
def State.registerAll (s : State) (agent : Nat) (bs : List (Nat × Byte)) : State :=
  ((bs.map fun b => 4 * wordOf b.1).dedup).foldl (fun s pa => s.register agent pa) s

/-- A core's registrations of a line end; the home holds the current words (08/R250, 13/R368). -/
def State.unregister (s : State) (c : CoreId) (line : Nat) : State :=
  s.setReg (s.reg.filter fun e => !(e.1 / 16 == line && e.2 == c.toNat)) line

/-- A line without the clean copies that a core's caches hold of it. -/
def Core.giveUp (k : Core) (dev line : Nat) : Core :=
  k.mapCaches fun l => if l.dev = dev ∧ l.line = line ∧ l.dirty = [] then none else some l

/-- A core gives a line up for its capacity: clean copies go, and so do its registrations of the line, whose words the home holds
(13/R368). -/
def State.evict (s : State) (c : CoreId) (v : Option CacheLine) : State :=
  match v with
  | none => s
  | some v =>
    let t := s.setCore c ((s.core c).giveUp v.dev v.line)
    if v.dev = s.dev.devnum then t.unregister c v.line else t

/-- A core's caches with room for a line where a clean line can give way: first in its private cache, then in its checker cache. -/
def State.evictFor (s : State) (c : CoreId) (dev line : Nat) : State :=
  let s := s.evict c (victimIn (s.core c).cache Config.cacheLines s.turn dev line)
  s.evict c (victimIn (s.core c).ckc Config.ckcLines s.turn dev line)

/-- A core takes a line into its caches (01/R44, 13/R367 to R373). -/
def State.takeLine (s : State) (c : CoreId) (dev line : Nat) (coh dirty : Bool) (bs : List (Nat × Byte)) (va : DWord := 0) : State :=
  let s := s.evictFor c dev line
  (s.setCore c ((s.core c).take dev line coh dirty s.turn bs va)).noteTaken c dev line coh

/-- The registering core holds the whole words that some bytes of a line touch, in both its caches (13/R367). -/
def State.holdWords (s : State) (c : CoreId) (line : Nat) (bs : List (Nat × Byte)) : State :=
  s.takeLine c s.dev.devnum line true false <|
    ((List.range 64).filter fun o => bs.any fun b => wordOf b.1 == wordOf (64 * line + o)).map fun o =>
      (64 * line + o, s.mem.read (64 * line + o))

/-! ### What holds a line up at its home -/

/-- The peer with a domain number. -/
def State.peer (s : State) (dev : Nat) : Option Peer := s.peers.find? (·.dev == dev)
/-- Whether a home that is a peer answers now (15/R405, R411). -/
def State.reachable (s : State) (dev : Nat) : Bool :=
  match s.peer dev with
  | some p => !p.lost && p.route == .up
  | none => false

/-- Whether a byte of this device lies in a range that a restore holds (07/R222, 14/R392). -/
def State.restoring (s : State) (dev pa : Nat) : Bool :=
  dev == s.dev.devnum && s.restores.any fun r => decide (r.lo ≤ pa) && decide (pa < r.lo + r.len)

/-- Whether a partial of a line that is homed here is with a peer that does not answer, so that no recall of the line ends (08/R245,
15/R410; DEDUCED, log 87). -/
def State.partsAway (s : State) (dev line : Nat) : Bool :=
  dev == s.dev.devnum && s.parts.any fun p => p.dev == dev && lineOf p.addr == line && p.peer.any fun d => !s.reachable d

/-- Whether an access to a byte at its home must wait: for a restore, or for a peer's partial of its line (14/R392, 08/R245). -/
def State.homeHeld (s : State) (dev pa : Nat) : Bool := s.restoring dev pa || s.partsAway dev (lineOf pa)

/-! ### Update-only partials (08/R244, R245) -/

/-- The list in the order that the code `c` names. -/
def permute {α : Type} : Nat → Nat → List α → List α
  | 0, _, xs => xs
  | n + 1, c, xs =>
    match xs[c % xs.length]? with
    | none => []
    | some x => x :: permute n (c / xs.length) (xs.eraseIdx (c % xs.length))

/-- The partials of a line, in the order the home takes them in (08/R245, log 2). -/
def State.lineParts (s : State) (dev line : Nat) : List Partial :=
  let ps := s.parts.filter fun p => p.dev == dev && lineOf p.addr == line
  permute ps.length (Config.partialOrder s.turn) ps

/-- One partial combined into a memory. -/
def Memory.combine (m : Memory) (p : Partial) : Memory :=
  let n := if p.wide then 8 else 4
  m.writeAll (placed p.addr (leBytes n (atomicValue p.aop (8 * n) (m.value p.addr n) p.val.toNat 0)))

/-- A memory that takes partials in: first the operand bytes of their lanes, then the partials one by one (07/R219, 08/R245). -/
def Memory.takeParts (m : Memory) (ps : List Partial) : Memory := ps.foldl Memory.combine (m.writeAll (ps.flatMap (·.own)))

/-- A memory with a line's partials combined in; what a reader of the line reads whose recall is not done (log 14). -/
def State.combined (s : State) (dev line : Nat) (m : Memory) : Memory :=
  if s.parts = [] then m else m.takeParts (s.lineParts dev line)

/-- A peer's line takes partials in: operand bytes carry their poison there, and a poisoned line discards the partials (07/R219,
17/R433). -/
def Peer.takeParts (q : Peer) (line : Nat) (ps : List Partial) : Peer :=
  if ps.any (·.bad) || q.poison.contains line then
    { q with mem := q.mem.writeAll (ps.flatMap (·.own)), poison := line :: q.poison.filter (· != line) }
  else { q with mem := q.mem.takeParts ps }

/-- The core's clean copies of the words that some partials have changed go: they are older than what the home holds then (08/R245). -/
def Core.dropStale (c : Core) (dev line : Nat) (ps : List Partial) : Core :=
  let hit (o : Nat) : Bool := ps.any fun p => decide (wordOf p.addr ≤ wordOf (64 * line + o)) &&
    decide (wordOf (64 * line + o) ≤ wordOf (p.addr + (if p.wide then 7 else 3)))
  c.mapCaches fun l =>
    if l.dev = dev ∧ l.line = line then
      let l := l.keep fun o => l.dirty.contains o || !hit o
      if l.bytes = [] then none else some l
    else some l

/-- The partials of a line that `who` selects leave the caches; for a line of this device they are combined into memory
with the copies of 14/R383 and registered to agent 512 on a coherent page, or dropped when the line is poisoned (17/R433); for a peer's line they go to its memory. No core keeps an
older copy of their words. -/
def State.recallWhere (s : State) (who : Partial → Bool) (dev line : Nat) : Except CtxId State :=
  let ps := (s.lineParts dev line).filter who
  let rest := s.parts.filter fun p => !(p.dev == dev && lineOf p.addr == line && who p)
  if ps = [] then .ok s
  else if dev = s.dev.devnum then
    if s.poisoned (64 * line) then .ok { s with parts := rest }
    else (s.copyOnWrite none line).map fun s =>
      let s : State := { s with parts := rest, mem := ps.foldl Memory.combine s.mem, cores := s.cores.map (·.dropStale dev line ps) }
      s.registerAll hostAgent ((ps.filter (·.coh)).map fun (p : Partial) => (p.addr, (0 : Byte)))
  else .ok { s with parts := rest, cores := s.cores.map (·.dropStale dev line ps), peers := s.peers.map fun q => if q.dev = dev ∧ !q.lost then q.takeParts line ps else q }

/-- The recall of a line from every core (08/R245). -/
def State.recallLine (s : State) (dev line : Nat) : Except CtxId State :=
  if s.parts = [] then .ok s else s.recallWhere (fun _ => true) dev line

/-- What comes before a write at the home to one line of this device (08/R245, 14/R382, R383): partials are recalled, and snapshots
take their copies. -/
def State.beforeWrite (s : State) (but : Option CtxId) (line : Nat) : Except CtxId State := do
  let s ← s.recallLine s.dev.devnum line
  s.copyOnWrite but line

/-- Bytes of several lines, grouped by line in the order of their first bytes. -/
def groupLines : List (Nat × Byte) → List (Nat × List (Nat × Byte))
  | [] => []
  | b :: bs =>
    let gs := groupLines bs
    if gs.any (·.1 == lineOf b.1) then gs.map fun g => if g.1 = lineOf b.1 then (g.1, b :: g.2) else g
    else (lineOf b.1, [b]) :: gs

/-- The dirty bytes of a core's line: those of its checker cache and those of its private cache that it does not hold. -/
def Core.dirtyBytes (c : Core) (dev line : Nat) : List (Nat × Byte) :=
  let of (l : Option CacheLine) : List (Nat × Byte) := match l with
    | none => []
    | some l => (l.bytes.filter fun b => l.dirty.contains b.off).map fun b => (64 * line + b.off, b.val)
  let ck := of (c.checked dev line)
  ck ++ (of (c.cached dev line)).filter fun b => !(ck.any (·.1 == b.1))

/-- A core's caches with a line clean. -/
def Core.cleaned (c : Core) (dev line : Nat) : Core :=
  c.mapCaches fun l => some (if l.dev = dev ∧ l.line = line then { l with dirty := [] } else l)

/-- A core writes its dirty bytes of a line of this device home under their mask and keeps the line clean (13/R373). They are no
single write at D, and clear no poison (17/R434). -/
def State.writeBack (s : State) (c : CoreId) (line : Nat) : Except CtxId State :=
  let d := (s.core c).dirtyBytes s.dev.devnum line
  if d = [] then .ok s
  else do
    let s ← s.beforeWrite none line
    return (s.putDirty line d).setCore c ((s.core c).cleaned s.dev.devnum line)

/-- A core's line of any home dropped from both its caches. -/
def State.dropLine (s : State) (c : CoreId) (dev line : Nat) : State :=
  s.setCore c ((s.core c).dropBytes dev line fun _ => false)

/-- Whether some cache lines can take a line: they hold it, are not full, or hold a clean line that can give way. -/
def roomIn (ls : List CacheLine) (cap dev line : Nat) : Bool :=
  (lineIn ls dev line).isSome || decide (ls.length < cap) || ls.any (·.dirty == [])

/-- The dirty line that is written back where some cache lines have no room: one that nothing holds up at its home (14/R392, log 2). -/
def State.dirtyVictim (s : State) (ls : List CacheLine) (cap dev line : Nat) : Option CacheLine :=
  if roomIn ls cap dev line then none
  else
    let free := ls.filter fun l => !s.homeHeld l.dev (64 * l.line)
    free[Config.victim s.turn % free.length]?

/-- A full cache whose lines are all dirty writes one back before it takes another line (13/R373, log 2). -/
def State.makeRoom (s : State) (c : CoreId) (dev line : Nat) : Except CtxId State := do
  let s ← match s.dirtyVictim (s.core c).cache Config.cacheLines dev line with
    | none => .ok s
    | some v => s.writeBack c v.line
  match s.dirtyVictim (s.core c).ckc Config.ckcLines dev line with
  | none => .ok s
  | some v => s.writeBack c v.line

/-- Whether both caches of a core can take a line. -/
def Core.hasRoom (c : Core) (dev line : Nat) : Bool := roomIn c.cache Config.cacheLines dev line && roomIn c.ckc Config.ckcLines dev line

/-- Words that a core has written through at a level that allocates nothing: they are registered, which tells the other agents, and at
the home at once, which ends the registration (07/R201, 13/R367, R368; DEDUCED, log 75). -/
def State.passThrough (s : State) (agent : Nat) (bs : List (Nat × Byte)) : State :=
  let s := s.registerAll agent bs
  let words := bs.map fun b => wordOf b.1
  ((bs.map fun b => lineOf b.1).dedup).foldl (fun s line => s.setReg (s.reg.filter fun e => !(e.2 == agent && words.contains e.1)) line) s

/-- A write performed at D, at the home, on one line of this device (14/R382, R383): partials are recalled, snapshots take their
copies, the bytes are written, and on a coherent page the words are registered to the agent; a core holds them, its home slice having
noted that it takes the line (13/R367, R371). -/
def State.homeWrite (s : State) (agent : Option Nat) (but : Option CtxId) (line : Nat) (bs : List (Nat × Byte)) :
    Except CtxId State := do
  let s ← s.beforeWrite but line
  match agent with
  | none => return s.putBytes line bs
  | some a =>
    if a < 512 then
      let c : CoreId := BitVec.ofNat 9 a
      let s ← s.makeRoom c s.dev.devnum line
      let s := (s.putBytes line bs).noteTaken c s.dev.devnum line true
      return (s.registerAll a bs).holdWords c line bs
    else return (s.putBytes line bs).registerAll a bs

/-- A write of a core performed at the home of a line of this device with no copy allocated (07/R201). -/
def State.homeThrough (s : State) (c : CoreId) (line : Nat) (bs : List (Nat × Byte)) : Except CtxId State := do
  let s ← s.beforeWrite none line
  return (s.putBytes line bs).passThrough c.toNat bs

/-- A write of any bytes at the home, line by line. -/
def State.homeWriteAll (s : State) (agent : Option Nat) (but : Option CtxId) (bs : List (Nat × Byte)) : Except CtxId State :=
  (groupLines bs).foldlM (fun s g => s.homeWrite agent but g.1 g.2) s

/-- The lines of a core that an ACQ leaves: words the core has registered and lines of software-managed pages; of other lines
nothing at D but those of other devices, and at X not those either (07/R220, 13/R370). -/
def State.acquireKeep (s : State) (agent : Nat) (x : Bool) (l : CacheLine) : Option CacheLine :=
  if !l.coh then some l
  else if l.dev ≠ s.dev.devnum then (if x then none else some l)
  else
    let l := l.keep fun o => s.registrant (64 * l.line + o) == some agent
    if l.bytes = [] then none else some l

/-- ACQ at D or X on a core (07/R220). -/
def State.acquire (s : State) (c : CoreId) (x : Bool) : State :=
  s.setCore c ((s.core c).mapCaches (s.acquireKeep c.toNat x))

/-! ### Peers (15/R399 to R401) -/

/-- Replaces a peer. -/
def State.setPeer (s : State) (p : Peer) : State := { s with peers := s.peers.map fun q => if q.dev = p.dev then p else q }
/-- Whether a domain number is this device or admitted (13/R356). -/
def State.admitted (s : State) (dev : Nat) : Bool := dev == s.dev.devnum || s.peers.any (·.dev == dev)

/-- Whether PSEQ `q` is not after `p`, the numbers being 32 bits in serial order (15/R401; DESIGN CHOICE, log 76). -/
def notAfter (q p : Word) : Bool := decide ((p - q).toNat < 2 ^ 31)

/-- The writes held for a source that can be performed now: from the one after PSEQ `p` on, the shortest run without a gap
that splits no commit group (15/R401). -/
def readyRun (hs : List HeldWrite) : Nat → Word → List Nat → Option (List HeldWrite)
  | 0, _, _ => none
  | n + 1, p, open' =>
    match hs.find? fun h => h.pseq = p + 1 with
    | none => none
    | some h =>
      let left := open'.filter (· != h.group)
      let open' := if h.last then left else h.group :: left
      if open' = [] then some [h] else (readyRun hs n (p + 1) open').map fun r => h :: r

/-- The last PSEQ that has been received without a gap from `p` on. -/
def receivedTo (hs : List HeldWrite) : Nat → Word → Word
  | 0, p => p
  | n + 1, p => if hs.any fun h => h.pseq == p + 1 then receivedTo hs n (p + 1) else p

/-- Whether a home takes no more writes of a source but the next one that it has not received: 512 beyond a gap are held; the members of
a group that is not whole wait for no gap and are not among them (15/R401). -/
def holdFull (hs : List HeldWrite) (p q : Word) : Bool :=
  let r := receivedTo hs hs.length p
  q != r + 1 && decide (Config.maxHeldWrites ≤ hs.countP fun h => !notAfter h.pseq r)

/-- The bytes a write leaves in a memory: its own, or for a reduce what they combine to (09/R273). -/
def HeldWrite.bytes (h : HeldWrite) (m : Memory) : List (Nat × Byte) :=
  match h.red with
  | none => h.data
  | some (opc, fmtc) => (h.data.map (·.1)).zip (reduceBytes opc fmtc (h.data.map fun b => m.read b.1) (h.data.map (·.2)))

/-- The poisoned lines of a home after a write: a poisoned line carries its poison, a full clean one clears it (17/R433,
R434). -/
def HeldWrite.poisonAfter (h : HeldWrite) (ps : List Nat) : List Nat :=
  let line := lineOf ((h.data.map (·.1)).headD 0)
  if h.poison then line :: ps.filter (· != line)
  else if h.red.isNone && h.data.length == 64 then ps.filter (· != line) else ps

/-- A peer performs the writes it holds of this device, one run after another (15/R401). -/
def Peer.drain : Nat → Peer → Peer
  | 0, p => p
  | n + 1, p =>
    match readyRun p.outHeld p.outHeld.length p.outPerformed [] with
    | none => p
    | some run =>
      let last := p.outPerformed + BitVec.ofNat 32 run.length
      Peer.drain n { p with
        outPerformed := last
        mem := run.foldl (fun m h => m.writeAll (h.bytes m)) p.mem
        poison := run.foldl (fun ps h => h.poisonAfter ps) p.poison
        outHeld := p.outHeld.filter fun h => !notAfter h.pseq last }

/-- A peer's fabric time after a flit with a stamp (15/R403). -/
def Peer.stamped (p : Peer) (t : Nat) : Peer := if p.ftime ≤ t then { p with ftime := t + 1 } else p

/-- A write of this device arrives at a peer: its stamp advances the peer's time, a duplicate is discarded; another is held, at most 512
beyond a gap, and whole commit groups are performed in order (15/R401, R403). -/
def Peer.receive (p : Peer) (h : HeldWrite) : Peer :=
  let p := p.stamped h.ftime
  if notAfter h.pseq p.outPerformed || p.outHeld.any (·.pseq == h.pseq) then p
  else if holdFull p.outHeld p.outPerformed h.pseq then p
  else Peer.drain (p.outHeld.length + 1) { p with outHeld := p.outHeld ++ [h] }

/-- The numbers of the next write to a home: its PSEQ, the device's SEQ (15/R401, R402). -/
def State.takeSent (s : State) (dev group : Nat) (last : Bool) (red : Option (Nat × Nat)) (poison : Bool := false) : Sent × State :=
  match s.peer dev with
  | none => (⟨0, 0, group, last, red, poison⟩, s)
  | some p => (⟨p.pseqNext, s.dev.seq, group, last, red, poison⟩, { s.setPeer { p with pseqNext := p.pseqNext + 1 } with
      dev := { s.dev with seq := (s.dev.seq + 1) % 2 ^ 48 } })

/-- The number of a new commit group (15/R401). -/
def State.takeGroup (s : State) : Nat × State := (s.dev.nextGroup, { s with dev := { s.dev with nextGroup := s.dev.nextGroup + 1 } })

/-- The partials that cores hold of a peer's line go to it, when it can be reached (08/R245). -/
def State.recallFar (s : State) (dev line : Nat) : State :=
  match s.recallLine dev line with
  | .ok t => t
  | .error _ => s

/-- Sends a write, or sends it again with its numbers, under the stamp of this device's time; partials of its lines go first (08/R245,
15/R401, R403, R405). -/
def State.sendWrite (s : State) (dev : Nat) (n : Sent) (bs : List (Nat × Byte)) : State :=
  match s.peer dev with
  | none => s
  | some p =>
    if p.lost || p.route == .down then s
    else
      let s := ((bs.map fun b => lineOf b.1).dedup).foldl (fun s l => s.recallFar dev l) s
      match s.peer dev with
      | none => s
      | some p => s.setPeer (p.receive ⟨n.pseq, n.group, n.last, bs, n.red, n.poison, s.dev.ftime⟩)

/-- Whether a home has performed a write and its acknowledgement reaches this device; a device that is no peer holds nothing
to wait for (15/R401, R406). -/
def State.acked (s : State) (dev : Nat) (pseq : Word) : Bool :=
  match s.peer dev with
  | none => true
  | some p => !p.lost && p.route == .up && notAfter pseq p.outPerformed

/-- A response of a peer reaches a core: its clock is greater than the timestamp that the response carries (07/R221). -/
def State.scReceive (s : State) (c : CoreId) (dev : Nat) : State :=
  match s.peer dev with
  | none => s
  | some p => s.setCore c { s.core c with scClock := max (s.core c).scClock (p.scTime + 1) }

/-- A write that the fabric endpoint of a core goes on sending until its home has performed it: no instruction waits on it
(15/R401). -/
def State.entrust (s : State) (c : CoreId) (k : WaveKey) (dev : Nat) (n : Sent) (bs : List (Nat × Byte)) : State :=
  if (s.peer dev).any (·.lost) then s
  else s.setCore c { s.core c with writes := (s.core c).writes ++ [⟨k, 96, dev, n, bs, false⟩] }

/-- Lines of a place that have been sent and not acknowledged: a discard of the place leaves them to the fabric endpoint, so that
no gap opens in the home's PSEQ (15/R401). -/
def State.orphan (s : State) (c : CoreId) (k : WaveKey) (p : Place) : State :=
  p.lines.foldl (init := s) fun s b =>
    match b.sent with
    | none => s
    | some q => s.entrust c k b.dev q (b.bytes.map fun x => (64 * b.line + x.1, x.2))

/-- One write of its own group that no instruction waits on: the endpoint goes on sending it (15/R401; DEDUCED, log 68). -/
def State.postWrite (s : State) (c : CoreId) (k : WaveKey) (dev : Nat) (red : Option (Nat × Nat)) (bs : List (Nat × Byte))
    (poison : Bool := false) : State :=
  let (g, s) := s.takeGroup
  let (n, s) := s.takeSent dev g true red poison
  let s := s.sendWrite dev n bs
  if s.acked dev n.pseq then s.scReceive c dev else s.entrust c k dev n bs

/-- Whether a write of this device to a byte of a peer is not performed yet as far as this device knows (15/R401). -/
def State.unperformed (s : State) (dev pa : Nat) : Bool :=
  s.cores.toList.any fun c => c.writes.any fun w => w.dev == dev && !w.acked && w.data.any (·.1 == pa)

end Sys2Proof.Machine
end

