-- ==== Sys2Proof/Machine/Ops.lean ====
section
/-! DEFINITION. The named operations over registers, waves and records: reading and writing registers, event records,
retiring, taking a trap, killing, parking, waiting, and the return from a trap. -/

namespace Sys2Proof

/-- The trap cause codes (04/R146). Nothing raises WATCH: the manual names a watchpoint set through the management window, and
gives the window no register for one (18/R436 to R438; DESIGN CHOICE, log 57). -/
def Cause.code : Cause → Nat
  | .illop => 0x01 | .illfmt => 0x02 | .align => 0x03 | .prot => 0x04 | .tagchk => 0x05 | .bound => 0x06 | .stack => 0x07
  | .accslot => 0x08 | .barobj => 0x09 | .barmm => 0x0A | .bufovf => 0x0B | .shadow => 0x0C | .poison => 0x0D | .watch => 0x0E
  | .brk => 0x0F | .trapi => 0x10 | .fetch => 0x11 | .queueerr => 0x12 | .snaperr => 0x13 | .ckhard => 0x14 | .launcherr => 0x15
/-- The park cause codes (04/R146). -/
def ParkCause.code : ParkCause → Nat
  | .page => 0x40 | .shadowpark => 0x41 | .residency => 0x42

end Sys2Proof

namespace Sys2Proof.Machine

/-! ### Focus -/

/-- Applies a function to every wave, block, gang or launch. -/
def State.mapWaves (s : State) (f : Wave → Wave) : State := { s with w := f s.w, waves := s.waves.map f }
@[inherit_doc State.mapWaves] def State.mapBlocks (s : State) (f : Block → Block) : State :=
  { s with blk := f s.blk, blocks := s.blocks.map f }
@[inherit_doc State.mapWaves] def State.mapGangs (s : State) (f : Gang → Gang) : State :=
  { s with gang := f s.gang, gangs := s.gangs.map f }
@[inherit_doc State.mapWaves] def State.mapLaunches (s : State) (f : Launch → Launch) : State :=
  { s with launch := f s.launch, launches := s.launches.map f }

/-- The wave, block, gang or launch of a name. -/
def State.findWave (s : State) (k : WaveKey) : Option Wave := s.allWaves.find? fun w => w.key = k
@[inherit_doc State.findWave] def State.findBlock (s : State) (k : BlockKey) : Option Block :=
  s.allBlocks.find? fun b => b.key = k
@[inherit_doc State.findWave] def State.findGang (s : State) (k : GangKey) : Option Gang := s.allGangs.find? fun g => g.key = k
@[inherit_doc State.findWave] def State.allLaunches (s : State) : List Launch := s.launch :: s.launches
@[inherit_doc State.findWave] def State.findLaunch (s : State) (l : Nat) : Option Launch := s.allLaunches.find? fun x => x.id = l

/-- Changes one wave, block, gang or launch. -/
def State.setWave (s : State) (w : Wave) : State := s.mapWaves fun x => if x.key = w.key then w else x
@[inherit_doc State.setWave] def State.setBlock (s : State) (b : Block) : State := s.mapBlocks fun x => if x.key = b.key then b else x
@[inherit_doc State.setWave] def State.setGang (s : State) (g : Gang) : State := s.mapGangs fun x => if x.key = g.key then g else x
@[inherit_doc State.setWave] def State.setLaunch (s : State) (l : Launch) : State :=
  s.mapLaunches fun x => if x.id = l.id then l else x

/-- Puts the focus back into the lists; launch 0 is no launch. -/
def State.unfocus (s : State) : State :=
  { s with
    w := Wave.absent, blk := Block.absent, gang := Gang.absent, launch := Launch.absent
    waves := if s.w.key.launch = 0 then s.waves else s.w :: s.waves
    blocks := if s.blk.key.launch = 0 then s.blocks else s.blk :: s.blocks
    gangs := if s.gang.key.launch = 0 then s.gangs else s.gang :: s.gangs
    launches := if s.launch.id = 0 then s.launches else s.launch :: s.launches }

/-- Takes the named wave, with its block, gang and launch, into focus. -/
def State.focusOn (s : State) (k : WaveKey) : State :=
  let s := s.unfocus
  match s.waves.find? fun w => w.key = k with
  | none => s
  | some w =>
    { s with
      w := w
      blk := (s.findBlock k.block).getD Block.absent
      gang := (s.findGang k.gangKey).getD Gang.absent
      launch := (s.findLaunch k.launch).getD Launch.absent
      waves := s.waves.filter fun x => x.key ≠ k
      blocks := s.blocks.filter fun x => x.key ≠ k.block
      gangs := s.gangs.filter fun x => x.key ≠ k.gangKey
      launches := s.launches.filter fun x => x.id ≠ k.launch }

/-! ### Scalar registers (04/R120) -/

/-- A scalar register of the wave in focus. -/
def State.sreg (s : State) (r : SReg) : Word := pick s.w.sregs r
/-- A wave with a scalar register written. -/
def Wave.withS (w : Wave) (r : SReg) (x : Word) : Wave := { w with sregs := put w.sregs r x }
/-- Writes a scalar register. -/
def State.setS (s : State) (r : SReg) (x : Word) : State := { s with w := { s.w with sregs := put s.w.sregs r x } }
/-- The pair sN:sN+1, low half in sN (04/R120). -/
def State.spair (s : State) (r : SReg) : DWord := DWord.join (s.sreg (r + 1)) (s.sreg r)
/-- Writes a pair. -/
def State.setPair (s : State) (r : SReg) (x : DWord) : State := (s.setS r x.lo).setS (r + 1) x.hi

/-- sp, lk and the first words of CMASK and EXEC (04/R120, 03/R113). -/
def rSP : SReg := 52
@[inherit_doc rSP] def rLK : SReg := 54
@[inherit_doc rSP] def rCMASK : SReg := 58
@[inherit_doc rSP] def rEXEC : SReg := 61

/-- Three consecutive scalar registers. -/
def State.triple (s : State) (r : SReg) : Vector Word 3 := #v[s.sreg r, s.sreg (r + 1), s.sreg (r + 2)]
/-- Writes three consecutive scalar registers, the first one first. -/
def State.setTriple (s : State) (r : SReg) (m : Vector Word 3) : State :=
  ((s.setS r m[0]).setS (r + 1) m[1]).setS (r + 2) m[2]
/-- EXEC and CMASK. -/
def State.exec3 (s : State) : Vector Word 3 := s.triple rEXEC
@[inherit_doc State.exec3] def State.cmask3 (s : State) : Vector Word 3 := s.triple rCMASK

/-- Three words combined word by word. -/
def mask2 (f : Word → Word → Word) (a b : Vector Word 3) : Vector Word 3 := #v[f a[0] b[0], f a[1] b[1], f a[2] b[2]]
/-- Lane `l` of a mask (01/R25). -/
def maskBit (m : Vector Word 3) (l : Nat) : Bool :=
  if l < 32 then m[0].getLsbD l else if l < 64 then m[1].getLsbD (l - 32) else m[2].getLsbD (l - 64)
/-- The lanes of a mask in ascending order. -/
def maskLanes (m : Vector Word 3) : List Nat := (List.range 96).filter (maskBit m)
/-- One word of the mask that holds the lanes of a list. -/
def maskWord (ls : List Nat) (w : Nat) : Word :=
  BitVec.ofNat 32 (((ls.filter fun l => l / 32 = w).map fun l => 2 ^ (l % 32)).sum)
/-- The mask that holds the lanes of a list without repeats. -/
def lanesMask (ls : List Nat) : Vector Word 3 := #v[maskWord ls 0, maskWord ls 1, maskWord ls 2]
/-- The empty mask. -/
def noLanes : Vector Word 3 := #v[0, 0, 0]
/-- The active lanes (01/R25). -/
def State.active (s : State) : List Nat := maskLanes s.exec3

/-! ### STATUS (04/R143) -/

/-- The bits of STATUS. -/
def stSCC : Word := 1
@[inherit_doc stSCC] def stHM : Word := 2
@[inherit_doc stSCC] def stWCOMP : Word := 4
@[inherit_doc stSCC] def stDIAG : Word := 8

/-- SCC. -/
def State.scc (s : State) : Bool := s.w.status.getLsbD 0
/-- Handler mode. -/
def State.hm (s : State) : Bool := s.w.status.getLsbD 1
/-- Writes STATUS. -/
def State.setStatus (s : State) (x : Word) : State := { s with w := { s.w with status := x } }
/-- Writes SCC. -/
def State.setScc (s : State) (b : Bool) : State :=
  s.setStatus (if b then s.w.status ||| stSCC else s.w.status &&& ~~~stSCC)
/-- Sets sticky arithmetic flags, STATUS bits 14:8 (02/R62, R63). -/
def State.raise (s : State) (f : Flags) : State := s.setStatus (s.w.status ||| (f.setWidth 32 <<< 8))

/-- The context and the core of the wave in focus. -/
def State.cx (s : State) : Ctx := s.ctxOf s.w.ctx
@[inherit_doc State.cx] def State.setCx (s : State) (c : Ctx) : State := s.setCtx s.w.ctx c
@[inherit_doc State.cx] def State.co (s : State) : Core := s.core s.w.core
@[inherit_doc State.cx] def State.setCo (s : State) (c : Core) : State := s.setCore s.w.core c

/-- A wave after an operation that orders other waves' writes of bound registers before it (02/R89). -/
def Wave.ordered (w : Wave) : Wave := { w with oldBounds := [] }
@[inherit_doc Wave.ordered] def State.ordered (s : State) : State := { s with w := s.w.ordered }

/-! ### Units and event records (15/R396 to R398, 17/R423, R424) -/

/-- A UNIT of a core: kind, core, index (17/R424). -/
def coreUnit (kind : Nat) (c : CoreId) (index : Nat := 0) : UnitId := BitVec.ofNat 32 (kind * 2 ^ 28 + c.toNat * 2 ^ 19 + index * 2 ^ 8)
/-- A whole core, a whole quad, no unit. -/
def wholeCore (c : CoreId) : UnitId := BitVec.ofNat 32 (c.toNat * 2 ^ 19 + 2 ^ 16)
@[inherit_doc wholeCore] def wholeQuad (q : QuadId) : UnitId := BitVec.ofNat 32 (q.toNat * 2 ^ 21 + 2 * 2 ^ 16)
@[inherit_doc wholeCore] def noUnit : UnitId := BitVec.ofNat 32 (3 * 2 ^ 16)
/-- A link: port 0 to 23, or 24 for the Tabor endpoint. -/
def linkUnit (i : Nat) : UnitId := BitVec.ofNat 32 (15 * 2 ^ 28 + i * 2 ^ 8)
/-- An L2 slice: die, slice 0 to 63. -/
def sliceUnit (die i : Nat) : UnitId := BitVec.ofNat 32 (12 * 2 ^ 28 + die * 2 ^ 26 + i * 2 ^ 8)
/-- A vault: die and quad in its number 0 to 127. -/
def vaultUnit (i : Nat) : UnitId := BitVec.ofNat 32 (13 * 2 ^ 28 + i * 2 ^ 21)

/-- The bytes of a record (15/R397): header and body. -/
def Rcd.bytes (devnum : Nat) (r : Rcd) : List Byte :=
  leBytes 2 r.kind ++ leBytes 2 r.ctx ++ leBytes 2 devnum ++ leBytes 2 0 ++ leBytes 6 r.seq ++ leBytes 2 0 ++
    leBytes 8 r.ftime ++ r.body

/-- Writes bytes at D as the device itself, over any number of lines: what holds one of them up at its home, or a pool with no
free line for a copy, stops the whole write; a byte beyond the device's memory is lost (13/R376, 14/R382, R387, R390; log 15). -/
def State.deviceWrite (s : State) (a : Nat) (bs : List Byte) : Except (Option CtxId) State :=
  if (List.range bs.length).any fun i => s.homeHeld s.dev.devnum (a + i) then .error none
  else (s.homeWriteAll (some hostAgent) none ((placed a bs).filter fun b => hasMemory b.1)).mapError some

/-- Whether a device writer that a pool stops has waited on it before; one that is having its turn has then had it (14/R387). -/
def State.stillShort (s : State) (e : CtxId × Turn) : Option State :=
  if s.poolWait.contains e then some (if s.retry = some e then { s with retry := none } else s) else none

/-- A device writer joins the line of those that a pool holds up, or does not wait for one (14/R387). -/
def State.joinPool (s : State) (c : Option CtxId) (t : Turn) : State :=
  match c with
  | none => s
  | some c => (s.stillShort (c, t)).getD { s with poolWait := s.poolWait ++ [(c, t)] }

/-- The number of a ring's records that the host has not consumed. -/
def Ring.pending (r : Ring) : Nat := (r.tail - r.head).toNat

/-- Writes held records while the device has power, the ring has room and no snapshot's pool or restore holds the write up (15/R396, 14/R387). -/
def State.flushRecords : Nat → State → State
  | 0, s => s
  | n + 1, s =>
    match s.dev.heldRecs with
    | [] => s
    | r :: rs =>
      let g := s.dev.ring
      if !s.dev.powered ∨ g.size = 0 ∨ g.size ≤ g.pending then s
      else
        match s.deviceWrite (g.base + 64 * (g.tail.toNat % g.size)) (r.bytes s.dev.devnum) with
        | .error c => s.joinPool c .records
        | .ok s => State.flushRecords n { s with dev := { s.dev with heldRecs := rs, ring := { g with tail := g.tail + 1 } } }

/-- A saturating count (15/R396). -/
def satInc (x : Word) : Word := if x = BitVec.allOnes 32 then x else x + 1

/-- Writes an event record: the next SEQ, FTIME; held while the ring is full, dropped and counted beyond 256 (15/R396,
R402). -/
def State.writeRecord (s : State) (kind : Nat) (ctx : Option CtxId) (body : List Byte) : State :=
  let r : Rcd := ⟨kind, (ctx.map (·.toNat)).getD 0xFFFF, s.dev.seq, s.dev.ftime, body⟩
  let s := { s with dev := { s.dev with seq := (s.dev.seq + 1) % 2 ^ 48 } }
  let full := s.dev.ring.size = 0 ∨ s.dev.ring.size ≤ s.dev.ring.pending ∨ s.dev.heldRecs ≠ []
  if full ∧ Config.heldRecords ≤ s.dev.heldRecs.length then
    { s with dev := { s.dev with ring := { s.dev.ring with lost := satInc s.dev.ring.lost } } }
  else
    let s := { s with dev := { s.dev with heldRecs := s.dev.heldRecs ++ [r] } }
    s.flushRecords s.dev.heldRecs.length

/-- An event record; a device shut down by heat writes none (18/R450). -/
def State.record (s : State) (kind : Nat) (ctx : Option CtxId) (body : List Byte) : State :=
  if s.dev.powered then s.writeRecord kind ctx body else s

/-- WCOORD (17/R423). -/
def Wave.coord (w : Wave) : Nat :=
  w.gx * 2 ^ 48 + w.gy * 2 ^ 32 + w.gz * 2 ^ 16 + w.key.blk * 2 ^ 12 + w.key.wid * 2 ^ 8 + w.stage * 2 ^ 6
/-- WPLACE (15/R398). -/
def Wave.wplace (w : Wave) : Nat :=
  w.core.toNat * 2 ^ 23 + w.sched.toNat * 2 ^ 21 + w.slot * 2 ^ 17 + w.key.blk * 2 ^ 13 + w.key.wid * 2 ^ 9 + w.stage * 2 ^ 7

/-- The fields of an error body (17/R423). -/
structure ErrBody where
  code : Nat
  inj : Bool := false
  uncorr : Bool := false
  unit : UnitId
  addr : Option Nat := none
  wave : Option (DWord × Nat) := none
  count : Nat := 0
  detail : Nat := 0

/-- The bytes of an error body. -/
def ErrBody.bytes (e : ErrBody) : List Byte :=
  let flags := (if e.inj then 1 else 0) + (if e.uncorr then 2 else 0) + (if e.addr.isSome then 4 else 0) +
    (if e.wave.isSome then 8 else 0)
  leBytes 2 e.code ++ leBytes 2 flags ++ leBytes 4 e.unit.toNat ++ leBytes 8 (e.addr.getD 0) ++
    leBytes 8 ((e.wave.map (·.1.toNat)).getD 0) ++ leBytes 8 ((e.wave.map (·.2)).getD 0) ++ leBytes 4 e.count ++ leBytes 4 e.detail

/-- Writes an error record (17/R423). -/
def State.errorRecord (s : State) (ctx : Option CtxId) (e : ErrBody) : State := s.record 4 ctx e.bytes

/-- The ADDR of a physical address (17/R423). -/
def physAddr (pa : Nat) : Nat := 2 ^ 63 + pa

/-! ### Traps, kills, parks (04/R146 to R152, 13/R362) -/

/-- Whether a loop of the core still writes a slot (04/R140). -/
def Core.slotBusy (c : Core) (i : BitVec 4) : Bool := c.loops.any fun l => l.slot == i

/-- A core with the slots a wave has bound released: at once, or when their loops end (04/R140, 10/R294). -/
def Core.releaseSlots (c : Core) (k : WaveKey) : Core :=
  { c with slots := c.slots.zipIdx.map fun x =>
      if x.1.owner = some k then
        (if c.slotBusy (BitVec.ofNat 4 x.2) then { x.1 with release := true } else { x.1 with owner := none })
      else x.1 }

/-- How long a home keeps a result, in nanoseconds (15/R404). -/
def tableLife : Nat := 10000000

/-- A core whose endpoint waits no more for the atomics of some waves: those without an answer end for good, and their tags rest for 10 ms
(15/R404). -/
def Core.endAtomics (c : Core) (mine : WaveKey → Bool) : Core :=
  { c with
    atomics := c.atomics.filter fun o => !mine o.wave
    deadTags := ((c.atomics.filter fun o => mine o.wave && o.answer.isNone).map fun o => (o.tag, o.sentAt + tableLife)) ++ c.deadTags }

/-- A core after the instructions in hand of some waves have been discarded: their atomics end, and their writes that have been sent are the
fabric endpoint's to send on, so that no gap opens in the home's PSEQ (01/R53, 15/R401, R404; DEDUCED, log 88). -/
def Core.abandon (c : Core) (mine : WaveKey → Bool) : Core :=
  let lane (p : PendingWrite) : Bool := mine p.wave && decide (p.lane < 96)
  let c := c.endAtomics mine
  { c with writes := (c.writes.filter fun p => !(lane p && p.acked)).map fun p => if lane p then { p with lane := 96 } else p }

/-- The instructions in hand of some waves are discarded: no later one takes their unanswered accesses for its own (01/R53, 15/R407). -/
def State.abandon (s : State) (mine : WaveKey → Bool) : State := { s with cores := s.cores.map fun c => c.abandon mine }

/-- Whether a wait is one of Waiting's: the others are interlocks of a wave that is Ready (06/R186, 10/R296). -/
def Wait.blocks : Wait → Bool
  | .barrier _ _ | .gong _ _ | .mbwait _ _ _ _ _ | .queue _ _ _ _ | .cpwait _ | .mwait _ | .yield _ _ => true
  | .cpseal _ | .mbusy | .accslot | .range | .wbfull _ | .memdep | .remote _ _ _ => false

/-- Whether a wave is in Waiting by its life: it has issued the instruction that waits (06/R186). -/
def Life.blocked : Life → Bool
  | .waiting w => w.blocks
  | _ => false

/-- A wave after its end: its wave slot, registers, stack cache, accumulators and trap state are released (04/R140, R149). -/
def Wave.ending (w : Wave) (killed : Bool) : Wave :=
  { w with life := .ended, killed := killed, stk := [], accs := Vector.replicate 16 none, wbuf := Place.empty, issued := none, fetched := [], decoded := [] }

/-- The wave in focus ends. -/
def State.endWave (s : State) (killed : Bool) : State :=
  let s := (s.setCo (s.co.releaseSlots s.w.key)).orphan s.w.core s.w.key s.w.wbuf
  { s with w := s.w.ending killed }

/-- KillWave: the W buffer is discarded, slots and accumulators released, a WAVE_KILLED record written, CTXERR counts
(04/R149, 18/R439). -/
def State.killWave (s : State) (cause : Nat) (tpc : DWord) : State :=
  let s := (s.abandon (· == s.w.key)).errorRecord (some s.w.ctx)
    { code := 0x0302, unit := wholeCore s.w.core, wave := some (tpc, s.w.coord), detail := cause }
  let s := s.endWave true
  s.setCx { s.cx with wkill := true, kills := min 65535 (s.cx.kills + 1) }

/-- A trap raised by an instruction: its cause, argument, address and lanes. -/
structure TrapInfo where
  cause : Cause
  arg : Nat := 0
  taddr : DWord := 0
  lanes : Vector Word 3 := noLanes
  deriving DecidableEq, Repr

/-- TrapEntry (04/R147): `tpc` is the value TPC takes, the instruction's own address being in the pc. What the checker and the
scheduler counted of the instruction ends with it (01/R45 to R47, 12/R342), and so do its accesses that no home has answered (01/R53). It has
issued, but for one whose fetch failed (04/R139, 18/R446). -/
def State.trapEntry (s : State) (t : TrapInfo) (tpc : DWord) : State :=
  if s.hm || s.w.tvec == 0#64 then s.killWave t.cause.code tpc
  else if s.w.tvec.extractLsb' 0 2 ≠ 0#2 then s.killWave Cause.align.code s.w.pc
  else
    { s.abandon (· == s.w.key) with w := { s.w with
        issued := none, issues := s.w.issues + (if t.cause = .fetch ∨ s.w.life.blocked then 0 else 1)
        tcause := BitVec.ofNat 32 (t.arg * 256 + t.cause.code), tpc := tpc, taddr := t.taddr, tmask := t.lanes
        status := s.w.status ||| stHM, pc := s.w.tvec, todo := none, released := false, stamped := false, fetched := [], decoded := [], life := .ready
        valMis := 0, resMis := 0, ckOnly := false, byChecker := false, starved := false } }

/-- A park: cause, lanes, address, access code (15/R398), MALF, LINK, and the context whose pool is exhausted. -/
structure ParkInfo where
  cause : ParkCause
  lanes : Vector Word 3 := noLanes
  addr : DWord := 0
  access : Nat := 0
  malf : Bool := false
  link : Bool := false
  pool : Option CtxId := none
  deriving DecidableEq, Repr

/-- PINFO (15/R398). -/
def parkInfoWord (cause : ParkCause) (malf link engine device : Bool) (access : Nat) : Nat :=
  (cause.code - 0x40) + (if malf then 4 else 0) + (if link then 8 else 0) + (if engine then 16 else 0) +
    (if device then 32 else 0) + access * 64

/-- The next park handle. -/
def State.takeHandle (s : State) : Word × State :=
  (s.dev.nextHandle, { s with dev := { s.dev with nextHandle := s.dev.nextHandle + 1 } })

/-- The wave in focus parks: TMASK takes the lanes, and a park record goes to the host (08/R233, 13/R362, 15/R398). It leaves Ready, and
unless its fetch parks it has issued (04/R139, 18/R446). -/
def State.park (s : State) (p : ParkInfo) : State :=
  let (h, s) := s.takeHandle
  let ctx := p.pool.getD s.w.ctx
  let s := s.record 3 (some ctx)
    (leBytes 2 (parkInfoWord p.cause p.malf p.link false false p.access) ++ leBytes 2 s.w.ctx.toNat ++ leBytes 4 h.toNat ++
      leBytes 8 p.addr.toNat ++ leBytes 8 s.w.pc.toNat ++ leBytes 4 p.lanes[0].toNat ++ leBytes 4 p.lanes[1].toNat ++
      leBytes 4 p.lanes[2].toNat ++ leBytes 4 s.w.wplace)
  { s with w := { s.w with
      issues := s.w.issues + (if p.access = 4 ∨ s.w.life.blocked then 0 else 1), left := s.w.left + 1, issued := none
      tmask := p.lanes, starved := false, life := .parked ⟨p.cause, h, p.link, p.pool⟩ } }

/-- A park record of the device itself: its cause, LINK, the context it goes to, and what waits (13/R362, 15/R398). -/
def State.deviceRecord (s : State) (cause : ParkCause) (link : Bool) (ctx : CtxId) (wctx addr : Nat) (unit : UnitId) (low access : Nat) :
    State :=
  let (h, s) := s.takeHandle
  s.record 3 (some ctx)
    (leBytes 2 (parkInfoWord cause false link false true access) ++ leBytes 2 wctx ++ leBytes 4 h.toNat ++ leBytes 8 addr ++
      leBytes 4 low ++ leBytes 4 unit.toNat ++ leBytes 16 0)

/-- The record for a writer of the device that waits on a pool, with its ACCESS (14/R387, 15/R398). -/
def State.deviceParkRecord (s : State) (pool : CtxId) (wctx : Nat) (addr : Nat) (unit : UnitId) (low : Nat := 0) (access : Nat := 1) :
    State := s.deviceRecord .shadowpark false pool wctx addr unit low access

/-- The record for a move of the device whose home has not answered for a retry window (15/R406). -/
def State.linkRecord (s : State) (ctx : CtxId) (addr : Nat) (unit : UnitId) : State :=
  s.deviceRecord .page true ctx ctx.toNat addr unit 0 5

/-- The unit of a line's home slice (17/R424; the hash is not given, log 2). -/
def State.sliceOf (s : State) (line : Nat) : UnitId := sliceUnit ((s.slice line).toNat / 64) ((s.slice line).toNat % 64)

/-- A combining of a line's partials waits on a pool, with one record that names the home slice (14/R387, 15/R398; its ACCESS is
an update-only atomic's, log 70). -/
def State.waitCombine (s : State) (c : CtxId) (line : Nat) : State :=
  (s.stillShort (c, .combine line)).getD
    { s.deviceParkRecord c 0xFFFF (64 * line) (s.sliceOf line) 0 3 with poolWait := s.poolWait ++ [(c, .combine line)] }

/-- Whether every request of a kick has ended (09/R280). -/
def State.kickEnded (s : State) (id : Nat) : Bool := s.cores.toList.all fun c => !(c.kicks.any (·.id == id))

/-- Whether a wave began before `t` to wait on one side of a queue of a block (09/R270). -/
def Wave.inLine (b : BlockKey) (q : BitVec 3) (push : Bool) (t : Nat) (w : Wave) : Bool :=
  w.key.block == b &&
    (match w.life with
     | .waiting (.queue q' p u _) => q' == q && p == push && decide (u < t)
     | _ => false)

/-- Whether the condition of a wave's wait holds, so that it has left Waiting and may issue (06/R186). A YIELD ends by its event
(04/R139). -/
def State.waitOver (s : State) (w : Wave) : Wait → Bool
  | .barrier _ ended => ended
  | .gong t e => (s.findLaunch w.key.launch).any fun l => decide (e < (pick l.gong t).episode)
  | .mbwait _ _ _ _ ended => ended.isSome
  | .queue q push t _ => (s.findBlock w.key.block).any fun b =>
      let x := pick b.queues q
      decide (s.allWaves.countP (Wave.inLine b.key q push t) < if push then x.cap - x.count else x.count)
  | .cpwait n => (pick w.batchKicks n).all s.kickEnded
  | .mwait a => (pick w.accs a).all fun i => !(s.core w.core).slotBusy i
  | _ => false

/-- Whether a wave is Ready, held by an interlock or not (06/R186). -/
def State.isReady (s : State) (w : Wave) : Bool :=
  match w.life with
  | .ready => true
  | .waiting x => !x.blocks || s.waitOver w x
  | _ => false

/-- The wave in focus waits; one that enters Waiting has issued, and its watchdog period begins (06/R186, R195, 12/R342, 18/R446). -/
def State.await (s : State) (w : Wait) : State :=
  { s with w := { s.w with
      life := .waiting w
      issued := if w.blocks then s.w.issued else none
      issues := s.w.issues + (if w.blocks && !s.w.life.blocked then 1 else 0)
      waitFrom := if w.blocks && s.w.life.blocked then s.w.waitFrom else s.co.cycle
      starved := s.w.starved && !w.blocks } }

/-- The watchdog's period of the waves whose wait `sel` selects starts anew: what they wait on has changed (06/R195). -/
def State.touched (s : State) (sel : Wave → Wait → Bool) : State :=
  s.mapWaves fun w =>
    match w.life with
    | .waiting x => if sel w x then { w with waitFrom := (s.core w.core).cycle } else w
    | _ => w

/-- Whether no wave issues and no wave's wait ends: during a debugger halt, and with the core rails off (15/R412, 18/R450). -/
def State.stopped (s : State) : Bool := s.dev.halt || !s.dev.powered
/-- Whether a core's clock runs: it is not fenced, and the core rails are on (00/R4, 18/R450). -/
def State.clocked (s : State) (c : CoreId) : Bool := (s.core c).bin != 3#2 && s.dev.powered

/-- Whether the sequencer of the core of the wave in focus is full: an MLOOP does not issue then (10/R296). -/
def State.loopsFull (s : State) : Bool := decide (Config.maxLoops ≤ s.co.loops.length)

/-! ### Outcomes of an instruction -/

/-- How an instruction stops without retiring: it traps, parks or waits, or waits for the combining of a line that a context's pool
holds up from then on (14/R387); or a line that it reads at D is recalled first, and it executes again (08/R245). -/
inductive Halt where
  | trap (t : TrapInfo)
  | park (p : ParkInfo)
  | wait (w : Wait)
  | combine (c : CtxId) (line : Nat)
  | recall (dev line : Nat)
  deriving DecidableEq, Repr

/-- An act of an instruction: a value and the next state, or a stop with the state that stands. -/
abbrev Act := StateT State (Except (Halt × State))

/-- Stops with the present state. -/
def stop {α : Type} (h : Halt) : Act α := fun s => .error (h, s)
/-- Raises a trap. -/
def raiseTrap {α : Type} (c : Cause) (arg : Nat := 0) (taddr : DWord := 0) (lanes : Vector Word 3 := noLanes) : Act α :=
  stop (.trap ⟨c, arg, taddr, lanes⟩)
/-- An act whose stop leaves the state as it was (08/R232, 07/R206). -/
def whole {α : Type} (a : Act α) : Act α := fun s =>
  match a s with
  | .ok r => .ok r
  | .error (h, _) => .error (h, s)

/-- A line recalled for a reader, or held up: at its home (`none`), or by a pool that the combining waits for from now on (`some`), as it
may have waited before (07/R222, 08/R245, 14/R387). -/
def State.recallFor (s : State) (dev line : Nat) : Except (Option (CtxId × Nat)) State :=
  if s.homeHeld dev (64 * line) || (dev == s.dev.devnum && s.poolWait.any (·.2 == .combine line)) then .error none
  else (s.recallLine dev line).mapError fun c => some (c, line)

/-- The state after a stop. -/
def State.halted (s : State) : Halt → State
  | .trap t => s.trapEntry t s.w.pc
  | .park p => s.park p
  | .wait w => s.await w
  | .combine c line => (s.waitCombine c line).await .memdep
  | .recall dev line =>
    match s.recallFor dev line with
    | .ok t => t
    | .error none => s.await .memdep
    | .error (some (c, line)) => (s.waitCombine c line).await .memdep

/-- An event's reader of the device recalls a line, or waits: the event comes again (08/R245, 14/R387). -/
def State.lookAgain (s : State) (dev line : Nat) : State :=
  match s.recallFor dev line with
  | .ok t => t
  | .error none => s
  | .error (some (c, line)) => s.waitCombine c line

/-- An event that a register write, or the end of what held one up, starts: the next turn of the agenda. -/
def State.starts (s : State) (i : Instr) (f : Facts) : State := { s with agenda := .event i f :: s.agenda }

/-! ### Acting as a wave -/

/-- What a wave in focus would see. -/
def State.seenAs {α : Type} (s : State) (k : WaveKey) (f : State → α) : α := f (if s.w.key = k then s else s.focusOn k)

/-- Runs an act with a wave in focus, and puts the focus back. -/
def State.asWave {α : Type} (s : State) (k : WaveKey) (a : Act α) : Except (Halt × State) (α × State) :=
  let back (t : State) : State := if s.w.key = k then t else if s.w.key.launch = 0 then t.unfocus else t.focusOn s.w.key
  match s.seenAs k a with
  | .ok (x, t) => .ok (x, back t)
  | .error (h, t) => .error (h, back t)

/-- A change that is made with a wave in focus. -/
def State.changeAs (s : State) (k : WaveKey) (f : State → State) : State :=
  match s.asWave k (modify f) with
  | .ok (_, t) => t
  | .error (_, t) => t

/-! ### Retirement -/

/-- Retirement: SEQNO, the issue count, which a wave in Waiting has had, and the checker's run of mismatches (01/R39, R45, R46, R47). -/
def Wave.retired (w : Wave) (pc : DWord) : Wave :=
  { w with pc := pc, seqno := w.seqno + 1, issued := none, issues := w.issues + (if w.life.blocked then 0 else 1), todo := none, released := false, stamped := false, valMis := 0,
           starved := false, resMis := 0, ckOnly := false, byChecker := false, life := if w.life = .ended then .ended else .ready }
/-- The wave in focus retires an instruction and goes on at `pc`. -/
def State.retireTo (s : State) (pc : DWord) : State := { s with w := s.w.retired pc }
/-- Retires an instruction of `n` bytes. -/
def State.retire (s : State) (n : Nat) : State := s.retireTo (s.w.pc + BitVec.ofNat 64 n)

/-- The outcome type of this machine. -/
abbrev Out := Host.Outcome State Fault Refusal

/-! ### Error injection (04/R145) -/

/-- Which unit's claim an instruction is: ERRINJ's targets 0, 1, 2 and 5, or none, with the pipe (01/R36, 04/R145). -/
inductive Claim where
  | vpipe | spipe | sfu | vload | sload | scalar | vector
  deriving DecidableEq, Repr

/-- Whether the instruction is one of the vector pipe (P = 1). -/
def Claim.isVector : Claim → Bool
  | .vpipe | .sfu | .vload | .vector => true
  | _ => false
/-- The ERRINJ target of a claim. -/
def Claim.target : Claim → Option Nat
  | .vpipe => some 0 | .spipe => some 1 | .sfu => some 2 | .vload => some 5 | .sload => some 5 | _ => none

/-- ERRINJ's fields (04/R145). -/
def injArm (e : Word) : Bool := e.getLsbD 31
@[inherit_doc injArm] def injTarget (e : Word) : Nat := (e.extractLsb' 28 3).toNat
@[inherit_doc injArm] def injSkip (e : Word) : Nat := (e.extractLsb' 21 7).toNat
@[inherit_doc injArm] def injWhere (e : Word) : Nat := (e.extractLsb' 8 13).toNat
@[inherit_doc injArm] def injBit (e : Word) : Nat := (e.extractLsb' 0 5).toNat

/-- One event of ERRINJ's target kind by the wave in focus: it passes while SKIP lasts; then the error is injected, ARM
clears and an INJECTED record names the unit. The answer says whether it was injected (04/R145, 17/R425). -/
def State.injEvent (s : State) (unit : UnitId) (pc : DWord) : Bool × State :=
  let e := s.w.errinj
  if s.w.injCount < injSkip e then (false, { s with w := { s.w with injCount := s.w.injCount + 1 } })
  else
    let s := s.errorRecord (some s.w.ctx)
      { code := 0x0104, inj := true, unit := unit, wave := some (pc, s.w.coord),
        detail := injTarget e * 2 ^ 28 + injBit e * 2 ^ 16 + injWhere e }
    (true, { s with w := { s.w with errinj := e &&& ~~~(1#32 <<< 31), injCount := 0 } })

/-- Whether ERRINJ is armed for a claim of an instruction with these active lanes: its target, and WHERE names a lane; the one
lane of an SLD counts as lane 0 (04/R145; log 58). -/
def Claim.armed (c : Claim) (e : Word) (lanes : List Nat) : Bool :=
  injArm e && c.target == some (injTarget e) &&
    (match c with
     | .spipe => true
     | .sload => injWhere e == 0
     | _ => lanes.contains (injWhere e))

/-- The unit a claim comes from (17/R424). -/
def Wave.claimUnit (w : Wave) (c : Claim) : UnitId :=
  match c with
  | .vpipe => coreUnit 0 w.core w.sched.toNat
  | .spipe => coreUnit 1 w.core w.sched.toNat
  | .sfu => coreUnit 2 w.core w.sched.toNat
  | _ => coreUnit 7 w.core

/-- A flush of the wave in focus counted when it is one. -/
def State.countFlush (s : State) (hit : Bool) : State :=
  { s with w := { s.w with flushes := s.w.flushes + (if hit then 1 else 0) } }

/-- The retirement of an instruction whose claim ERRINJ may have corrupted: the checker's verdict flushes the wave, which
only the counters and the record show (04/R145, 01/R40). `lanes` are the active lanes. What the checker lanes compute alone carries
no claim (01/R45, R46). -/
def State.claim (s : State) (c : Claim) (lanes : List Nat) : State :=
  if c.armed s.w.errinj lanes && !s.w.byChecker && !s.w.ckOnly then
    let r := s.injEvent (s.w.claimUnit c) s.w.pc
    r.2.countFlush r.1
  else s

/-! ### The shapes of a meaning -/

/-- ILLOP with the lanes of a vector instruction, or none (04/R146). -/
def State.illop (s : State) (vector : Bool) : State :=
  s.trapEntry { cause := .illop, lanes := if vector then s.exec3 else noLanes } s.w.pc

/-- A wave that an instruction has left in Waiting keeps the instruction, which it fetches no more (06/R187). -/
def State.holds (s : State) (i : Instr) : State := { s with w := { s.w with issued := if s.w.life.blocked then some i else none } }

/-- An instruction that goes on at the next one: ILLOP when its encoding breaks a rule (03/R108 step 3), else its act. -/
def run (i : Instr) (c : Claim) (body : Act PUnit) (s : State) : Out :=
  if i.wellFormed then
    match body s with
    | .ok (_, t) => .next ((t.claim c s.active).retire i.size)
    | .error (h, t) => .next ((t.halted h).holds i)
  else .next (s.illop c.isVector)

/-- An instruction of the scalar pipe that always completes: a plain change of the state. -/
def simple (i : Instr) (f : State → State) (s : State) : Out :=
  if i.wellFormed then .next (((f s).claim .spipe []).retire i.size) else .next (s.illop false)

/-- A transfer to `tgt`: ALIGN when it is not a multiple of 4, else `f` and the new pc (03/R92, 04/R133). -/
def State.transfer (s : State) (tgt : DWord) (f : State → State) : State :=
  if tgt.extractLsb' 0 2 ≠ 0#2 then s.trapEntry { cause := .align, taddr := tgt } s.w.pc
  else ((f s).claim .spipe []).retireTo tgt

/-- ILLOP for an instruction that handler mode forbids (04/R150, 03/R108 step 4). -/
def notInHandler : Act PUnit := do
  if (← get).hm then raiseTrap .illop

/-- Changes the state. -/
def change (f : State → State) : Act Unit := modify f

/-- A page that is absent parks with PAGE (08/R233). -/
def parkPage {α : Type} (addr : DWord) (access : Nat) (malf : Bool) (lanes : Vector Word 3 := noLanes) : Act α :=
  stop (.park { cause := .page, lanes := lanes, addr := addr, access := access, malf := malf })

/-- What a wave meets when the pool of context `c` has no free line (14/R387, 07/R213). -/
def poolStop {α : Type} (c : CtxId) (va : DWord) (access : Nat) (lanes : Vector Word 3 := noLanes) : Act α := do
  let s ← get
  if c = s.w.ctx ∧ (s.ctxOf c).poolmode then raiseTrap .shadow 0 va lanes
  else stop (.park { cause := .shadowpark, addr := va, access := access, pool := some c })

/-- An operation that a pool may stop, as an act of the wave. -/
def withPool (f : State → Except CtxId State) (va : DWord) (access : Nat) (lanes : Vector Word 3 := noLanes) : Act Unit :=
  fun s => match f s with
    | .ok s => .ok ((), s)
    | .error c => poolStop c va access lanes s

end Sys2Proof.Machine
end

