-- ==== Sys2Proof/Machine/Translate.lean ====
section
/-! DEFINITION. Region bounds check, translation tables, and the addresses a memory instruction forms (13/R350 to R357,
R363, R364, 08/R226 to R232). -/

namespace Sys2Proof.Machine

/-- A value of `n` bytes at D of this device or of a peer, as a reader that caches nothing reads it (log 14). -/
def State.homeValue (s : State) (dev a n : Nat) : Nat :=
  if dev = s.dev.devnum then (s.combined dev (lineOf a) s.mem).value a n
  else match s.peer dev with
    | some p => (s.combined dev (lineOf a) p.mem).value a n
    | none => 0

/-- Whether a reader of a line at D must wait for its restore, or have its partials recalled first (07/R222, 08/R245). -/
def State.heldLine (s : State) (dev line : Nat) : Bool :=
  s.restoring dev (64 * line) ||
    ((dev == s.dev.devnum || s.reachable dev) && s.parts.any fun p => p.dev == dev && lineOf p.addr == line)

/-- Bits 63:56 of a pointer: the region, or the Wyone-compatibility granule tag (13/R350). -/
def ptrTop (p : DWord) : BitVec 8 := p.extractLsb' 56 8

/-- A region bounds entry from its 32 bytes; a reserved bit set or LO > HI makes it not valid (13/R352). -/
def Region.ofValue (x : Nat) : Region :=
  let lo := x % 2 ^ 64
  let hi := x / 2 ^ 64 % 2 ^ 64
  let fl := x / 2 ^ 128
  let bit (i : Nat) : Bool := fl / 2 ^ i % 2 == 1
  { lo := lo, hi := hi, vah := bit 4, v := bit 3 && decide (lo < 2 ^ 57) && decide (hi < 2 ^ 57) && decide (fl < 32) &&
      decide (lo ≤ hi), a := bit 2, w := bit 1, r := bit 0 }

/-- The entry of region `r` in the table. -/
def State.regionEntry (s : State) (cx : CtxId) (r : BitVec 8) : Region :=
  Region.ofValue (s.homeValue s.dev.devnum ((s.ctxOf cx).rbtbase + 32 * r.toNat) 32)

/-- The agent that checks an access: the core of the wave in focus, or 512 for the device itself. -/
def State.agent (s : State) : Nat := if s.w.key.launch = 0 then 512 else s.w.core.toNat
/-- The state as the device itself sees it, with no wave in focus. -/
def State.deviceView (s : State) : State := { s with w := Wave.absent }

/-- The entry of region `r`: the one that the agent caches, else the table's (13/R352, R354). -/
def State.region (s : State) (cx : CtxId) (r : BitVec 8) : Region :=
  match (s.ctxOf cx).rbt.find? fun e => e.1 = s.agent && e.2.1 = r with
  | some e => e.2.2
  | none => s.regionEntry cx r

/-- Permissions an access needs, or a leaf grants (13/R353). -/
structure Perm where
  r : Bool := false
  w : Bool := false
  a : Bool := false
  deriving DecidableEq, Repr

/-- Whether the permissions `g` grant all that `p` needs. -/
def Perm.within (p g : Perm) : Bool := (!p.r || g.r) && (!p.w || g.w) && (!p.a || g.a)
/-- What a region grants. -/
def Region.perm (g : Region) : Perm := ⟨g.r, g.w, g.a⟩
/-- What a leaf grants. -/
def Leaf.perm (l : Leaf) : Perm := ⟨l.r, l.w, l.a⟩

/-- The region a pointer names (13/R350, R364). -/
def State.regionOf (s : State) (cx : CtxId) (p : DWord) : Region := s.region cx (if (s.ctxOf cx).wcomp then 0 else ptrTop p)
/-- The 57-bit virtual address of a pointer (13/R350). -/
def Region.va (g : Region) (p : DWord) : Nat := p.toNat % 2 ^ 56 + (if g.vah then 2 ^ 56 else 0)

/-- The line of the bounds table that the region check of a pointer must have recalled first, or wait for. -/
def State.regionHeld (s : State) (cx : CtxId) (p : DWord) : Option Nat :=
  let r : BitVec 8 := if (s.ctxOf cx).wcomp then 0 else ptrTop p
  let line := lineOf ((s.ctxOf cx).rbtbase + 32 * r.toNat)
  if s.heldLine s.dev.devnum line && !((s.ctxOf cx).rbt.any fun e => e.1 == s.agent && e.2.1 == r) then some line else none

/-- How a region check ends that does not pass: at the lowest failing address, or for want of a line of the table. -/
inductive RegionStop where
  | prot (a : DWord)
  | held (dev line : Nat)
  deriving DecidableEq, Repr

/-- The region check of `n` bytes at a formed address: the virtual address, or how it stops (13/R353). -/
def State.regionCheck (s : State) (cx : CtxId) (need : Perm) (p : DWord) (n : Nat) : Except RegionStop Nat :=
  let g := s.regionOf cx p
  let va := g.va p
  match s.regionHeld cx p with
  | some line => .error (.held s.dev.devnum line)
  | none =>
    if !g.v || !need.within g.perm || decide (va < g.lo) || decide (g.hi < va) then .error (.prot p)
    else if g.hi < va + n - 1 then .error (.prot (p + BitVec.ofNat 64 (g.hi + 1 - va)))
    else .ok va

/-- Whether a formed address left its pointer's region, or its tag (13/R351). -/
def State.leftRegion (s : State) (cx : CtxId) (base sum : DWord) : Bool :=
  ptrTop base != ptrTop sum || ((s.ctxOf cx).wcomp && sum.extractLsb' 60 4 != 0#4)

/-- How a walk ends (13/R356); or it stands at an entry whose line is to be recalled or restored first (`held`), or whose home, a peer,
does not answer (`away`, 15/R411). -/
inductive Walked where
  | leaf (l : Leaf)
  | absent (malf : Bool)
  | poison
  | held (dev line : Nat)
  | away
  deriving DecidableEq, Repr

/-- Whether a context's tag-covered memory holds a page (13/R363). -/
def Ctx.tagCovers (c : Ctx) (frame size : Nat) : Bool :=
  decide (c.tagmbase ≤ frame) && decide (frame + size ≤ c.tagmbase + c.tagmlen)

/-- Whether every byte of a page of a device is memory; a leaf over any other is malformed (13/R376). -/
def pageHasMemory (frame size : Nat) : Bool := hasMemory frame && hasMemory (frame + size - 1)

/-- A leaf entry of a page of `size` bytes, or its malformation (13/R355, R356, R363, R376). -/
def State.leafOf (s : State) (c : Ctx) (e size : Nat) : Walked :=
  let bit (i : Nat) : Bool := e / 2 ^ i % 2 == 1
  let frame := e % 2 ^ 52 / 2 ^ 12 * 2 ^ 12
  let dev := e / 2 ^ 54
  if !s.admitted dev || !pageHasMemory frame size ||
     (c.wcomp && bit 6 && !(dev == s.dev.devnum && c.tagCovers frame size)) then .absent true
  else .leaf ⟨dev, frame, size, bit 7, bit 6, bit 5, bit 4, bit 3, bit 2, bit 1⟩

/-- Whether the line of a byte is poisoned at its home (17/R433). -/
def State.homePoison (s : State) (dev pa : Nat) : Bool :=
  if dev = s.dev.devnum then s.poisoned pa
  else match s.peer dev with
    | some p => p.poison.contains (lineOf pa)
    | none => false

/-- Whether the entry of level `lv` maps a page (13/R355). -/
def isLeaf (lv e : Nat) : Bool := lv == 0 || e / 2 ^ 8 % 2 == 1

/-- Whether an entry has a reserved or misplaced bit set, valid or not (13/R355, log 31): a leaf at level 5, a frame below the
page's size, a permission in a table pointer. -/
def misplaced (lv e : Nat) : Bool :=
  e / 2 ^ 52 % 4 != 0 || e / 2 ^ 9 % 8 != 0 ||
    (if isLeaf lv e then lv == 4 || e % 2 ^ 52 / 2 ^ 12 * 2 ^ 12 % 2 ^ (12 + 9 * lv) != 0 else e / 2 % 128 != 0)

/-- The entry of level `lv` at physical address `ea` of a device, as its home has it: the end of the walk, or the next table with its home
(13/R355, R356). -/
def State.entryNow (s : State) (c : Ctx) (lv dev ea : Nat) : Walked ⊕ (Nat × Nat) :=
  if !hasMemory ea then .inl (.absent true)
  else if s.homePoison dev ea then .inl .poison
  else
    let e := s.homeValue dev ea 8
    if misplaced lv e then .inl (.absent true)
    else if e % 2 = 0 then .inl (.absent false)
    else if isLeaf lv e then .inl (s.leafOf c e (2 ^ (12 + 9 * lv)))
    else if !s.admitted (e / 2 ^ 54) then .inl (.absent true)
    else .inr (e / 2 ^ 54, e % 2 ^ 52 / 2 ^ 12 * 2 ^ 12)

/-- The entry as a walk reads it: the walk may have to wait for its line, or for its home (07/R222, 08/R245, 15/R411). -/
def State.entryAt (s : State) (c : Ctx) (lv dev ea : Nat) : Walked ⊕ (Nat × Nat) :=
  if s.heldLine dev (lineOf ea) then .inl (.held dev (lineOf ea))
  else if dev ≠ s.dev.devnum ∧ !s.reachable dev then .inl .away
  else s.entryNow c lv dev ea

/-- The walk from level `lv` down, `tbl` being that level's table (13/R355). -/
def State.walkFrom (s : State) (c : Ctx) (va : Nat) : Nat → Nat → Nat → Walked
  | 0, _, _ => .absent true
  | lv + 1, dev, tbl =>
    match s.entryAt c lv dev (tbl + 8 * (va / 2 ^ (12 + 9 * lv) % 512)) with
    | .inl r => r
    | .inr t => s.walkFrom c va lv t.1 t.2

/-- The leaves that the tables map now over [lo, hi), each with its first virtual address, from the table of level `lv` for
the addresses from `base` on (13/R355, R359). -/
def State.leavesFrom (s : State) (c : Ctx) (lo hi : Nat) : Nat → Nat → Nat → Nat → List (Nat × Leaf)
  | 0, _, _, _ => []
  | lv + 1, dev, tbl, base =>
    (List.range 512).flatMap fun i =>
      let size := 2 ^ (12 + 9 * lv)
      let va := base + i * size
      if hi ≤ va ∨ va + size ≤ lo then []
      else match s.entryNow c lv dev (tbl + 8 * i) with
        | .inl (.leaf l) => [(va, l)]
        | .inl _ => []
        | .inr t => s.leavesFrom c lo hi lv t.1 t.2 va

/-- The first line of a context's tables that must be recalled or restored before the leaves over [lo, hi) can be read (07/R222, 08/R245). -/
def State.tablesHeld (s : State) (c : Ctx) (lo hi : Nat) : Nat → Nat → Nat → Nat → Option (Nat × Nat)
  | 0, _, _, _ => none
  | lv + 1, dev, tbl, base =>
    (List.range 512).findSome? fun i =>
      let size := 2 ^ (12 + 9 * lv)
      let va := base + i * size
      if hi ≤ va ∨ va + size ≤ lo then none
      else if s.heldLine dev (lineOf (tbl + 8 * i)) then some (dev, lineOf (tbl + 8 * i))
      else match s.entryNow c lv dev (tbl + 8 * i) with
        | .inl _ => none
        | .inr t => s.tablesHeld c lo hi lv t.1 t.2 va

/-- The walk of a context's tables for a 57-bit virtual address (13/R355). -/
def State.walkTables (s : State) (cx : CtxId) (va : Nat) : Walked := s.walkFrom (s.ctxOf cx) va 5 s.dev.devnum (s.ctxOf cx).troot

/-- Whether a cached leaf is one that an agent holds for an address (13/R360). -/
def tlbHit (agent va : Nat) (e : Nat × Nat × Leaf) : Bool := e.1 == agent && e.2.1 == va / e.2.2.size * e.2.2.size

/-- The translation of a 57-bit virtual address: the one that the agent caches, else a walk of the tables (13/R355, R360). -/
def State.translate (s : State) (cx : CtxId) (va : Nat) : Walked :=
  match (s.ctxOf cx).tlb.find? (tlbHit s.agent va) with
  | some e => .leaf e.2.2
  | none => s.walkTables cx va

/-- The physical address of `va` on its page. -/
def Leaf.pa (l : Leaf) (va : Nat) : Nat := l.frame + va % l.size

/-! ### Translation registers (08/R226 to R228, 13/R357) -/

/-- Whether the run of two leaves goes on (13/R357). -/
def Leaf.continues (l m : Leaf) : Bool :=
  m.r == l.r && m.w == l.w && m.a == l.a && m.coh == l.coh && m.tge == l.tge && m.dev == l.dev && m.frame == l.frame + l.size

/-- Bytes from `va` to the end of the run, at most `most` (13/R357). -/
def State.runFrom (s : State) (cx : CtxId) : Nat → Nat → Leaf → Nat → Nat
  | 0, _, _, _ => 0
  | n + 1, va, l, most =>
    let here := l.size - va % l.size
    if most ≤ here then most
    else match s.translate cx (va + here) with
      | .leaf m => if l.continues m then here + s.runFrom cx n (va + here) m (most - here) else here
      | _ => here

/-- The table line that the run of a leaf must have recalled first, or wait for. -/
def State.runHeld (s : State) (cx : CtxId) : Nat → Nat → Leaf → Nat → Option (Nat × Nat)
  | 0, _, _, _ => none
  | n + 1, va, l, most =>
    let here := l.size - va % l.size
    if most ≤ here then none
    else match s.translate cx (va + here) with
      | .held dev line => some (dev, line)
      | .leaf m => if l.continues m then s.runHeld cx n (va + here) m (most - here) else none
      | _ => none

/-- Pages of a run that is capped at 2^32 bytes. -/
def maxPages : Nat := 2 ^ 20 + 2

/-- The run at a pointer: virtual address, leaf, region and length, capped at 2^32 (08/R226, 13/R357). -/
def State.runAt (s : State) (cx : CtxId) (p : DWord) : Option (Nat × Leaf × Region × Nat) :=
  let g := s.regionOf cx p
  let va := g.va p
  if !g.v || decide (va < g.lo) || decide (g.hi < va) || s.leftRegion cx p p then none
  else match s.translate cx va with
    | .leaf l => some (va, l, g, s.runFrom cx maxPages va l (min (2 ^ 32) (g.hi + 1 - va)))
    | _ => none

/-- The line that an XLD of a pointer must have recalled first, or wait for (07/R222, 08/R245). -/
def State.xtHeld (s : State) (p : DWord) : Option (Nat × Nat) :=
  match s.regionHeld s.w.ctx p with
  | some line => some (s.dev.devnum, line)
  | none =>
    let g := s.regionOf s.w.ctx p
    let va := g.va p
    if !g.v || decide (va < g.lo) || decide (g.hi < va) || s.leftRegion s.w.ctx p p then none
    else match s.translate s.w.ctx va with
      | .held dev line => some (dev, line)
      | .leaf l => s.runHeld s.w.ctx maxPages va l (min (2 ^ 32) (g.hi + 1 - va))
      | _ => none

/-- What XLD writes (08/R226). -/
def State.xtLoad (s : State) (p : DWord) : XtReg :=
  match s.runAt s.w.ctx p with
  | none => { XtReg.created with vbase := p, virt := (s.regionOf s.w.ctx p).va p, valid := true }
  | some (va, l, g, n) =>
    { vbase := p, virt := va, frame := l.pa va, limit := n, r := g.r && l.r, w := g.w && l.w, a := g.a && l.a, valid := true,
      dev := l.dev, coh := l.coh, tge := l.tge }

/-- A translation register. -/
def State.xt (s : State) (i : BitVec 3) : XtReg := pick s.w.xts i
@[inherit_doc State.xt] def State.setXt (s : State) (i : BitVec 3) (x : XtReg) : State :=
  { s with w := { s.w with xts := put s.w.xts i x } }
/-- An access through an xt that is not valid translates VBASE again first (08/R228). -/
def State.freshXt (s : State) (i : BitVec 3) : State := if (s.xt i).valid then s else s.setXt i (s.xtLoad (s.xt i).vbase)

/-! ### The lanes of an access -/

/-- What a memory instruction does to the bytes it names. -/
inductive Acc where
  | load | store | atomic | update
  deriving DecidableEq, Repr

/-- The permissions of an access (13/R353). -/
def Acc.need : Acc → Perm
  | .load => { r := true }
  | .store => { w := true }
  | _ => ⟨true, true, true⟩
/-- ACCESS codes (15/R398). -/
def Acc.code : Acc → Nat
  | .load => 0 | .store => 1 | .atomic => 2 | .update => 3

/-- One lane's access: the pointer it was formed from and the address formed (08/R230). -/
structure Lane where
  lane : Nat
  base : DWord
  va : DWord
  deriving DecidableEq, Repr

/-- Where a lane's bytes are: local offset, or home and physical address, with the address formed and the 57-bit virtual address that was
translated. -/
structure Loc where
  isLocal : Bool
  dev : Nat
  pa : Nat
  va : DWord
  virt : Nat
  coh : Bool
  deriving DecidableEq, Repr

/-- The mask TMASK takes: the lanes of a vector access, nothing for a scalar one (04/R146). -/
def tmaskOf (vec : Bool) (ls : List Nat) : Vector Word 3 := if vec then lanesMask ls else noLanes

/-- A trap of the lanes in which a cause arose: TADDR is that of the lowest (08/R232). -/
def laneTrap (c : Cause) (vec : Bool) : List (Nat × DWord) → Except Halt Unit
  | [] => .ok ()
  | b :: bs => .error (.trap { cause := c, taddr := b.2, lanes := tmaskOf vec ((b :: bs).map (·.1)) })

/-- The tag of the granule at a physical address (13/R363). -/
def State.granuleTag (s : State) (c : Ctx) (pa : Nat) : Nat :=
  let byte := s.homeValue s.dev.devnum (c.tagbase + (pa / 32 * 32 - c.tagmbase) / 64) 1
  if pa / 32 % 2 = 0 then byte % 16 else byte / 16

/-- Whether every granule of `n` bytes carries the pointer's tag, in Wyone-compatibility mode (13/R363, R364). -/
def State.tagsMatch (s : State) (cx : CtxId) (l : Leaf) (pa n : Nat) (p : DWord) : Bool :=
  let c := s.ctxOf cx
  !c.wcomp || !l.tge ||
    ((List.range n).all fun i => s.granuleTag c (pa + i) == (p.extractLsb' 56 4).toNat)

/-- The line of tags that the tag check of `n` bytes must have recalled first, or wait for. -/
def State.tagHeld (s : State) (cx : CtxId) (l : Leaf) (pa n : Nat) : Option Nat :=
  let c := s.ctxOf cx
  if !c.wcomp || !l.tge then none
  else ((List.range n).map fun i => lineOf (c.tagbase + ((pa + i) / 32 * 32 - c.tagmbase) / 64)).find? (s.heldLine s.dev.devnum)

/-- What step 4 of 08/R232 finds for a lane; or a line that its translation or its tag check must have first, or a table whose home does not
answer. -/
inductive Found where
  | at_ (l : Loc)
  | noPerm
  | badTag
  | absent (malf : Bool)
  | poison
  | held (dev line : Nat)
  | away
  deriving DecidableEq, Repr

/-- A global address at 57-bit virtual address `virt` through a leaf, `va` of whose page is its place: permission, then tag, where tags are
checked. -/
def State.throughLeaf (s : State) (cx : CtxId) (need : Perm) (n : Nat) (va virt : Nat) (p : DWord) (l : Leaf) (tags : Bool := true) : Found :=
  if !need.within l.perm then .noPerm
  else match (if tags then s.tagHeld cx l (l.pa va) n else none) with
    | some line => .held s.dev.devnum line
    | none =>
      if tags && !s.tagsMatch cx l (l.pa va) n p then .badTag
      else .at_ ⟨false, l.dev, l.pa va, p, virt, l.coh⟩

/-- Translation of one global lane: directly by FRAME inside the run, else through the tables (08/R230, 13/R357). -/
def State.findLane (s : State) (cx : CtxId) (xt : Option XtReg) (need : Perm) (n : Nat) (p : DWord) (tags : Bool := true) : Found :=
  let va := (s.regionOf cx p).va p
  let walk : Found :=
    match s.translate cx va with
    | .leaf l => s.throughLeaf cx need n va va p l tags
    | .absent m => .absent m
    | .poison => .poison
    | .held dev line => .held dev line
    | .away => .away
  match xt with
  | none => walk
  | some x =>
    let d := (p - x.vbase).toNat
    if d < x.limit then s.throughLeaf cx need n 0 (x.virt + d) p ⟨x.dev, x.frame + d, 1, false, x.tge, x.coh, false, x.a, x.w, x.r⟩ tags
    else walk

/-- Why a lane is unfinished before it performs: its page is absent (with MALF), or the home of a table does not answer (08/R232, 15/R411). -/
inductive Gone where
  | page (malf : Bool)
  | away
  deriving DecidableEq, Repr

/-- What a pass of a memory instruction may touch: lanes with their places, and the unfinished ones. -/
structure Pass where
  ok : List (Lane × Loc)
  unfinished : List (Lane × Gone)
  deriving DecidableEq, Repr

/-- The offset of a tagged barrier slot that `n` bytes at a local offset touch (09/R263). -/
def Block.taggedSlot (b : Block) (off n : Nat) : Option Nat :=
  b.tags.find? fun t => decide (t < off + n) && decide (off < t + 16)

/-- The first line that some lanes must have recalled before their checks go on. -/
def heldFirst : Option (Nat × Nat) → Except Halt Unit
  | none => .ok ()
  | some x => .error (.recall x.1 x.2)

/-- Steps 1 to 4 of 08/R232 over the lanes of a pass, in ascending order; without the check of tags where `tags` is false. An
entry of the tables that cannot be read raises POISON (13/R356) after what step 4 raises of the other lanes: the manual gives the two no order
(DESIGN CHOICE, log 92). -/
def State.passChecks (s : State) (k : Acc) (loc vec : Bool) (n : Nat) (xt : Option XtReg) (ls : List Lane) (tags : Bool := true) :
    Except Halt Pass := do
  let cx := s.w.ctx
  laneTrap .align vec ((ls.filter fun l => l.va.toNat % n ≠ 0).map fun l => (l.lane, l.va))
  heldFirst (if loc then none else ls.findSome? fun l => (s.regionHeld cx l.va).map fun x => (s.dev.devnum, x))
  laneTrap .prot vec (ls.filterMap fun l =>
    if loc then (if s.blk.localSize < l.va.toNat + n then some (l.lane, l.va) else none)
    else if s.leftRegion cx l.base l.va then some (l.lane, l.va)
    else match s.regionCheck cx k.need l.va n with
      | .error (.prot a) => some (l.lane, a)
      | _ => none)
  laneTrap .barobj vec (if loc ∧ k ≠ .load then
    ls.filterMap fun l => (s.blk.taggedSlot l.va.toNat n).map fun t => (l.lane, BitVec.ofNat 64 t) else [])
  if loc then return ⟨ls.map fun l => (l, ⟨true, 0, l.va.toNat, l.va, 0, true⟩), []⟩
  let fs := ls.map fun l => (l, s.findLane cx xt k.need n l.va tags)
  heldFirst (fs.findSome? fun x => match x.2 with | .held dev line => some (dev, line) | _ => none)
  let having (f : Found) := (fs.filter fun x => x.2 = f).map fun x => (x.1.lane, x.1.va)
  laneTrap .prot vec (having .noPerm)
  laneTrap .tagchk vec (having .badTag)
  laneTrap .poison vec (having .poison)
  return ⟨fs.filterMap fun x => match x.2 with | .at_ l => some (x.1, l) | _ => none,
    fs.filterMap fun x => match x.2 with | .absent m => some (x.1, .page m) | .away => some (x.1, .away) | _ => none⟩

end Sys2Proof.Machine
end

