-- ==== Sys2Proof/Machine/Levels.lean ====
section
/-! DEFINITION. The places of the levels: reading a byte through them, writing at a level, moves, spills, aborts, marks
and acquires (07/R196 to R221, 15/R406), for the wave in focus. -/

namespace Sys2Proof.Machine

/-! ### Lines of a place -/

/-- Whether a buffered line is the line of a place and address. -/
def BLine.holds (b : BLine) (isLocal : Bool) (dev line : Nat) : Bool := b.isLocal == isLocal && b.dev == dev && b.line == line

/-- The line of an address that still takes bytes: one that has been sent to its home takes none (15/R406). -/
def Place.find (p : Place) (isLocal : Bool) (dev line : Nat) : Option BLine :=
  p.lines.find? fun b => b.holds isLocal dev line && b.sent.isNone

/-- The byte a place holds at an address, the newest first, with its poison. -/
def Place.byte (p : Place) (isLocal : Bool) (dev pa : Nat) : Option (Byte × Bool) :=
  p.lines.reverse.findSome? fun b =>
    if b.holds isLocal dev (lineOf pa) then (b.bytes.find? fun x => x.1 == pa % 64).map fun x => (x.2, b.poison) else none

/-- A line with the bytes of a newer one over it; poison is carried (07/R205, 17/R433). -/
def BLine.merge (old new : BLine) : BLine :=
  { old with bytes := (old.bytes.filter fun o => !(new.bytes.any (·.1 == o.1))) ++ new.bytes, poison := old.poison || new.poison }

/-- The place with a line merged into one it holds. -/
def Place.mergeIn (p : Place) (b : BLine) : Option Place :=
  match p.find b.isLocal b.dev b.line with
  | none => none
  | some _ => some { p with lines := p.lines.map fun o => if o.holds b.isLocal b.dev b.line && o.sent.isNone then o.merge b else o }
/-- The place with a new line. -/
def Place.add (p : Place) (b : BLine) : Place := { p with lines := p.lines ++ [b] }

/-- The address of the first byte of the line of an access (04/R146). -/
def Loc.lineVa (l : Loc) : DWord := l.va - BitVec.ofNat 64 (l.pa % 64)

/-- A line that holds some bytes of one access. -/
def Loc.toLine (l : Loc) (bs : List Byte) : BLine :=
  { isLocal := l.isLocal, dev := l.dev, line := lineOf l.pa, va := l.lineVa, virt := l.virt - l.pa % 64, coh := l.coh,
    bytes := bs.zipIdx.map fun b => (l.pa % 64 + b.2, b.1), poison := false, held := .place, sent := none, hit := false }

/-- The bytes of a buffered line by address. -/
def BLine.at_ (b : BLine) : List (Nat × Byte) := b.bytes.map fun x => (64 * b.line + x.1, x.2)

/-! ### Places of the focus -/

/-- Replaces the W, B or G place of the focus. -/
def State.setW (s : State) (p : Place) : State := { s with w := { s.w with wbuf := p } }
@[inherit_doc State.setW] def State.setB (s : State) (p : Place) : State := { s with blk := { s.blk with place := p } }
@[inherit_doc State.setW] def State.setG (s : State) (p : Place) : State := { s with gang := { s.gang with place := p } }

/-- Whether a wave's hashed read signature is hit by a block: a read block, or an alias of a read block (07/R207, log 2). -/
def Wave.sigHit (w : Wave) (turn : Nat) (isLocal : Bool) (dev line : Nat) : Bool :=
  w.sig.any fun k => k == (isLocal, dev, line) || Config.aliasHit turn k.2.1 k.2.2 line

/-- A write into a block's B place by a wave, or by an engine that it kicked, sets the conflict flag of every other wave of the
block that it hits (07/R207). -/
def State.noteWrite (s : State) (k : BlockKey) (by_ : WaveKey) (isLocal : Bool) (dev line : Nat) : State :=
  s.mapWaves fun w =>
    if w.key.block = k ∧ w.key ≠ by_ ∧ w.sigHit s.turn isLocal dev line then { w with conflict := true } else w
/-- A write of the wave in focus into its block's B place. -/
def State.noteB (s : State) (isLocal : Bool) (dev line : Nat) : State := s.noteWrite s.w.key.block s.w.key isLocal dev line

/-- Whether an offset lies in a tagged barrier slot of the block (09/R263). -/
def Block.inTag (b : Block) (off : Nat) : Bool := b.tags.contains (off / 16 * 16)

/-- Bytes written into the scratchpad at B (07/R199). -/
def State.putScratch (s : State) (bs : List (Nat × Byte)) : State :=
  let s := { s with blk := { s.blk with scratch := s.blk.scratch.writeAll bs } }
  (groupLines bs).foldl (fun s g => s.noteB true 0 g.1) s

/-! ### What a wave has seen at D (07/R204, R217) -/

/-- The step from which on a value of a byte at D is not older than what the wave has read or written there. -/
def Wave.floor (w : Wave) (dev pa : Nat) : Nat :=
  ((w.floors.find? fun f => f.1 == dev && f.2.1 == wordOf pa).map (·.2.2)).getD 0
/-- The wave has seen the word of a byte as it was at a step. -/
def Wave.saw (w : Wave) (dev pa at_ : Nat) : Wave :=
  { w with floors := (dev, wordOf pa, max at_ (w.floor dev pa)) :: w.floors.filter fun f => !(f.1 == dev && f.2.1 == wordOf pa) }
/-- The wave in focus has seen some bytes at D as they are now. -/
def State.sawNow (s : State) (dev : Nat) (pas : List Nat) : State :=
  { s with w := pas.foldl (fun w pa => w.saw dev pa s.turn) s.w }

/-- The wave in focus has written some global bytes below D. -/
def State.wroteBelow (s : State) (dev : Nat) (pas : List Nat) : State :=
  { s with w := { s.w with wrote := (pas.map fun pa => (dev, wordOf pa)).dedup.filter (fun x => !s.w.wrote.contains x) ++ s.w.wrote } }

/-- A wave some of whose words have been performed at D. -/
def Wave.moved (w : Wave) (turn : Nat) (words : List (Nat × Nat)) : Wave :=
  let mine := w.wrote.filter words.contains
  if mine = [] then w
  else mine.foldl (fun (w : Wave) x => w.saw x.1 (4 * x.2) turn) { w with wrote := w.wrote.filter fun x => !words.contains x }
/-- Lines have been performed at D: every wave that `who` selects and that wrote a word of them has seen it there. -/
def State.movedFor (s : State) (who : Wave → Bool) (ls : List BLine) : State :=
  let words := (ls.flatMap fun b => b.at_.map fun x => (b.dev, wordOf x.1)).dedup
  if words = [] then s else s.mapWaves fun w => if who w then w.moved s.turn words else w
/-- Lines of the gang in focus have been performed at D: every wave of the gang that wrote a word of them has seen it there. -/
def State.movedD (s : State) (ls : List BLine) : State :=
  s.movedFor (fun w => w.key.gangKey == s.w.key.gangKey || w.key.gangKey == s.gang.key) ls

/-! ### Level D and X -/

/-- A line's bytes performed at D by the wave's core: at the home on a coherent page; on a software-managed page as dirty
bytes of the core, whose own partials of the line go home first, with the copies that snapshots take at the move (13/R367, R373,
R453, 14/R383). A whole line clears its poison there and then (17/R434). Where every line that could give way is held up at its home, the
core keeps nothing of the line and its bytes go home (14/R392). -/
def State.writeD (s : State) (line : Nat) (coh : Bool) (bs : List (Nat × Byte)) (va : DWord := 0) : Except CtxId State :=
  let c := s.w.core
  if coh then s.homeWrite (some c.toNat) none line bs
  else do
    let s ← if s.parts = [] then .ok s else s.recallWhere (fun p => p.peer.isNone && p.core == c) s.dev.devnum line
    let s ← s.copyOnWrite none line
    let s ← s.makeRoom c s.dev.devnum line
    if (s.core c).hasRoom s.dev.devnum line then
      return (if s.vaultFenced (64 * line) then s else s.clearPoison line bs).takeLine c s.dev.devnum line false true bs va
    else
      let s ← s.writeBack c line
      (s.dropLine c s.dev.devnum line).homeWrite none none line bs

/-- A line's bytes performed in the home's memory with nothing allocated, at X or streaming at D; on a software-managed page the core's
dirty bytes go home before and its copy is dropped (07/R201, 13/R452, logs 16, 75). -/
def State.writeX (s : State) (line : Nat) (coh : Bool) (bs : List (Nat × Byte)) : Except CtxId State :=
  if coh then s.homeThrough s.w.core line bs
  else do
    let s ← s.writeBack s.w.core line
    (s.dropLine s.w.core s.dev.devnum line).homeWrite none none line bs

/-- A copy of a peer's line that the core holds goes when the core writes the line through. -/
def State.dropRemote (s : State) (dev line : Nat) : State := s.dropLine s.w.core dev line

/-- Numbers for the lines of a place that go to one home and have none: they form one commit group (15/R401). -/
def State.numberLines (s : State) (dev : Nat) (ls : List BLine) : List BLine × State :=
  let last := (ls.zipIdx.filter fun x => x.1.dev == dev && x.1.sent.isNone).getLast?.map (·.2)
  match last with
  | none => (ls, s)
  | some n =>
    let (g, s) := s.takeGroup
    ls.zipIdx.foldl (init := ([], s)) fun r x =>
      if x.1.dev = dev ∧ x.1.sent.isNone then
        let (q, t) := r.2.takeSent dev g (x.2 == n) none x.1.poison
        (r.1 ++ [{ x.1 with sent := some q }], t)
      else (r.1 ++ [x.1], r.2)

/-- A line sent to its home, or sent again with its numbers. -/
def State.sendLine (s : State) (b : BLine) : State :=
  match b.sent with
  | none => s
  | some q => (s.sendWrite b.dev q b.at_).dropRemote b.dev b.line

/-- Whether a line's home has performed it and said so. -/
def State.lineAcked (s : State) (b : BLine) : Bool := b.sent.any fun q => s.acked b.dev q.pseq

/-- The core whose endpoint sends what the wave, block or gang in focus moves. -/
def State.mover (s : State) : CoreId :=
  if s.w.key.launch ≠ 0 then s.w.core else if s.blk.key.launch ≠ 0 then s.blk.core else s.gang.quad ++ 0#2

/-- Sends the lines that a place holds for other devices, one group for each home; acknowledged ones leave, and lines of a
lost home are discarded (07/R221, 15/R401, R405, R406). -/
def State.sendLines (s : State) (ls : List BLine) : List BLine × State :=
  let ls := ls.filter fun b => (s.peer b.dev).any fun p => !p.lost
  let (ls, s) := ((ls.map (·.dev)).dedup).foldl (fun r dev => r.2.numberLines dev r.1) (ls, s)
  let s := ls.foldl State.sendLine s
  let done := ls.filter s.lineAcked
  (ls.filter fun b => !s.lineAcked b, ((done.map (·.dev)).dedup).foldl (fun s dev => s.scReceive s.mover dev) (s.movedD done))

/-- A LINK_WRITE_LOST record for a place that loses lines bound for a lost home (15/R406, 17/R425). -/
def State.lostRecord (s : State) (unit : UnitId) (lines : List BLine) : State :=
  let lost := (s.peers.filter (·.lost)).filter fun p => lines.any (·.dev == p.dev)
  lost.foldl (fun s p => s.errorRecord (some s.w.ctx) { code := 0x0603, unit := unit, detail := p.dev }) s

/-- Lines of a place that are homed here, and those homed elsewhere. -/
def State.ownLines (s : State) (p : Place) : List BLine := p.lines.filter fun b => b.dev == s.dev.devnum
@[inherit_doc State.ownLines] def State.farLines (s : State) (p : Place) : List BLine := p.lines.filter fun b => b.dev != s.dev.devnum

/-- The first address of a list of lines that a pool stops. -/
def poolVa (ls : List BLine) : DWord := (ls.head?.map (·.va)).getD 0

/-- The address of the first of some acts that takes a line of a context's pool or stops. -/
def firstShort (c : CtxId) (used : Nat) : List (DWord × Act Unit) → State → Option DWord
  | [], _ => none
  | (va, a) :: rest, s =>
    match a s with
    | .error _ => some va
    | .ok (_, t) => if used < t.poolUsed c then some va else firstShort c used rest t

/-- The pool that a stop for want of a shadow line names, with the address it gives (14/R387). -/
def State.shortOf (s : State) : Halt → Option (CtxId × DWord)
  | .trap t => if t.cause = .shadow then some (s.w.ctx, t.taddr) else none
  | .park p => p.pool.map fun c => (c, p.addr)
  | .wait _ | .combine _ _ | .recall _ _ => none

/-- A stop with another address. -/
def Halt.named (va : DWord) : Halt → Halt
  | .trap t => .trap { t with taddr := va }
  | .park p => .park { p with addr := va }
  | h => h

/-- When some acts together need more lines than a pool has, the address is that of the first that needs one (16/R422). -/
def State.shortage (s : State) (acts : List (DWord × Act Unit)) (h : Halt) : Halt :=
  match s.shortOf h with
  | some (c, va) => if acts.any (·.1 == va) then h.named ((firstShort c (s.poolUsed c) acts s).getD va) else h
  | none => h

/-- Acts one after another, of which a shortage of pool lines names the first that needs one. -/
def together (acts : List (DWord × Act Unit)) : Act Unit := fun s =>
  match acts.forM (m := Act) (·.2) s with
  | .ok r => .ok r
  | .error (h, t) => .error (s.shortage acts h, t)

/-- The recall of a line before an access; the access waits while the combining waits for a pool (08/R245, 14/R387). -/
def recallAct (dev line : Nat) : Act Unit := fun s =>
  if !(s.parts.any fun p => p.dev == dev && lineOf p.addr == line) || (dev != s.dev.devnum && !s.reachable dev) then .ok ((), s)
  else if (s.poolWait.any (·.2 == .combine line) && dev == s.dev.devnum) || s.partsAway dev line then .error (.wait .memdep, s)
  else match s.recallLine dev line with
    | .ok s => .ok ((), s)
    | .error c => .error (.combine c line, s)

/-- A write at D or X at the home by the wave in focus: it waits for a restore, partials are recalled, and a pool may stop it
(07/R222, 08/R245, 14/R387). -/
def atHome (line : Nat) (bs : List (Nat × Byte)) (f : State → Except CtxId State) (va : DWord) (access : Nat) : Act Unit := do
  let s ← get
  if bs.any fun b => s.restoring s.dev.devnum b.1 then stop (.wait .memdep)
  recallAct s.dev.devnum line
  withPool f va access

/-- The lines homed here performed at D, all or none; poison is carried into the line (07/R205, R206). -/
def putLinesD (ls : List BLine) : Act Unit := do
  together <| ls.map fun b => (b.va, do
    atHome b.line b.at_ (fun s => s.writeD b.line b.coh b.at_ b.va) b.va 5
    if b.poison then modify fun s => { s with poison := b.line :: s.poison.filter (· != b.line) })
  modify fun s => s.movedD ls

/-- The wait of an instruction whose move has lines that are not acknowledged (15/R406). -/
def remoteMove (ls : List BLine) : Halt := .wait (.remote noLanes (poolVa ls) 5)

/-- Lines of a place sent on to their homes: those that are not acknowledged stay, and the mover waits (15/R406). -/
def sendFar (unit : UnitId) (far : List BLine) (keep : State → List BLine → State) : Act Unit := do
  if far ≠ [] then
    let (left, s) := ((← get).lostRecord unit far).sendLines far
    set (keep s left)
    if left ≠ [] then stop (remoteMove left)

/-- An act that is undone when it stops; when an implicit move in it waits for a home, that move alone has begun
(07/R206, R213, 15/R406). -/
def keepMove (a : Act Unit) (move : Act Unit) : Act Unit := fun s =>
  match a s with
  | .ok r => .ok r
  | .error (.wait (.remote ls va x), _) =>
    match move s with
    | .ok (_, t) => .error (.wait (.remote ls va x), t)
    | .error e => .error e
  | .error (h, _) => .error (h, s)

/-- An act that is undone when it stops, but for a stop at a home that does not answer: what has been moved and acknowledged by then
stands (07/R206, 15/R406). -/
def farStands (a : Act Unit) : Act Unit := fun s =>
  match a s with
  | .ok r => .ok r
  | .error (.wait (.remote ls va x), t) => .error (.wait (.remote ls va x), t)
  | .error (h, _) => .error (h, s)

/-- Move(G, D): first the lines homed here, all or none; then the lines homed elsewhere, which leave as they are
acknowledged. While one is left the mover waits (07/R205, 15/R406). -/
def moveGD : Act Unit := do
  whole do
    let s ← get
    putLinesD (s.ownLines s.gang.place)
    modify fun s => s.setG { s.gang.place with lines := s.farLines s.gang.place }
  let s ← get
  sendFar (wholeQuad s.gang.quad) s.gang.place.lines fun s left => s.setG { s.gang.place with lines := left }
  modify fun s => s.setG { s.gang.place with marked := false }

/-- Whether a save is handling the places of the gang in focus: its engine work has ended (07/R214, 12/R344). -/
def State.savesPlaces (s : State) : Bool :=
  s.gang.state == .saving && !(s.cores.toList.any fun c => c.kicks.any fun k => k.owner.gangKey == s.gang.key)

/-- Where a new line goes at a marked, full level: to the shadow pool, or at a save with no free pool line to the save area; else the
instruction fails (07/R213, R214). -/
def spillTo (level : Nat) (va : DWord) : Act Held := do
  let s ← get
  if s.poolFree s.w.ctx ≠ 0 then return .pool
  else if s.savesPlaces then return .save
  else if s.cx.poolsize = 0 then raiseTrap .bufovf level va
  else poolStop s.w.ctx va 5

/-- A line put at D, or handed to the endpoint of the core, which goes on sending it to its home. -/
def putD (b : BLine) : Act Unit := do
  let s ← get
  if b.dev = s.dev.devnum then putLinesD [b]
  else set ((s.postWrite s.mover s.w.key b.dev none b.at_ b.poison).dropRemote b.dev b.line)

/-- A line as the gang buffer holds it: one in the place itself, whose vault is fenced, reads as poisoned (17/R430). -/
def State.inVault (s : State) (h : Held) (b : BLine) : BLine :=
  if h = .place ∧ (pick s.vaults s.gang.quad).bin = 3#2 then { b with poison := true } else b

/-- A line put into the gang buffer (07/R205, R213). -/
def putG (b : BLine) : Act Unit := do
  let s ← get
  let p := s.gang.place
  match p.mergeIn (s.inVault (((p.find b.isLocal b.dev b.line).map (·.held)).getD .pool) b) with
  | some p => set (s.setG p)
  | none =>
    if p.used < s.gang.gcap then set (s.setG (p.add (s.inVault .place { b with held := .place })))
    else if p.marked then
      let h ← spillTo 2 b.va
      modify fun s => s.setG (s.gang.place.add { b with held := h })
    else if s.gang.gcap = 0 then putD b
    else
      moveGD
      modify fun s => s.setG (s.gang.place.add (s.inVault .place { b with held := .place }))

/-- Whether the block buffer, or the gang buffer, has no capacity and no mark, so that lines pass straight up (07/R213). -/
def State.passesB (s : State) : Bool := s.blk.bcap == 0 && !s.blk.place.marked
@[inherit_doc State.passesB] def State.passesG (s : State) : Bool := s.gang.gcap == 0 && !s.gang.place.marked

/-- Move(B, G) (07/R205); with no gang buffer the lines go on to D, and those for a lost home draw one record. -/
def moveBG : Act Unit := do
  let s ← get
  if s.passesG then
    whole do
      let s ← get
      putLinesD (s.ownLines s.blk.place)
      modify fun s => s.setB { s.blk.place with lines := s.farLines s.blk.place }
    sendFar (wholeCore s.w.core) (← get).blk.place.lines fun s left => s.setB { s.blk.place with lines := left }
  else keepMove (do together ((← get).blk.place.lines.map fun b => (b.va, putG b))) moveGD
  modify fun s => s.setB Place.empty

/-- A line put into the block buffer; it may set conflict flags (07/R205, R207, R213). -/
def putB (b : BLine) : Act Unit := do
  modify fun s => s.noteB false b.dev b.line
  let s ← get
  let p := s.blk.place
  match p.mergeIn b with
  | some p => set (s.setB p)
  | none =>
    if p.used < s.blk.bcap then set (s.setB (p.add { b with held := .place }))
    else if p.marked then
      let h ← spillTo 1 b.va
      modify fun s => s.setB (s.blk.place.add { b with held := h })
    else if s.blk.bcap = 0 then putG b
    else
      moveBG
      modify fun s => s.setB (s.blk.place.add { b with held := .place })

/-- A local line leaving W: its bytes go into the scratchpad, but for those of tagged slots, which are dropped; poison goes with
it (07/R199, 09/R263, 17/R433). -/
def State.putLocal (s : State) (b : BLine) : State :=
  let s := s.putScratch (b.at_.filter fun x => !s.blk.inTag x.1)
  if b.poison then { s with blk := { s.blk with poison := b.line :: s.blk.poison.filter (· != b.line) } } else s

/-- A line leaving W: local bytes go into the scratchpad; global ones go into the block buffer (07/R199). -/
def putAboveW (b : BLine) : Act Unit :=
  if b.isLocal then modify fun s => s.putLocal b else putB b

/-- Move(W, B) (07/R205); with neither block nor gang buffer the lines go on to D. -/
def moveWB : Act Unit := do
  let s ← get
  if s.passesB && s.passesG then
    whole do
      let s ← get
      let ls := s.w.wbuf.lines
      set (ls.foldl (fun s b => if b.isLocal then s.putLocal b else s.noteB false b.dev b.line) s)
      putLinesD ((s.ownLines s.w.wbuf).filter (!·.isLocal))
      modify fun s => s.setW { s.w.wbuf with lines := (s.farLines s.w.wbuf).filter (!·.isLocal) }
    sendFar (wholeCore s.w.core) (← get).w.wbuf.lines fun s left => s.setW { s.w.wbuf with lines := left }
  else keepMove (do together ((← get).w.wbuf.lines.map fun b => (b.va, putAboveW b))) (if s.passesB then moveGD else moveBG)
  modify fun s => s.setW Place.empty

/-- A line put into the W buffer (07/R197, R213). -/
def putW (b : BLine) : Act Unit := do
  let s ← get
  let p := s.w.wbuf
  match p.mergeIn b with
  | some p => set (s.setW p)
  | none =>
    if p.used < Config.wLines then set (s.setW (p.add b))
    else if p.marked then
      let h ← spillTo 0 b.va
      modify fun s => s.setW (s.w.wbuf.add { b with held := h })
    else
      moveWB
      modify fun s => s.setW (s.w.wbuf.add b)

/-- Move(D, X) for the wave's core: its dirty bytes of software-managed pages of this device go home (07/R205, 13/R373). -/
def moveDX : Act Unit := do
  let s ← get
  let dirty := (s.co.cache ++ s.co.ckc).filter fun l => l.dev == s.dev.devnum && l.dirty != []
  ((dirty.map (·.line)).dedup).forM fun line =>
    let va := ((dirty.find? (·.line == line)).map (·.va)).getD 0
    atHome line ((List.range 64).map fun i => (64 * line + i, 0)) (fun s => s.writeBack s.w.core line) va 5

/-- Commit(L), by level code 1 to 4 (07/R205). -/
def commitTo (lvl : Nat) : Act Unit := do
  if 1 ≤ lvl then moveWB
  if 2 ≤ lvl then moveBG
  if 3 ≤ lvl then moveGD
  if 4 ≤ lvl then moveDX

/-- The level a lvl field compares as: 5 counts as D, 6 as X (07/R201). -/
def rankOf (lvl : Nat) : Nat := if lvl = 5 then 3 else if lvl = 6 then 4 else lvl

/-- The level at which a write lands that is made at a level: a place with no capacity and no mark passes it straight up (07/R213). -/
def State.landsAt (s : State) (lvl : Nat) : Nat :=
  if lvl = 1 ∧ s.passesB then (if s.passesG then 3 else 2) else if lvl = 2 ∧ s.passesG then 3 else lvl

/-- Write at a level of bytes within one line (03/R119, 07/R201, 08/R237); a remote line at D or X is the caller's. -/
def writeAt (lvl : Nat) (l : Loc) (bs : List Byte) : Act Unit := do
  let b := l.toLine bs
  let pas := b.at_.map (·.1)
  if l.isLocal then
    if rankOf lvl = 0 then putW b else modify fun s => s.putScratch b.at_
  else match rankOf lvl with
    | 0 => do
      putW b
      modify fun s => s.wroteBelow l.dev pas
    | 1 => do
      putB b
      modify fun s => s.wroteBelow l.dev pas
    | 2 => do
      putG b
      modify fun s => s.wroteBelow l.dev pas
    | 3 => do
      atHome b.line b.at_ (fun s => if lvl = 5 then s.writeX b.line b.coh b.at_ else s.writeD b.line b.coh b.at_ b.va) b.va 1
      modify fun s => s.sawNow l.dev pas
    | _ => do
      atHome b.line b.at_ (fun s => s.writeX b.line b.coh b.at_) b.va 1
      modify fun s => s.sawNow l.dev pas

/-- The implicit move that a write at a level may make (07/R213). -/
def implicitMove (lvl : Nat) : Act Unit :=
  match lvl with
  | 0 => moveWB
  | 1 => moveBG
  | 2 => moveGD
  | _ => pure ()

/-- A write at a level that waits for a home: a full W buffer is a wait of its own (07/R213). -/
def Halt.atLevel (lvl : Nat) : Halt → Halt
  | .wait (.remote ls va 5) => if lvl = 0 then .wait (.wbfull va) else .wait (.remote ls va 5)
  | h => h

/-! ### Reading -/

/-- A byte of the home's memory: this device's or a peer's (07/R201). -/
def State.homeByte (s : State) (dev pa : Nat) : Byte :=
  if dev = s.dev.devnum then s.mem.read pa
  else match s.peer dev with
    | some p => p.mem.read pa
    | none => 0

/-- The byte of D that the checker cache of the wave's core supplies (01/R43): a dirty one, or a clean one that is not older than
what the wave has seen; an sc read takes no clean one (07/R204, R217, R221, 13/R374). -/
def State.ckSupply (s : State) (fresh : Bool) (dev pa : Nat) : Option CByte :=
  match s.co.ckByte dev pa with
  | some (b, dirty) => if dirty || (!fresh && decide (s.w.floor dev pa ≤ b.at_)) then some b else none
  | none => none

/-- A byte at D as the wave's core sees it: from its checker cache, else from the home; a line that is poisoned at its home is
read as poisoned (07/R204, 17/R433, log 55). -/
def State.byteD (s : State) (fresh : Bool) (dev pa : Nat) : Byte × Bool :=
  (((s.ckSupply fresh dev pa).map (·.val)).getD (s.homeByte dev pa), s.homePoison dev pa)

/-- The byte that a place consulted by a read at a level holds (07/R201, R202); a tagged slot is read at B (09/R263). -/
def State.placeByte (s : State) (lvl : Nat) (isLocal : Bool) (dev pa : Nat) : Option (Byte × Bool) :=
  let fromW := if lvl = 0 && !(isLocal && s.blk.inTag pa) then s.w.wbuf.byte isLocal dev pa else none
  if isLocal then fromW
  else if 4 ≤ rankOf lvl then none
  else fromW.orElse fun _ => (if lvl ≤ 1 then s.blk.place.byte false dev pa else none).orElse fun _ =>
    if lvl ≤ 2 then s.gang.place.byte false dev pa else none

/-- Read of one byte at a level: the first place that holds it (07/R201, R202). -/
def State.readByte (s : State) (lvl : Nat) (fresh isLocal : Bool) (dev pa : Nat) : Byte × Bool :=
  (s.placeByte lvl isLocal dev pa).getD
    (if isLocal then (s.blk.scratch.read pa, s.blk.poison.contains (lineOf pa))
     else if 4 ≤ rankOf lvl then (s.homeByte dev pa, s.homePoison dev pa)
     else s.byteD fresh dev pa)

/-- Read(level, addr, size) (03/R119): the bytes and whether a poisoned line was read. -/
def State.readAt (s : State) (lvl : Nat) (fresh : Bool) (l : Loc) (n : Nat) : List Byte × Bool :=
  let bs := (List.range n).map fun i => s.readByte lvl fresh l.isLocal l.dev (l.pa + i)
  (bs.map (·.1), bs.any (·.2))

/-- The bytes of a read that no place supplies: it takes them at D, or at X from the home. -/
def State.bytesFromD (s : State) (lvl : Nat) (l : Loc) (n : Nat) : List Nat :=
  if l.isLocal then [] else ((List.range n).map (l.pa + ·)).filter fun pa => (s.placeByte lvl false l.dev pa).isNone

/-- Whether a core holds a partial of a line. -/
def State.holdsPart (s : State) (c : CoreId) (dev line : Nat) : Bool :=
  s.parts.any fun p => p.peer.isNone && p.core == c && p.dev == dev && lineOf p.addr == line

/-- Whether a read at a level reaches the home of some byte, and so recalls its line: no place supplies it, and on a
software-managed page no copy of the core that holds no partial of the line (08/R245, 13/R453). -/
def State.reachesHome (s : State) (lvl : Nat) (fresh : Bool) (l : Loc) (n : Nat) : Bool :=
  (s.bytesFromD lvl l n).any fun pa =>
    4 ≤ rankOf lvl || l.coh || s.holdsPart s.w.core l.dev (lineOf pa) || (s.ckSupply fresh l.dev pa).isNone

/-- The bytes of a read at D that the home itself supplies. -/
def State.missesD (s : State) (lvl : Nat) (fresh : Bool) (l : Loc) (n : Nat) : List Nat :=
  (s.bytesFromD lvl l n).filter fun pa => 4 ≤ rankOf lvl || (s.ckSupply fresh l.dev pa).isNone

/-- The 64 bytes of a line in its home's memory, with their addresses. -/
def State.homeLine (s : State) (dev line : Nat) : List (Nat × Byte) :=
  (List.range 64).map fun i => (64 * line + i, s.homeByte dev (64 * line + i))

/-- After a read at D the wave has seen its bytes, and a miss below a streaming level has brought the line into the core's
caches (01/R44, 07/R201, R204). -/
def State.afterRead (s : State) (lvl : Nat) (fresh : Bool) (l : Loc) (n : Nat) : State :=
  let seen := (s.bytesFromD lvl l n).map fun pa => (pa, (((if 4 ≤ rankOf lvl then none else s.ckSupply fresh l.dev pa).map (·.at_)).getD s.turn))
  let miss := !l.isLocal && decide (lvl ≤ 3) && s.missesD lvl fresh l n != []
  let s : State := { s with w := seen.foldl (fun w x => w.saw l.dev x.1 x.2) s.w }
  if miss then s.takeLine s.w.core l.dev (lineOf l.pa) l.coh false (s.homeLine l.dev (lineOf l.pa))
  else s

/-- The line of an access joins the wave's read signature (07/R207). -/
def State.noteRead (s : State) (l : Loc) : State :=
  let k := (l.isLocal, l.dev, lineOf l.pa)
  if s.w.sig.contains k then s else { s with w := { s.w with sig := s.w.sig ++ [k] } }

/-! ### Abort, mark, acquire, validated commit -/

/-- The signature and the conflict flag cleared (07/R207). -/
def State.clearSig (s : State) : State := { s with w := { s.w with sig := [], conflict := false } }

/-- The notice bits of ABTN (07/R210). -/
def abb : Word := 2
@[inherit_doc abb] def abg : Word := 4

/-- ABORT.L (07/R209). -/
def State.abortAt (s : State) (lvl : Nat) : State :=
  match lvl with
  | 0 => ((s.orphan s.w.core s.w.key s.w.wbuf).setW Place.empty).clearSig
  | 1 => ((s.orphan s.blk.core s.w.key s.blk.place).setB Place.empty).mapWaves fun w => if w.key.block = s.w.key.block then { w with abtn := w.abtn ||| abb } else w
  | _ => ((s.orphan (s.gang.quad ++ 0#2) s.w.key s.gang.place).setG Place.empty).mapWaves fun w => if w.key.gangKey = s.w.key.gangKey then { w with abtn := w.abtn ||| abg } else w

/-- MARK.L (07/R211). -/
def State.markAt (s : State) (lvl : Nat) : State :=
  match lvl with
  | 0 => (s.setW { s.w.wbuf with marked := true }).clearSig
  | 1 => s.setB { s.blk.place with marked := true }
  | _ => s.setG { s.gang.place with marked := true }

/-- ACQ.L by level code (07/R220). -/
def State.acquireAt (s : State) (lvl : Nat) : State :=
  if rankOf lvl < 3 then s.ordered else s.ordered.acquire s.w.core (decide (4 ≤ rankOf lvl))

/-- LEVELST (07/R212). -/
def fillOf (p : Place) (cap : Nat) : Nat := if cap = 0 then 0 else min 15 (p.used * 16 / cap)
@[inherit_doc fillOf] def State.levelst (s : State) : Word :=
  let b (c : Bool) (i : Nat) : Nat := if c then 2 ^ i else 0
  BitVec.ofNat 32 (fillOf s.gang.place s.gang.gcap * 2 ^ 20 + fillOf s.blk.place s.blk.bcap * 2 ^ 16 + s.w.wbuf.used * 2 ^ 8 +
    b s.w.conflict 6 + b (s.gang.place.spilled != 0) 5 + b (s.blk.place.spilled != 0) 4 + b (s.w.wbuf.spilled != 0) 3 +
    b s.gang.place.marked 2 + b s.blk.place.marked 1 + b s.w.wbuf.marked 0)

/-- One sc operation: its timestamp is greater than any before it in the device, and its core's clock greater than the
timestamp (07/R221). -/
def State.scStamp (s : State) : State :=
  let ts := max (s.dev.scLast + 1) s.co.scClock
  let s : State := { s with dev := { s.dev with scLast := ts } }
  s.setCo { s.co with scClock := ts + 1 }
end Sys2Proof.Machine
end

