-- ==== Sys2Proof/Machine/Flags.lean ====
section
/-! DEFINITION. Flags and bounds: what an element operation sets in STATUS (02/R62, R63) and the comparison of every vector
result with its bound register (02/R83 to R88). -/

namespace Sys2Proof

/-- A bound rounded into an element format: `up` for lo, down for hi; a format without such a value gives its extreme
(02/R87, log 17). -/
def Fmt.clampBits (f : Fmt) (up : Bool) (x : Num) : Nat :=
  match f.float, f.tapered with
  | some ff, _ =>
    let (b, _) := ff.roundNum (if up then .ru else .rd) false x
    if b = ff.nanBits then ff.maxBits x.neg else b
  | _, some n =>
    let top := taperedMax n
    match x with
    | .inf neg => if neg then 2 ^ n - top else top
    | _ =>
      let (q, _) := taperedEncode n x
      let o := (taperedValue n q).cmp x
      if up && o == .lt && q != top then (q + 1) % 2 ^ n
      else if !up && o == .gt && q != 2 ^ n - top then (q + 2 ^ n - 1) % 2 ^ n
      else q
  | _, _ => (f.toInt (if up then .ru else .rd) x).1

/-- A lane value with element `i` replaced; a T6x5 result has bits 31:30 zero (02/R58). -/
def Fmt.setElem (f : Fmt) (x i v : Nat) : Nat :=
  let x := if f = .t6x5 then x % 2 ^ 30 else x
  x - f.elem x i * 2 ^ (f.bits * i) + v % 2 ^ f.bits * 2 ^ (f.bits * i)

end Sys2Proof

namespace Sys2Proof.Machine

/-- A bound register as it stands: values in its comparison format, and its action (02/R83, R84). -/
structure BoundReg where
  lo : Num
  hi : Num
  action : Nat
  deriving DecidableEq, Repr

/-- bd b of a context; bd0 is off (02/R83). -/
def Ctx.bound (c : Ctx) (b : BitVec 4) : BoundReg :=
  let f : Fmt := if c.bndfmt.getLsbD b.toNat then .f32 else .s32
  { lo := (f.value (pick c.bdlo b).toNat).1, hi := (f.value (pick c.bdhi b).toNat).1,
    action := if b = 0 then 0 else (c.bndact.toNat / 2 ^ (2 * b.toNat)) % 4 }

/-- What the wave in focus sees of a bound word: an older value may still be seen (02/R89, log 2). -/
def State.seenWord (s : State) (index : Nat) (now : Word) : Word :=
  let old := (s.w.oldBounds.filter fun o => o.index == index && decide ((s.core o.core).cycle < o.until_)).map (·.value)
  (now :: old).getD (Config.boundSeen s.turn index % (old.length + 1)) now

/-- The context with its bound registers as the wave in focus sees them. -/
def State.bounds (s : State) : Ctx :=
  if s.w.oldBounds = [] then s.cx
  else
    { s.cx with
      bdlo := Vector.ofFn fun b : Fin 16 => s.seenWord (0x40 + 2 * b) s.cx.bdlo[b]
      bdhi := Vector.ofFn fun b : Fin 16 => s.seenWord (0x41 + 2 * b) s.cx.bdhi[b]
      bndact := s.seenWord 0x0D s.cx.bndact
      bndfmt := s.seenWord 0x0E s.cx.bndfmt }

/-- After an SWR of the wave in focus to a bound word that held `old`: it sees the new value, the context's other waves may see
the old one for 256 cycles (02/R89). -/
def State.leaveOld (s : State) (index : Nat) (old : Word) : State :=
  let o : OldBound := ⟨index, old, s.w.core, s.co.cycle + 256⟩
  { s with
    w := { s.w with oldBounds := s.w.oldBounds.filter (·.index != index) }
    waves := s.waves.map fun w => if w.ctx = s.w.ctx ∧ w.life ≠ .ended then { w with oldBounds := o :: w.oldBounds } else w }

/-- Whether no value is inside: lo > hi, or a NaN (02/R86). -/
def BoundReg.empty (d : BoundReg) : Bool := d.lo.isNaN || d.hi.isNaN || d.lo.cmp d.hi == .gt

/-- What clamping an element gives: none when it is inside (02/R86, R87). -/
def BoundReg.clamp (d : BoundReg) (f : Fmt) (bits : Nat) : Option Nat :=
  if d.empty then
    if d.lo.isNaN && d.hi.isNaN then some bits
    else if d.lo.isNaN then some (f.clampBits false d.hi)
    else some (f.clampBits true d.lo)
  else
    let x := (f.value bits).1
    if x.isNaN || x.cmp d.lo == .lt then some (f.clampBits true d.lo)
    else if x.cmp d.hi == .gt then some (f.clampBits false d.hi)
    else none

/-- A lane value after clamping, and whether an element was outside. -/
def BoundReg.lane (d : BoundReg) (f : Fmt) (x : Nat) : Nat × Bool :=
  (List.range f.count).foldl (init := (x, false)) fun r i =>
    match d.clamp f (f.elem x i) with
    | none => r
    | some v => (f.setElem r.1 i v, true)

/-- Results by lane. -/
abbrev LaneVals := List (Nat × Nat)

/-- Bound(vd, result) of 03/R119 on results of format `f` under bound index `b`: the values to write, and whether BNDST bit b
is set; or BOUND with the lanes that had an outside element (02/R86 to R88). -/
def boundCheck (c : Ctx) (f : Fmt) (b : BitVec 4) (vals : LaneVals) : Except TrapInfo (LaneVals × Bool) :=
  let d := c.bound b
  if d.action = 0 ∨ f = .b32 then .ok (vals, false)
  else
    let out := vals.map fun v => (v.1, d.lane f v.2)
    let bad := out.filter (·.2.2)
    if bad = [] then .ok (vals, false)
    else if d.action = 3 then .error { cause := .bound, arg := b.toNat, lanes := lanesMask (bad.map (·.1)) }
    else if d.action = 2 then .ok (out.map fun v => (v.1, v.2.1), true)
    else .ok (vals, true)

/-- Sets BNDST bit b. -/
def State.setBnd (s : State) (b : BitVec 4) (hit : Bool) : State :=
  if hit then { s with w := { s.w with bndst := s.w.bndst ||| (1#32 <<< b.toNat) } } else s

/-- The flags of a list of element results together (02/R63). -/
def orFlags (fs : List Flags) : Flags := fs.foldl (· ||| ·) 0

end Sys2Proof.Machine
end

