-- ==== Sys2Proof/Machine/Operands.lean ====
section
/-! DEFINITION. Operands: the vector window, lazy spills through the stack cache, reading lane values, immediates, and the
one write of a vector result (03/R97, R103, R104, 04/R134 to R138, R451, 02/R59, R60). -/

namespace Sys2Proof.Machine

/-! ### The window (03/R103, R104) -/

/-- The index of vN in the wave's ring. -/
def State.vidx (s : State) (n : Nat) : BitVec 8 := BitVec.ofNat 8 ((n + s.w.rot) % s.w.valloc)
/-- Register vN of the window. -/
def State.vreg (s : State) (n : Nat) : VReg := pick s.w.vregs (s.vidx n)
/-- Replaces register vN. -/
def State.setVreg (s : State) (n : Nat) (r : VReg) : State :=
  { s with w := { s.w with vregs := put s.w.vregs (s.vidx n) r } }
/-- Lane `l` of vN. -/
def State.vlane (s : State) (n l : Nat) : Word := (s.vreg n).lanes[l]?.getD 0
/-- A lane value: a word, or 64 bits of the pair vN:vN+1 (02/R59). -/
def State.vval (s : State) (pair : Bool) (n l : Nat) : Nat :=
  (s.vlane n l).toNat + if pair then (s.vlane (n + 1) l).toNat * 2 ^ 32 else 0

/-- ILLOP of a vector instruction names every active lane (04/R146). -/
def vIllop {α : Type} : Act α := do raiseTrap .illop 0 0 (← get).exec3
/-- ILLFMT names every active lane. -/
def vIllfmt {α : Type} : Act α := do raiseTrap .illfmt 0 0 (← get).exec3

/-- Every named run of registers lies below VALLOC (03/R103). -/
def window (ns : List (Nat × Nat)) : Act Unit := do
  let s ← get
  if ns.any fun n => s.w.valloc < n.1 + n.2 then vIllop

/-- A pair operand is even and lies below VALLOC (02/R59, 05/R155). -/
def pairOk (pair : Bool) (ns : List Nat) : Act Unit := do
  let s ← get
  if pair && ns.any fun n => n % 2 != 0 || decide (s.w.valloc < n + 2) then vIllop

/-- A source pair whose two format codes differ raises ILLFMT (02/R59), before the ILLOP of a pair that the tags name and that is odd or does
not lie below VALLOC: 03/R108 puts ILLFMT for tags before the rules on fields that depend on them (DEDUCED, log 77). -/
def pairTags (pair : Bool) (ns : List Nat) : Act Unit := do
  let s ← get
  if pair && ns.any fun n => n % 2 == 0 && decide (n + 2 ≤ s.w.valloc) && (s.vreg n).fmt != (s.vreg (n + 1)).fmt then vIllfmt

/-! ### The stack cache (06/R190, 04/R137, R138) -/

/-- The capacity of a stack cache in bytes. -/
def stackCacheBytes : Nat := 4096

/-- Stack bytes cut into runs that lie in one line. -/
def stkLines : List StkByte → List (List StkByte)
  | [] => []
  | b :: bs =>
    match stkLines bs with
    | (c :: g) :: gs => if c.dev = b.dev ∧ lineOf c.pa = lineOf b.pa ∧ c.coh = b.coh then (b :: c :: g) :: gs else [b] :: (c :: g) :: gs
    | gs => [b] :: gs

/-- Stack bytes of one line written to memory at D: at this home, or through to a peer, whose acknowledgement the endpoint awaits
(log 68); a home that does not answer holds the instruction up (06/R190, 07/R200, 15/R405, R411). -/
def stkWriteLine (bs : List StkByte) : Act Unit :=
  match bs with
  | [] => pure ()
  | b :: _ => do
    let s ← get
    let ln := bs.map fun b => (b.pa, b.byte)
    let va : DWord := BitVec.ofNat 64 (b.va - b.pa % 64)
    if b.dev = s.dev.devnum then atHome (lineOf b.pa) ln (fun s => s.writeD (lineOf b.pa) b.coh ln va) va 6
    else if !s.reachable b.dev then stop (.wait (.remote noLanes va 6))
    else set ((s.postWrite s.w.core s.w.key b.dev none ln).dropRemote b.dev (lineOf b.pa))

/-- Writes stack bytes to memory at D, in their order. -/
def stkWriteBack (bs : List StkByte) : Act Unit := (stkLines bs).forM stkWriteLine

/-- The first byte of the line of an address: what TADDR takes at a spill-frame line (04/R146). -/
def lineStart (va : DWord) : DWord := va - BitVec.ofNat 64 (va.toNat % 64)

/-- A stack access of `n` bytes of one line: PROT, TAGCHK or POISON at the line's first byte, a PAGE park with TMASK zero, or its
place: virtual address, home, physical address and COH (04/R138, R146, 13/R364). -/
def stackLine (need : Perm) (va : DWord) (n : Nat) : Act (Nat × Nat × Nat × Bool) := do
  let s ← get
  let first := lineStart va
  if s.leftRegion s.w.ctx va va then raiseTrap .prot 0 first
  match s.regionCheck s.w.ctx need va n with
  | .error (.held dev line) => stop (.recall dev line)
  | .error (.prot _) => raiseTrap .prot 0 first
  | .ok v =>
    match s.translate s.w.ctx v with
    | .poison => raiseTrap .poison 0 first
    | .absent m => parkPage va 6 m
    | .held dev line => stop (.recall dev line)
    | .away => stop (.wait (.remote noLanes va 6))
    | .leaf l =>
      if !need.within l.perm then raiseTrap .prot 0 first
      (match s.tagHeld s.w.ctx l (l.pa v) n with
        | some line => stop (.recall s.dev.devnum line)
        | none => pure ())
      if !s.tagsMatch s.w.ctx l (l.pa v) n va then raiseTrap .tagchk 0 first
      return (v, l.dev, l.pa v, l.coh)

/-- `n` bytes from `va` cut at the line boundaries: start and length of each piece. -/
def pieces : Nat → Nat → Nat → List (Nat × Nat)
  | 0, _, _ => []
  | k + 1, va, n => if n = 0 then [] else let m := min n (64 - va % 64); (va, m) :: pieces k (va + m) (n - m)

/-- Spilled bytes enter the stack cache, whose oldest bytes go to memory beyond 4 KiB. -/
def stackPush (bs : List StkByte) : Act Unit := do
  let s ← get
  let kept := (s.w.stk.filter fun o => !(bs.any fun b => b.va == o.va)) ++ bs
  let n := kept.length - stackCacheBytes
  stkWriteBack (kept.take n)
  modify fun s => { s with w := { s.w with stk := kept.drop n } }

/-- Stores bytes on the stack through the stack cache, piece by piece. -/
def stackStore (va : DWord) (bs : List Byte) : Act PUnit :=
  (pieces bs.length va.toNat bs.length).forM fun p => do
    let ln := (bs.drop (p.1 - va.toNat)).take p.2
    let (v, dev, pa, coh) ← stackLine { w := true } (BitVec.ofNat 64 p.1) p.2
    stackPush (ln.zipIdx.map fun b => ⟨p.1 + b.2, v + b.2, dev, pa + b.2, coh, b.1⟩)

/-- The byte the stack cache holds at an address. -/
def State.stkByte (s : State) (va : Nat) : Option Byte := (s.w.stk.find? fun o => o.va = va).map (·.byte)

/-- Loads the bytes of a stack access within one line: cached ones, else memory at D, which waits for a restore, for the core's own
spills that a peer has not performed, and for a home that does not answer (04/R137, R138, 15/R405, R411). -/
def stackLoadLine (va n : Nat) : Act (List Byte) := do
  let at_ : DWord := BitVec.ofNat 64 va
  let (_, dev, pa, _) ← stackLine { r := true } at_ n
  let s ← get
  let home := (List.range n).filter fun i => (s.stkByte (va + i)).isNone
  if home ≠ [] then
    if home.any fun i => s.restoring dev (pa + i) || s.unperformed dev (pa + i) then stop (.wait .memdep)
    if dev ≠ s.dev.devnum ∧ !s.reachable dev ∧ home.any (fun i => (s.ckSupply false dev (pa + i)).isNone) then
      stop (.wait (.remote noLanes at_ 6))
    recallAct dev (lineOf pa)
  let s ← get
  if home.any fun i => (s.byteD false dev (pa + i)).2 then raiseTrap .poison 0 (lineStart at_)
  return (List.range n).map fun i => (s.stkByte (va + i)).getD (s.byteD false dev (pa + i)).1

/-- Loads `n` bytes from the stack. -/
def stackLoad (va : DWord) (n : Nat) : Act (List Byte) := do
  let parts ← (pieces n va.toNat n).mapM fun p => stackLoadLine p.1 p.2
  return parts.flatten

/-- The 384 bytes of a register's lanes (04/R134). -/
def VReg.laneBytes (r : VReg) : List Byte := r.lanes.toList.flatMap fun w => leBytes 4 w.toNat
/-- Lanes from 384 bytes. -/
def lanesOfBytes (bs : List Byte) : Vector Word 96 :=
  Vector.ofFn fun i : Fin 96 => BitVec.ofNat 32 (ofLE ((bs.drop (4 * i)).take 4))

/-- The lazy spill of register vN: its lanes go to PADDR when its spill is pending (04/R451). -/
def spill (n : Nat) : Act Unit := do
  let s ← get
  let r := s.vreg n
  if r.pend then
    stackStore r.paddr r.laneBytes
    modify fun s => s.setVreg n { s.vreg n with pend := false }

/-! ### Writing a vector result -/

/-- A lane of some results. -/
def LaneVals.at_ (vals : LaneVals) (l : Nat) : Option Nat := (vals.find? fun v => v.1 = l).map (·.2)

/-- The register with the lanes of some results replaced, `k` words above the low one. -/
def VReg.withLanes (r : VReg) (vals : LaneVals) (k : Nat) : VReg :=
  { r with lanes := Vector.ofFn fun i : Fin 96 =>
      match vals.at_ i with
      | some x => BitVec.ofNat 32 (x / 2 ^ (32 * k))
      | none => r.lanes[i] }

/-- Writes lanes to `words` registers from vN, after their spills; a tag is written when given (04/R451, 05/R154). -/
def writeLanes (n words : Nat) (tag : Option (Fmt × BitVec 4)) (vals : LaneVals) : Act Unit := do
  (List.range words).forM fun k => spill (n + k)
  modify fun s => (List.range words).foldl (init := s) fun s k =>
    let r := (s.vreg (n + k)).withLanes vals k
    s.setVreg (n + k) (match tag with
      | some (f, b) => { r with fmt := f, bnd := b }
      | none => r)

/-- The one write of a vector result of format `f` under bound index `b`: bound check, spills, lanes, tag, BNDST and flags.
With no lane nothing is written (05/R154). A lone half of a pair format is not compared (02/R86). -/
def writeResult (vd : Nat) (f : Fmt) (b : BitVec 4) (pair setTag : Bool) (flags : Flags) (vals : LaneVals) : Act Unit := do
  if vals ≠ [] then
    let s ← get
    match boundCheck s.bounds (if pair || !f.isPair then f else .b32) b vals with
    | .error t => stop (.trap t)
    | .ok (vals, hit) =>
      writeLanes vd (if pair then 2 else 1) (if setTag then some (f, b) else none) vals
      modify fun s => (s.setBnd b hit).raise flags

/-! ### Operands of the vector forms -/

/-- The operands of a vector instruction, one-word or VX (03/R93, R96, R97). -/
structure VOp where
  vd : Nat
  va : Nat
  vb : Nat := 0
  vc : Nat := 0
  imm : Option Word := none
  rnd : BitVec 2 := 0
  sat : Bool := false
  bov : BitVec 4 := 0

/-- The one-word form; vd is also the addend (03/R106). -/
def v3Op (vd va vb : BitVec 7) : VOp := { vd := vd.toNat, va := va.toNat, vb := vb.toNat, vc := vd.toNat }
/-- The VX form. -/
def vxOp (x : VX) : VOp :=
  { vd := x.vd.toNat, va := x.va.toNat, vb := x.vb.toNat, vc := x.vc.toNat,
    imm := if x.i = 1#1 then some x.imm else none, rnd := x.rnd, sat := x.sat == 1#1, bov := x.bov }

/-- An F32 value widened exactly to F64: a NaN keeps its fraction, and so stays quiet or signalling (03/R97, 02/R66). -/
def widenF32 (w : Word) : Nat :=
  let frac := w.toNat % 2 ^ 23
  if w.toNat / 2 ^ 23 % 2 ^ 8 = 255 ∧ frac ≠ 0 then (w.toNat / 2 ^ 31 * 2 ^ 11 + 0x7FF) * 2 ^ 52 + frac * 2 ^ 29
  else (FloatFmt.f64.roundNum .rne false (FloatFmt.f32.read w.toNat)).1

/-- An immediate under format `f`: sign-extended for S64, widened exactly for F64 (03/R97). -/
def immValue (f : Fmt) (w : Word) : Nat :=
  match f with
  | .s64 => (w.signExtend 64).toNat
  | .f64 => widenF32 w
  | _ => w.toNat

/-- The b operand of a lane: the immediate, or vb. -/
def VOp.bval (o : VOp) (s : State) (f : Fmt) (l : Nat) : Nat :=
  match o.imm with
  | some w => immValue f w
  | none => s.vval f.isPair o.vb l

/-- The bound index a numeric instruction writes: bov if non-zero, else kept from vd (02/R60). -/
def VOp.bnd (o : VOp) (s : State) : BitVec 4 := if o.bov = 0 then (s.vreg o.vd).bnd else o.bov

/-- A signed 9-bit immediate (04/R128). -/
def simm9 (i : BitVec 9) : Word := i.signExtend 32
/-- The literal's low 32 bits (03/R95). -/
def litLow (l : DWord) : Word := l.lo

end Sys2Proof.Machine
end

