-- ==== Sys2Proof/Machine/Access.lean ====
section
/-! DEFINITION. Memory instructions: one pass of lanes through checks, commit, performance, and what is left over
(08/R229 to R245, 07/R217 to R221, 15/R404 to R407). -/

namespace Sys2Proof

/-- The value an atomic operation leaves. -/
def AtomicOp.apply (o : AtomicOp) (m : Nat) : Nat :=
  Machine.atomicValue o.aop (if o.wide then 64 else 32) m o.x.toNat o.c.toNat
/-- Its width in bytes. -/
def AtomicOp.bytes (o : AtomicOp) : Nat := if o.wide then 8 else 4

end Sys2Proof

namespace Sys2Proof.Machine

/-- The fields of a memory instruction that its meaning needs (03/R98, R99). -/
structure Mem where
  kind : Acc
  vec : Bool
  loc : Bool
  lvl : Nat
  order : Nat
  bytes : Nat
  aop : BitVec 5 := 0
  xt : Option (BitVec 3) := none
  deriving DecidableEq, Repr

/-- Whether the order field commits before the access, or acquires after it, or makes it an sc operation (07/R218). -/
def Mem.commits (m : Mem) : Bool := m.order == 2 || m.order == 3 || m.order == 4
@[inherit_doc Mem.commits] def Mem.acquires (m : Mem) : Bool := m.order == 1 || m.order == 3 || m.order == 4
@[inherit_doc Mem.commits] def Mem.isSc (m : Mem) : Bool := m.order == 4

/-- How an instruction forms its addresses and finds its operands, lane by lane. -/
structure MemOps where
  addr : State → Nat → Lane
  x : State → Nat → Nat
  c : State → Nat → Nat
  put : LaneVals → Act PUnit

/-- Feature XUPD is on (15/R414, R415). -/
def State.xupd (s : State) : Bool := s.dev.featack[0].getLsbD 1

/-- Whether an access to local bytes meets a range of the scoreboard (09/R281). -/
def State.rangeHeld (s : State) (store : Bool) (lo n : Nat) : Bool :=
  s.co.ranges.any fun r => r.blk == s.w.key.block && decide (lo < r.hi) && decide (r.lo < lo + n) && (store || !r.isLoop)

/-! ### What a lane reads -/

/-- The level at which a lane reads: an atomic below D finds its own buffered bytes moved to its level, so that it reads what a load
at W would (07/R219). -/
def Mem.readLvl (m : Mem) : Nat := if m.kind == .load || 3 ≤ rankOf m.lvl then m.lvl else 0

/-- Whether a lane that reads takes a byte from a peer's memory: no place and no copy of the core supplies it (15/R399). -/
def Mem.asksPeer (m : Mem) (s : State) (l : Loc) : Bool :=
  !l.isLocal && l.dev != s.dev.devnum && s.missesD m.readLvl m.isSc l m.bytes != []

/-! ### What a lane does -/

/-- A place without the bytes of one access. -/
def Place.strip (p : Place) (l : Loc) (n : Nat) : Place :=
  let hit (b : BLine) (o : Nat) : Bool := decide (l.pa ≤ 64 * b.line + o) && decide (64 * b.line + o < l.pa + n)
  let cut (b : BLine) : BLine :=
    if b.isLocal == l.isLocal && b.dev == l.dev then { b with bytes := b.bytes.filter fun x => !hit b x.1 } else b
  { p with lines := (p.lines.map cut).filter fun b => b.bytes != [] || b.sent.isSome }

/-- The places below a level that the bytes of an access may be held in, the newest first (07/R219). -/
def State.placesBelow (s : State) (rank : Nat) (l : Loc) : List Place :=
  (if 1 ≤ rank then [s.w.wbuf] else []) ++ (if 2 ≤ rank && !l.isLocal then [s.blk.place] else []) ++
    (if 3 ≤ rank && !l.isLocal then [s.gang.place] else [])

/-- The bytes of one access that the places below a level hold, the newest of each (07/R219). -/
def State.ownBytes (s : State) (rank : Nat) (l : Loc) (n : Nat) : List (Nat × Byte) :=
  (List.range n).filterMap fun i =>
    ((s.placesBelow rank l).findSome? fun p => p.byte l.isLocal l.dev (l.pa + i)).map fun x => (l.pa + i, x.1)

/-- Whether a place below a level holds a byte of the access in a poisoned line, whose poison moves with it (07/R219, 17/R433). -/
def State.ownPoison (s : State) (rank : Nat) (l : Loc) (n : Nat) : Bool :=
  (s.placesBelow rank l).any fun p => (List.range n).any fun i => (p.byte l.isLocal l.dev (l.pa + i)).any (·.2)

/-- Whether a place below a level holds a byte of the access in a line that has been sent to its home, so that the byte is on its way there
already (15/R406). -/
def State.ownSent (s : State) (rank : Nat) (l : Loc) (n : Nat) : Bool :=
  (s.placesBelow rank l).any fun p => p.lines.any fun b => b.sent.isSome && b.isLocal == l.isLocal && b.dev == l.dev &&
    b.at_.any fun x => decide (l.pa ≤ x.1) && decide (x.1 < l.pa + n)

/-- Whether the line of an access is poisoned at the level where an atomic performs (17/R433). -/
def State.poisonAt (s : State) (rank : Nat) (l : Loc) : Bool :=
  let held (p : Place) : Bool := (p.find l.isLocal l.dev (lineOf l.pa)).any (·.poison)
  if rank = 0 then false
  else if l.isLocal then s.blk.poison.contains (lineOf l.pa)
  else if rank = 1 then held s.blk.place
  else if rank = 2 then held s.gang.place
  else s.homePoison l.dev l.pa

/-- Whether step 5 of 08/R232 finds a poisoned line under a lane: one that a load reads; for an atomic one that holds bytes of its own,
which it moves to its level, the line there that they move into, or one that it reads there (07/R219, 13/R452, 17/R433). -/
def Mem.meetsPoison (m : Mem) (s : State) (l : Loc) : Bool :=
  let rank := rankOf (s.landsAt m.lvl)
  match m.kind with
  | .load => (s.readAt m.readLvl m.isSc l m.bytes).2
  | .atomic =>
    let own := s.ownBytes rank l m.bytes
    s.ownPoison rank l m.bytes || (own != [] && s.poisonAt rank l) || (List.range m.bytes).any fun i =>
      !(own.any (·.1 == l.pa + i)) && (s.readByte m.lvl m.isSc l.isLocal l.dev (l.pa + i)).2
  | _ => false

/-- The places below a level without those bytes. -/
def State.stripBelow (s : State) (rank : Nat) (l : Loc) (n : Nat) : State :=
  let s := if 1 ≤ rank then s.setW (s.w.wbuf.strip l n) else s
  let s := if 2 ≤ rank ∧ !l.isLocal then s.setB (s.blk.place.strip l n) else s
  if 3 ≤ rank ∧ !l.isLocal then s.setG (s.gang.place.strip l n) else s

/-- An access at one byte of `l`. -/
def Loc.plus (l : Loc) (pa : Nat) : Loc := { l with pa := pa, va := l.va + BitVec.ofNat 64 (pa - l.pa) }

/-- Operand bytes leave the places below D for their home, where the waves of the gang that wrote them have then seen them (07/R217,
R219). -/
def State.liftD (s : State) (l : Loc) (n : Nat) (own : List (Nat × Byte)) : State :=
  (s.stripBelow 3 l n).movedD [{ l.toLine [] with bytes := own.map fun b => (b.1 - 64 * lineOf l.pa, b.2) }]

/-- The lane's own operand bytes held below a level move into it, and carry their poison home (07/R219, 17/R433). -/
def liftOwn (lvl : Nat) (l : Loc) (n : Nat) : Act Unit := do
  let s ← get
  let rank := rankOf lvl
  let own := s.ownBytes rank l n
  let bad := s.ownPoison rank l n
  set (if 3 ≤ rank && !l.isLocal then s.liftD l n own else s.stripBelow rank l n)
  own.forM fun b => writeAt lvl (l.plus b.1) [b.2]
  if bad && 3 ≤ rank && !l.isLocal then
    modify fun s => { s with poison := lineOf l.pa :: s.poison.filter (· != lineOf l.pa) }

/-- The entry of a lane's unacknowledged write. -/
def State.pendingWrite (s : State) (lane : Nat) : Option PendingWrite :=
  s.co.writes.find? fun p => p.wave == s.w.key && p.lane == lane
/-- The core's unacknowledged writes without those of a lane of the wave in focus. -/
def State.dropPending (s : State) (lane : Nat) : State :=
  s.setCo { s.co with writes := s.co.writes.filter fun p => !(p.wave == s.w.key && p.lane == lane) }

/-- The lanes' writes to a peer get their numbers, as one commit group, and are sent (15/R401). -/
def State.postLanes (s : State) (dev : Nat) (ws : List (Nat × List (Nat × Byte))) : State :=
  let fresh := ws.filter fun x => (s.pendingWrite x.1).isNone
  let (g, s) := if fresh = [] then (0, s) else s.takeGroup
  fresh.zipIdx.foldl (init := s) fun s x =>
    let (q, s) := s.takeSent dev g (x.2 + 1 == fresh.length) none
    s.setCo { s.co with writes := s.co.writes ++ [⟨s.w.key, x.1.1, dev, q, x.1.2, false⟩] }

/-- A lane's pending write is sent, or sent again with its numbers; the core's copy of the line goes (15/R401, R405, R407). -/
def State.sendLane (s : State) (lane : Nat) : State :=
  match s.pendingWrite lane with
  | none => s
  | some p => if p.acked then s else p.data.foldl (fun s b => s.dropRemote p.dev (lineOf b.1)) (s.sendWrite p.dev p.sent p.data)

/-- Whether a lane's write has been performed by its home; then it is pending no more. -/
def laneAcked (lane : Nat) : Act Bool := fun s =>
  match s.pendingWrite lane with
  | none => .ok (true, s)
  | some p =>
    if p.acked || s.acked p.dev p.sent.pseq then
      .ok (true, ((s.dropPending lane).scReceive s.w.core p.dev).sawNow p.dev (p.data.map (·.1)))
    else .ok (false, s)

/-- A peer performs an atomic of this device once per tag: the operand bytes that came with it, then its read-modify-write, in one action;
a held result is returned again (07/R219, 15/R403, R404). -/
def Peer.perform (p : Peer) (now : Nat) (core : CoreId) (tag : BitVec 8) (pa : Nat) (o : AtomicOp) (own : List (Nat × Byte)) : DWord × Peer :=
  let p := p.stamped now
  match p.outTable.find? fun e => e.core = core && e.tag = tag && decide (now < e.at_ + tableLife) with
  | some e => (e.result, p)
  | none =>
    let mem := p.mem.writeAll own
    let m := mem.value pa o.bytes
    (BitVec.ofNat 64 m, { p with
      mem := mem.writeAll (placed pa (leBytes o.bytes (o.apply m)))
      outTable := ⟨core, tag, BitVec.ofNat 64 m, now⟩ :: p.outTable.filter fun e => !(e.core = core && e.tag = tag) })

/-- Sends a remote atomic with its tag; the answer is the response, if it arrives (15/R404, R405). -/
def State.sendAtomic (s : State) (core : CoreId) (o : Outstanding) : Option DWord × State :=
  match s.peer o.dev with
  | none => (none, s)
  | some p =>
    if p.lost then (none, s)
    else match p.route with
      | .down => (none, s)
      | .noAnswer => (none, s.setPeer (p.perform s.dev.ftime core o.tag o.pa o.op o.own).2)
      | .up =>
        let (v, p) := p.perform s.dev.ftime core o.tag o.pa o.op o.own
        (some v, (s.setPeer p).scReceive core o.dev)

/-- The next tag in rotation that is neither unanswered nor unacknowledged (15/R404). -/
def State.freeTag (s : State) (core : CoreId) : Option (BitVec 8) :=
  let used (t : BitVec 8) : Bool := (s.core core).atomics.any (·.tag == t) ||
    ((s.core core).deadTags.any fun d => d.1 == t && decide (s.dev.ftime < d.2)) ||
    s.peers.any fun p => p.outTable.any fun e => e.core == core && e.tag == t
  ((List.range 256).map fun i => (s.core core).nextTag + BitVec.ofNat 8 i).find? fun t => !used t

/-- The core whose endpoint holds a lane's unanswered atomic: the one that sent it, whatever core the wave is on now. -/
def State.holder (s : State) (lane : Nat) : Option CoreId :=
  (s.cores.toList.zipIdx.find? fun x => x.1.atomics.any fun o => o.wave == s.w.key && o.lane == lane).map fun x =>
    BitVec.ofNat 9 x.2

/-- A lane's remote atomic: a held answer, the same tag sent again, or a first send with the next tag and the operand bytes that move with
it. At most 64 are unanswered (07/R219, 15/R404, R405). -/
def State.remoteAtomic (s : State) (lane dev pa : Nat) (op : AtomicOp) (own : List (Nat × Byte)) : Option DWord × State :=
  let c := (s.holder lane).getD s.w.core
  let send (s : State) (o : Outstanding) : Option DWord × State :=
    let rest (s : State) := (s.core c).atomics.filter fun x => x.tag != o.tag
    let o : Outstanding := { o with sentAt := s.dev.ftime }
    let (v, s) := s.sendAtomic c o
    (v, s.setCore c { s.core c with atomics := match v with | some _ => rest s | none => rest s ++ [o] })
  match (s.core c).atomics.find? fun o => o.wave == s.w.key && o.lane == lane with
  | some o => match o.answer with
    | some v => (some v, s.setCore c { s.core c with atomics := (s.core c).atomics.filter fun x => x.tag != o.tag })
    | none => send s { o with linklost := false }
  | none =>
    if Config.maxAtomics ≤ (s.core c).atomics.length then (none, s)
    else match s.freeTag c with
      | none => (none, s)
      | some t => send (s.setCore c { s.core c with nextTag := t + 1 }) ⟨t, s.w.key, lane, dev, pa, op, false, none, 0, own⟩

/-- An update-only operation joins the partial of a core, of this device or of a peer, or starts one; operand bytes of a peer's line go with
the partial (07/R219, 08/R244, 13/R453). -/
def State.gather (s : State) (peer : Option Nat) (core : CoreId) (dev : Nat) (coh : Bool) (pa : Nat) (op : AtomicOp)
    (own : List (Nat × Byte) := []) (bad : Bool := false) : State :=
  let mine (p : Partial) : Bool := p.peer == peer && p.core == core && p.dev == dev && p.addr == pa && p.wide == op.wide && p.aop == op.aop
  if s.parts.any mine then
    { s with parts := s.parts.map fun p =>
        if mine p then { p with val := BitVec.ofNat 64 (op.apply p.val.toNat) } else p }
  else { s with parts := s.parts ++ [⟨peer, core, dev, coh, pa, op.aop, op.wide, op.x, own, bad⟩] }
/-- Performs an update-only lane in the private cache of the wave's core. -/
def State.addPartial (s : State) (l : Loc) (op : AtomicOp) (own : List (Nat × Byte) := []) (bad : Bool := false) : State :=
  s.gather none s.w.core l.dev l.coh l.pa op own bad

/-- Whether an update-only operation must recall its line first: a core, of this device or of a peer, holds a partial of its word under another
operator (08/R244, R245). -/
def State.opposed (s : State) (dev pa : Nat) (op : AtomicOp) : Bool :=
  s.parts.any fun p => p.dev == dev && decide (p.addr < pa + op.bytes) && decide (pa < p.addr + (if p.wide then 8 else 4)) &&
    !(p.aop == op.aop && p.wide == op.wide && p.addr == pa)

/-- An atomic on a line of this device or on a place below D: own bytes move, the value is read, the new one written
(07/R219, 08/R242); at D or X on a software-managed page at the home (13/R452). -/
def atomicHere (lvl : Nat) (l : Loc) (op : AtomicOp) : Act Nat := do
  let n := op.bytes
  liftOwn lvl l n
  if 3 ≤ rankOf lvl && !l.isLocal && !l.coh then
    withPool (fun s => s.writeBack s.w.core (lineOf l.pa)) l.lineVa 2
    modify fun s => s.dropLine s.w.core l.dev (lineOf l.pa)
    let m := (← get).mem.value l.pa n
    withPool (fun s => s.homeWrite none none (lineOf l.pa) (placed l.pa (leBytes n (op.apply m)))) l.lineVa 2
    modify fun s => s.sawNow l.dev ((List.range n).map (l.pa + ·))
    return m
  else
    let at_ := 3 ≤ rankOf lvl
    let m := ofLE ((← get).readAt lvl at_ l n).1
    modify fun s => s.afterRead lvl at_ l n
    writeAt lvl l (leBytes n (op.apply m))
    return m

/-- A remote atomic at D or X, or of level `lvl` where the places pass it straight up: its operand bytes leave their places with its first
send; with no answer the lane is not done. One at B may set conflict flags, as a write there does (07/R207, R213). -/
def atomicThere (lvl lane : Nat) (l : Loc) (op : AtomicOp) : Act (Option Nat) := do
  let s ← get
  let first := (s.holder lane).isNone
  if first && s.ownSent 3 l op.bytes then return none
  let own := if first then s.ownBytes 3 l op.bytes else []
  let (v, t) := (s.dropRemote l.dev (lineOf l.pa)).remoteAtomic lane l.dev l.pa op own
  let t := if first && (v.isSome || (t.holder lane).isSome) then t.liftD l op.bytes own else t
  set (if v.isSome then t.sawNow l.dev ((List.range op.bytes).map (l.pa + ·)) else t)
  if v.isSome && lvl == 1 then modify fun s => s.noteB false l.dev (lineOf l.pa)
  return v.map fun v => v.toNat % 2 ^ (8 * op.bytes)

/-- An update-only lane on a peer's line: with operand bytes of its own it starts a partial after the line's recall, and they go with it;
it waits for a home that does not answer where the line must be recalled first (07/R219, 08/R244, R245). -/
def updateThere (l : Loc) (op : AtomicOp) : Act (Option Nat) := do
  let s ← get
  let own := s.ownBytes 3 l op.bytes
  if s.opposed l.dev l.pa op || s.ownSent 3 l op.bytes || (own != [] && !s.reachable l.dev) then return none
  if own != [] then recallAct l.dev (lineOf l.pa)
  modify fun s => (s.liftD l op.bytes own).addPartial l op own (s.ownPoison 3 l op.bytes)
  return some 0

/-- Whether a store or an atomic performs at a peer: at D or X, or at a level whose places pass its line straight up (07/R213). -/
def Mem.goesFar (m : Mem) (s : State) (l : Loc) : Bool :=
  !l.isLocal && l.dev != s.dev.devnum && decide (3 ≤ rankOf (s.landsAt m.lvl))

/-- One lane performs; none when its home has not answered. -/
def Mem.lane (m : Mem) (o : MemOps) (ln : Lane) (l : Loc) : Act (Option Nat) := do
  let s ← get
  let far := m.goesFar s l
  let op : AtomicOp := ⟨m.aop, m.bytes == 8, BitVec.ofNat 64 (o.x s ln.lane), BitVec.ofNat 64 (o.c s ln.lane)⟩
  match m.kind with
  | .load =>
    if m.asksPeer s l && !s.reachable l.dev then return none
    if rankOf m.lvl ≤ 1 then modify fun s => s.noteRead l
    modify fun s => (if m.asksPeer s l then s.scReceive s.w.core l.dev else s).afterRead m.lvl m.isSc l m.bytes
    return some (ofLE (s.readAt m.lvl m.isSc l m.bytes).1)
  | .store =>
    let bs := leBytes m.bytes (o.x s ln.lane)
    if far then
      let done ← laneAcked ln.lane
      if done && m.lvl == 1 then modify fun s => s.noteB false l.dev (lineOf l.pa)
      return if done then some 0 else none
    else
      writeAt m.lvl l bs
      return some 0
  | .atomic =>
    if far then atomicThere m.lvl ln.lane l op
    else if m.asksPeer s l && !s.reachable l.dev then return none
    else some <$> atomicHere m.lvl l op
  | .update =>
    if l.dev = s.dev.devnum then
      liftOwn 3 l op.bytes
      withPool (fun s => s.writeBack s.w.core (lineOf l.pa)) l.lineVa 3
      modify fun s => s.addPartial l op
      return some 0
    else updateThere l op

/-- Stops of step 6 name the lanes of the pass that touch the line: a trap those, a park the whole pass (08/R232). -/
def Mem.nameLanes (m : Mem) (pass : List Nat) (ok : List (Lane × Loc)) : Halt → Halt
  | .trap t => .trap { t with lanes := tmaskOf m.vec ((ok.filter fun x => x.2.lineVa == t.taddr).map (·.1.lane)) }
  | .park p => .park { p with lanes := tmaskOf m.vec pass, access := m.kind.code }
  | h => h

/-- Whether a store's or atomic's lane touches bytes of a lower lane that is left over (08/R232). -/
def Mem.clash (m : Mem) (left : List Lane) (ln : Lane) : Bool :=
  m.kind != .load && left.any fun k => decide (k.lane < ln.lane) && decide (k.va.toNat < ln.va.toNat + m.bytes) &&
    decide (ln.va.toNat < k.va.toNat + m.bytes)

/-- Performs the lanes of a pass in ascending order; a lane of a store or atomic that touches bytes of a lower lane
left over is left over too (08/R232, R235). The answers, and the lanes left without an answer. -/
def Mem.perform (m : Mem) (o : MemOps) : List (Lane × Loc) → List Lane → Act (LaneVals × List Lane)
  | [], left => return ([], left)
  | (ln, l) :: rest, left => do
    let v ← if m.clash left ln then pure none else m.lane o ln l
    match v with
    | none => m.perform o rest (left ++ [ln])
    | some v =>
      let (vs, left) ← m.perform o rest left
      return ((ln.lane, v) :: vs, left)

/-- Whether a lane's access reaches its line's home and so recalls the line; an update-only lane does when another operator stands in its way,
or when dirty bytes of its core go home first (08/R245, 13/R453). -/
def Mem.recallsLine (m : Mem) (o : MemOps) (s : State) (ln : Lane) (l : Loc) : Bool :=
  match m.kind with
  | .update => s.opposed l.dev l.pa ⟨m.aop, m.bytes == 8, BitVec.ofNat 64 (o.x s ln.lane), 0⟩ ||
      (l.dev == s.dev.devnum && s.co.dirtyBytes l.dev (lineOf l.pa) != [])
  | .load => s.reachesHome m.readLvl m.isSc l m.bytes
  | .atomic => !l.isLocal && (3 ≤ rankOf m.lvl || s.reachesHome m.readLvl m.isSc l m.bytes)
  | .store => !l.isLocal && 3 ≤ rankOf m.lvl && (l.coh || 4 ≤ rankOf m.lvl || l.dev != s.dev.devnum)

/-- The lines of a pass recalled before it (08/R245). -/
def Mem.recalls (m : Mem) (o : MemOps) (ok : List (Lane × Loc)) : Act Unit :=
  ok.forM fun x => do
    if m.recallsLine o (← get) x.1 x.2 then recallAct x.2.dev (lineOf x.2.pa)

/-- The stores of a pass to peers are sent, each home's as one commit group, but those of lanes that touch bytes of a lower
unfinished lane (08/R232, 15/R401). -/
def Mem.post (m : Mem) (o : MemOps) (ok : List (Lane × Loc)) (left : List Lane) (s : State) : State :=
  if m.kind != .store then s
  else
    let far := ok.filter fun x => m.goesFar s x.2 && !m.clash left x.1
    let s := ((far.map (·.2.dev)).dedup).foldl (init := s) fun s dev =>
      s.postLanes dev ((far.filter (·.2.dev == dev)).map fun x => (x.1.lane, placed x.2.pa (leBytes m.bytes (o.x s x.1.lane))))
    far.foldl (fun s x => s.sendLane x.1.lane) s

/-- The lanes of a pass perform and their values are written, or nothing of the pass does but what an implicit move has sent
(08/R232, R236, 07/R213). The lanes left. -/
def Mem.pass (m : Mem) (o : MemOps) (pass : List Nat) (p : Pass) : Act (List Lane) := fun s =>
  let act : Act (List Lane) := do
    let left := p.unfinished.map fun u => u.1
    modify (m.post o p.ok left)
    let r ← m.perform o p.ok left
    o.put r.1
    return r.2
  let lanes := p.ok.map fun x => (x.2.lineVa, (do let _ ← m.lane o x.1 x.2 : Act Unit))
  match act s with
  | .ok r => .ok r
  | .error (.trap t, _) => .error (if t.cause = .bound then .trap t else m.nameLanes pass p.ok (s.shortage lanes (.trap t)), s)
  | .error (.wait w, t) => match keepMove (fun _ => .error (.wait w, t)) (implicitMove m.lvl) s with
    | .ok _ => .error (.wait w, s)
    | .error (h, t) => .error (m.nameLanes pass p.ok (h.atLevel m.lvl), t)
  | .error (h, _) => .error (m.nameLanes pass p.ok (s.shortage lanes h), s)

/-- The lanes an instruction has left (08/R233). -/
def State.setTodo (s : State) (m : Vector Word 3) : State := { s with w := { s.w with todo := some m } }
/-- The commit of a release order has been made (07/R218). -/
def State.setReleased (s : State) : State := { s with w := { s.w with released := true } }
/-- The timestamp of an sc order has been taken, once for the instruction (08/R239). -/
def State.stampOnce (s : State) : State := if s.w.stamped then s else { s.scStamp with w := { s.scStamp.w with stamped := true } }

/-- The cause of a park for unfinished lanes (13/R366). -/
def State.pageCause (s : State) : ParkCause := if s.cx.resfree < 4 then .residency else .page

/-- The lanes of a memory instruction's pass: every active one, or those a park left; the one of a scalar access (08/R232). -/
def Mem.lanes (m : Mem) (s : State) : List Nat :=
  if m.vec then (match s.w.todo with | some t => maskLanes t | none => s.active) else [0]

/-- Steps 1 to 4 of 08/R232 over the lanes of a memory instruction. -/
def Mem.checks (m : Mem) (o : MemOps) (s : State) (tags : Bool) : Except Halt Pass :=
  s.passChecks m.kind m.loc m.vec m.bytes (m.xt.map s.xt) ((m.lanes s).map (o.addr s)) tags

/-- The translation register of an access translated again when it is not valid; a line of the tables may have to come first (08/R228,
R245). -/
def Mem.refresh (m : Mem) : Act Unit := do
  match m.xt with
  | none => pure ()
  | some i =>
    let s ← get
    match (if (s.xt i).valid then none else s.xtHeld (s.xt i).vbase) with
    | some x => stop (.recall x.1 x.2)
    | none => set (s.freshXt i)

/-- The commit of a release order, after the spills of the registers that the instruction will write and after the checks that need no tag: a
tag that the commit itself writes at D is the one that a lane is checked against (07/R218, 13/R363). -/
def Mem.release (m : Mem) (o : MemOps) (dest : List Nat) : Act Unit := do
  let s ← get
  if m.commits && !s.w.released then
    match m.checks o s false with
    | .error h => stop h
    | .ok p =>
      if p.ok != [] then dest.forM spill
      commitTo (rankOf m.lvl)
      modify State.setReleased

/-- One execution of a memory instruction: a pass over every active lane, or over the lanes a park left (08/R232, R233). The pending
spills of the registers `dest` that it will write come before anything it does (04/R138, R451). -/
def Mem.body (m : Mem) (o : MemOps) (dest : List Nat := []) : Act PUnit := do
  let s ← get
  if m.kind == .update && rankOf m.lvl == 4 && !s.xupd then raiseTrap .illop 0 0 (if m.vec then s.exec3 else noLanes)
  m.refresh
  m.release o dest
  let s ← get
  let pass := m.lanes s
  match m.checks o s true with
  | .error h => stop h
  | .ok p =>
    if m.loc && p.ok.any fun x => s.rangeHeld (m.kind != .load) x.2.pa m.bytes then stop (.wait .range)
    if p.ok.any fun x => !x.2.isLocal && s.restoring x.2.dev x.2.pa then stop (.wait .memdep)
    let bad := p.ok.filter fun x => m.meetsPoison s x.2
    if bad != [] then
      raiseTrap .poison 0 ((bad.head?.map (·.1.va)).getD 0) (tmaskOf m.vec (bad.map (·.1.lane)))
    if p.ok != [] then dest.forM spill
    if m.isSc then modify State.stampOnce
    m.recalls o p.ok
    let left ← m.pass o pass p
    if left != [] then
      let lanes := tmaskOf m.vec (left.map (·.lane))
      let low := ((pass.filterMap fun k => left.find? fun x => x.lane = k).head?.map (·.va)).getD 0
      modify fun s => s.setTodo lanes
      let s ← get
      let waits := (p.unfinished.any fun u => u.2 == .away) || p.ok.any fun x =>
        left.contains x.1 && !m.clash left x.1 && ((s.pendingWrite x.1.lane).isSome || (s.holder x.1.lane).isSome || m.kind == .load ||
          m.kind == .update || !m.goesFar s x.2 || s.ownSent 3 x.2 m.bytes)
      if waits then stop (.wait (.remote lanes low m.kind.code))
      else if p.unfinished = [] then stop (.wait .memdep)
      else stop (.park { cause := s.pageCause, lanes := lanes, addr := low, access := m.kind.code,
                         malf := p.unfinished.any (·.2 == .page true) })
    if m.acquires then modify fun s => s.acquireAt m.lvl

/-! ### Registers of the forms (08/R229 to R231, R242) -/

/-- A loaded value extended to its lane word (08/R231). -/
def extended (sx : Bool) (n v : Nat) : Nat :=
  if n < 4 && sx then ((BitVec.ofNat (8 * n) v).signExtend 32).toNat else v

/-- Words of a data register run of `n` bytes. -/
def wordsOf (n : Nat) : Nat := if n = 16 then 4 else if n = 8 then 2 else 1

/-- The value of a run of vector registers in a lane. -/
def State.vrun (s : State) (vt words l : Nat) : Nat :=
  ((List.range words).map fun k => (s.vlane (vt + k) l).toNat * 2 ^ (32 * k)).sum
/-- The value of a scalar data register or pair. -/
def State.srun (s : State) (r : SReg) (words : Nat) : Nat := if words = 2 then (s.spair r).toNat else (s.sreg r).toNat

/-- The comparisons that a VLD of `words` registers makes: the first word and the width of each. An even register with a pair
format is compared with the next as one value under its own tag, whatever the next one's (02/R59, log 64); a lone half of a pair
format is not compared (02/R86). -/
def State.boundUnits (s : State) (vt words : Nat) : List (Nat × Nat) :=
  let pair (k : Nat) : Bool := k % 2 == 0 && decide (k + 1 < words) && (s.vreg (vt + k)).fmt.isPair
  (List.range words).filterMap fun k =>
    if pair k then some (k, 2)
    else if k % 2 = 1 && pair (k - 1) then none
    else if (s.vreg (vt + k)).fmt.isPair then none
    else some (k, 1)

/-- The values of a comparison's words put back into the loaded values. -/
def LaneVals.splice (vals part : LaneVals) (k step : Nat) : LaneVals :=
  vals.map fun v => (v.1, v.2 - v.2 / 2 ^ (32 * k) % 2 ^ (32 * step) * 2 ^ (32 * k) + (LaneVals.at_ part v.1).getD 0 * 2 ^ (32 * k))

/-- One BOUND trap for two: the first one's, with the lanes of both (02/R88). -/
def TrapInfo.alsoLanes (t u : TrapInfo) : TrapInfo := { t with lanes := mask2 (· ||| ·) t.lanes u.lanes }

/-- Bound(vt, d) for a load: each register, or pair, under its own tag (08/R236). A trap names the lanes of every register. -/
def State.loadBound (s : State) (vt : Nat) : List (Nat × Nat) → LaneVals → Except TrapInfo (LaneVals × List (BitVec 4))
  | [], vals => .ok (vals, [])
  | (k, step) :: rest, vals =>
    let r := s.vreg (vt + k)
    let part := vals.map fun v => (v.1, v.2 / 2 ^ (32 * k) % 2 ^ (32 * step))
    match boundCheck s.bounds r.fmt r.bnd part, s.loadBound vt rest vals with
    | .error t, .error u => .error (t.alsoLanes u)
    | .error t, .ok _ => .error t
    | .ok _, .error u => .error u
    | .ok (part, hit), .ok (vals, hs) => .ok (vals.splice part k step, if hit then r.bnd :: hs else hs)

/-- Writes the values a VLD loaded; tags are kept (08/R236). -/
def putLoad (vt n : Nat) (sx : Bool) (vals : LaneVals) : Act PUnit := do
  let s ← get
  match s.loadBound vt (s.boundUnits vt (wordsOf n)) (vals.map fun v => (v.1, extended sx n v.2)) with
  | .error t => stop (.trap t)
  | .ok (vals, hits) =>
    if vals ≠ [] then
      writeLanes vt (wordsOf n) none vals
      modify fun s => hits.foldl (fun s b => s.setBnd b true) s

/-- Writes a scalar data register or pair. -/
def putScalar (r : SReg) (n : Nat) (sx : Bool) (vals : LaneVals) : Act PUnit :=
  match vals with
  | [] => pure ()
  | v :: _ => modify fun s =>
      if n = 8 then s.setPair r (BitVec.ofNat 64 v.2) else s.setS r (BitVec.ofNat 32 (extended sx n v.2))

/-- The registers a vector memory instruction names lie in the window (03/R103). -/
def mxWindow (m : MX) (atomic : Bool) : Act Unit :=
  let w := wordsOf (2 ^ m.width.toNat)
  window [(m.voff.toNat, 1), (m.vt.toNat, if atomic && isCas m.aop then 2 * w else w)]

/-- The address of a lane of a vector access (08/R230). -/
def mxLane (m : MX) (off : DWord) (s : State) (l : Nat) : Lane :=
  let v := (s.vlane m.voff.toNat l).setWidth 64
  if m.as = 1#2 then ⟨l, 0, v + off⟩
  else let b := (s.xt m.xt).vbase; ⟨l, b, b + v + off⟩

/-- The address of a scalar access (08/R230). -/
def msLane (m : MS) (off : DWord) (s : State) (l : Nat) : Lane :=
  if m.as = 1#2 then ⟨l, 0, (s.sreg m.sa).setWidth 64 + off⟩
  else let b := s.spair m.sa; ⟨l, b, b + off⟩

/-- The kind of an atomic by its aop (08/R243). -/
def atomicKind (aop : BitVec 5) : Acc := if updateOnly aop then .update else .atomic

/-- The access a vector form makes. -/
def mxMem (m : MX) (k : Acc) : Mem :=
  { kind := k, vec := true, loc := m.as = 1#2, lvl := m.lvl.toNat, order := m.order.toNat, bytes := 2 ^ m.width.toNat,
    aop := m.aop, xt := if m.as = 1#2 then none else some m.xt }
/-- The access a scalar form makes. -/
def msMem (m : MS) (k : Acc) : Mem :=
  { kind := k, vec := false, loc := m.as = 1#2, lvl := m.lvl.toNat, order := m.order.toNat, bytes := 2 ^ m.width.toNat,
    aop := m.aop }

/-- A load at lvl 4 or 6 is performed by the checker alone (01/R36). -/
def loadClaim (vec : Bool) (lvl : Nat) : Claim :=
  if rankOf lvl = 4 then (if vec then .vector else .scalar) else if vec then .vload else .sload

/-! ### The instructions -/

/-- VLD with an offset. -/
def vldAt (i : Instr) (m : MX) (off : DWord) (s : State) : Out :=
  run i (loadClaim true m.lvl.toNat) (do
    mxWindow m false
    (mxMem m .load).body ⟨mxLane m off, fun _ _ => 0, fun _ _ => 0, putLoad m.vt.toNat (2 ^ m.width.toNat) (m.sx == 1#1)⟩
      ((List.range (wordsOf (2 ^ m.width.toNat))).map (m.vt.toNat + ·))) s
/-- VLD (08/R236). -/
def execVld (m : MX) (s : State) : Out := vldAt (.vld m) m (m.off.signExtend 64) s
/-- VLD with a 64-bit offset (08/R229, R236). -/
def execVldOffset64 (m : MX) (lit : DWord) (s : State) : Out := vldAt (.vldOffset64 m lit) m lit s

/-- VST with an offset. -/
def vstAt (i : Instr) (m : MX) (off : DWord) (s : State) : Out :=
  run i .vector (do
    mxWindow m false
    (mxMem m .store).body ⟨mxLane m off, fun s l => s.vrun m.vt.toNat (wordsOf (2 ^ m.width.toNat)) l, fun _ _ => 0, fun _ => pure ()⟩) s
/-- VST (08/R237). -/
def execVst (m : MX) (s : State) : Out := vstAt (.vst m) m (m.off.signExtend 64) s
/-- VST with a 64-bit offset (08/R229, R237). -/
def execVstOffset64 (m : MX) (lit : DWord) (s : State) : Out := vstAt (.vstOffset64 m lit) m lit s

/-- VATOM with an offset: operands and result by 08/R242's table. -/
def vatomAt (i : Instr) (m : MX) (off : DWord) (s : State) : Out :=
  let w := wordsOf (2 ^ m.width.toNat)
  let vx := if isCas m.aop then m.vt.toNat + w else m.vt.toNat
  run i .vector (do
    mxWindow m true
    (mxMem m (atomicKind m.aop)).body ⟨mxLane m off, fun s l => s.vrun vx w l, fun s l => s.vrun m.vt.toNat w l,
      fun vals => if m.v = 1#1 ∧ vals ≠ [] then writeLanes m.vt.toNat w none vals else pure ()⟩
      (if m.v = 1#1 then (List.range w).map (m.vt.toNat + ·) else [])) s
/-- VATOM (08/R241, R242). -/
def execVatom (m : MX) (s : State) : Out := vatomAt (.vatom m) m (m.off.signExtend 64) s
/-- VATOM with a 64-bit offset (08/R229, R242). -/
def execVatomOffset64 (m : MX) (lit : DWord) (s : State) : Out := vatomAt (.vatomOffset64 m lit) m lit s

/-- SLD of a form. -/
def sldAt (i : Instr) (m : MS) (off : DWord) (s : State) : Out :=
  run i (loadClaim false m.lvl.toNat)
    ((msMem m .load).body ⟨msLane m off, fun _ _ => 0, fun _ _ => 0, putScalar m.sd (2 ^ m.width.toNat) (m.sx == 1#1)⟩) s
/-- SST of a form. -/
def sstAt (i : Instr) (m : MS) (off : DWord) (s : State) : Out :=
  run i .scalar ((msMem m .store).body
    ⟨msLane m off, fun s _ => s.srun m.sd (wordsOf (2 ^ m.width.toNat)), fun _ _ => 0, fun _ => pure ()⟩) s
/-- The SI form: 32 bits at W, relaxed (08/R229). -/
def siForm (sd sa : SReg) : MS := ⟨0, 0, sa, sd, 0, 0, 0, 0, 0, 0, 2, 0⟩
/-- SLD in SI form (08/R229, R238). -/
def execSld (sd sa : SReg) (imm : BitVec 9) (s : State) : Out :=
  sldAt (.sld sd sa imm) (siForm sd sa) (imm.signExtend 64) s
/-- SLD in MS form (08/R238). -/
def execSldMs (m : MS) (s : State) : Out := sldAt (.sldMs m) m (m.off.signExtend 64) s
/-- SLD with a 64-bit offset (08/R229, R238). -/
def execSldOffset64 (m : MS) (lit : DWord) (s : State) : Out := sldAt (.sldOffset64 m lit) m lit s
/-- SST in SI form (08/R229, R238). -/
def execSst (sd sa : SReg) (imm : BitVec 9) (s : State) : Out :=
  sstAt (.sst sd sa imm) (siForm sd sa) (imm.signExtend 64) s
/-- SST in MS form (08/R238). -/
def execSstMs (m : MS) (s : State) : Out := sstAt (.sstMs m) m (m.off.signExtend 64) s
/-- SST with a 64-bit offset (08/R229, R238). -/
def execSstOffset64 (m : MS) (lit : DWord) (s : State) : Out := sstAt (.sstOffset64 m lit) m lit s

/-- SATOM of a form: x in sb, CAS's c and the result in sd (08/R242). -/
def satomAt (i : Instr) (m : MS) (off : DWord) (s : State) : Out :=
  let n := 2 ^ m.width.toNat
  run i .scalar ((msMem m (atomicKind m.aop)).body
    ⟨msLane m off, fun s _ => s.srun m.sb (wordsOf n), fun s _ => s.srun m.sd (wordsOf n),
      fun vals => if m.v = 1#1 then putScalar m.sd n false vals else pure ()⟩) s
/-- SATOM (08/R241, R242). -/
def execSatom (m : MS) (s : State) : Out := satomAt (.satom m) m (m.off.signExtend 64) s
/-- SATOM with a 64-bit offset (08/R229, R242). -/
def execSatomOffset64 (m : MS) (lit : DWord) (s : State) : Out := satomAt (.satomOffset64 m lit) m lit s

/-- XLD (08/R226); a line of the tables may have to be recalled or restored first (07/R222, 08/R245). -/
def execXld (xt : BitVec 3) (sa : SReg) (s : State) : Out :=
  run (.xld xt sa) .spipe (do
    let s ← get
    match s.xtHeld (s.spair sa) with
    | some x => stop (.recall x.1 x.2)
    | none => set (s.setXt xt (s.xtLoad (s.spair sa)))) s
/-- XINV (08/R227). -/
def execXinv (xt : BitVec 3) (s : State) : Out :=
  run (.xinv xt) .spipe (modify fun s => s.setXt xt { s.xt xt with valid := false }) s

end Sys2Proof.Machine
end

