-- ==== Sys2Proof/Machine/Sync.lean ====
section
/-! DEFINITION. Named barriers, Gong, memory barrier objects and queues (09/R255 to R270). -/

namespace Sys2Proof.Machine

/-! ### Named barriers (09/R255 to R258) -/

/-- A barrier of the block in focus. -/
def State.bar (s : State) (id : BitVec 4) : Barrier := pick s.blk.bars id
@[inherit_doc State.bar] def State.setBar (s : State) (id : BitVec 4) (b : Barrier) : State :=
  { s with blk := { s.blk with bars := put s.blk.bars id b } }

/-- Marks the waves of a block that wait on a barrier as released. -/
def Wave.endBarrier (b : BlockKey) (id : BitVec 4) (w : Wave) : Wave :=
  match w.life with
  | .waiting (.barrier i false) => if w.key.block = b ∧ i = id then { w with life := .waiting (.barrier i true) } else w
  | _ => w

/-- Arrive (09/R257): BARMM, Move(W, B), the count, and the end of a generation with its Move(B, G). A BAR.SYNC whose arrival
does not end the generation waits. -/
def arrive (id : BitVec 4) (n : Nat) (cr sync : Bool) : Act PUnit := do
  let s ← get
  let b := s.bar id
  if b.expected.isSome && b.expected != some n then raiseTrap .barmm id.toNat
  let ends := b.count + 1 = n
  let flag := b.cr || (sync && cr)
  if ends && flag then farStands do
    moveWB
    moveBG
  else moveWB
  modify fun s => (s.setBar id (if ends then ⟨!b.gen, none, 0, false⟩ else ⟨b.gen, some n, b.count + 1, flag⟩)).touched fun w x =>
    w.key.block == s.w.key.block && x == .barrier id false
  if ends then modify fun s =>
    let s := s.mapWaves (Wave.endBarrier s.w.key.block id)
    if sync then s.ordered else s
  else if sync then stop (.wait (.barrier id false))

/-- BAR.SYNC (09/R256, R257). -/
def execBarSync (c : BitVec 1) (n : BitVec 5) (id : BitVec 4) (s : State) : Out :=
  run (.barSync c n id) .scalar (do
    notInHandler
    arrive id n.toNat (c == 1#1) true) s
/-- BAR.ARRIVE (09/R256, R257). -/
def execBarArrive (n : BitVec 5) (id : BitVec 4) (s : State) : Out :=
  run (.barArrive n id) .scalar (do
    notInHandler
    arrive id n.toNat false false) s

/-- A wave released from a four-byte instruction retires it. -/
def Wave.releaseAt (p : Wait → Bool) (w : Wave) : Wave :=
  match w.life with
  | .waiting x => if p x && !w.saved then (w.retired (w.pc + 4)).ordered else w
  | _ => w

/-- BARRIER_RELEASE: the waves of an ended generation retire their BAR.SYNC, ACQ.B implied (09/R258). -/
def execBarrierRelease (s : State) : Out :=
  .next (if s.stopped then s else s.mapWaves fun w =>
    if w.key.block = s.facts.block then w.releaseAt fun x => x == .barrier s.facts.id true else w)

/-! ### Gong (09/R259 to R261) -/

/-- A route tag of the launch in focus. -/
def State.gongTag (s : State) (t : BitVec 3) : GongTag := pick s.launch.gong t

/-- One arrival on a tag: the wave records the episode, which ends at the expected count (09/R261). -/
def State.countArrival (s : State) (tag : BitVec 3) (g : GongTag) : State :=
  let full := decide (g.expected ≤ g.arrivals + 1)
  let g' := { g with arrivals := if full then 0 else g.arrivals + 1, episode := if full then g.episode + 1 else g.episode }
  let s := { s with w := { s.w with gong := put s.w.gong tag (some g.episode) } }
  ({ s with launch := { s.launch with gong := put s.launch.gong tag g' } }).touched fun w x =>
    w.key.launch == s.launch.id && (match x with
      | .gong t _ => t == tag
      | _ => false)

/-- GONG.ARRIVE: Commit at the tag's level, then one arrival (09/R261). -/
def execGongArrive (tag : BitVec 3) (s : State) : Out :=
  run (.gongArrive tag) .scalar (do
    notInHandler
    let g := (← get).gongTag tag
    if g.level = 0 then raiseTrap .illop
    commitTo g.level
    modify fun s => s.countArrival tag g) s

/-- GONG.WAIT: waits until the recorded episode, or the current one, has ended; ACQ at the tag's level (09/R261). -/
def execGongWait (tag : BitVec 3) (s : State) : Out :=
  run (.gongWait tag) .scalar (do
    notInHandler
    let s ← get
    let g := s.gongTag tag
    if g.level = 0 then raiseTrap .illop
    let e := (pick s.w.gong tag).getD g.episode
    if e < g.episode then modify fun s => s.acquireAt g.level
    else stop (.wait (.gong tag e))) s

/-- GONG_RELEASE: the waves of the launch whose episode has ended retire with ACQ at the level (09/R261). -/
def execGongRelease (s : State) : Out :=
  match s.findLaunch s.facts.launch with
  | none => .next s
  | some l =>
    let tag : BitVec 3 := s.facts.tag.setWidth 3
    let g := pick l.gong tag
    let done (w : Wave) : Bool := w.key.launch == l.id && !w.saved && !s.stopped &&
      (match w.life with
       | .waiting (.gong t e) => t == tag && decide (e < g.episode)
       | _ => false)
    let ws := s.allWaves.filter done
    let s := if g.level < 3 then s else ws.foldl (fun s w => s.acquire w.core false) s
    .next (s.mapWaves fun w => if done w then (w.retired (w.pc + 4)).ordered else w)

/-! ### Memory barrier objects (09/R262 to R267) -/

/-- A 32-bit word of the block's local area. -/
def Block.word (b : Block) (o : Nat) : Word := BitVec.ofNat 32 (b.scratch.value o 4)
/-- Writes a word of the local area. -/
def Block.setWord (b : Block) (o : Nat) (x : Word) : Block := { b with scratch := b.scratch.writeAll (placed o (leBytes 4 x.toNat)) }
/-- Whether a slot is tagged. An offset that is not a multiple of 16 names no tagged slot: for MB.ARRIVE, MB.WAIT, MB.TEST and OBJ the manual
gives it no trap of its own (09/R265, R266; DESIGN CHOICE, log 93). -/
def Block.tagged (b : Block) (o : Nat) : Bool := b.tags.contains o

/-- Status bits of an object's word 1. -/
def mbCKMM : Word := 0x100
@[inherit_doc mbCKMM] def mbFABERR : Word := 0x200
@[inherit_doc mbCKMM] def mbTMO : Word := 0x400
@[inherit_doc mbCKMM] def mbEERR : Word := 0x800

/-- Ends the waits on an object: those that `who` selects by parity, with SCC and word 1. -/
def Wave.endMbWait (b : BlockKey) (o : Nat) (who : Bool → Bool) (ok : Bool) (word : Word) (w : Wave) : Wave :=
  match w.life with
  | .waiting (.mbwait obj sd p dl none) =>
    if w.key.block = b ∧ obj = o ∧ who p then { w with life := .waiting (.mbwait obj sd p dl (some (ok, word))) } else w
  | _ => w

/-- An object of a block has changed: the watchdogs of the waits that go on see it (06/R195). -/
def State.objectMoved (s : State) (b : BlockKey) (o : Nat) : State :=
  s.touched fun w x => w.key.block == b && (match x with
    | .mbwait obj _ _ _ none => obj == o
    | _ => false)

/-- A block with an object changed: a write at B by a wave, or by an engine for it, which may set conflict flags and which the
watchdogs of its waits see (06/R195, 07/R207). -/
def State.setObject (s : State) (by_ : WaveKey) (b : Block) (o : Nat) : State :=
  ((s.setBlock b).noteWrite b.key by_ true 0 (lineOf o)).objectMoved b.key o

/-- Decrement(o, d) on an object of the block of the wave `by_`, tagged or not: a flip wakes the waits (09/R264). -/
def State.decrement (s : State) (by_ : WaveKey) (o d : Nat) : State :=
  match s.findBlock by_.block with
  | none => s
  | some b =>
    let c := (b.word o).toInt - d
    if 0 < c then s.setObject by_ (b.setWord o (BitVec.ofInt 32 c)) o
    else
      let w1 := b.word (o + 4) ^^^ 1
      let b := (b.setWord (o + 4) w1).setWord o (b.word (o + 8))
      (s.setObject by_ b o).mapWaves (Wave.endMbWait by_.block o (fun _ => true) true w1)

/-- Sets status bits of an object for the wave `by_`. -/
def State.mbStatus (s : State) (by_ : WaveKey) (o : Nat) (bits : Word) : State :=
  match s.findBlock by_.block with
  | none => s
  | some b => s.setObject by_ (b.setWord (o + 4) (b.word (o + 4) ||| bits)) o

/-- The slot an offset register names: ALIGN or PROT (09/R265). -/
def slotChecks (o : Nat) : Act Unit := do
  let s ← get
  if o % 16 ≠ 0 then raiseTrap .align 0 (BitVec.ofNat 64 o)
  if s.blk.localSize < o + 16 then raiseTrap .prot 0 (BitVec.ofNat 64 o)

/-- Whether a store of the wave into local bytes waits for a range of the scoreboard (09/R281). -/
def State.slotHeld (s : State) (o : Nat) : Bool :=
  s.co.ranges.any fun r => r.blk == s.w.key.block && decide (o < r.hi) && decide (r.lo < o + 16)

/-- A W buffer without the bytes of a slot. -/
def Place.dropSlot (p : Place) (o : Nat) : Place :=
  let cut (b : BLine) : BLine :=
    if b.isLocal then { b with bytes := b.bytes.filter fun x => (64 * b.line + x.1) / 16 != o / 16 } else b
  { p with lines := (p.lines.map cut).filter (·.bytes != []) }

/-- MB.INIT with a reset value (09/R265). -/
def mbInit (sa : SReg) (v : Word) : Act PUnit := do
  let o := ((← get).sreg sa).toNat
  slotChecks o
  if v ≠ BitVec.allOnes 32 && (v == 0 || v.msb) then raiseTrap .illop
  let s ← get
  if s.slotHeld o then stop (.wait .range)
  let k := s.w.key.block
  if v = BitVec.allOnes 32 then
    let w1 := s.blk.word (o + 4)
    let s := { s with blk := { s.blk with tags := s.blk.tags.filter (· != o) } }
    set ((s.mapWaves (Wave.endMbWait k o (fun _ => true) false w1)).objectMoved k o)
  else
    let s := s.putScratch (placed o (leBytes 4 v.toNat ++ leBytes 4 0 ++ leBytes 4 v.toNat ++ leBytes 4 0))
    let s := { s with blk := { s.blk with tags := if s.blk.tagged o then s.blk.tags else o :: s.blk.tags } }
    set (((s.setW (s.w.wbuf.dropSlot o)).mapWaves (Wave.endMbWait k o id true 0)).objectMoved k o)

/-- MB.INIT. -/
def execMbInit (sa sb : SReg) (s : State) : Out := run (.mbInit sa sb) .scalar (mbInit sa (s.sreg sb)) s
/-- MB.INIT with a literal. -/
def execMbInitLiteral (sa : SReg) (lit : DWord) (s : State) : Out :=
  run (.mbInitLiteral sa lit) .scalar (mbInit sa (litLow lit)) s

/-- MB.ARRIVE (09/R266). -/
def mbArrive (sa : SReg) (v : Word) : Act PUnit := do
  let s ← get
  let o := (s.sreg sa).toNat
  if !s.blk.tagged o || v == 0 || v.msb then raiseTrap .illop
  moveWB
  modify fun s => s.decrement s.w.key o v.toNat
/-- MB.ARRIVE. -/
def execMbArrive (sa sb : SReg) (s : State) : Out := run (.mbArrive sa sb) .scalar (mbArrive sa (s.sreg sb)) s
/-- MB.ARRIVE with a literal. -/
def execMbArriveLiteral (sa : SReg) (lit : DWord) (s : State) : Out :=
  run (.mbArriveLiteral sa lit) .scalar (mbArrive sa (litLow lit)) s

/-- MB.WAIT with a timeout (09/R267); ACQ.B invalidates nothing (07/R220). -/
def mbWait (sd sa : SReg) (timeout : Word) : Act PUnit := do
  let s ← get
  let o := (s.sreg sa).toNat
  match s.w.life with
  | .waiting (.mbwait _ _ _ _ (some (ok, w1))) =>
    let t := (s.setS sd w1).setScc ok
    set (if ok then t.ordered else t)
  | .waiting (.mbwait obj r p dl none) => stop (.wait (.mbwait obj r p dl none))
  | _ =>
    if !s.blk.tagged o then raiseTrap .illop
    let w1 := s.blk.word (o + 4)
    let p := (s.sreg sd).getLsbD 0
    if w1.getLsbD 0 ≠ p then set ((s.setS sd w1).setScc true).ordered
    else stop (.wait (.mbwait o sd p (if timeout = 0 then none else some (s.co.cycle + timeout.toNat)) none))

/-- MB.WAIT. -/
def execMbWait (sd sa sb : SReg) (s : State) : Out := run (.mbWait sd sa sb) .scalar (mbWait sd sa (s.sreg sb)) s
/-- MB.WAIT with a literal. -/
def execMbWaitLiteral (sd sa : SReg) (lit : DWord) (s : State) : Out :=
  run (.mbWaitLiteral sd sa lit) .scalar (mbWait sd sa (litLow lit)) s

/-- MB.TEST (09/R267). -/
def execMbTest (sd sa : SReg) (s : State) : Out :=
  run (.mbTest sd sa) .scalar (do
    let s ← get
    let o := (s.sreg sa).toNat
    if !s.blk.tagged o then raiseTrap .illop
    let w1 := s.blk.word (o + 4)
    let ended := w1.getLsbD 0 != (s.sreg sd).getLsbD 0
    let t := (s.setS sd w1).setScc ended
    set (if ended then t.ordered else t)) s

/-- MB_WAIT_TIMEOUT: a wait whose deadline has passed ends with TMO set; a saved wave's deadline does not run (09/R267, 12/R345). -/
def execMbWaitTimeout (s : State) : Out :=
  match s.findWave s.facts.wave with
  | some w =>
    match w.life with
    | .waiting (.mbwait o sd p (some d) none) =>
      if s.stopped ∨ w.saved ∨ (s.core w.core).cycle < d then .next s
      else
        let s := s.mbStatus w.key o mbTMO
        let w1 := ((s.findBlock w.key.block).map (·.word (o + 4))).getD 0
        .next (s.mapWaves fun x => if x.key = w.key then { x with life := .waiting (.mbwait o sd p (some d) (some (false, w1))) } else x)
    | _ => .next s
  | none => .next s

/-! ### Queues (09/R268 to R270) -/

/-- QUEUEERR: an undeclared queue, or a stage that is not the one named (09/R269). -/
def queueChecks (q : BitVec 3) (push : Bool) : Act Queue := do
  let s ← get
  let x := pick s.blk.queues q
  if x.cap = 0 || s.w.stage ≠ (if push then x.prod else x.cons) then raiseTrap .queueerr q.toNat
  return x

/-- Whether another wave of the block began earlier to wait on the same side of a queue (09/R270). -/
def State.queuedBefore (s : State) (q : BitVec 3) (push : Bool) : Bool :=
  let mine : Option Nat := match s.w.life with
    | .waiting (.queue _ _ t _) => some t
    | _ => none
  s.waves.any fun w => w.key.block == s.w.key.block &&
    (match w.life with
     | .waiting (.queue q' p t _) => q' == q && p == push &&
        (match mine with
         | none => true
         | some u => decide (t < u))
     | _ => false)

/-- Waits on a queue, keeping the place it has in line. -/
def awaitQueue (q : BitVec 3) (push : Bool) (r : SReg) : Act Unit := do
  let s ← get
  match s.w.life with
  | .waiting (.queue _ _ t _) => stop (.wait (.queue q push t r))
  | _ =>
    set { s with dev := { s.dev with ticket := s.dev.ticket + 1 } }
    stop (.wait (.queue q push s.dev.ticket r))

/-- A queue of the block in focus has changed. -/
def State.queueMoved (s : State) (q : BitVec 3) (x : Queue) : State :=
  ({ s with blk := { s.blk with queues := put s.blk.queues q x } }).touched fun w y =>
    w.key.block == s.w.key.block && (match y with
      | .queue q' _ _ _ => q' == q
      | _ => false)

/-- Takes the entry at the head (09/R268, R270). -/
def takeHead (q : BitVec 3) (sd : SReg) : Act Unit :=
  modify fun s =>
    let x := pick s.blk.queues q
    let v := s.blk.word (x.ring + 4 * (x.head % x.cap))
    ((s.queueMoved q { x with head := (x.head + 1) % x.cap, count := x.count - 1 }).setS sd v).ordered

/-- QPUSH (09/R270). An entry that lies in a tagged slot is written like another: 09/R263 names stores, atomics and copies only (DESIGN CHOICE, log
95). -/
def execQpush (q : BitVec 3) (sa : SReg) (s : State) : Out :=
  run (.qpush q sa) .scalar (do
    let x ← queueChecks q true
    if x.cap ≤ x.count || (← get).queuedBefore q true then awaitQueue q true sa
    moveWB
    modify fun s =>
      (s.putScratch (placed (x.ring + 4 * (x.tail % x.cap)) (leBytes 4 (s.sreg sa).toNat))).queueMoved q
        { x with tail := (x.tail + 1) % x.cap, count := x.count + 1 }) s
/-- QPOP (09/R270). -/
def execQpop (q : BitVec 3) (sd : SReg) (s : State) : Out :=
  run (.qpop q sd) .scalar (do
    notInHandler
    let x ← queueChecks q false
    if x.count = 0 || (← get).queuedBefore q false then awaitQueue q false sd
    takeHead q sd) s
/-- The waiting QPOPs of the block on a queue, each with its place in line and its register. -/
def State.waitingPops (s : State) (q : BitVec 3) : List (Wave × Nat × SReg) :=
  s.waves.filterMap fun w =>
    if w.key.block ≠ s.w.key.block then none
    else match w.life with
      | .waiting (.queue q' false t r) => if q' = q then some (w, t, r) else none
      | _ => none

/-- The waiting QPOP that began to wait first takes the entry at the head and retires (09/R270). -/
def State.servePop (s : State) (q : BitVec 3) : State :=
  let ps := s.waitingPops q
  match ps.find? fun p => ps.all fun o => decide (p.2.1 ≤ o.2.1) with
  | none => s
  | some (w, _, r) =>
    let x := pick s.blk.queues q
    let v := s.blk.word (x.ring + 4 * (x.head % x.cap))
    (s.queueMoved q { x with head := (x.head + 1) % x.cap, count := x.count - 1 }).setWave
      ((w.retired (w.pc + 4)).ordered.withS r v)

/-- QTRY: a free entry goes to a waiting QPOP before it, and what the waiting ones leave is available to it (09/R270). -/
def execQtry (q : BitVec 3) (sd : SReg) (s : State) : Out :=
  run (.qtry q sd) .scalar (do
    let x ← queueChecks q false
    let n := ((← get).waitingPops q).length
    if x.count ≤ n then modify (·.setScc false)
    else
      modify fun s => (List.range n).foldl (fun s _ => s.servePop q) s
      takeHead q sd
      modify (·.setScc true)) s

end Sys2Proof.Machine
end

