-- ==== Sys2Proof/Machine/Visibility.lean ====
section
/-! DEFINITION. COMMIT, validated commit, ABORT, MARK, ACQ, FENCE, and the cache walkers with WALKER_LINE
(07/R205 to R220, 08/R246 to R252). -/

namespace Sys2Proof.Machine

/-- COMMIT.L (08/R246). -/
def execCommit (lvl : BitVec 3) (s : State) : Out := run (.commit lvl) .scalar (commitTo lvl.toNat) s

/-- COMMIT.B.V: the test and the move are one action (07/R208). -/
def execCommitBV (s : State) : Out :=
  run .commitBV .spipe (do
    if (← get).w.conflict then modify (·.setScc false)
    else
      moveWB
      modify fun s => s.clearSig.setScc true) s

/-- ABORT.L (07/R209). -/
def execAbort (lvl : BitVec 3) (s : State) : Out := run (.abort lvl) .scalar (modify fun s => s.abortAt lvl.toNat) s
/-- MARK.L (07/R211). -/
def execMark (lvl : BitVec 3) (s : State) : Out := run (.mark lvl) .scalar (modify fun s => s.markAt lvl.toNat) s
/-- ACQ.L (07/R220). -/
def execAcq (lvl : BitVec 3) (s : State) : Out := run (.acq lvl) .scalar (modify fun s => s.acquireAt lvl.toNat) s
/-- FENCE.L: Commit(L), then ACQ.L (07/R220). -/
def execFence (lvl : BitVec 3) (s : State) : Out :=
  run (.fence lvl) .scalar (do
    commitTo lvl.toNat
    modify fun s => s.acquireAt lvl.toNat) s

/-! ### Walkers (08/R249 to R252) -/

/-- The checks and the hand-over of a walker instruction (08/R249): W for CIV, R for the others (13/R353). -/
def walk (op : WalkOp) (sd sa sb : SReg) : Act PUnit := do
  let s ← get
  let base := s.spair sa
  let n := (s.sreg sb).toNat
  if base.extractLsb' 0 6 ≠ 0#6 || n % 64 != 0 then raiseTrap .align 0 base
  slotChecks (s.sreg sd).toNat
  if n ≠ 0 then
    let need : Perm := if op = .civ then { w := true } else { r := true }
    let last := base + BitVec.ofNat 64 (n - 1)
    if s.leftRegion s.w.ctx base base || s.leftRegion s.w.ctx base last then raiseTrap .prot 0 base
    match s.regionCheck s.w.ctx need base n with
    | .error (.held dev line) => stop (.recall dev line)
    | .error (.prot _) => raiseTrap .prot 0 base
    | .ok va =>
      if Config.maxWalks ≤ s.co.walks.length then stop (.wait .memdep)
      set (s.setCo { s.co with walks := s.co.walks ++ [⟨op, s.w.key, s.w.ctx, (s.sreg sd).toNat, va, n / 64⟩] })

/-- CFL. -/
def execCfl (sd sa sb : SReg) (s : State) : Out := run (.cfl sd sa sb) .scalar (walk .cfl sd sa sb) s
/-- CIV. -/
def execCiv (sd sa sb : SReg) (s : State) : Out := run (.civ sd sa sb) .scalar (walk .civ sd sa sb) s
/-- CWB. -/
def execCwb (sd sa sb : SReg) (s : State) : Out := run (.cwb sd sa sb) .scalar (walk .cwb sd sa sb) s
/-- ICI (08/R252). -/
def execIci (sd sa sb : SReg) (s : State) : Out := run (.ici sd sa sb) .scalar (walk .ici sd sa sb) s

/-- A wave whose fetch buffer holds no byte of a line of this device (08/R252). -/
def Wave.dropFetched (s : State) (line : Nat) (w : Wave) : Wave :=
  { w with fetched := w.fetched.filter fun e =>
      match s.translate w.ctx e.1 with
      | .leaf l => l.dev != s.dev.devnum || lineOf (l.pa e.1) != line
      | _ => false }

/-- A line leaves every instruction cache and the fetch buffers of the waves, which hold the words fetched ahead (08/R252, log 71). -/
def State.dropCode (s : State) (line : Nat) : State :=
  let t : State := { s with cores := s.cores.map fun c => { c with icache := c.icache.filter fun e => lineOf e.1 != line } }
  t.mapWaves (Wave.dropFetched s line)

/-- The walker's action on a line that the page maps, once the partials of the line have gone home (08/R245, R250): dirty bytes of a
software-managed line are written back or discarded, registrations end, and CFL and CIV invalidate. -/
def State.walkLine (s : State) (op : WalkOp) (c : CoreId) (dev line : Nat) (coh : Bool) : Except CtxId State :=
  if dev ≠ s.dev.devnum then .ok (if op = .cwb then s else s.dropLine c dev line)
  else do
    let s ← if coh then .ok (s.unregister c line) else if op = .civ then .ok s else s.writeBack c line
    return if op = .cwb then s else s.dropLine c dev line

/-- A device writer that a pool holds up waits its turn; one record tells the host (14/R387). -/
def State.waitPool (s : State) (c : CtxId) (wctx : Nat) (addr : Nat) (unit : UnitId) (i : Instr) (low : Nat := 0) (access : Nat := 1) :
    State :=
  let e : CtxId × Turn := (c, .event i s.facts)
  (s.stillShort e).getD { s.deviceParkRecord c wctx addr unit low access with poolWait := s.poolWait ++ [e] }

/-- The partials of a line combined at its home before an event's access; when a pool or a peer holds that up, the event waits (08/R245,
14/R387). -/
def State.combineFirst (s : State) (dev line : Nat) : Except State State :=
  if (s.poolWait.any (·.2 == .combine line) && dev == s.dev.devnum) || s.partsAway dev line then .error s
  else match s.recallLine dev line with
    | .ok t => .ok t
    | .error c => .error (s.waitCombine c line)

/-- The partials of the lines of some bytes combined before an event that does not come again: it stands behind a combining that
a pool holds up (08/R245, 14/R387). -/
def State.combineBefore (s : State) (i : Instr) : List Nat → Except State State
  | [] => .ok s
  | line :: rest =>
    match s.combineFirst s.dev.devnum line with
    | .ok t => t.combineBefore i rest
    | .error t =>
      match t.poolWait.find? (·.2 == .combine line) with
      | none => .error t
      | some e => .error (t.joinPool (some e.1) (.event i t.facts))

/-- A line is counted on the walker's object, with EERR for an error (08/R251). What happens when the object's slot holds no tag any more
the manual does not say: the count and EERR are dropped (DESIGN CHOICE, log 94). -/
def State.countWalk (s : State) (c : CoreId) (w : Walk) (rest : List Walk) (err : Bool) : State :=
  let s := s.setCore c { s.core c with walks := if w.left ≤ 1 then rest else { w with va := w.va + 64, left := w.left - 1 } :: rest }
  match s.findBlock w.owner.block with
  | none => s
  | some b =>
    if !b.tagged w.obj then s
    else (if err then s.mbStatus w.owner w.obj mbEERR else s).decrement w.owner w.obj 1

/-- WALKER_LINE: the oldest request of a core's walker acts on its next line, whose virtual address the instruction's check gave; a
fact says that the write-back met an uncorrectable error. The walker reports nothing: one whose write-back needs a line of a pool only takes its
place in the pool's line of writers (08/R250, R251, 14/R387). -/
def execWalkerLine (s : State) : Out :=
  let c := s.facts.core
  match (if s.dev.powered then (s.core c).walks else []) with
  | [] => .next s
  | w :: rest =>
    match s.translate w.ctx w.va with
    | .absent _ => .next (s.countWalk c w rest false)
    | .poison | .away => .next (s.countWalk c w rest true)
    | .held dev line => .next (s.lookAgain dev line)
    | .leaf l =>
      let line := lineOf (l.pa w.va)
      let away := l.dev != s.dev.devnum && !s.reachable l.dev
      let held := s.parts.any fun p => p.peer.isNone && p.core == c && p.dev == l.dev && lineOf p.addr == line
      if w.op = .ici then .next ((if l.dev = s.dev.devnum then s.dropCode line else s).countWalk c w rest false)
      else if away then .next ((if w.op = .cwb then s else s.dropLine c l.dev line).countWalk c w rest (held || !s.facts.ok))
      else if s.restoring l.dev (64 * line) then .next s
      else match s.combineFirst l.dev line with
        | .error t => .next t
        | .ok s =>
          match s.walkLine w.op c l.dev line l.coh with
          | .ok t => .next (t.countWalk c w rest (!s.facts.ok))
          | .error p => .next (s.joinPool (some p) (.event .walkerLine s.facts))

end Sys2Proof.Machine
end

