-- ==== Sys2Proof/Machine/Snapshots.lean ====
section
/-! DEFINITION. SNAP, SACC, SREJ, SQRY, the end of a restore, and the writers that wait on a shadow pool (14/R379 to R394). -/

namespace Sys2Proof.Machine

/-- The active snapshot of a context that a handle names; one whose restore has begun is named no more (14/R381, R390). -/
def State.snapOf (s : State) (cx : CtxId) (h : Word) : Option Snap :=
  s.snaps.find? fun p => p.ctx == cx && !p.rejecting && p.slot == h.extractLsb' 0 4 && p.serial == h.extractLsb' 4 28

/-- Whether a snapshot is `h` or descends from it; snapshots are at most 4 deep (14/R380). -/
def State.under (s : State) (h : Snap) : Nat → Snap → Bool
  | 0, p => p.slot == h.slot
  | n + 1, p => p.slot == h.slot || (match p.parent with
      | none => false
      | some q => match s.snaps.find? fun x => x.ctx = h.ctx && x.slot = q with
        | some x => s.under h n x
        | none => false)

/-- `h` and its descendants, shallowest first. -/
def State.subtree (s : State) (h : Snap) : List Snap :=
  let all := s.snaps.filter fun p => p.ctx == h.ctx && s.under h 4 p
  (List.range 5).flatMap fun d => all.filter (·.depth == d)

/-- The serial after one (14/R381). -/
def nextSerial (x : BitVec 28) : BitVec 28 := if x = BitVec.allOnes 28 then 1 else x + 1

/-- Whether [lo, lo+n) shares a line with a range, and whether it lies inside it. -/
def Snap.shares (p : Snap) (lo n : Nat) : Bool := decide (lineOf p.lo < lineOf (lo + n + 63)) && decide (lineOf lo < lineOf (p.lo + p.len))
@[inherit_doc Snap.shares] def Snap.contains (p : Snap) (lo n : Nat) : Bool := decide (p.lo ≤ lo) && decide (lo + n ≤ p.lo + p.len)

/-- SNAP that fails (14/R388). -/
def State.noSnap (s : State) (sd : SReg) : State := (s.setS sd 0).setScc false

/-- The last part of SNAP: the conditions on the range at physical address `f`, then the new snapshot (14/R388). -/
def State.newSnap (s : State) (sd : SReg) (p : DWord) (f n : Nat) : State :=
  let cx := s.w.ctx
  let mine := s.snaps.filter (·.ctx == cx)
  let over' := mine.filter (·.contains f n)
  let parent : Option Snap := over'.find? fun x => over'.all fun y => decide (y.depth ≤ x.depth)
  let depth := (parent.map (·.depth + 1)).getD 1
  let free := ((List.range 16).map (BitVec.ofNat 4)).find? fun i => !mine.any (·.slot == i)
  match free with
  | none => s.noSnap sd
  | some slot =>
    if s.cx.poolsize = 0 || (mine.any fun x => x.shares f n && !x.contains f n) || decide (4 < depth) then s.noSnap sd
    else
      let ser := s.cx.serial
      let s : State := { s with snaps := s.snaps ++ [⟨cx, slot, p, (s.regionOf cx p).va p, f, n, parent.map (·.slot), depth, ser, [], false⟩] }
      ((s.setCx { s.cx with serial := nextSerial ser }).setS sd (ser ++ slot)).setScc true

/-- SNAP with a length: a range that fails the region check raises PROT at its lowest failing address, be it the first one outside
the pointer's region identifier (14/R388, 13/R351, R353). -/
def snap (sd sa : SReg) (len : Word) : Act PUnit := do
  let s ← get
  let p := s.spair sa
  let n := len.toNat
  if p.extractLsb' 0 6 ≠ 0#6 || n % 64 != 0 then raiseTrap .align 0 p
  if n = 0 then set (s.noSnap sd)
  else
    if s.leftRegion s.w.ctx p p then raiseTrap .prot 0 p
    (match s.xtHeld p with
      | some x => stop (.recall x.1 x.2)
      | none => pure ())
    let inside := 2 ^ 56 - p.toNat % 2 ^ 56
    let over' : DWord := p + BitVec.ofNat 64 inside
    match s.regionCheck s.w.ctx { r := true, w := true } p n with
    | .error (.held dev line) => stop (.recall dev line)
    | .error (.prot a) => raiseTrap .prot 0 (if inside < (a - p).toNat then over' else a)
    | .ok va =>
      if inside < n then raiseTrap .prot 0 over'
      match s.translate s.w.ctx va with
      | .poison => raiseTrap .poison 0 p
      | .absent m => parkPage p 9 m
      | .held dev line => stop (.recall dev line)
      | .away => stop (.wait (.remote noLanes p 9))
      | .leaf l =>
        let f := l.pa va
        let run := ((s.runAt s.w.ctx p).map fun x => x.2.2.2).getD 0
        if s.restores.any fun r => decide (r.lo < f + n) && decide (f < r.lo + r.len) then stop (.wait .memdep)
        if run < n || !l.coh || l.dev != s.dev.devnum then set (s.noSnap sd)
        else set (s.newSnap sd p f n)

/-- SNAP. -/
def execSnap (sd sa sb : SReg) (s : State) : Out := run (.snap sd sa sb) .scalar (snap sd sa (s.sreg sb)) s
/-- SNAP with a literal. -/
def execSnapLiteral (sd sa : SReg) (lit : DWord) (s : State) : Out :=
  run (.snapLiteral sd sa lit) .scalar (snap sd sa (litLow lit)) s

/-- Accept(s): its lines pass to the parent that holds none for them; it ends (14/R389). -/
def State.accept (s : State) (cx : CtxId) (slot : BitVec 4) : State :=
  match s.snaps.find? fun p => p.ctx = cx && p.slot = slot with
  | none => s
  | some p =>
    let rest := s.snaps.filter fun q => !(q.ctx == cx && q.slot == slot)
    { s with snaps := rest.map fun q =>
        if q.ctx = cx ∧ some q.slot = p.parent then
          { q with shadow := q.shadow ++ p.shadow.filter fun l => !(q.shadow.any (·.1 == l.1)) }
        else q }

/-- SACC: the descendants deepest first, then the snapshot (14/R389). -/
def execSacc (sa : SReg) (s : State) : Out :=
  run (.sacc sa) .spipe (modify fun s =>
    match s.snapOf s.w.ctx (s.sreg sa) with
    | none => s.setScc false
    | some h => ((s.subtree h).reverse.foldl (fun s p => s.accept p.ctx p.slot) s).setScc true) s

/-- Whether a place holds a line of a physical range of this device (14/R390). -/
def Place.inRange (p : Place) (devnum lo n : Nat) : Bool :=
  p.lines.any fun b => !b.isLocal && b.dev == devnum && decide (lineOf lo ≤ b.line) && decide (b.line < lineOf (lo + n))

/-- The old values a restore writes: for each shadowed line that of the shallowest snapshot holding one (14/R390). -/
def restoreLines (ps : List Snap) : List (Nat × List Byte × Bool) :=
  ps.foldl (fun ls p => ls ++ p.shadow.filter fun l => !(ls.any (·.1 == l.1))) []

/-- SREJ: the checks, the recall of the range's partials, and the beginning of the restore; it retires when the restore
completes (14/R390, R392). -/
def execSrej (sa : SReg) (s : State) : Out :=
  run (.srej sa) .spipe (do
    let s ← get
    if s.restores.any (·.wave == s.w.key) then stop (.wait .memdep)
    match s.snapOf s.w.ctx (s.sreg sa) with
    | none => set (s.setScc false)
    | some h =>
      let dn := s.dev.devnum
      if s.w.wbuf.inRange dn h.lo h.len || s.blk.place.inRange dn h.lo h.len || s.gang.place.inRange dn h.lo h.len then
        raiseTrap .snaperr 0 h.base
      ((s.parts.filter fun p => p.dev == dn && decide (h.lo ≤ p.addr) && decide (p.addr < h.lo + h.len)).map fun p =>
        lineOf p.addr).dedup.forM (recallAct dn)
      let s ← get
      let ps := s.subtree h
      let ends := ps.map (·.slot)
      let mark (p : Snap) : Snap := if p.ctx = h.ctx ∧ ends.contains p.slot then { p with rejecting := true } else p
      let r : Restore := ⟨s.w.ctx, ends, h.lo, h.len, restoreLines ps, s.w.key⟩
      set { s with restores := s.restores ++ [r], snaps := s.snaps.map mark }
      stop (.wait .memdep)) s

/-- SQRY (14/R393). -/
def execSqry (sd sa : SReg) (s : State) : Out :=
  run (.sqry sd sa) .scalar (modify fun s =>
    let free : Word := BitVec.ofNat 32 (s.poolFree s.w.ctx)
    match s.snapOf s.w.ctx (s.sreg sa) with
    | none => ((s.setS sd 0).setS (sd + 1) free).setScc false
    | some h =>
      let n := ((s.subtree h).map (·.shadow.length)).sum
      ((s.setS sd (BitVec.ofNat 32 n)).setS (sd + 1) free).setScc true) s

/-- The lines of a restore written one by one; the answer is what is left and the pool it waits on (14/R392). -/
def State.restoreFrom (s : State) (cx : CtxId) : List (Nat × List Byte × Bool) → State × List (Nat × List Byte × Bool) × Option CtxId
  | [] => (s, [], none)
  | (line, bs, bad) :: rest =>
    match s.homeWrite none (some cx) line (placed (64 * line) bs) with
    | .error c => (s, (line, bs, bad) :: rest, some c)
    | .ok t =>
      let t := if bad then { t with poison := line :: t.poison.filter (· != line) } else t
      t.restoreFrom cx rest

/-- Every cached copy and registration of a range's lines goes (07/R222). -/
def State.forgetRange (s : State) (lo n : Nat) : State :=
  let inside (line : Nat) : Bool := decide (lineOf lo ≤ line) && decide (line < lineOf (lo + n))
  { s with
    cores := s.cores.map fun c => c.mapCaches fun l => if l.dev == s.dev.devnum && inside l.line then none else some l
    reg := s.reg.filter fun e => !inside (e.1 / 16)
    dirs := s.dirs.filter fun e => !inside e.line }

/-- A restore that has begun is carried on: at its end its snapshots end and its SREJ retires (14/R390, R392). -/
def State.finishRestore (s : State) (r : Restore) (i : Instr) : State :=
  let (t, left, blocked) := s.restoreFrom r.ctx r.lines
  match blocked with
  | some c =>
    let rs : List Restore := t.restores.map fun x => if x.wave = r.wave ∧ x.ctx = r.ctx then { x with lines := left } else x
    State.waitPool { t with restores := rs } c r.ctx.toNat (((left.head?.map (64 * ·.1)).getD r.lo)) (wholeCore (((t.findWave r.wave).map (·.core)).getD 0)) i
  | none =>
    let t := t.forgetRange r.lo r.len
    let t : State := { t with
      restores := t.restores.filter fun x => !(x.wave == r.wave && x.ctx == r.ctx)
      snaps := t.snaps.filter fun p => !(p.ctx == r.ctx && p.rejecting && r.slots.contains p.slot) }
    if (t.findWave r.wave).any (·.life != .ended) then t.changeAs r.wave fun t => ((t.setScc true).claim .spipe []).retire 4 else t

/-- SNAPSHOT_RESTORE_COMPLETE: the oldest restore of a context (14/R392). -/
def execSnapshotRestoreComplete (s : State) : Out :=
  match s.restores.find? fun r => r.ctx = s.facts.ctx with
  | none => .next s
  | some r => .next (s.finishRestore r .snapshotRestoreComplete)

/-- A copy request that a pool holds up with SHADOWPARK goes on; other writers are not held. -/
def State.freeKick (s : State) (e : CtxId × Turn) : State :=
  match e.2 with
  | .event .copyLineTransfer f =>
    let one (k : Kick) : Kick := if k.id = f.num ∧ k.held.any (·.pool == some e.1) then { k with held := none } else k
    s.setCore f.core { s.core f.core with kicks := (s.core f.core).kicks.map one }
  | _ => s

/-- POOL_WRITER_PROCEED: the writer that has waited longest on a context's pool has its turn, once a line is free or no
snapshot asks for one; it keeps its place in the line until it has had it (14/R387, R394). -/
def execPoolWriterProceed (s : State) : Out :=
  let cx := s.facts.ctx
  match s.poolWait.find? fun e => e.1 = cx with
  | none => .next s
  | some e =>
    if s.retry.isSome ∨ (s.poolFree cx = 0 ∧ s.snaps.any fun p => p.ctx == cx) then .next s
    else .next { s with retry := some e, agenda := e.2 :: .retried :: s.agenda }

/-- The end of a writer's turn: one that is still short of a line has kept its place, another leaves the line (14/R387). -/
def State.endRetry (s : State) : State :=
  match s.retry with
  | none => s
  | some e => { s.freeKick e with poolWait := s.poolWait.erase e, retry := none }

/-- POOLSIZE_WRITE: a size below POOLUSED is ignored (14/R385). -/
def execPoolsizeWrite (s : State) : Out :=
  let c := s.ctxOf s.facts.ctx
  let n := (s.facts.val.extractLsb' 0 32).toNat
  .next (if n < s.poolUsed s.facts.ctx ∨ 2 ^ 28 < n then s else s.setCtx s.facts.ctx { c with poolsize := n })

end Sys2Proof.Machine
end

