-- ==== Sys2Proof/Machine/Fetch.lean ====
section
/-! DEFINITION. Fetching an instruction's words, the two rows that stand for a fetch that fails and an opcode that is not
assigned, and the acts of the agenda that no row names (03/R107, R108, 08/R252 to R254, 13/R353, R354, R360). -/

namespace Sys2Proof.Machine

/-- Where the word at a formed address lies (virtual address, home, physical address), or how its fetch stops
(03/R108 step 1, 13/R353, R362). -/
def State.codePlace (s : State) (va : DWord) : Except Halt (Nat × Nat × Nat) :=
  let bad : Except Halt (Nat × Nat × Nat) := .error (.trap { cause := .fetch, taddr := va })
  if s.leftRegion s.w.ctx s.w.pc va then bad
  else match s.regionCheck s.w.ctx { r := true } va 4 with
    | .error (.held dev line) => .error (.recall dev line)
    | .error (.prot _) => bad
    | .ok a => match s.translate s.w.ctx a with
      | .poison => bad
      | .held dev line => .error (.recall dev line)
      | .away => .error (.park { cause := .page, addr := va, access := 4, link := true })
      | .absent m => .error (.park { cause := .page, addr := va, access := 4, malf := m })
      | .leaf l => if l.r && l.x then .ok (a, l.dev, l.pa a) else bad

/-- The byte an instruction cache holds for an address of this device. -/
def Core.codeByte (c : Core) (pa : Nat) : Option Byte := (c.icache.find? fun e => e.1 == pa).map (·.2)

/-- One byte of code: decoded or fetched ahead by the wave, held by its core's instruction cache, or from the home at D, where a
poisoned line fails, a home that does not answer parks the wave, a restore holds it up, and partials are recalled first (08/R245, R252 to
R254, 14/R392, 15/R405). -/
def State.codeByte (s : State) (va : DWord) (a dev pa : Nat) : Except Halt Byte :=
  match (s.w.decoded ++ s.w.fetched).find? fun e => e.1 == a with
  | some e => .ok e.2
  | none =>
    match (if dev = s.dev.devnum then s.co.codeByte pa else none) with
    | some b => .ok b
    | none =>
      if dev ≠ s.dev.devnum ∧ !s.reachable dev then .error (.park { cause := .page, addr := va, access := 4, link := true })
      else if s.heldLine dev (lineOf pa) then .error (.recall dev (lineOf pa))
      else if s.homePoison dev pa then .error (.trap { cause := .fetch, taddr := va })
      else .ok (BitVec.ofNat 8 (s.homeValue dev pa 1))

/-- One word of code. -/
def State.codeWord (s : State) (va : DWord) : Except Halt Word := do
  let (a, dev, pa) ← s.codePlace va
  let b0 ← s.codeByte va a dev pa
  let b1 ← s.codeByte va (a + 1) dev (pa + 1)
  let b2 ← s.codeByte va (a + 2) dev (pa + 2)
  let b3 ← s.codeByte va (a + 3) dev (pa + 3)
  return BitVec.ofNat 32 (ofLE [b0, b1, b2, b3])

/-- The words that follow word 0, `n` of them. -/
def State.moreWords (s : State) : Nat → DWord → Except Halt (List Word)
  | 0, _ => .ok []
  | n + 1, va => do
    let w ← s.codeWord va
    let ws ← s.moreWords n (va + 4)
    return w :: ws

/-- The words that word 0 asks for: none beyond it when OP or LEN is not listed (03/R90, R107, R108). -/
def wordsAsked (w0 : Word) : Nat := if lenListed (wordP w0) (wordOp w0) (wordLen w0) then lenWords (wordLen w0) - 1 else 0

/-- Word 0 at the pc and what it decodes to, or how the fetch stops. -/
def State.fetch (s : State) : Except Halt (Word × Decoded) := do
  let w0 ← s.codeWord s.w.pc
  let ws ← s.moreWords (wordsAsked w0) (s.w.pc + 4)
  return (w0, decodeWords w0 (ws.getD 0 0) (ws.getD 1 0) (ws.getD 2 0) (ws.getD 3 0))

/-- Whether a wave ends its wait by executing its instruction: the release rows end the other waits (06/R187). -/
def Wait.retries : Wait → Bool
  | .barrier _ _ | .gong _ _ | .yield _ _ => false
  | .mbwait _ _ _ _ ended => ended.isSome
  | _ => true

/-- Whether the wave in focus may execute an instruction; in Waiting it may not before the condition of its wait holds (06/R186, R187, R194,
15/R412, 18/R450). -/
def State.runnable (s : State) : Bool :=
  s.w.key.launch != 0 && !s.w.saved && s.gang.state == .resident && !s.stopped &&
    (match s.w.life with
     | .ready => true
     | .waiting w => w.retries && (!w.blocks || s.waitOver s.w w)
     | _ => false)

/-- What a step of the wave in focus does. -/
inductive Todo where
  /-- The wave issues nothing. -/
  | idle
  /-- A word cannot be fetched. -/
  | noWord
  /-- The words are no legal instruction; the flag is P of word 0. -/
  | illegal (vector : Bool)
  /-- An MLOOP, legal or not, that finds the sequencer full and does not issue (10/R296). -/
  | full
  /-- The decoded instruction. -/
  | perform (i : Instr)
  deriving DecidableEq, Repr

/-- The instruction that the wave in focus has issued and that waits: it is performed without another fetch (06/R187). -/
def State.heldInstr (s : State) : Option Instr := if s.w.life.blocked then s.w.issued else none

/-- Whether a word 0 is that of an MLOOP (10/R283). -/
def isMloop (w0 : Word) : Bool := wordP w0 == 0 && wordOp w0 == 0xC0 && lenListed (wordP w0) (wordOp w0) (wordLen w0)

/-- The next act of the wave in focus. -/
def State.todo (s : State) : Todo :=
  if s.runnable then
    match s.heldInstr with
    | some i => .perform i
    | none =>
      match s.fetch with
      | .error _ => .noWord
      | .ok (w0, .error _) => if isMloop w0 && s.loopsFull then .full else .illegal (wordP w0 == 1)
      | .ok (_, .ok i) => .perform i
  else .idle

/-- UNASSIGNED_OPCODE: ILLOP, with the lanes of a vector instruction (03/R107, 04/R146). -/
def execUnassignedOpcode (w : Word) (s : State) : Out := .next (s.illop (wordP w == 1))

/-- INSTRUCTION_FETCH_FAILURE: the fetch of the wave in focus fails, with FETCH or a park; a wave that has issued the instruction it waits
in fetches nothing (03/R108, 06/R187, 13/R362). -/
def execInstructionFetchFailure (s : State) : Out :=
  if s.runnable ∧ s.heldInstr = none then
    match s.fetch with
    | .error h => .next (s.halted h)
    | .ok _ => .next s
  else .next s

/-! ### Acts of the agenda that no row names (log 1) -/

/-- A core's private cache takes a line ahead, with the COH of the page that maps it: one that is not poisoned, of which no core
holds a partial, and whose home answers (07/R204, 13/R370, R374). -/
def State.cacheFill (s : State) (c : CoreId) (cx : CtxId) (va : Nat) : State :=
  match s.translate cx va with
  | .leaf l =>
    let line := lineOf (l.pa va)
    let far := l.dev != s.dev.devnum && !s.reachable l.dev
    if far || s.homePoison l.dev (64 * line) || s.heldLine l.dev line then s
    else
      let s := s.evict c (victimIn (s.core c).cache Config.cacheLines s.turn l.dev line)
      let k := s.core c
      (s.setCore c { k with cache := takeIn k.cache Config.cacheLines l.dev line l.coh false s.turn (s.homeLine l.dev line) }).noteTaken c
        l.dev line l.coh
  | _ => s

/-- A core evicts a line: its dirty bytes are written back, and its registrations of the line end (07/R204, 13/R368, R373). -/
def State.cacheDrop (s : State) (c : CoreId) (dev line : Nat) : State :=
  if dev ≠ s.dev.devnum then s.dropLine c dev line
  else if s.homeHeld dev (64 * line) then s
  else match s.writeBack c line with
    | .ok t => (t.dropLine c dev line).unregister c line
    | .error _ => s

/-- An invalidation reaches a checker cache, and its copy of the line goes (01/R44, 13/R369). -/
def State.invalidate (s : State) (c : CoreId) (line : Nat) : State :=
  if s.invals.contains (c, line) then
    let k := s.core c
    let ckc := (k.ckc.map fun l => if l.dev = s.dev.devnum ∧ l.line = line then l.keep l.dirty.contains else l).filter (·.bytes != [])
    { s.setCore c { k with ckc := ckc } with invals := s.invals.filter (· != (c, line)) }
  else s

/-- A signature has filled half its bits, which is the agenda's to say (log 69): its core drops the clean copies of lines homed at the slice, and the slice clears it
(13/R369). -/
def State.sigFull (s : State) (c : CoreId) (slice : BitVec 8) : State :=
  let here (line : Nat) : Bool := s.slice line == slice
  let t := s.setCore c ((s.core c).mapCaches fun l =>
    if l.dev = s.dev.devnum ∧ here l.line then
      let l := l.keep fun o => l.dirty.contains o || s.registrant (64 * l.line + o) == some c.toNat
      if l.bytes = [] then none else some l
    else some l)
  { t with sigs := t.sigs.filter fun e => !(e.1 == c && here e.2) }

/-- The registration table of a slice is full, which is the agenda's to say (log 69): the line registered longest ago is recalled from its registrants (13/R368). -/
def State.regFull (s : State) (slice : BitVec 8) : State :=
  match s.reg.reverse.find? fun e => s.slice (e.1 / 16) = slice with
  | none => s
  | some e => s.setReg (s.reg.filter fun x => x.1 / 16 != e.1 / 16) (e.1 / 16)

/-- An agent's cached leaf of an address, and its cached bounds entry, dropped (13/R354, R360). -/
def State.tlbDrop (s : State) (cx : CtxId) (agent va : Nat) : State :=
  s.setCtx cx { s.ctxOf cx with tlb := (s.ctxOf cx).tlb.filter fun e => !tlbHit agent va e }
@[inherit_doc State.tlbDrop] def State.rbtDrop (s : State) (cx : CtxId) (agent : Nat) (r : BitVec 8) : State :=
  s.setCtx cx { s.ctxOf cx with rbt := (s.ctxOf cx).rbt.filter fun e => !(e.1 == agent && e.2.1 == r) }

/-- An agent caches the leaf of an address, or a bounds entry, as the tables have it (13/R354, R360). -/
def State.tlbFill (s : State) (cx : CtxId) (agent va : Nat) : State :=
  match s.walkTables cx va with
  | .leaf l =>
    let t := s.tlbDrop cx agent va
    t.setCtx cx { t.ctxOf cx with tlb := (agent, va / l.size * l.size, l) :: (t.ctxOf cx).tlb }
  | _ => s
@[inherit_doc State.tlbFill] def State.rbtFill (s : State) (cx : CtxId) (agent : Nat) (r : BitVec 8) : State :=
  if s.heldLine s.dev.devnum (lineOf ((s.ctxOf cx).rbtbase + 32 * r.toNat)) then s else
  let t := s.rbtDrop cx agent r
  t.setCtx cx { t.ctxOf cx with rbt := (agent, r, s.regionEntry cx r) :: (t.ctxOf cx).rbt }

/-- An instruction cache takes a line; a full one gives another up (00/R5, log 2). -/
def Core.takeCode (k : Core) (now line : Nat) (bs : List (Nat × Byte)) : Core :=
  let rest := k.icache.filter fun e => lineOf e.1 != line
  let lines := (rest.map fun e => lineOf e.1).dedup
  let rest := if lines.length < Config.icacheLines then rest
    else rest.filter fun e => some (lineOf e.1) != lines[Config.victim now % lines.length]?
  { k with icache := bs ++ rest }

/-- A core's instruction cache fetches a line from its home at D (08/R252). -/
def State.icacheFill (s : State) (c : CoreId) (line : Nat) : State :=
  if s.poisoned (64 * line) || s.heldLine s.dev.devnum line then s
  else
    let bs := (List.range 64).map fun i => (64 * line + i, BitVec.ofNat 8 (s.homeValue s.dev.devnum (64 * line + i) 1))
    s.setCore c ((s.core c).takeCode s.turn line bs)

/-- A wave fetches the line at an address ahead (08/R253, R254). -/
def State.fetchAhead (s : State) (k : WaveKey) (va : Nat) : State :=
  match s.findWave k with
  | none => s
  | some w =>
    match s.translate w.ctx va with
    | .leaf l =>
      let base := va / 64 * 64
      if l.r && l.x && l.dev == s.dev.devnum && !s.poisoned (l.pa base) && !s.heldLine l.dev (lineOf (l.pa base)) then
        let bs := (List.range 64).map fun i => (base + i, ((s.core w.core).codeByte (l.pa base + i)).getD
          (BitVec.ofNat 8 (s.homeValue l.dev (l.pa base + i) 1)))
        s.setWave { w with fetched := bs ++ w.fetched.filter fun e => e.1 / 64 != va / 64 }
      else s
    | _ => s

/-- A wave decodes the line at an address that it has fetched ahead: what it has decoded stays until the wave executes FBAR (08/R252, R253,
16/R418). -/
def State.decodeAhead (s : State) (k : WaveKey) (va : Nat) : State :=
  match s.findWave k with
  | none => s
  | some w =>
    let bs := w.fetched.filter fun e => e.1 / 64 == va / 64
    if bs = [] then s else s.setWave { w with decoded := bs ++ w.decoded.filter fun e => e.1 / 64 != va / 64 }

/-- A core's CYCLE goes on, unless the core is fenced and has no clock, or the core rails are off (00/R4, 18/R450). -/
def State.tick (s : State) (c : CoreId) (n : Nat) : State :=
  if s.clocked c then s.setCore c { s.core c with cycle := (s.core c).cycle + n } else s

/-- The partials of a line combined, or waiting for a pool's line (14/R387). -/
def State.combineTurn (s : State) (line : Nat) : State :=
  if s.homeHeld s.dev.devnum (64 * line) then s
  else match s.recallLine s.dev.devnum line with
    | .ok t => t
    | .error c => s.waitCombine c line

/-- A change of a peer, when there is one. -/
def State.onPeer (s : State) (dev : Nat) (f : Peer → Peer) : State :=
  match s.peer dev with
  | none => s
  | some p => s.setPeer (f p)

/-- A peer writes its own memory, once it has recalled the partials that cores of this device hold of the lines (08/R245). -/
def State.peerWrites (s : State) (dev pa : Nat) (data : List Byte) : State :=
  let lines := ((placed pa data).map fun b => lineOf b.1).dedup
  if !s.reachable dev && s.parts.any (fun p => p.dev == dev && lines.contains (lineOf p.addr)) then s
  else (lines.foldl (fun s l => s.recallFar dev l) s).onPeer dev fun p => { p with mem := p.mem.writeAll (placed pa data) }

/-- A peer's core performs an update-only operation in its own cache on a line that is homed here: one of another operator than a partial of
the word recalls the line first, and waits where that must wait (08/R244, R245, 15/R410). -/
def State.peerUpdates (s : State) (dev : Nat) (core : CoreId) (coh : Bool) (addr : Nat) (op : AtomicOp) : State :=
  if !s.reachable dev || !updateOnly op.aop || addr % op.bytes != 0 || !hasMemory addr || s.restoring s.dev.devnum addr then s
  else if s.opposed s.dev.devnum addr op then
    match s.recallFor s.dev.devnum (lineOf addr) with
    | .ok t => t.gather (some dev) core s.dev.devnum coh addr op
    | .error none => s
    | .error (some (c, line)) => s.waitCombine c line
  else s.gather (some dev) core s.dev.devnum coh addr op

/-- What an act that is neither a step of a wave nor an event does. -/
def State.plain (s : State) : Turn → State
  | .wave | .event _ _ => s
  | .focus k => s.focusOn k
  | .tick c n => s.tick c n
  | .time n => { s with dev := { s.dev with ftime := s.dev.ftime + n }, peers := s.peers.map fun p => { p with ftime := p.ftime + n } }
  | .cacheFill c cx va => s.cacheFill c cx va
  | .cacheDrop c dev line => s.cacheDrop c dev line
  | .invalidate c line => s.invalidate c line
  | .sigFull c slice => s.sigFull c slice
  | .regFull slice => s.regFull slice
  | .tlbFill cx agent va => s.tlbFill cx agent va
  | .tlbDrop cx agent va => s.tlbDrop cx agent va
  | .rbtFill cx agent r => s.rbtFill cx agent r
  | .rbtDrop cx agent r => s.rbtDrop cx agent r
  | .icacheFill c line => s.icacheFill c line
  | .icacheDrop c line => s.setCore c { s.core c with icache := (s.core c).icache.filter fun e => lineOf e.1 != line }
  | .fetchAhead k va => s.fetchAhead k va
  | .decodeAhead k va => s.decodeAhead k va
  | .peerWrite dev pa data => s.peerWrites dev pa data
  | .peerSc dev n => s.onPeer dev fun p => { p with scTime := p.scTime + n }
  | .peerPartial dev core coh addr op => s.peerUpdates dev core coh addr op
  | .route dev r => s.onPeer dev fun p => { p with route := r, downFrom := if r = .down ∧ p.route ≠ .down then s.dev.ftime else p.downFrom }
  | .records => s.flushRecords s.dev.heldRecs.length
  | .combine line => s.combineTurn line
  | .retried => s.endRetry
  | .strap on => { s with dev := { s.dev with strap := on } }

end Sys2Proof.Machine
end

