-- ==== Sys2Proof/Machine/Scalar.lean ====
section
/-! DEFINITION. Scalar arithmetic, compare, select, move and pair instructions (04/R120 to R129). -/

namespace Sys2Proof.Machine

/-- sd := f sa b, b being sb or the literal's low word (04/R122, R123). -/
def alu (i : Instr) (f : Word → Word → Word) (sd sa : SReg) (b : State → Word) (s : State) : Out :=
  simple i (fun s => s.setS sd (f (s.sreg sa) (b s))) s

/-- SCC := c sa b (04/R127). -/
def compareS (i : Instr) (c : Word → Word → Bool) (sa : SReg) (b : State → Word) (s : State) : Out :=
  simple i (fun s => s.setScc (c (s.sreg sa) (b s))) s

/-- The pair sd := f of the pair sa and b (04/R129). -/
def aluPair {α : Type} (i : Instr) (f : DWord → α → DWord) (sd sa : SReg) (b : State → α) (s : State) : Out :=
  simple i (fun s => s.setPair sd (f (s.spair sa) (b s))) s

/-- High halves of the 64-bit products (04/R123). -/
def mulHigh (a b : Word) : Word := (a.signExtend 64 * b.signExtend 64).extractLsb' 32 32
@[inherit_doc mulHigh] def mulHighU (a b : Word) : Word := (a.setWidth 64 * b.setWidth 64).extractLsb' 32 32

/-- Division never traps: divisor 0 gives all ones and a remainder of the dividend (04/R124). -/
def divS (a b : Word) : Word := if b = 0 then BitVec.allOnes 32 else BitVec.ofInt 32 (a.toInt.tdiv b.toInt)
@[inherit_doc divS] def divU (a b : Word) : Word := if b = 0 then BitVec.allOnes 32 else BitVec.ofNat 32 (a.toNat / b.toNat)
@[inherit_doc divS] def remS (a b : Word) : Word := if b = 0 then a else BitVec.ofInt 32 (a.toInt.tmod b.toInt)
@[inherit_doc divS] def remU (a b : Word) : Word := if b = 0 then a else BitVec.ofNat 32 (a.toNat % b.toNat)

/-- The shift count sb[4:0] (04/R123). -/
def shamt (b : Word) : Nat := b.toNat % 32
/-- The shift count sb[5:0] of a pair (04/R129). -/
def shamtD (b : Word) : Nat := b.toNat % 64

/-- Minima and maxima (04/R123). -/
def minS (a b : Word) : Word := if a.toInt ≤ b.toInt then a else b
@[inherit_doc minS] def maxS (a b : Word) : Word := if a.toInt ≤ b.toInt then b else a
@[inherit_doc minS] def minU (a b : Word) : Word := if a.toNat ≤ b.toNat then a else b
@[inherit_doc minS] def maxU (a b : Word) : Word := if a.toNat ≤ b.toNat then b else a

/-- The offset and width of a bit field; width 0 means 32 (04/R125). -/
def bfOffset (b : Word) : Nat := b.toNat % 32
@[inherit_doc bfOffset] def bfWidth (b : Word) : Nat := if b.toNat / 256 % 32 = 0 then 32 else b.toNat / 256 % 32
/-- The mask of a field, cut at bit 31 (04/R125). -/
def bfMask (off w : Nat) : Word := BitVec.ofNat 32 ((2 ^ w - 1) * 2 ^ off)
/-- SBFE and SBFI (04/R125). -/
def bfExtract (a : Word) (off w : Nat) : Word := BitVec.ofNat 32 (a.toNat / 2 ^ off % 2 ^ w)
@[inherit_doc bfExtract] def bfInsert (d a : Word) (off w : Nat) : Word :=
  (d &&& ~~~(bfMask off w)) ||| ((a <<< off) &&& bfMask off w)

/-- One bits, leading zeros, trailing zeros, bit reversal (04/R126). -/
def popCount (a : Word) : Word := BitVec.ofNat 32 ((List.range 32).countP fun i => a.getLsbD i)
@[inherit_doc popCount] def leadingZeros (a : Word) : Word := BitVec.ofNat 32 (32 - bitLen a.toNat)
@[inherit_doc popCount] def trailingZeros (a : Word) : Word :=
  BitVec.ofNat 32 (((List.range 32).find? fun i => a.getLsbD i).getD 32)
@[inherit_doc popCount] def bitReverse (a : Word) : Word := a.reverse

/-- The condition codes on signed, unsigned and signed 64-bit values (04/R127, R129). -/
def condS {n : Nat} (c : BitVec 3) (a b : BitVec n) : Bool := condHolds c.toNat (compare a.toInt b.toInt)
@[inherit_doc condS] def condU (c : BitVec 3) (a b : Word) : Bool := condHolds c.toNat (compare a.toNat b.toNat)

/-- SADD: sa + sb (04/R123). -/
def execSadd (sd sa sb : SReg) (s : State) : Out := alu (.sadd sd sa sb) (· + ·) sd sa (·.sreg sb) s
@[inherit_doc execSadd] def execSaddLiteral (sd sa : SReg) (lit : DWord) (s : State) : Out :=
  alu (.saddLiteral sd sa lit) (· + ·) sd sa (fun _ => litLow lit) s

/-- SSUB: sa - sb (04/R123). -/
def execSsub (sd sa sb : SReg) (s : State) : Out := alu (.ssub sd sa sb) (· - ·) sd sa (·.sreg sb) s
@[inherit_doc execSsub] def execSsubLiteral (sd sa : SReg) (lit : DWord) (s : State) : Out :=
  alu (.ssubLiteral sd sa lit) (· - ·) sd sa (fun _ => litLow lit) s

/-- SMUL: the low word of sa * sb (04/R123). -/
def execSmul (sd sa sb : SReg) (s : State) : Out := alu (.smul sd sa sb) (· * ·) sd sa (·.sreg sb) s
@[inherit_doc execSmul] def execSmulLiteral (sd sa : SReg) (lit : DWord) (s : State) : Out :=
  alu (.smulLiteral sd sa lit) (· * ·) sd sa (fun _ => litLow lit) s

/-- SMULHI: the high word of the signed product (04/R123). -/
def execSmulhi (sd sa sb : SReg) (s : State) : Out := alu (.smulhi sd sa sb) mulHigh sd sa (·.sreg sb) s
@[inherit_doc execSmulhi] def execSmulhiLiteral (sd sa : SReg) (lit : DWord) (s : State) : Out :=
  alu (.smulhiLiteral sd sa lit) mulHigh sd sa (fun _ => litLow lit) s

/-- SMULHU: the high word of the unsigned product (04/R123). -/
def execSmulhu (sd sa sb : SReg) (s : State) : Out := alu (.smulhu sd sa sb) mulHighU sd sa (·.sreg sb) s
@[inherit_doc execSmulhu] def execSmulhuLiteral (sd sa : SReg) (lit : DWord) (s : State) : Out :=
  alu (.smulhuLiteral sd sa lit) mulHighU sd sa (fun _ => litLow lit) s

/-- SDIV: the signed quotient (04/R124). -/
def execSdiv (sd sa sb : SReg) (s : State) : Out := alu (.sdiv sd sa sb) divS sd sa (·.sreg sb) s
@[inherit_doc execSdiv] def execSdivLiteral (sd sa : SReg) (lit : DWord) (s : State) : Out :=
  alu (.sdivLiteral sd sa lit) divS sd sa (fun _ => litLow lit) s

/-- SDIVU: the unsigned quotient (04/R124). -/
def execSdivu (sd sa sb : SReg) (s : State) : Out := alu (.sdivu sd sa sb) divU sd sa (·.sreg sb) s
@[inherit_doc execSdivu] def execSdivuLiteral (sd sa : SReg) (lit : DWord) (s : State) : Out :=
  alu (.sdivuLiteral sd sa lit) divU sd sa (fun _ => litLow lit) s

/-- SREM: the signed remainder (04/R124). -/
def execSrem (sd sa sb : SReg) (s : State) : Out := alu (.srem sd sa sb) remS sd sa (·.sreg sb) s
@[inherit_doc execSrem] def execSremLiteral (sd sa : SReg) (lit : DWord) (s : State) : Out :=
  alu (.sremLiteral sd sa lit) remS sd sa (fun _ => litLow lit) s

/-- SREMU: the unsigned remainder (04/R124). -/
def execSremu (sd sa sb : SReg) (s : State) : Out := alu (.sremu sd sa sb) remU sd sa (·.sreg sb) s
@[inherit_doc execSremu] def execSremuLiteral (sd sa : SReg) (lit : DWord) (s : State) : Out :=
  alu (.sremuLiteral sd sa lit) remU sd sa (fun _ => litLow lit) s

/-- SAND: AND (04/R123). -/
def execSand (sd sa sb : SReg) (s : State) : Out := alu (.sand sd sa sb) (· &&& ·) sd sa (·.sreg sb) s
@[inherit_doc execSand] def execSandLiteral (sd sa : SReg) (lit : DWord) (s : State) : Out :=
  alu (.sandLiteral sd sa lit) (· &&& ·) sd sa (fun _ => litLow lit) s

/-- SOR: OR (04/R123). -/
def execSor (sd sa sb : SReg) (s : State) : Out := alu (.sor sd sa sb) (· ||| ·) sd sa (·.sreg sb) s
@[inherit_doc execSor] def execSorLiteral (sd sa : SReg) (lit : DWord) (s : State) : Out :=
  alu (.sorLiteral sd sa lit) (· ||| ·) sd sa (fun _ => litLow lit) s

/-- SXOR: XOR (04/R123). -/
def execSxor (sd sa sb : SReg) (s : State) : Out := alu (.sxor sd sa sb) (· ^^^ ·) sd sa (·.sreg sb) s
@[inherit_doc execSxor] def execSxorLiteral (sd sa : SReg) (lit : DWord) (s : State) : Out :=
  alu (.sxorLiteral sd sa lit) (· ^^^ ·) sd sa (fun _ => litLow lit) s

/-- SANDN: sa AND NOT sb (04/R123). -/
def execSandn (sd sa sb : SReg) (s : State) : Out := alu (.sandn sd sa sb) (fun a b => a &&& ~~~b) sd sa (·.sreg sb) s
@[inherit_doc execSandn] def execSandnLiteral (sd sa : SReg) (lit : DWord) (s : State) : Out :=
  alu (.sandnLiteral sd sa lit) (fun a b => a &&& ~~~b) sd sa (fun _ => litLow lit) s

/-- SSHL: shift left (04/R123). -/
def execSshl (sd sa sb : SReg) (s : State) : Out := alu (.sshl sd sa sb) (fun a b => a <<< shamt b) sd sa (·.sreg sb) s
@[inherit_doc execSshl] def execSshlLiteral (sd sa : SReg) (lit : DWord) (s : State) : Out :=
  alu (.sshlLiteral sd sa lit) (fun a b => a <<< shamt b) sd sa (fun _ => litLow lit) s

/-- SSHR: shift right, zeros in (04/R123). -/
def execSshr (sd sa sb : SReg) (s : State) : Out := alu (.sshr sd sa sb) (fun a b => a >>> shamt b) sd sa (·.sreg sb) s
@[inherit_doc execSshr] def execSshrLiteral (sd sa : SReg) (lit : DWord) (s : State) : Out :=
  alu (.sshrLiteral sd sa lit) (fun a b => a >>> shamt b) sd sa (fun _ => litLow lit) s

/-- SSAR: shift right, sign in (04/R123). -/
def execSsar (sd sa sb : SReg) (s : State) : Out := alu (.ssar sd sa sb) (fun a b => a.sshiftRight (shamt b)) sd sa (·.sreg sb) s
@[inherit_doc execSsar] def execSsarLiteral (sd sa : SReg) (lit : DWord) (s : State) : Out :=
  alu (.ssarLiteral sd sa lit) (fun a b => a.sshiftRight (shamt b)) sd sa (fun _ => litLow lit) s

/-- SROL: rotate left (04/R123). -/
def execSrol (sd sa sb : SReg) (s : State) : Out := alu (.srol sd sa sb) (fun a b => a.rotateLeft (shamt b)) sd sa (·.sreg sb) s
@[inherit_doc execSrol] def execSrolLiteral (sd sa : SReg) (lit : DWord) (s : State) : Out :=
  alu (.srolLiteral sd sa lit) (fun a b => a.rotateLeft (shamt b)) sd sa (fun _ => litLow lit) s

/-- SMIN: signed minimum (04/R123). -/
def execSmin (sd sa sb : SReg) (s : State) : Out := alu (.smin sd sa sb) minS sd sa (·.sreg sb) s
@[inherit_doc execSmin] def execSminLiteral (sd sa : SReg) (lit : DWord) (s : State) : Out :=
  alu (.sminLiteral sd sa lit) minS sd sa (fun _ => litLow lit) s

/-- SMAX: signed maximum (04/R123). -/
def execSmax (sd sa sb : SReg) (s : State) : Out := alu (.smax sd sa sb) maxS sd sa (·.sreg sb) s
@[inherit_doc execSmax] def execSmaxLiteral (sd sa : SReg) (lit : DWord) (s : State) : Out :=
  alu (.smaxLiteral sd sa lit) maxS sd sa (fun _ => litLow lit) s

/-- SMINU: unsigned minimum (04/R123). -/
def execSminu (sd sa sb : SReg) (s : State) : Out := alu (.sminu sd sa sb) minU sd sa (·.sreg sb) s
@[inherit_doc execSminu] def execSminuLiteral (sd sa : SReg) (lit : DWord) (s : State) : Out :=
  alu (.sminuLiteral sd sa lit) minU sd sa (fun _ => litLow lit) s

/-- SMAXU: unsigned maximum (04/R123). -/
def execSmaxu (sd sa sb : SReg) (s : State) : Out := alu (.smaxu sd sa sb) maxU sd sa (·.sreg sb) s
@[inherit_doc execSmaxu] def execSmaxuLiteral (sd sa : SReg) (lit : DWord) (s : State) : Out :=
  alu (.smaxuLiteral sd sa lit) maxU sd sa (fun _ => litLow lit) s

/-- SBFE: the field of sa (04/R125). -/
def execSbfe (sd sa sb : SReg) (s : State) : Out := alu (.sbfe sd sa sb) (fun a b => bfExtract a (bfOffset b) (bfWidth b)) sd sa (·.sreg sb) s
@[inherit_doc execSbfe] def execSbfeLiteral (sd sa : SReg) (lit : DWord) (s : State) : Out :=
  alu (.sbfeLiteral sd sa lit) (fun a b => bfExtract a (bfOffset b) (bfWidth b)) sd sa (fun _ => litLow lit) s

/-- sa + b + SCC with the carry out of bit 31 (04/R123). -/
def addCarry (i : Instr) (sd sa : SReg) (b : State → Word) (s : State) : Out :=
  simple i (fun s =>
    let x := (s.sreg sa).toNat + (b s).toNat + s.scc.toNat
    (s.setS sd (BitVec.ofNat 32 x)).setScc (decide (2 ^ 32 ≤ x))) s

/-- SADDC: sa + sb + SCC, then SCC := carry out (04/R123). -/
def execSaddc (sd sa sb : SReg) (s : State) : Out := addCarry (.saddc sd sa sb) sd sa (·.sreg sb) s
@[inherit_doc execSaddc] def execSaddcLiteral (sd sa : SReg) (lit : DWord) (s : State) : Out :=
  addCarry (.saddcLiteral sd sa lit) sd sa (fun _ => litLow lit) s

/-- sd with a field of sa inserted (04/R125). -/
def insertField (i : Instr) (sd sa : SReg) (b : State → Word) (s : State) : Out :=
  simple i (fun s => s.setS sd (bfInsert (s.sreg sd) (s.sreg sa) (bfOffset (b s)) (bfWidth (b s)))) s

/-- SBFI (04/R125). -/
def execSbfi (sd sa sb : SReg) (s : State) : Out := insertField (.sbfi sd sa sb) sd sa (·.sreg sb) s
@[inherit_doc execSbfi] def execSbfiLiteral (sd sa : SReg) (lit : DWord) (s : State) : Out :=
  insertField (.sbfiLiteral sd sa lit) sd sa (fun _ => litLow lit) s

/-- SCMP: SCC := the signed comparison under the condition (04/R127). -/
def execScmp (c : BitVec 3) (sa sb : SReg) (s : State) : Out := compareS (.scmp c sa sb) (condS c) sa (·.sreg sb) s
@[inherit_doc execScmp] def execScmpLiteral (c : BitVec 3) (sa : SReg) (lit : DWord) (s : State) : Out :=
  compareS (.scmpLiteral c sa lit) (condS c) sa (fun _ => litLow lit) s

/-- SCMPN: SCC := the unsigned comparison under the condition (04/R127). -/
def execScmpn (c : BitVec 3) (sa sb : SReg) (s : State) : Out := compareS (.scmpn c sa sb) (condU c) sa (·.sreg sb) s
@[inherit_doc execScmpn] def execScmpnLiteral (c : BitVec 3) (sa : SReg) (lit : DWord) (s : State) : Out :=
  compareS (.scmpnLiteral c sa lit) (condU c) sa (fun _ => litLow lit) s

/-- sa when SCC = 1, else b (04/R127). -/
def select (i : Instr) (sd sa : SReg) (b : State → Word) (s : State) : Out :=
  simple i (fun s => s.setS sd (if s.scc then s.sreg sa else b s)) s

/-- SSEL (04/R127). -/
def execSsel (sd sa sb : SReg) (s : State) : Out := select (.ssel sd sa sb) sd sa (·.sreg sb) s
@[inherit_doc execSsel] def execSselLiteral (sd sa : SReg) (lit : DWord) (s : State) : Out :=
  select (.sselLiteral sd sa lit) sd sa (fun _ => litLow lit) s

/-- SMOV (04/R128). -/
def execSmov (sd sa : SReg) (s : State) : Out := simple (.smov sd sa) (fun s => s.setS sd (s.sreg sa)) s
/-- SLI: the sign-extended immediate (04/R128). -/
def execSli (sd : SReg) (imm : BitVec 9) (s : State) : Out := simple (.sli sd imm) (fun s => s.setS sd (simm9 imm)) s
/-- SLI with a literal: its low 32 bits (04/R128). -/
def execSliLiteral (sd : SReg) (lit : DWord) (s : State) : Out :=
  simple (.sliLiteral sd lit) (fun s => s.setS sd (litLow lit)) s
/-- SLID: the whole literal to a pair (04/R128). -/
def execSlid (sd : SReg) (lit : DWord) (s : State) : Out := simple (.slid sd lit) (fun s => s.setPair sd lit) s
/-- SADDI (04/R128). -/
def execSaddi (sd sa : SReg) (imm : BitVec 9) (s : State) : Out :=
  simple (.saddi sd sa imm) (fun s => s.setS sd (s.sreg sa + simm9 imm)) s

/-- SPOP (04/R126). -/
def execSpop (sd sa : SReg) (s : State) : Out := simple (.spop sd sa) (fun s => s.setS sd (popCount (s.sreg sa))) s
/-- SCLZ (04/R126). -/
def execSclz (sd sa : SReg) (s : State) : Out := simple (.sclz sd sa) (fun s => s.setS sd (leadingZeros (s.sreg sa))) s
/-- SCTZ (04/R126). -/
def execSctz (sd sa : SReg) (s : State) : Out := simple (.sctz sd sa) (fun s => s.setS sd (trailingZeros (s.sreg sa))) s
/-- SBREV (04/R126). -/
def execSbrev (sd sa : SReg) (s : State) : Out := simple (.sbrev sd sa) (fun s => s.setS sd (bitReverse (s.sreg sa))) s

/-- SADDD (04/R129). -/
def execSaddd (sd sa sb : SReg) (s : State) : Out := aluPair (.saddd sd sa sb) (· + ·) sd sa (·.spair sb) s
@[inherit_doc execSaddd] def execSadddLiteral (sd sa : SReg) (lit : DWord) (s : State) : Out :=
  aluPair (.sadddLiteral sd sa lit) (· + ·) sd sa (fun _ => lit) s

/-- SSUBD (04/R129). -/
def execSsubd (sd sa sb : SReg) (s : State) : Out := aluPair (.ssubd sd sa sb) (· - ·) sd sa (·.spair sb) s
@[inherit_doc execSsubd] def execSsubdLiteral (sd sa : SReg) (lit : DWord) (s : State) : Out :=
  aluPair (.ssubdLiteral sd sa lit) (· - ·) sd sa (fun _ => lit) s

/-- SMULD (04/R129). -/
def execSmuld (sd sa sb : SReg) (s : State) : Out := aluPair (.smuld sd sa sb) (· * ·) sd sa (·.spair sb) s
@[inherit_doc execSmuld] def execSmuldLiteral (sd sa : SReg) (lit : DWord) (s : State) : Out :=
  aluPair (.smuldLiteral sd sa lit) (· * ·) sd sa (fun _ => lit) s

/-- SSHLD: the count is sb[5:0] (04/R129). -/
def execSshld (sd sa sb : SReg) (s : State) : Out := aluPair (.sshld sd sa sb) (fun a b => a <<< shamtD b) sd sa (·.sreg sb) s
@[inherit_doc execSshld] def execSshldLiteral (sd sa : SReg) (lit : DWord) (s : State) : Out :=
  aluPair (.sshldLiteral sd sa lit) (fun a b => a <<< shamtD b) sd sa (fun _ => litLow lit) s

/-- SSHRD: the count is sb[5:0] (04/R129). -/
def execSshrd (sd sa sb : SReg) (s : State) : Out := aluPair (.sshrd sd sa sb) (fun a b => a >>> shamtD b) sd sa (·.sreg sb) s
@[inherit_doc execSshrd] def execSshrdLiteral (sd sa : SReg) (lit : DWord) (s : State) : Out :=
  aluPair (.sshrdLiteral sd sa lit) (fun a b => a >>> shamtD b) sd sa (fun _ => litLow lit) s

/-- SCMPD: SCC := the signed 64-bit comparison (04/R129). -/
def execScmpd (c : BitVec 3) (sa sb : SReg) (s : State) : Out :=
  simple (.scmpd c sa sb) (fun s => s.setScc (condS c (s.spair sa) (s.spair sb))) s
@[inherit_doc execScmpd] def execScmpdLiteral (c : BitVec 3) (sa : SReg) (lit : DWord) (s : State) : Out :=
  simple (.scmpdLiteral c sa lit) (fun s => s.setScc (condS c (s.spair sa) lit)) s

end Sys2Proof.Machine
end

