-- ==== Sys2Proof/Machine/Control.lean ====
section
/-! DEFINITION. Mask instructions, branches, calls with the window slide, NOP, YIELD, WEND, FBAR, SRD, SWR, TRAP, BRK and
TRET (04/R130 to R152, R451, 08/R253). -/

namespace Sys2Proof.Machine

/-! ### Mask instructions (04/R130, R131) -/

/-- Whether a mask has a lane. -/
def anyLane (m : Vector Word 3) : Bool := m[0] != 0 || m[1] != 0 || m[2] != 0

/-- MAND, MANDN: the old EXEC is saved first, then EXEC := f E C and SCC tells whether a lane is left. -/
def narrow (i : Instr) (f : Word → Word → Word) (sd : SReg) (s : State) : Out :=
  simple i (fun s =>
    let e := mask2 f s.exec3 s.cmask3
    ((s.setTriple sd s.exec3).setTriple rEXEC e).setScc (anyLane e)) s

/-- MAND (04/R130). -/
def execMand (sd : SReg) (s : State) : Out := narrow (.mand sd) (· &&& ·) sd s
/-- MANDN (04/R130). -/
def execMandn (sd : SReg) (s : State) : Out := narrow (.mandn sd) (fun e c => e &&& ~~~c) sd s
/-- MELSE: EXEC := the saved mask AND NOT EXEC (04/R130). -/
def execMelse (sa : SReg) (s : State) : Out :=
  simple (.melse sa) (fun s =>
    let e := mask2 (fun a e => a &&& ~~~e) (s.triple sa) s.exec3
    (s.setTriple rEXEC e).setScc (anyLane e)) s
/-- MREST: EXEC := the saved mask (04/R130). -/
def execMrest (sa : SReg) (s : State) : Out := simple (.mrest sa) (fun s => s.setTriple rEXEC (s.triple sa)) s
/-- The lanes set in EXEC AND CMASK. -/
def State.passing (s : State) : List Nat := maskLanes (mask2 (· &&& ·) s.exec3 s.cmask3)
/-- MCNT (04/R130). -/
def execMcnt (sd : SReg) (s : State) : Out :=
  simple (.mcnt sd) (fun s =>
    let n := s.passing.length
    (s.setS sd (BitVec.ofNat 32 n)).setScc (n != 0)) s
/-- MFIRST (04/R130). -/
def execMfirst (sd : SReg) (s : State) : Out :=
  simple (.mfirst sd) (fun s =>
    let n := s.passing.head?.getD 96
    (s.setS sd (BitVec.ofNat 32 n)).setScc (n != 96)) s
/-- MCMC: CMASK := E AND NOT C (04/R130). -/
def execMcmc (s : State) : Out :=
  simple .mcmc (fun s => s.setTriple rCMASK (mask2 (fun e c => e &&& ~~~c) s.exec3 s.cmask3)) s
/-- MSETALL (04/R130). -/
def execMsetall (s : State) : Out :=
  simple .msetall (fun s => s.setTriple rEXEC (Vector.replicate 3 (BitVec.allOnes 32))) s

/-! ### Branches (04/R132, R133) -/

/-- The target of a displacement in words. -/
def State.target {n : Nat} (s : State) (disp : BitVec n) : DWord := s.w.pc + (disp.signExtend 64) * 4

/-- A branch: taken to its target, else the next instruction. -/
def branch {n : Nat} (i : Instr) (taken : State → Bool) (disp : BitVec n) (s : State) : Out :=
  if i.wellFormed then
    if taken s then .next (s.transfer (s.target disp) id) else .next ((s.claim .spipe []).retire i.size)
  else .next (s.illop false)

/-- BR. -/
def execBr (disp : BitVec 21) (s : State) : Out := branch (.br disp) (fun _ => true) disp s
/-- BSC. -/
def execBsc (disp : BitVec 21) (s : State) : Out := branch (.bsc disp) (·.scc) disp s
/-- BSNC. -/
def execBsnc (disp : BitVec 21) (s : State) : Out := branch (.bsnc disp) (!·.scc) disp s
/-- BEZ. -/
def execBez (sa : SReg) (disp : BitVec 15) (s : State) : Out := branch (.bez sa disp) (fun s => s.sreg sa == 0) disp s
/-- BNZ. -/
def execBnz (sa : SReg) (disp : BitVec 15) (s : State) : Out := branch (.bnz sa disp) (fun s => s.sreg sa != 0) disp s
/-- BEXZ. -/
def execBexz (disp : BitVec 21) (s : State) : Out := branch (.bexz disp) (fun s => !anyLane s.exec3) disp s
/-- BEXNZ. -/
def execBexnz (disp : BitVec 21) (s : State) : Out := branch (.bexnz disp) (fun s => anyLane s.exec3) disp s
/-- BCMZ. -/
def execBcmz (disp : BitVec 21) (s : State) : Out := branch (.bcmz disp) (fun s => !anyLane s.cmask3) disp s
/-- BCMNZ. -/
def execBcmnz (disp : BitVec 21) (s : State) : Out := branch (.bcmnz disp) (fun s => anyLane s.cmask3) disp s

/-- JMPR: PC := the pair (04/R133). -/
def execJmpr (sa : SReg) (s : State) : Out :=
  if (Instr.jmpr sa).wellFormed then .next (s.transfer (s.spair sa) id) else .next (s.illop false)

/-! ### Calls (04/R134 to R138, R451) -/

/-- The size of a spill frame (04/R134). -/
def frameSize (f : Nat) : Nat := 384 * f + 64 * ceilDiv f 32

/-- The tag of a register as a 16-bit frame word (02/R55, 04/R134). -/
def VReg.tagWord (r : VReg) : Nat := r.fmt.code * 16 + r.bnd.toNat
/-- The tag a frame word gives; one that no register may carry is B32 with bound index 0 (04/R137). -/
def tagOfWord (x : Nat) : Fmt × BitVec 4 :=
  match Fmt.ofCode (x / 16) with
  | some f => (f, BitVec.ofNat 4 x)
  | none => (.b32, 0)

/-- The rotation of the window. -/
def State.setRot (s : State) (r : Nat) : State := { s with w := { s.w with rot := r } }

/-- The first F registers await their spill to the frame at `sp` and lose their tags (04/R135). -/
def State.awaitSpills (s : State) (f : Nat) (sp : DWord) : State :=
  (List.range f).foldl (init := s) fun s k =>
    s.setVreg k { s.vreg k with pend := true, paddr := sp + BitVec.ofNat 64 (384 * k), fmt := .b32, bnd := 0 }

/-- The tag word of register k in a frame at `sp`, then its earlier spill (04/R135). -/
def frameTag (sp : DWord) (f k : Nat) : Act PUnit := do
  stackStore (sp + BitVec.ofNat 64 (384 * f + 2 * k)) (leBytes 2 ((← get).vreg k).tagWord)
  spill k

/-- CALL and CALLR: checks, the frame's tags and earlier spills register by register, then the slide (04/R135). The new SP wraps
modulo 2^64 when SP is below the frame's size (log 65). -/
def slideIn (i : Instr) (f : Nat) (tgt : State → DWord) : Act PUnit := whole do
  let s ← get
  if s.w.valloc ≤ f then raiseTrap .illop
  let t := tgt s
  if t.extractLsb' 0 2 ≠ 0#2 then raiseTrap .align 0 t
  let sp := s.spair rSP
  if sp.extractLsb' 0 6 ≠ 0#6 then raiseTrap .align 0 sp
  let newsp := sp - BitVec.ofNat 64 (frameSize f)
  if newsp < s.w.slimit then raiseTrap .stack 0 newsp
  (List.range f).forM (frameTag newsp f)
  modify fun s =>
    (((s.awaitSpills f newsp).setPair rLK (s.w.pc + BitVec.ofNat 64 i.size)).setPair rSP newsp).setRot ((s.w.rot + f) % s.w.valloc)

/-- A call: the slide, then the transfer. -/
def callTo (i : Instr) (f : Nat) (tgt : State → DWord) (s : State) : Out :=
  if i.wellFormed then
    match slideIn i f tgt s with
    | .ok (_, t) => .next ((t.claim .spipe []).retireTo (tgt s))
    | .error (h, t) => .next (t.halted h)
  else .next (s.illop false)

/-- CALL (04/R135). -/
def execCall (la : BitVec 4) (f : BitVec 8) (disp : Word) (s : State) : Out :=
  callTo (.call la f disp) f.toNat (fun s => s.target disp) s
/-- CALLR (04/R135). -/
def execCallr (sa : SReg) (imm : BitVec 9) (s : State) : Out :=
  callTo (.callr sa imm) (8 * imm.toNat) (fun s => s.spair sa) s

/-- One register of RET: its tag from the frame; its lanes too when no spill is pending (04/R136). -/
def refill (sp : DWord) (f k : Nat) : Act PUnit := do
  let tag ← stackLoad (sp + BitVec.ofNat 64 (384 * f + 2 * k)) 2
  let (fm, b) := tagOfWord (ofLE tag)
  let s ← get
  if (s.vreg k).pend then set (s.setVreg k { s.vreg k with pend := false, fmt := fm, bnd := b })
  else
    let bs ← stackLoad (sp + BitVec.ofNat 64 (384 * k)) 384
    modify fun s => s.setVreg k { s.vreg k with lanes := lanesOfBytes bs, fmt := fm, bnd := b }

/-- The stack cache without the bytes of a frame. -/
def State.dropFrame (s : State) (sp : DWord) (n : Nat) : State :=
  { s with w := { s.w with stk := s.w.stk.filter fun o => !(decide (sp.toNat ≤ o.va) && decide (o.va < sp.toNat + n)) } }

/-- RET: the window slides back, the F registers regain tags and lanes, SP rises (04/R136). -/
def slideOut (f : Nat) : Act PUnit := whole do
  let s ← get
  if s.w.valloc ≤ f then raiseTrap .illop
  let t := s.spair rLK
  if t.extractLsb' 0 2 ≠ 0#2 then raiseTrap .align 0 t
  let sp := s.spair rSP
  set (s.setRot ((s.w.rot + s.w.valloc - f) % s.w.valloc))
  (List.range f).forM (refill sp f)
  modify fun s => (s.setPair rSP (sp + BitVec.ofNat 64 (frameSize f))).dropFrame sp (frameSize f)

/-- RET (04/R136). -/
def execRet (imm : BitVec 9) (s : State) : Out :=
  if (Instr.ret imm).wellFormed then
    match slideOut (8 * imm.toNat) s with
    | .ok (_, t) => .next ((t.claim .spipe []).retireTo (s.spair rLK))
    | .error (h, t) => .next (t.halted h)
  else .next (s.illop false)

/-! ### NOP, YIELD, WEND, FBAR (04/R139, R140, 08/R253) -/

/-- NOP. -/
def execNop (s : State) : Out := simple .nop id s

/-- The other Ready waves of the scheduler, each with how often it has issued or left Ready (04/R139). -/
def State.yieldSet (s : State) : List (WaveKey × Nat) :=
  (s.waves.filter fun w => w.core = s.w.core && w.sched = s.w.sched && s.isReady w && !w.saved).map fun w => (w.key, w.issues + w.left)

/-- YIELD: retires; the wave then issues nothing until YIELD_RESUME (04/R139). -/
def execYield (s : State) : Out :=
  let t := (s.claim .spipe []).retire 4
  let set := s.yieldSet
  .next (if set = [] then t else { t with w := { t.w with life := .waiting (.yield s.co.cycle set), waitFrom := s.co.cycle } })

/-- WEND: Commit(B), then the wave ends (04/R140). -/
def execWend (s : State) : Out :=
  run .wend .scalar (do
    commitTo 1
    modify fun s => s.endWave false) s

/-- FBAR: what the wave has fetched ahead is discarded (08/R253). -/
def execFbar (s : State) : Out := simple .fbar (fun s => { s with w := { s.w with fetched := [], decoded := [] } }) s

/-! ### State registers (04/R141 to R145) -/

/-- The value of a state register: 32 or 64 bits. -/
inductive SrVal where
  | word (x : Word)
  | dword (x : DWord)
  deriving DecidableEq, Repr

/-- The state register at an index, none where the table assigns none (04/R142). -/
def State.readSr (s : State) (i : Nat) : Option SrVal :=
  let n (x : Nat) : Option SrVal := some (.word (BitVec.ofNat 32 x))
  match i with
  | 0x00 => n s.w.key.wid
  | 0x01 => n s.w.gx
  | 0x02 => n s.w.gy
  | 0x03 => n s.w.gz
  | 0x04 => n s.w.key.blk
  | 0x05 => n s.w.stage
  | 0x06 => n s.w.wbase
  | 0x07 => n s.w.valloc
  | 0x08 => some (.dword s.w.slimit)
  | 0x09 => some (.word s.w.status)
  | 0x0A => some (.word s.w.bndst)
  | 0x0B => some (.word s.w.abtn)
  | 0x0C => some (.word s.levelst)
  | 0x0D => some (.word s.bounds.bndact)
  | 0x0E => some (.word s.bounds.bndfmt)
  | 0x10 => some (.word s.w.tcause)
  | 0x11 => some (.dword s.w.tpc)
  | 0x12 => some (.dword s.w.taddr)
  | 0x13 => some (.word s.w.tmask[0])
  | 0x14 => some (.word s.w.tmask[1])
  | 0x15 => some (.word s.w.tmask[2])
  | 0x16 => some (.dword s.w.tvec)
  | 0x20 => some (.dword (BitVec.ofNat 64 s.co.cycle))
  | 0x21 => some (.dword s.w.seqno)
  | 0x30 => if s.w.status.getLsbD 3 then some (.word s.w.errinj) else none
  | k =>
    if 0x40 ≤ k ∧ k < 0x60 then
      let b : BitVec 4 := BitVec.ofNat 4 ((k - 0x40) / 2)
      some (.word (if b = 0 then 0 else if k % 2 = 0 then pick s.bounds.bdlo b else pick s.bounds.bdhi b))
    else none

/-- SRD whose value the checker obtains itself: CYCLE, SEQNO, ABTN, LEVELST (01/R36). -/
def srdClaim (i : Nat) : Claim := if i = 0x0B ∨ i = 0x0C ∨ i = 0x20 ∨ i = 0x21 then .scalar else .spipe

/-- SRD (04/R141). -/
def execSrd (sd : SReg) (imm : BitVec 9) (s : State) : Out :=
  run (.srd sd imm) (srdClaim imm.toNat) (do
    match (← get).readSr imm.toNat with
    | none => raiseTrap .illop
    | some (.word x) => modify fun s => s.setS sd x
    | some (.dword x) => if evenReg sd then modify fun s => s.setPair sd x else raiseTrap .illop) s

/-- Bits of a register that a write sets. -/
def masked (old new mask : Word) : Word := (old &&& ~~~mask) ||| (new &&& mask)

/-- ERRINJ takes a write unless its TARGET is reserved or its WHERE can name nothing; ARM is set by a 1 and kept by a 0
(04/R145, 00/R19). -/
def State.writeErrinj (s : State) (x : Word) : State :=
  let w := injWhere x
  let bad := match injTarget x with
    | 0 | 2 | 5 => decide (96 ≤ w)
    | 3 => decide (96 * 64 ≤ w)
    | 1 => w != 0
    | 4 => false
    | _ => true
  if bad then s
  else { s with w := { s.w with errinj := (x &&& 0x7FFFFF1F#32) ||| ((s.w.errinj ||| x) &&& 0x80000000#32), injCount := 0 } }

/-- A write of a 32-bit state register; none where SWR is ILLOP (04/R141, R142). -/
def State.writeSr (s : State) (i : Nat) (x : Word) : Option State :=
  match i with
  | 0x09 => some (s.setStatus (masked s.w.status x 0x7F01#32))
  | 0x0A => some { s with w := { s.w with bndst := x &&& 0xFFFE#32 } }
  | 0x0B => some { s with w := { s.w with abtn := s.w.abtn &&& ~~~(x &&& 6#32) } }
  | 0x0D => some ((s.setCx { s.cx with bndact := x &&& ~~~3#32 }).leaveOld 0x0D s.cx.bndact)
  | 0x0E => some ((s.setCx { s.cx with bndfmt := x &&& 0xFFFE#32 }).leaveOld 0x0E s.cx.bndfmt)
  | 0x30 => if s.w.status.getLsbD 3 then some ((s.claim .spipe []).writeErrinj x) else none
  | k =>
    if 0x40 ≤ k ∧ k < 0x60 then
      let b : BitVec 4 := BitVec.ofNat 4 ((k - 0x40) / 2)
      some (if b = 0 then s
        else if k % 2 = 0 then (s.setCx { s.cx with bdlo := put s.cx.bdlo b x }).leaveOld k (pick s.cx.bdlo b)
        else (s.setCx { s.cx with bdhi := put s.cx.bdhi b x }).leaveOld k (pick s.cx.bdhi b))
    else none

/-- SWR to ERRINJ is an event of the injection that stood before it, not of the one it arms (04/R145). -/
def swrClaim (i : Nat) : Claim := if i = 0x30 then .scalar else .spipe

/-- SWR: TPC in handler mode only, TVEC in every mode, both pairs; else a 32-bit register (04/R141, R142). -/
def execSwr (sa : SReg) (imm : BitVec 9) (s : State) : Out :=
  run (.swr sa imm) (swrClaim imm.toNat) (do
    let s ← get
    match imm.toNat with
    | 0x11 => if evenReg sa && s.hm then set { s with w := { s.w with tpc := s.spair sa } } else raiseTrap .illop
    | 0x16 => if evenReg sa then set { s with w := { s.w with tvec := s.spair sa } } else raiseTrap .illop
    | i => match s.writeSr i (s.sreg sa) with
      | some t => set t
      | none => raiseTrap .illop) s

/-! ### TRAP, BRK, TRET (04/R151, R152) -/

/-- A wave whose instruction retired into a trap. -/
def Wave.counted (w : Wave) : Wave := { w with seqno := w.seqno + 1 }

/-- TRAP n: retires and raises TRAPI with TPC at the next instruction (04/R151). -/
def execTrap (imm : BitVec 9) (s : State) : Out :=
  if (Instr.trap imm).wellFormed then
    let t := (s.claim .spipe []).trapEntry { cause := .trapi, arg := imm.toNat } (s.w.pc + 4)
    .next { t with w := t.w.counted }
  else .next (s.illop false)

/-- BRK: raises BRK at its own address (04/R151). -/
def execBrk (s : State) : Out := .next (s.trapEntry { cause := .brk } s.w.pc)

/-- TRET: leaves handler mode and goes on at TPC (04/R152). -/
def execTret (s : State) : Out :=
  if s.hm then .next (s.transfer s.w.tpc fun s => s.setStatus (s.w.status &&& ~~~stHM))
  else .next (s.illop false)

end Sys2Proof.Machine
end

