-- ==== Sys2Proof/Machine/Vector.lean ====
section
/-! DEFINITION. Vector numeric, compare, bit and move, conversion, dot product, reduction, lane exchange and special
functions (05/R154 to R174). -/

namespace Sys2Proof.Machine

/-! ### Numeric arithmetic (05/R158 to R160) -/

/-- The formats an operation accepts (05/R158). -/
def NumOp.accepts (o : NumOp) (f : Fmt) : Bool :=
  match f with
  | .s32 => o != .fma
  | .n32 => o != .fma && o != .abs && o != .neg
  | .f32 | .f64 | .h16x2 | .bf16x2 => o != .mad && o != .mulhi
  | .s64 => o != .fma && o != .mad && o != .mulhi
  | .e4m3x4 | .e5m2x4 => o == .min || o == .max || o == .abs || o == .neg
  | .s8x4 => o != .fma && o != .mad && o != .mulhi
  | .s4x8 => o != .mul && o != .fma && o != .mad && o != .mulhi
  | .b32 | .t8x4 | .t6x5 | .z4x8 => false

/-- A numeric instruction: tags, field rules, exact values, one write (05/R159). The order of the checks of one step is that of the model: the
ILLFMT of a format that is not accepted, that of a pair with two codes, then the ILLOP of a pair that is odd or beyond VALLOC, and of the fields
(03/R108; DEDUCED, log 77). -/
def numeric (o : NumOp) (v : VOp) : Act PUnit := do
  let s ← get
  let srcs := v.va :: ((if o.unary || v.imm.isSome then [] else [v.vb]) ++ if o.ternary then [v.vc] else [])
  window ((v.vd :: srcs).map fun n => (n, 1))
  let f := (s.vreg v.va).fmt
  if !o.accepts f || srcs.any fun n => (s.vreg n).fmt != f then vIllfmt
  let p := f.isPair
  pairTags p srcs
  pairOk p (v.vd :: srcs)
  if (v.rnd != 0#2 && !f.isFloat) || (v.sat && o.unary && f.isFloat) then vIllop
  let res := s.active.map fun l =>
    let a := f.elems (s.vval p v.va l)
    let b := if o.unary then a else f.elems (v.bval s f l)
    let c := if o.ternary then f.elems (s.vval p v.vc l) else a
    let es := (List.range f.count).map fun i =>
      o.elem f (Rnd.ofBits v.rnd) v.sat (a.getD i 0) (b.getD i 0) (c.getD i 0)
    (l, f.pack (es.map (·.1)), orFlags (es.map (·.2)))
  writeResult v.vd f (v.bnd s) p true (orFlags (res.map (·.2.2))) (res.map fun r => (r.1, r.2.1))

/-- VADD (05/R159). -/
def execVadd (vd va vb : BitVec 7) (s : State) : Out := run (.vadd vd va vb) .vpipe (numeric .add (v3Op vd va vb)) s
@[inherit_doc execVadd] def execVaddVx (x : VX) (s : State) : Out := run (.vaddVx x) .vpipe (numeric .add (vxOp x)) s

/-- VSUB (05/R159). -/
def execVsub (vd va vb : BitVec 7) (s : State) : Out := run (.vsub vd va vb) .vpipe (numeric .sub (v3Op vd va vb)) s
@[inherit_doc execVsub] def execVsubVx (x : VX) (s : State) : Out := run (.vsubVx x) .vpipe (numeric .sub (vxOp x)) s

/-- VMUL (05/R159). -/
def execVmul (vd va vb : BitVec 7) (s : State) : Out := run (.vmul vd va vb) .vpipe (numeric .mul (v3Op vd va vb)) s
@[inherit_doc execVmul] def execVmulVx (x : VX) (s : State) : Out := run (.vmulVx x) .vpipe (numeric .mul (vxOp x)) s

/-- VFMA (05/R159). -/
def execVfma (vd va vb : BitVec 7) (s : State) : Out := run (.vfma vd va vb) .vpipe (numeric .fma (v3Op vd va vb)) s
@[inherit_doc execVfma] def execVfmaVx (x : VX) (s : State) : Out := run (.vfmaVx x) .vpipe (numeric .fma (vxOp x)) s

/-- VMAD (05/R159). -/
def execVmad (vd va vb : BitVec 7) (s : State) : Out := run (.vmad vd va vb) .vpipe (numeric .mad (v3Op vd va vb)) s
@[inherit_doc execVmad] def execVmadVx (x : VX) (s : State) : Out := run (.vmadVx x) .vpipe (numeric .mad (vxOp x)) s

/-- VMULHI (05/R159). -/
def execVmulhi (vd va vb : BitVec 7) (s : State) : Out := run (.vmulhi vd va vb) .vpipe (numeric .mulhi (v3Op vd va vb)) s
@[inherit_doc execVmulhi] def execVmulhiVx (x : VX) (s : State) : Out := run (.vmulhiVx x) .vpipe (numeric .mulhi (vxOp x)) s

/-- VMIN (05/R159). -/
def execVmin (vd va vb : BitVec 7) (s : State) : Out := run (.vmin vd va vb) .vpipe (numeric .min (v3Op vd va vb)) s
@[inherit_doc execVmin] def execVminVx (x : VX) (s : State) : Out := run (.vminVx x) .vpipe (numeric .min (vxOp x)) s

/-- VMAX (05/R159). -/
def execVmax (vd va vb : BitVec 7) (s : State) : Out := run (.vmax vd va vb) .vpipe (numeric .max (v3Op vd va vb)) s
@[inherit_doc execVmax] def execVmaxVx (x : VX) (s : State) : Out := run (.vmaxVx x) .vpipe (numeric .max (vxOp x)) s

/-- VABS (05/R160). -/
def execVabs (vd va : BitVec 7) (s : State) : Out := run (.vabs vd va) .vpipe (numeric .abs (v3Op vd va 0)) s
@[inherit_doc execVabs] def execVabsVx (x : VX) (s : State) : Out := run (.vabsVx x) .vpipe (numeric .abs (vxOp x)) s

/-- VNEG (05/R160). -/
def execVneg (vd va : BitVec 7) (s : State) : Out := run (.vneg vd va) .vpipe (numeric .neg (v3Op vd va 0)) s
@[inherit_doc execVneg] def execVnegVx (x : VX) (s : State) : Out := run (.vnegVx x) .vpipe (numeric .neg (vxOp x)) s

/-! ### Compare (05/R161) -/

/-- Compare on two elements: tapered codes as signed integers, others by exact value. -/
def compareElem (c : Nat) (f : Fmt) (a b : Nat) : Bool × Flags :=
  match f.tapered with
  | some n => (condHolds c (compare (toSigned n a) (toSigned n b)), 0)
  | none =>
    let (x, fx) := f.value a
    let (y, fy) := f.value b
    let (r, fl) := compareNum c x y
    (r, fl ||| fx ||| fy)

/-- VCMP: CMASK := the active lanes whose every element satisfies the condition. -/
def vcompare (c : Nat) (v : VOp) : Act PUnit := do
  let s ← get
  let srcs := v.va :: if v.imm.isSome then [] else [v.vb]
  window (srcs.map fun n => (n, 1))
  let f := (s.vreg v.va).fmt
  if f == .b32 || f == .z4x8 || srcs.any fun n => (s.vreg n).fmt != f then vIllfmt
  pairTags f.isPair srcs
  pairOk f.isPair srcs
  let res := s.active.map fun l =>
    let a := f.elems (s.vval f.isPair v.va l)
    let b := f.elems (v.bval s f l)
    let es := (List.range f.count).map fun i => compareElem c f (a.getD i 0) (b.getD i 0)
    (l, es.all (·.1), orFlags (es.map (·.2)))
  modify fun s => (s.setTriple rCMASK (lanesMask ((res.filter (·.2.1)).map (·.1)))).raise (orFlags (res.map (·.2.2)))

/-- VCMP (05/R161); the one-word form holds the condition in the vd field. -/
def execVcmp (c va vb : BitVec 7) (s : State) : Out :=
  run (.vcmp c va vb) .vpipe (vcompare c.toNat (v3Op 0 va vb)) s
@[inherit_doc execVcmp] def execVcmpVx (x : VX) (s : State) : Out :=
  run (.vcmpVx x) .vpipe (vcompare x.f.toNat (vxOp x)) s

/-! ### Bits and moves (05/R162 to R164) -/

/-- A bit and move instruction: every format, va's tag, one lane word at a time, no flag (05/R156, R163). The whole word is written
under a T6x5 tag too, bits 31:30 with it (02/R58; log 60), and under an S4x8 tag the code 0b1000 is read and written as it stands, with no INTRES
(02/R76; DESIGN CHOICE, log 60). -/
def bitwise (v : VOp) (srcs : List Nat) (f : State → Nat → Word) : Act PUnit := do
  let s ← get
  window ((v.vd :: srcs).map fun n => (n, 1))
  let t := s.vreg v.va
  writeResult v.vd t.fmt t.bnd false true 0 (s.active.map fun l => (l, (f s l).toNat))

/-- The b word of a lane. -/
def VOp.bword (v : VOp) (s : State) (l : Nat) : Word := v.imm.getD (s.vlane v.vb l)

/-- Two-operand bit operations. -/
def bitwise2 (f : Word → Word → Word) (v : VOp) : Act PUnit :=
  bitwise v (v.va :: if v.imm.isSome then [] else [v.vb]) fun s l => f (s.vlane v.va l) (v.bword s l)
/-- One-operand bit operations. -/
def bitwise1 (f : Word → Word) (v : VOp) : Act PUnit := bitwise v [v.va] fun s l => f (s.vlane v.va l)

/-- VAND (05/R163). -/
def execVand (vd va vb : BitVec 7) (s : State) : Out := run (.vand vd va vb) .vpipe (bitwise2 (· &&& ·) (v3Op vd va vb)) s
@[inherit_doc execVand] def execVandVx (x : VX) (s : State) : Out := run (.vandVx x) .vpipe (bitwise2 (· &&& ·) (vxOp x)) s

/-- VOR (05/R163). -/
def execVor (vd va vb : BitVec 7) (s : State) : Out := run (.vor vd va vb) .vpipe (bitwise2 (· ||| ·) (v3Op vd va vb)) s
@[inherit_doc execVor] def execVorVx (x : VX) (s : State) : Out := run (.vorVx x) .vpipe (bitwise2 (· ||| ·) (vxOp x)) s

/-- VXOR (05/R163). -/
def execVxor (vd va vb : BitVec 7) (s : State) : Out := run (.vxor vd va vb) .vpipe (bitwise2 (· ^^^ ·) (v3Op vd va vb)) s
@[inherit_doc execVxor] def execVxorVx (x : VX) (s : State) : Out := run (.vxorVx x) .vpipe (bitwise2 (· ^^^ ·) (vxOp x)) s

/-- VANDN (05/R163). -/
def execVandn (vd va vb : BitVec 7) (s : State) : Out := run (.vandn vd va vb) .vpipe (bitwise2 (fun a b => a &&& ~~~b) (v3Op vd va vb)) s
@[inherit_doc execVandn] def execVandnVx (x : VX) (s : State) : Out := run (.vandnVx x) .vpipe (bitwise2 (fun a b => a &&& ~~~b) (vxOp x)) s

/-- VSHL (05/R163). -/
def execVshl (vd va vb : BitVec 7) (s : State) : Out := run (.vshl vd va vb) .vpipe (bitwise2 (fun a b => a <<< shamt b) (v3Op vd va vb)) s
@[inherit_doc execVshl] def execVshlVx (x : VX) (s : State) : Out := run (.vshlVx x) .vpipe (bitwise2 (fun a b => a <<< shamt b) (vxOp x)) s

/-- VSHR (05/R163). -/
def execVshr (vd va vb : BitVec 7) (s : State) : Out := run (.vshr vd va vb) .vpipe (bitwise2 (fun a b => a >>> shamt b) (v3Op vd va vb)) s
@[inherit_doc execVshr] def execVshrVx (x : VX) (s : State) : Out := run (.vshrVx x) .vpipe (bitwise2 (fun a b => a >>> shamt b) (vxOp x)) s

/-- VSAR (05/R163). -/
def execVsar (vd va vb : BitVec 7) (s : State) : Out := run (.vsar vd va vb) .vpipe (bitwise2 (fun a b => a.sshiftRight (shamt b)) (v3Op vd va vb)) s
@[inherit_doc execVsar] def execVsarVx (x : VX) (s : State) : Out := run (.vsarVx x) .vpipe (bitwise2 (fun a b => a.sshiftRight (shamt b)) (vxOp x)) s

/-- VMOV (05/R163). -/
def execVmov (vd va : BitVec 7) (s : State) : Out := run (.vmov vd va) .vpipe (bitwise1 id (v3Op vd va 0)) s
@[inherit_doc execVmov] def execVmovVx (x : VX) (s : State) : Out := run (.vmovVx x) .vpipe (bitwise1 id (vxOp x)) s

/-- VPOP (05/R163). -/
def execVpop (vd va : BitVec 7) (s : State) : Out := run (.vpop vd va) .vpipe (bitwise1 popCount (v3Op vd va 0)) s
@[inherit_doc execVpop] def execVpopVx (x : VX) (s : State) : Out := run (.vpopVx x) .vpipe (bitwise1 popCount (vxOp x)) s

/-- VCLZ (05/R163). -/
def execVclz (vd va : BitVec 7) (s : State) : Out := run (.vclz vd va) .vpipe (bitwise1 leadingZeros (v3Op vd va 0)) s
@[inherit_doc execVclz] def execVclzVx (x : VX) (s : State) : Out := run (.vclzVx x) .vpipe (bitwise1 leadingZeros (vxOp x)) s

/-- VSEL: va where the CMASK bit is 1, else vb (05/R162). -/
def vselect (v : VOp) : Act PUnit :=
  bitwise v [v.va, v.vb] fun s l => if maskBit s.cmask3 l then s.vlane v.va l else s.vlane v.vb l

/-- VSEL (05/R162). -/
def execVsel (vd va vb : BitVec 7) (s : State) : Out := run (.vsel vd va vb) .vpipe (vselect (v3Op vd va vb)) s
@[inherit_doc execVsel] def execVselVx (x : VX) (s : State) : Out := run (.vselVx x) .vpipe (vselect (vxOp x)) s

/-- VBFE (05/R163). -/
def execVbfe (x : VX) (s : State) : Out :=
  run (.vbfe x) .vpipe (bitwise1 (fun a => bfExtract a (bfOffset x.imm) (bfWidth x.imm)) (vxOp x)) s
/-- VBFI (05/R163). -/
def execVbfi (x : VX) (s : State) : Out :=
  run (.vbfi x) .vpipe (bitwise (vxOp x) [x.va.toNat] fun s l =>
    bfInsert (s.vlane x.vd.toNat l) (s.vlane x.va.toNat l) (bfOffset x.imm) (bfWidth x.imm)) s

/-- Lanes written under vd's own tag, which is kept (05/R164, R173). -/
def keepTag (vd : Nat) (vals : LaneVals) : Act PUnit := do
  let s ← get
  let t := s.vreg vd
  writeResult vd t.fmt t.bnd false false 0 vals

/-- VMOVS (05/R164). -/
def execVmovs (vd : BitVec 7) (sb : SReg) (s : State) : Out :=
  run (.vmovs vd sb) .vpipe (do
    window [(vd.toNat, 1)]
    keepTag vd.toNat (s.active.map fun l => (l, (s.sreg sb).toNat))) s
@[inherit_doc execVmovs] def execVmovsLiteral (vd : BitVec 7) (lit : DWord) (s : State) : Out :=
  run (.vmovsLiteral vd lit) .vpipe (do
    window [(vd.toNat, 1)]
    keepTag vd.toNat (s.active.map fun l => (l, (litLow lit).toNat))) s

/-- VLANE: each active lane gets its number, tag N32, bound index kept (05/R164). -/
def execVlane (vd : BitVec 7) (s : State) : Out :=
  run (.vlane vd) .vpipe (do
    window [(vd.toNat, 1)]
    writeResult vd.toNat .n32 (s.vreg vd.toNat).bnd false true 0 (s.active.map fun l => (l, l))) s

/-- VTAG: the tag of vd, with at least one lane active (05/R167). -/
def execVtag (x : VX) (s : State) : Out :=
  run (.vtag x) .vpipe (do
    window [(x.vd.toNat, 1)]
    match Fmt.ofCode (x.imm.toNat / 16) with
    | none => vIllfmt
    | some f =>
      if s.active ≠ [] then
        modify fun s => s.setVreg x.vd.toNat { s.vreg x.vd.toNat with fmt := f, bnd := BitVec.ofNat 4 x.imm.toNat }) s

/-! ### Conversion (05/R165, R166, 02/R78) -/

/-- VCVT (05/R166). That rfmt's pair is named by an even vd is a rule of the encoding alone, so it comes before the tags'
(03/R108). -/
def convert (x : VX) : Act PUnit := do
  let s ← get
  let va := x.va.toNat
  let vd := x.vd.toNat
  window ([(vd, 1), (va, 1)] ++ if x.vc = 0#8 then [] else [(x.vc.toNat, 1)])
  let fs := (s.vreg va).fmt
  match Fmt.ofCode x.rfmt.toNat with
  | none => vIllfmt
  | some fd =>
    pairOk fd.isPair [vd]
    if fd == .z4x8 || fs == .b32 then vIllfmt
    pairTags fs.isPair [va]
    pairOk fs.isPair [va]
    if (x.vc != 0#8 && fs != .z4x8) || (x.rnd != 0#2 && fs.isInt && fd.isInt) then vIllop
    let n := min fs.count fd.count
    let src := fs.isFloat || fs.tapered.isSome
    let res := s.active.map fun l =>
      let a := fs.elems (s.vval fs.isPair va l)
      let z := if fs = .z4x8 then (s.vlane x.vc.toNat l).toNat % 16 else 0
      let es := (List.range n).map fun i =>
        let (v, fv) := fs.value (a.getD i 0) z
        let (b, fb) := fd.round (Rnd.ofBits x.rnd) (x.sat == 1#1) src v
        let iv := flagIf v.signals fIV
        (b, fb ||| fv ||| iv)
      (l, fd.pack (es.map (·.1)), orFlags (es.map (·.2)))
    writeResult vd fd ((vxOp x).bnd s) fd.isPair true (orFlags (res.map (·.2.2))) (res.map fun r => (r.1, r.2.1))

/-- VCVT (05/R165). -/
def execVcvt (x : VX) (s : State) : Out := run (.vcvt x) .vpipe (convert x) s

/-! ### Dot products and reductions (05/R168, R169) -/

/-- The pairings of 02/R79. -/
def dotAccepts (a b c : Fmt) : Bool :=
  match c with
  | .s32 => a == .s8x4 && b == .s8x4
  | .f32 => (a == .t8x4 && b == .t8x4) || ((a == .e4m3x4 || a == .e5m2x4) && (b == .e4m3x4 || b == .e5m2x4))
  | _ => false

/-- The exact four-way sum with the accumulator (02/R80). Products of both infinities set IV under a NaN accumulator too; a quiet NaN
accumulator by itself sets no flag. The product of a tapered zero, which has no sign, and a negative element is -0 (log 62). -/
def dotSum (fa fb fc : Fmt) (a b c : Nat) : Num × Flags :=
  let acc := (fc.value c).1
  let ps := (List.range 4).map fun i => ((fa.value (fa.elem a i)).1.mul (fb.value (fb.elem b i)).1).1
  let invalid := ps.any Num.isNaN || (ps.any (· == .inf false) && ps.any (· == .inf true))
  if invalid then (.nan false, fIV)
  else if acc.isNaN then (.nan false, flagIf acc.signals fIV)
  else exactSum (acc :: ps)

/-- VDOT (05/R168). -/
def execVdot (x : VX) (s : State) : Out :=
  run (.vdot x) .vpipe (do
    let va := x.va.toNat
    let vb := x.vb.toNat
    let vc := x.vc.toNat
    window [(x.vd.toNat, 1), (va, 1), (vb, 1), (vc, 1)]
    let fa := (s.vreg va).fmt
    let fb := (s.vreg vb).fmt
    let fc := (s.vreg vc).fmt
    if !dotAccepts fa fb fc then vIllfmt
    let res := s.active.map fun l =>
      let (v, fv) := dotSum fa fb fc (s.vlane va l).toNat (s.vlane vb l).toNat (s.vlane vc l).toNat
      let (b, fl) := fc.round .rne (x.sat == 1#1) false v
      (l, b, fl ||| fv)
    writeResult x.vd.toNat fc ((vxOp x).bnd s) false true (orFlags (res.map (·.2.2))) (res.map fun r => (r.1, r.2.1))) s

/-- The formats VRED accepts by operator (05/R169). -/
def redAccepts (op : Nat) (f : Fmt) : Bool :=
  decide (3 ≤ op) || f == .s32 || f == .n32 || f == .s64 || f == .f32 || f == .f64 || f == .h16x2 || f == .bf16x2

/-- One element position reduced (05/R169); AND, OR and XOR act on the codes as they stand, an S4 code 0b1000 among them, with no INTRES (02/R76;
DESIGN CHOICE, log 60). -/
def redElem (op : Nat) (f : Fmt) (rnd : Rnd) (sat : Bool) (es : List Nat) : Nat × Flags :=
  match op with
  | 0 =>
    let (x, fx) := exactSum (es.map fun e => (f.value e).1) rnd
    let (b, fl) := f.round rnd sat false x
    (b, fl ||| fx)
  | 3 => (es.foldl (· &&& ·) (2 ^ f.bits - 1), 0)
  | 4 => (es.foldl (· ||| ·) 0, 0)
  | 5 => (es.foldl (· ^^^ ·) 0, 0)
  | _ =>
    match es.map fun e => (f.value e).1 with
    | [] => (0, 0)
    | x :: xs =>
      let (y, fy) := (x :: xs).foldl (init := (x, (0 : Flags))) fun r v =>
        let (m, fm) := minMax (op == 2) r.1 v
        (m, r.2 ||| fm)
      ((f.round .rne false false y).1, fy)

/-- VRED (05/R169). -/
def execVred (x : VX) (s : State) : Out :=
  run (.vred x) .vpipe (do
    let va := x.va.toNat
    let vd := x.vd.toNat
    window [(vd, 1), (va, 1)]
    let f := (s.vreg va).fmt
    let op := x.f.toNat
    if !redAccepts op f then vIllfmt
    pairTags f.isPair [va]
    pairOk f.isPair [vd, va]
    if x.rnd != 0#2 && !f.isFloat then vIllop
    let act := s.active
    let cols := act.map fun l => f.elems (s.vval f.isPair va l)
    let es := (List.range f.count).map fun i =>
      redElem op f (Rnd.ofBits x.rnd) (x.sat == 1#1) (cols.map fun c => (c.getD i 0))
    let y := f.pack (es.map (·.1))
    writeResult vd f ((vxOp x).bnd s) f.isPair true (if act = [] then 0 else orFlags (es.map (·.2)))
      (act.map fun l => (l, y))) s

/-! ### Lane exchange (05/R170 to R173) -/

/-- A lane exchange: each active lane takes va's lane `src s l`, active or not, under va's tag. -/
def exchange (v : VOp) (srcs : List Nat) (src : State → Nat → Nat) : Act PUnit :=
  bitwise v srcs fun s l => s.vlane v.va (src s l)

/-- The source lane of VSHFL (05/R171). -/
def shflLane (x : VX) (s : State) (l : Nat) : Nat :=
  let w := x.width
  let i := l % w
  let d := x.delta
  let j := match x.f.toNat with
    | 0 => (s.vlane x.vb.toNat l).toNat % w
    | 1 => if i < d then i else i - d
    | 2 => if w ≤ i + d then i else i + d
    | _ => if w ≤ i ^^^ d then i else i ^^^ d
  l - i + j

/-- VSHFL (05/R171). -/
def execVshfl (x : VX) (s : State) : Out :=
  run (.vshfl x) .vpipe (exchange (vxOp x) ([x.va.toNat] ++ if x.f = 0#4 then [x.vb.toNat] else []) (shflLane x)) s
/-- VBCAST (05/R172). -/
def execVbcast (x : VX) (s : State) : Out :=
  run (.vbcast x) .vpipe (exchange (vxOp x) [x.va.toNat] fun _ l => l - l % x.width + x.delta) s

/-- VGETL: sd := one lane of va; a lane number of 96 or more raises ILLOP with TMASK zero (05/R173). -/
def getLane (sd : SReg) (va : Nat) (n : Nat) : Act PUnit := do
  window [(va, 1)]
  if 96 ≤ n then raiseTrap .illop
  modify fun s => s.setS sd (s.vlane va n)
/-- VGETL (05/R173). -/
def execVgetl (sd : SReg) (va : BitVec 7) (sb : SReg) (s : State) : Out :=
  run (.vgetl sd va sb) .vpipe (getLane sd va.toNat (s.sreg sb).toNat) s
@[inherit_doc execVgetl] def execVgetlLiteral (sd : SReg) (va : BitVec 7) (lit : DWord) (s : State) : Out :=
  run (.vgetlLiteral sd va lit) .vpipe (getLane sd va.toNat (litLow lit).toNat) s

/-- VSETL: one lane of vd := sa under vd's tag (05/R173). -/
def setLane (vd : Nat) (x : Word) (n : Nat) : Act PUnit := do
  window [(vd, 1)]
  if 96 ≤ n then raiseTrap .illop
  keepTag vd [(n, x.toNat)]
/-- VSETL (05/R173). -/
def execVsetl (vd : BitVec 7) (sa sb : SReg) (s : State) : Out :=
  run (.vsetl vd sa sb) .vpipe (setLane vd.toNat (s.sreg sa) (s.sreg sb).toNat) s
@[inherit_doc execVsetl] def execVsetlLiteral (vd : BitVec 7) (sa : SReg) (lit : DWord) (s : State) : Out :=
  run (.vsetlLiteral vd sa lit) .vpipe (setLane vd.toNat (s.sreg sa) (litLow lit).toNat) s

/-! ### Special functions (05/R174) -/

/-- A special function on F32 (02/R81, R82). -/
def special (fn : Special) (v : VOp) : Act PUnit := do
  let s ← get
  window [(v.vd, 1), (v.va, 1)]
  if (s.vreg v.va).fmt != .f32 then vIllfmt
  let res := s.active.map fun l => (l, fn.apply (FloatFmt.f32.read (s.vlane v.va l).toNat))
  writeResult v.vd .f32 (v.bnd s) false true (orFlags (res.map (·.2.2))) (res.map fun r => (r.1, r.2.1))

/-- VRCP (05/R174). -/
def execVrcp (vd va : BitVec 7) (s : State) : Out := run (.vrcp vd va) .sfu (special .rcp (v3Op vd va 0)) s
@[inherit_doc execVrcp] def execVrcpVx (x : VX) (s : State) : Out := run (.vrcpVx x) .sfu (special .rcp (vxOp x)) s

/-- VRSQ (05/R174). -/
def execVrsq (vd va : BitVec 7) (s : State) : Out := run (.vrsq vd va) .sfu (special .rsq (v3Op vd va 0)) s
@[inherit_doc execVrsq] def execVrsqVx (x : VX) (s : State) : Out := run (.vrsqVx x) .sfu (special .rsq (vxOp x)) s

/-- VSQRT (05/R174). -/
def execVsqrt (vd va : BitVec 7) (s : State) : Out := run (.vsqrt vd va) .sfu (special .sqrt (v3Op vd va 0)) s
@[inherit_doc execVsqrt] def execVsqrtVx (x : VX) (s : State) : Out := run (.vsqrtVx x) .sfu (special .sqrt (vxOp x)) s

/-- VEXP2 (05/R174). -/
def execVexp2 (vd va : BitVec 7) (s : State) : Out := run (.vexp2 vd va) .sfu (special .exp2 (v3Op vd va 0)) s
@[inherit_doc execVexp2] def execVexp2Vx (x : VX) (s : State) : Out := run (.vexp2Vx x) .sfu (special .exp2 (vxOp x)) s

/-- VLOG2 (05/R174). -/
def execVlog2 (vd va : BitVec 7) (s : State) : Out := run (.vlog2 vd va) .sfu (special .log2 (v3Op vd va 0)) s
@[inherit_doc execVlog2] def execVlog2Vx (x : VX) (s : State) : Out := run (.vlog2Vx x) .sfu (special .log2 (vxOp x)) s

/-- VSINPI (05/R174). -/
def execVsinpi (vd va : BitVec 7) (s : State) : Out := run (.vsinpi vd va) .sfu (special .sinpi (v3Op vd va 0)) s
@[inherit_doc execVsinpi] def execVsinpiVx (x : VX) (s : State) : Out := run (.vsinpiVx x) .sfu (special .sinpi (vxOp x)) s

/-- VCOSPI (05/R174). -/
def execVcospi (vd va : BitVec 7) (s : State) : Out := run (.vcospi vd va) .sfu (special .cospi (v3Op vd va 0)) s
@[inherit_doc execVcospi] def execVcospiVx (x : VX) (s : State) : Out := run (.vcospiVx x) .sfu (special .cospi (vxOp x)) s

/-- VTANH (05/R174). -/
def execVtanh (vd va : BitVec 7) (s : State) : Out := run (.vtanh vd va) .sfu (special .tanh (v3Op vd va 0)) s
@[inherit_doc execVtanh] def execVtanhVx (x : VX) (s : State) : Out := run (.vtanhVx x) .sfu (special .tanh (vxOp x)) s

end Sys2Proof.Machine
end

