-- ==== Sys2Proof/Machine/CopyEngine.lean ====
section
/-! DEFINITION. The copy engine: requests, kicks, batches, and the engine's events (09/R271 to R280, 15/R405). -/

namespace Sys2Proof.Machine

/-! ### Requests (09/R271, R272) -/

/-- A decoded request. -/
structure Req where
  src : DWord
  dst : DWord
  len : Nat
  opc : Nat
  fmtc : Nat
  flags : Word
  seed : Word
  expect : Word
  obj : Nat
  nxt : Nat
  rows : Nat
  cols : Nat
  sstr : Nat
  dstr : Nat
  rsv : Nat

/-- The request in 64 bytes, multi-byte fields little-endian (09/R271). -/
def Req.ofBytes (bs : List Byte) : Req :=
  let v (o n : Nat) : Nat := ofLE ((bs.drop o).take n)
  { src := BitVec.ofNat 64 (v 0 8), dst := BitVec.ofNat 64 (v 8 8), len := v 16 4, opc := v 20 1, fmtc := v 21 1,
    flags := BitVec.ofNat 32 (v 22 2), seed := BitVec.ofNat 32 (v 24 4), expect := BitVec.ofNat 32 (v 28 4), obj := v 32 4,
    nxt := v 36 4, rows := v 40 2, cols := v 42 2, sstr := v 44 4, dstr := v 48 4, rsv := v 52 4 }

/-- The bits of FLAGS (09/R272). -/
def Req.chain (r : Req) : Bool := r.flags.getLsbD 0
@[inherit_doc Req.chain] def Req.ckon (r : Req) : Bool := r.flags.getLsbD 1
@[inherit_doc Req.chain] def Req.crc (r : Req) : Bool := r.flags.getLsbD 2
@[inherit_doc Req.chain] def Req.ckin (r : Req) : Bool := r.flags.getLsbD 3
@[inherit_doc Req.chain] def Req.cmp (r : Req) : Bool := r.flags.getLsbD 4
@[inherit_doc Req.chain] def Req.dlvl (r : Req) : Nat := (r.flags.extractLsb' 5 3).toNat
@[inherit_doc Req.chain] def Req.sloc (r : Req) : Bool := r.flags.getLsbD 8
@[inherit_doc Req.chain] def Req.dloc (r : Req) : Bool := r.flags.getLsbD 9
/-- The rows a request takes. -/
def Req.rowCount (r : Req) : Nat := max r.rows 1

/-- The planes of a plane-convert format (09/R273). -/
def planesOf : Fmt → Option Nat
  | .e4m3x4 | .e5m2x4 | .t8x4 | .s8x4 => some 8
  | .t6x5 => some 6
  | .s4x8 | .z4x8 => some 4
  | .b32 => some 1
  | _ => none

/-- The bytes of a plane-convert source row. -/
def planeRowBytes (planes cols : Nat) : Nat :=
  if planes = 6 then 4 * ceilDiv cols 5 else if planes = 8 then cols else if planes = 4 then cols / 2 else cols / 8

/-- The element word size of OPC 2 to 7 (09/R273). -/
def Req.wordSize (r : Req) : Nat := reduceWord r.fmtc

/-- Whether FMT suits OPC (09/R273). -/
def Req.fmtOk (r : Req) : Bool :=
  match Fmt.ofCode r.fmtc with
  | none => false
  | some f =>
    if r.opc = 0 then f == .b32
    else if r.opc = 1 then (planesOf f).isSome
    else if r.opc ≤ 4 then f == .s32 || f == .n32 || f == .s64 || f == .f32 || f == .f64 || f == .h16x2 || f == .bf16x2
    else true

/-- The fields that do not depend on FMT are as 09/R271 to R273 ask. -/
def Req.fieldsOk (r : Req) (first : Bool) : Bool :=
  r.rsv == 0 && decide (r.opc ≤ 7) && r.flags.extractLsb' 10 22 == 0#22 && r.dlvl != 7 && !(first && r.ckin) &&
  (r.ckon || (!r.cmp && !r.ckin && !r.crc)) && (r.rows != 0 || (r.sstr == 0 && r.dstr == 0)) && (r.opc == 1 || r.cols == 0) &&
  (r.opc != 1 || (r.dloc && r.dlvl != 0 && r.dstr == 0 && r.dst.toNat % 16 == 0 &&
    ((r.rows == 96 && r.cols == 32) || (r.rows == 32 && r.cols == 64))))

/-- The fields that depend on FMT. -/
def Req.sizesOk (r : Req) : Bool :=
  if r.opc = 0 then true
  else if r.opc = 1 then
    match (Fmt.ofCode r.fmtc).bind planesOf with
    | some p => r.len == planeRowBytes p r.cols
    | none => false
  else
    let z := r.wordSize
    r.src.toNat % z == 0 && r.dst.toNat % z == 0 && r.len % z == 0 && r.sstr % z == 0 && r.dstr % z == 0

/-- The destination bytes of one row, and of the request (09/R273, R277; a malformed request counts its row bytes, log 20). -/
def Req.rowOut (r : Req) : Nat :=
  if r.opc = 1 then ((((Fmt.ofCode r.fmtc).bind planesOf).map fun p => p * r.cols / 8).getD r.len) else r.len
@[inherit_doc Req.rowOut] def Req.total (r : Req) : Nat := r.rowOut * r.rowCount

/-- A local range of a request's destination: first offset and length over all rows. -/
def Req.dstRange (r : Req) : Nat × Nat :=
  let d := r.dst.toNat % 2 ^ 32
  if r.opc = 1 then (d, r.total) else (d, (r.rowCount - 1) * r.dstr + r.len)

/-- The lowest tagged slot that a local destination touches, row by row: the one that a report of ERR 0x09 names (09/R278; DESIGN CHOICE, log
80). -/
def Req.taggedSlot (r : Req) (tags : List Nat) : Option Nat :=
  let d := r.dst.toNat % 2 ^ 32
  let hit (t : Nat) : Bool :=
    if r.opc = 1 then decide (t < d + r.total) && decide (d < t + 16)
    else (List.range r.rowCount).any fun i => decide (0 < r.len) && decide (t < d + i * r.dstr + r.len) && decide (d + i * r.dstr < t + 16)
  (tags.filter hit).min?

/-- What is found before any transfer: ERR, 0 for none, and the tagged slot (09/R278). Where several conditions hold, the first in this order
gives ERR: fields, format, sizes, tagged slots, then NEXT (DESIGN CHOICE, log 80). -/
def Req.check (r : Req) (first : Bool) (b : Block) : Nat × Option Nat :=
  if !r.fieldsOk first then (1, none)
  else if !r.fmtOk then (2, none)
  else if !r.sizesOk then (1, none)
  else match (if r.dloc then r.taggedSlot b.tags else none) with
    | some t => (9, some t)
    | none =>
      if r.chain && r.nxt % 64 != 0 then (3, none)
      else if r.chain && decide (b.localSize < r.nxt + 64) then (4, none)
      else (0, none)

/-! ### Kicks -/

/-- The request a kick is at. -/
def Kick.req (k : Kick) : Req := Req.ofBytes k.raw
/-- A kick of a core whose rails are on: without them its engine does nothing (18/R450). -/
def State.kick (s : State) (c : CoreId) (id : Nat) : Option Kick := if s.dev.powered then (s.core c).kicks.find? (·.id == id) else none
/-- Replaces a kick. -/
def State.setKick (s : State) (c : CoreId) (k : Kick) : State :=
  s.setCore c { s.core c with kicks := (s.core c).kicks.map fun x => if x.id = k.id then k else x }
/-- The running checksum starts from the seed (09/R276). -/
def Kick.seed (k : Kick) : Word :=
  let r := k.req
  let x := if r.ckin then k.prevCk else r.seed
  if r.crc then ~~~x else x

/-- One byte of CRC32C, reflected, polynomial 0x82F63B78 (log 21). -/
def crcByte (crc : Word) (b : Byte) : Word :=
  let bit (x : Word) : Word := if x.getLsbD 0 then (x >>> 1) ^^^ 0x82F63B78#32 else x >>> 1
  bit (bit (bit (bit (bit (bit (bit (bit (crc ^^^ b.setWidth 32))))))))

/-- The checksum over more payload, `pos` being the place of its first byte in the row (09/R276). -/
def Req.checksum (r : Req) (sum : Word) (pos : Nat) (bs : List Byte) : Word :=
  if r.crc then bs.foldl crcByte sum
  else bs.zipIdx.foldl (fun (a : Word) b => a + (b.1.setWidth 32).shiftLeft (8 * ((pos + b.2) % 4))) sum

/-- An armed injection of target 4 takes a request whose payload holds its byte (04/R145). -/
def State.injectCopy (s : State) (c : CoreId) (pc : DWord) (owner : WaveKey) (payload : Nat) : Option Nat × State :=
  match s.findWave owner with
  | none => (none, s)
  | some w =>
    if injArm w.errinj && injTarget w.errinj == 4 && decide (injWhere w.errinj < payload) then
      match s.asWave owner (fun s => .ok (s.injEvent (coreUnit 10 c) pc)) with
      | .ok (true, s) => (some (8 * injWhere w.errinj + injBit w.errinj % 8), s)
      | .ok (false, s) | .error (_, s) => (none, s)
    else (none, s)

/-- Starts a request: its checks, then its destination range enters the scoreboard; a full scoreboard makes it wait
(09/R278, R281). -/
def State.startKick (s : State) (c : CoreId) (k : Kick) : State :=
  match s.findBlock k.owner.block with
  | none => s
  | some b =>
    let r := k.req
    let (err, slot) := r.check k.first b
    let enters := err = 0 ∧ r.dloc ∧ r.total ≠ 0
    if enters ∧ Config.maxRanges ≤ (s.core c).ranges.length then s
    else
      let (inj, s) := if err = 0 then s.injectCopy c k.pc k.owner (r.len * r.rowCount) else (none, s)
      let s := s.setKick c { k with started := true, err := err, barslot := slot, sum := k.seed, inj := inj }
      if enters then
        let (lo, n) := r.dstRange
        s.setCore c { s.core c with ranges := (s.core c).ranges ++
          [⟨alignDown 64 lo, alignDown 64 (lo + n + 63), k.owner.block, k.id, false⟩] }
      else s

/-- A new request in the hands of the engine. -/
def Kick.fresh (id : Nat) (pc : DWord) (owner : WaveKey) (ctx : CtxId) (raw : List Byte) (off : Nat) (first : Bool) (prev : Word) : Kick :=
  { id := id, pc := pc, owner := owner, ctx := ctx, raw := raw, off := off, first := first, started := false, row := 0, pos := 0, sum := 0,
    prevCk := prev, err := 0, link := false, ckmm := false, noobj := false, delivered := 0, finished := false, held := none,
    barslot := none, inj := none, saved := [] }

/-- CPKICK (09/R279). Its read of the request waits for no copy request or loop whose range holds the bytes: 08/R240 and 09/R281 make loads wait
(DESIGN CHOICE, log 81). -/
def execCpkick (sa : SReg) (s : State) : Out :=
  run (.cpkick sa) .scalar (do
    let s ← get
    let o := (s.sreg sa).toNat
    if o % 64 ≠ 0 then raiseTrap .align 0 (BitVec.ofNat 64 o)
    if s.blk.localSize < o + 64 then raiseTrap .prot 0 (BitVec.ofNat 64 o)
    if Config.maxKicks ≤ s.co.kicks.length then stop (.wait .memdep)
    let (raw, bad) := s.readAt 0 false ⟨true, 0, o, BitVec.ofNat 64 o, 0, true⟩ 64
    if bad then raiseTrap .poison 0 (BitVec.ofNat 64 o)
    let id := s.dev.nextWork
    let k := Kick.fresh id s.w.pc s.w.key s.w.ctx raw o true 0
    let s := { s with dev := { s.dev with nextWork := id + 1 }, w := { s.w with unsealed := s.w.unsealed ++ [id] } }
    let s := s.setCo { s.co with kicks := s.co.kicks ++ [k] }
    set (s.startKick s.w.core k)) s

/-- Whether a batch of the wave in focus is complete (09/R280). -/
def State.batchDone (s : State) (n : BitVec 4) : Bool := (pick s.w.batchKicks n).all s.kickEnded

/-- CPSEAL (09/R280). Reports of ERR 0x09 that no CPWAIT or CPTEST has delivered stay with the number, for its new batch (DESIGN CHOICE, log
81). -/
def execCpseal (sd : SReg) (s : State) : Out :=
  run (.cpseal sd) .spipe (do
    let s ← get
    let n := s.w.nextBatch
    if !s.batchDone n then stop (.wait (.cpseal n))
    let old := (pick s.w.batchKicks n).filter fun id => s.w.reports.any (·.kick == id)
    let w := { s.w with batchKicks := put s.w.batchKicks n (old ++ s.w.unsealed), unsealed := [], nextBatch := n + 1 }
    set ({ s with w := w }.setS sd (n.setWidth 32))) s

/-- The oldest report of a complete batch raises BAROBJ and is cleared (09/R278). -/
def batchReports (n : BitVec 4) : Act Unit := do
  let s ← get
  match s.w.reports.find? fun r => (pick s.w.batchKicks n).contains r.kick with
  | none => pure ()
  | some r =>
    set { s with w := { s.w with reports := s.w.reports.erase r } }
    raiseTrap .barobj 0 (BitVec.ofNat 64 r.slot)

/-- CPWAIT (09/R280). -/
def cpWait (n : BitVec 4) : Act PUnit := do
  if !(← get).batchDone n then stop (.wait (.cpwait n))
  batchReports n
/-- CPTEST (09/R280). -/
def cpTest (n : BitVec 4) : Act PUnit := do
  if (← get).batchDone n then
    batchReports n
    modify (·.setScc true)
  else modify (·.setScc false)

/-- CPWAIT on a register. -/
def execCpwait (sb : SReg) (s : State) : Out := run (.cpwait sb) .scalar (cpWait ((s.sreg sb).extractLsb' 0 4)) s
/-- CPWAIT on a literal. -/
def execCpwaitLiteral (lit : DWord) (s : State) : Out := run (.cpwaitLiteral lit) .scalar (cpWait (lit.extractLsb' 0 4)) s
/-- CPTEST on a register. -/
def execCptest (sb : SReg) (s : State) : Out := run (.cptest sb) .scalar (cpTest ((s.sreg sb).extractLsb' 0 4)) s
/-- CPTEST on a literal. -/
def execCptestLiteral (lit : DWord) (s : State) : Out := run (.cptestLiteral lit) .scalar (cpTest (lit.extractLsb' 0 4)) s

/-! ### The engine's lines -/

/-- How an end of a line stands: its place, an ERR code, an absent page with the address that met it, a line of the tables that must come
first, or a table whose home does not answer. -/
inductive EndFound where
  | at_ (l : Loc)
  | err (code : Nat)
  | absent (malf : Bool) (addr : DWord)
  | held (dev line : Nat)
  | away

/-- The place of `n` bytes of a request's end, checked in the kicking wave's context (09/R274, R278). -/
def State.findEnd (s : State) (k : Kick) (b : Block) (isLoc : Bool) (base p : DWord) (off : Nat) (need : Perm) (n : Nat) : EndFound :=
  if isLoc then (if b.localSize < off + n then .err 4 else .at_ ⟨true, 0, off, BitVec.ofNat 64 off, 0, true⟩)
  else if s.leftRegion k.ctx base p then .err 4
  else match s.regionCheck k.ctx need p n with
    | .error (.held dev line) => .held dev line
    | .error (.prot _) => .err 4
    | .ok _ => match s.findLane k.ctx none need n p with
      | .at_ l => .at_ l
      | .noPerm => .err 4
      | .badTag => .err 5
      | .poison => .err 13
      | .absent m => .absent m p
      | .held dev line => .held dev line
      | .away => .away

/-- The places of a source, line by line: a plane-convert row may cross a line. -/
def State.findSource (s : State) (k : Kick) (b : Block) (isLoc : Bool) (base p : DWord) (off n : Nat) :
    Except EndFound (List (Loc × Nat)) :=
  (pieces 3 (if isLoc then off else p.toNat) n).mapM fun x =>
    let d := x.1 - (if isLoc then off else p.toNat)
    match s.findEnd k b isLoc base (p + BitVec.ofNat 64 d) (off + d) { r := true } x.2 with
    | .at_ l => .ok (l, x.2)
    | e => .error e

/-- Holds a kick up and tells the host: an engine park (09/R278, 15/R398). -/
def State.parkKick (s : State) (c : CoreId) (k : Kick) (cause : ParkCause) (addr : DWord) (access : Nat) (malf : Bool)
    (pool : Option CtxId) : State :=
  let (h, s) := s.takeHandle
  let s := s.record 3 (some (pool.getD k.ctx))
    (leBytes 2 (parkInfoWord cause malf false true false access) ++ leBytes 2 k.ctx.toNat ++ leBytes 4 h.toNat ++
      leBytes 8 addr.toNat ++ leBytes 4 k.off ++ leBytes 4 (coreUnit 10 c).toNat ++ leBytes 16 0)
  s.setKick c { k with held := some ⟨cause, h, false, pool⟩ }

/-- The place of a request in a pool's line of writers. -/
def kickTurn (pool c : Nat) (id : Nat) : CtxId × Turn :=
  (BitVec.ofNat 12 pool, .event .copyLineTransfer { core := BitVec.ofNat 9 c, num := id, ok := true })

/-- Whether a request that a pool holds up is having its turn (14/R387). -/
def State.kickRetries (s : State) (c : CoreId) (id : Nat) : Bool :=
  match s.retry with
  | some e => e == kickTurn e.1.toNat c.toNat id
  | none => false

/-- A request that waits on a pool: held up with SHADOWPARK; one that writes at D is also in the pool's line of writers, with one
record (09/R278, 14/R387). -/
def State.holdForPool (s : State) (c : CoreId) (k : Kick) (addr : DWord) (pool : CtxId) : State :=
  let e := kickTurn pool.toNat c.toNat k.id
  (s.stillShort e).getD
    (let s := s.parkKick c k .shadowpark addr 8 false (some pool)
     if 3 ≤ rankOf k.req.dlvl then { s with poolWait := s.poolWait ++ [e] } else s)

/-- The level at which the engine writes for the wave in focus: DLVL, but 1 for 0 once the wave has ended by WEND (07/R225). -/
def State.engineLevel (s : State) (r : Req) : Nat := if r.dlvl = 0 && s.w.life == .ended && !s.w.killed then 1 else r.dlvl
/-- Whether the engine's write for the wave in focus is performed at the home: at D or X, or at a level whose places pass its line straight
up (07/R213, R225). -/
def State.engineFar (s : State) (r : Req) : Bool := decide (3 ≤ rankOf (s.landsAt (s.engineLevel r)))

/-- The copies that the core of the wave in focus holds of a line go, dirty bytes home first (07/R225, 09/R277). -/
def dropCopies (l : Loc) : Act Unit := do
  let s ← get
  if !l.coh && l.dev = s.dev.devnum then withPool (fun s => s.writeBack s.w.core (lineOf l.pa)) l.lineVa 8
  modify fun s => s.dropLine s.w.core l.dev (lineOf l.pa)

/-- The engine's write of a line, but for a peer's line that is performed at its home (07/R225, 09/R277): below D into the places; at D and X
at the home; the copies that the core holds of the line go. A reduce is one action with its read; it moves no bytes of the wave up first
(09/R273, DEDUCED, log 32). -/
def engineWrite (r : Req) (l : Loc) (bs : List Byte) : Act Unit := do
  let s ← get
  let lvl := s.engineLevel r
  let old := (s.readAt lvl true l bs.length).1
  let new := if 2 ≤ r.opc then reduceBytes r.opc r.fmtc old bs else bs
  if l.isLocal then writeAt lvl l new
  else
    dropCopies l
    if s.engineFar r then
      if lvl = 1 then modify fun s => s.noteB false l.dev (lineOf l.pa)
      withPool (fun s => s.writeX (lineOf l.pa) l.coh (placed l.pa new)) l.lineVa 8
    else writeAt lvl l new
    dropCopies l

/-- The source bytes of a line as the request takes them: bytes that the request itself has overwritten are old or new
(09/R273, log 2), an injected flip is applied (04/R145). -/
def State.payload (s : State) (k : Kick) (at_ pos : Nat) (bs : List Byte) : List Byte :=
  bs.zipIdx.map fun b =>
    let x := match k.saved.find? fun e => e.1 = at_ + b.2 with
      | some e => if Config.overlapNew (s.turn + b.2) then b.1 else e.2
      | none => b.1
    match k.inj with
    | some i => if i / 8 = pos + b.2 then x ^^^ (1#8 <<< (i % 8)) else x
    | none => x

/-- The elements of a plane-convert row (02/R56, 09/R273). -/
def rowElem (planes : Nat) (bs : List Byte) (i : Nat) : Nat :=
  let v := ofLE bs
  if planes = 6 then v / 2 ^ (32 * (i / 5) + 6 * (i % 5)) % 64 else v / 2 ^ (planes * i) % 2 ^ planes

/-- The offset and bit of element (row, column) in a plane of an A tile, 96 rows, or of a B tile (10/R284, R285). -/
def planeBit (isA : Bool) (row col : Nat) : Nat × Nat :=
  let (line, k) := if isA then (row, col) else (col, row)
  (4 * line + k / 8, k % 8)

/-- The destination bytes after one source row of a plane-convert, `old` reading a byte of the tile. -/
def Req.planeRow (r : Req) (planes row : Nat) (bs : List Byte) (old : Nat → Byte) : List (Nat × Byte) :=
  let isA := r.rows == 96
  let size := if isA then 384 else 256
  (List.range planes).flatMap fun p =>
    let bits := (List.range r.cols).map fun c =>
      let x := planeBit isA row c
      (size * p + x.1, x.2, rowElem planes bs c / 2 ^ (planes - 1 - p) % 2)
    ((bits.map (·.1)).dedup).map fun o =>
      (o, (bits.filter (·.1 == o)).foldl (fun b x =>
        (b &&& ~~~(1#8 <<< x.2.1)) ||| (BitVec.ofNat 8 x.2.2 <<< x.2.1)) (old o))

/-- The next line of a request: its length, not crossing a 64-byte line of source or destination (log 22). -/
def Kick.chunk (k : Kick) (r : Req) (src dst : Nat) : Nat :=
  if r.opc = 1 then r.len else min (r.len - k.pos) (min (64 - src % 64) (64 - dst % 64))

/-- A kick with `n` more source bytes taken and its payload in the checksum. -/
def Kick.advance (k : Kick) (r : Req) (n : Nat) : Kick :=
  if k.pos + n < r.len then { k with pos := k.pos + n } else { k with pos := 0, row := k.row + 1 }

/-- A line is counted on OBJ as its writes are performed, but for the request's last, which its end counts (09/R277). -/
def State.countLine (s : State) (c : CoreId) (k : Kick) (r : Req) (n : Nat) : State :=
  let k := { k with delivered := k.delivered + n }
  if k.row < r.rowCount ∧ n ≠ 0 then
    let b := s.findBlock k.owner.block
    let ok := r.obj ≠ 0xFFFFFFFF ∧ (b.map (·.tagged r.obj)).getD false
    let s := s.setKick c (if ok ∨ r.obj = 0xFFFFFFFF then k else { k with noobj := true })
    if ok then s.decrement k.owner r.obj n else s
  else s.setKick c { k with delivered := k.delivered - n }

/-- The write of one line, as an act of the kicking wave: a plane-convert sets its bits at B, the rest goes to DLVL; the
payload of a killed wave at level W is discarded (07/R225). -/
def lineWrite (r : Req) (k : Kick) (dst : Loc) (bs : List Byte) : Act Unit := do
  let s ← get
  if r.opc = 1 then
    match (Fmt.ofCode r.fmtc).bind planesOf with
    | none => pure ()
    | some p => set (s.putScratch ((r.planeRow p k.row bs fun o => s.blk.scratch.read (dst.pa + o)).map fun b => (dst.pa + b.1, b.2)))
  else if r.dlvl = 0 && s.w.killed then pure ()
  else engineWrite r dst bs

/-- Old values of the source bytes that a write of the request covers, when source and destination share a space. -/
def Kick.keep (k : Kick) (r : Req) (s : State) (dst : Loc) (at_ : Nat) (n : Nat) : Kick :=
  if r.sloc != r.dloc || r.opc = 1 then k
  else
    let lo := if r.sloc then r.src.toNat % 2 ^ 32 else r.src.toNat
    let hi := lo + (r.rowCount - 1) * r.sstr + r.len
    { k with saved := k.saved ++ (List.range n).filterMap fun i =>
        let a := at_ + i
        if lo ≤ a ∧ a < hi ∧ !(k.saved.any (·.1 == a)) then
          some (a, (s.readByte r.dlvl true dst.isLocal dst.dev (dst.pa + i)).1)
        else none }

/-- A line that has been moved: its payload joins the checksum, and it is counted. -/
def State.lineDone (s : State) (c : CoreId) (k : Kick) (bs : List Byte) (n out : Nat) : State :=
  s.countLine c ({ k with sum := k.req.checksum k.sum k.pos bs }.advance k.req n) k.req out

/-- A fabric error on a remote line: it is counted, LINK and FABERR are set, and the request goes on (09/R278, 15/R405). A source
that could not be read adds no payload. -/
def State.linkLine (s : State) (c : CoreId) (k : Kick) (bs : List Byte) (n out : Nat) : State :=
  let r := k.req
  let s := if r.obj ≠ 0xFFFFFFFF ∧ ((s.findBlock k.owner.block).map (·.tagged r.obj)).getD false then
    s.mbStatus k.owner r.obj mbFABERR else s
  s.lineDone c { k with link := true } bs n out

/-- The write to a peer that a request of a core awaits. -/
def State.engineSent (s : State) (c : CoreId) (k : Kick) : Option PendingWrite :=
  (s.core c).writes.find? fun p => p.wave == k.owner && p.lane == 97 + k.id

/-- The lines of a request's write to a peer pass through the block buffer of the wave's block, whose flags they set, when it is made at B
(07/R207, R213). -/
def State.engineNotes (s : State) (k : Kick) (lines : List (Nat × Nat)) : State :=
  if s.seenAs k.owner (·.engineLevel k.req) = 1 then lines.foldl (fun s l => s.noteWrite k.owner.block k.owner false l.1 l.2) s else s

/-- A request's write to a peer is sent, or sent again: it is done once the home has performed it and said so, and no copy of the line that
the core has taken meanwhile outlives that. Beyond the retry window the request goes on, and the endpoint sends the write until it has
been performed (07/R221, R225, 09/R277, 15/R401, R405). -/
def State.engineResend (s : State) (c : CoreId) (k : Kick) (p : PendingWrite) : State :=
  let bs := p.data.map (·.2)
  let s := if p.acked then s else s.sendWrite p.dev p.sent p.data
  let done := p.acked || s.acked p.dev p.sent.pseq
  let lines := (p.data.map fun b => lineOf b.1).dedup
  let rest (s : State) : State := s.setCore c { s.core c with writes := (s.core c).writes.filter fun x => !(x.wave == k.owner && x.lane == 97 + k.id) }
  let noted (s : State) : State := (rest s).engineNotes k (lines.map fun l => (p.dev, l))
  if done then (lines.foldl (fun s l => s.dropLine c p.dev l) ((noted s).scReceive c p.dev)).lineDone c k bs bs.length bs.length
  else if s.facts.ok then s
  else ((noted s).entrust c p.wave p.dev p.sent p.data).linkLine c k bs bs.length bs.length

/-- A request's line goes to a peer: a write, or a reduce that the home performs as one action (09/R273, 15/R401). -/
def State.engineSend (s : State) (c : CoreId) (k : Kick) (dst : Loc) (bs : List Byte) : State :=
  let r := k.req
  let (g, s) := s.takeGroup
  let (q, s) := s.takeSent dst.dev g true (if 2 ≤ r.opc then some (r.opc, r.fmtc) else none)
  let p : PendingWrite := ⟨k.owner, 97 + k.id, dst.dev, q, placed dst.pa bs, false⟩
  let s := (s.setCore c { s.core c with writes := (s.core c).writes ++ [p] }).dropLine c dst.dev (lineOf dst.pa)
  (s.setKick c k).engineResend c k p

/-- Whether a read at a level needs bytes of a peer that does not answer: no place and no copy of the core supplies them. -/
def State.cutOff (s : State) (lvl : Nat) (fresh : Bool) (l : Loc) (n : Nat) : Bool :=
  !l.isLocal && l.dev != s.dev.devnum && !s.reachable l.dev && s.missesD lvl fresh l n != []

/-- The unit of the place that holds a line with an address which an implicit move has sent: the quad of the wave's gang, or the core
(15/R398, R406). -/
def State.moveUnit (s : State) (c : CoreId) (k : GangKey) (va : DWord) : UnitId :=
  match (s.findGang k).filter fun g => g.place.lines.any fun b => b.sent.isSome && b.va == va with
  | some g => wholeQuad g.quad
  | none => wholeCore c

/-- Moves a line whose ends have been found: it is read as the kicking wave would read it at DLVL, a reduce reads its destination too
(07/R225, 09/R273, R277). -/
def State.moveLine (s : State) (c : CoreId) (k : Kick) (src : List (Loc × Nat)) (dst : Loc) (srcAt dstAt n : Nat) : State :=
  let r := k.req
  let out := if r.opc = 1 then r.rowOut else n
  let far := !dst.isLocal && s.seenAs k.owner (·.engineFar r)
  let away := far && dst.dev != s.dev.devnum
  let reads : List (Loc × Nat × Bool) := (src.map fun x => (x.1, x.2, false)) ++ if 2 ≤ r.opc && !away then [(dst, n, true)] else []
  if s.seenAs k.owner fun s => reads.any fun x => s.cutOff r.dlvl x.2.2 x.1 x.2.1 then
    (if s.facts.ok then s else s.linkLine c k [] n out)
  else if (src.any fun x => !x.1.isLocal && s.restoring x.1.dev x.1.pa) || (!dst.isLocal && s.restoring dst.dev dst.pa) then s
  else
    let lines := s.seenAs k.owner fun s => ((reads.filter fun x => s.reachesHome r.dlvl x.2.2 x.1 x.2.1).map fun x => (x.1.dev, lineOf x.1.pa)) ++
      if far then [(dst.dev, lineOf dst.pa)] else []
    match lines.foldlM (fun s x => s.combineFirst x.1 x.2) s with
    | .error t => t
    | .ok s =>
      let got := s.seenAs k.owner fun s => src.map fun x => s.readAt r.dlvl false x.1 x.2
      let old := s.seenAs k.owner fun s => 2 ≤ r.opc && (if away then s.homePoison dst.dev dst.pa else (s.readAt r.dlvl true dst n).2)
      if got.any (·.2) || old then s.setKick c { k with err := 13 }
      else
        let bs := s.payload k srcAt (k.row * r.len + k.pos) (got.flatMap (·.1))
        let kept := s.seenAs k.owner fun s => k.keep r s dst dstAt n
        if away then s.engineSend c kept dst bs
        else match s.asWave k.owner (keepMove (lineWrite r k dst bs) (implicitMove r.dlvl)) with
          | .ok (_, s) => s.lineDone c kept bs n out
          | .error (.trap t, _) => if t.cause = .shadow then s.holdForPool c k t.taddr k.ctx else s.setKick c { k with err := t.cause.code }
          | .error (.park p, _) => s.holdForPool c k p.addr (p.pool.getD k.ctx)
          | .error (.wait (.remote _ va _), t) => if s.facts.ok then t else t.linkRecord k.ctx va.toNat (t.moveUnit c k.owner.gangKey va)
          | .error (.wait _, t) => t
          | .error (.combine p line, t) => t.waitCombine p line
          | .error (.recall dev line, t) => t.lookAgain dev line

/-- COPY_LINE_TRANSFER: the next line of a kick's request; the fact `ok` says whether a home that does not answer is still
within its retry window (09/R273, R278). -/
def execCopyLineTransfer (s : State) : Out :=
  let c := s.facts.core
  match s.kick c s.facts.num with
  | none => .next s
  | some k =>
    let r := k.req
    match s.findBlock k.owner.block with
    | none => .next s
    | some b =>
      if !k.started || k.finished || k.err != 0 || (k.held.isSome && !s.kickRetries c k.id) || r.total = 0 || decide (r.rowCount ≤ k.row) then .next s
      else
        let k := { k with held := none }
        if let some p := s.engineSent c k then .next (s.engineResend c k p) else
        let srcOff := (if r.sloc then r.src.toNat % 2 ^ 32 else 0) + k.row * r.sstr + k.pos
        let dstOff := (if r.dloc then r.dst.toNat % 2 ^ 32 else 0) + (if r.opc = 1 then 0 else k.row * r.dstr + k.pos)
        let sp := r.src + BitVec.ofNat 64 srcOff
        let dp := r.dst + BitVec.ofNat 64 dstOff
        let srcAt := if r.sloc then srcOff else sp.toNat
        let dstAt := if r.dloc then dstOff else dp.toNat
        let n := k.chunk r srcAt dstAt
        let need : Perm := if r.opc ≤ 1 then { w := true } else ⟨true, true, true⟩
        match s.findSource k b r.sloc r.src sp srcOff n with
        | .error (.err e) => .next (s.setKick c { k with err := e })
        | .error (.absent m a) => .next (s.parkKick c k .page a 7 m none)
        | .error (.held dev line) => .next (s.lookAgain dev line)
        | .error .away => .next (if s.facts.ok then s else s.linkLine c k [] n (if r.opc = 1 then r.rowOut else n))
        | .error (.at_ _) => .next s
        | .ok src =>
          match s.findEnd k b r.dloc r.dst dp dstOff need (if r.opc = 1 then r.total else n) with
          | .err e => .next (s.setKick c { k with err := e })
          | .absent m a => .next (s.parkKick c k .page a 8 m none)
          | .held dev line => .next (s.lookAgain dev line)
          | .away => .next (if s.facts.ok then s else s.linkLine c k [] n (if r.opc = 1 then r.rowOut else n))
          | .at_ dst => .next (s.moveLine c k src dst srcAt dstAt n)

/-- COPY_REQUEST_FETCH: a chained request is fetched at B after the previous one has ended; a request that the full
scoreboard held up starts (09/R277, R281). -/
def execCopyRequestFetch (s : State) : Out :=
  let c := s.facts.core
  match s.kick c s.facts.num with
  | none => .next s
  | some k =>
    if k.finished then
      match s.findBlock k.owner.block with
      | none => .next s
      | some b =>
        let o := k.req.nxt
        let n := Kick.fresh k.id k.pc k.owner k.ctx (b.scratch.bytes o 64) o false k.prevCk
        .next ((s.setKick c n).startKick c n)
    else if !k.started then .next (s.startKick c k)
    else .next s

/-- Whether a request failed before any transfer. -/
def Kick.early (k : Kick) : Bool := k.err != 0 && k.row == 0 && k.pos == 0
/-- CKOUT (09/R276). -/
def Kick.ckout (k : Kick) : Word := if !k.req.ckon || k.early then 0 else if k.req.crc then ~~~k.sum else k.sum

/-- COPY_REQUEST_END: CKOUT and STAT are written, the object's status bits set, the range leaves, the last decrement is
made; a failure ends the chain, and one of ERR 0x09 leaves a report (09/R275 to R278). Two points the manual leaves open: CKOUT and STAT
are written in a tagged slot too (DESIGN CHOICE, log 96), and of a batch that a CPWAIT waits on the end of a kick's last request alone is the
change that starts the watchdog's period anew (06/R195; DESIGN CHOICE, log 91). -/
def execCopyRequestEnd (s : State) : Out :=
  let c := s.facts.core
  match s.kick c s.facts.num with
  | none => .next s
  | some k =>
    let r := k.req
    if !k.started || k.finished || k.held.isSome || (k.err = 0 && r.total != 0 && decide (k.row < r.rowCount)) then .next s
    else
      let rest := r.total - k.delivered
      let tagged := ((s.findBlock k.owner.block).map (·.tagged r.obj)).getD false
      let due := r.obj ≠ 0xFFFFFFFF
      let ck := k.ckout
      let mm := r.cmp && !k.early && ck != r.expect
      let noobj := k.noobj || (due && !tagged && rest != 0)
      let stat := 2 ^ 31 + k.err * 256 + (if noobj then 4 else 0) + (if k.link then 2 else 0) + (if mm then 1 else 0)
      let s := s.changeAs k.owner fun s => s.putScratch (placed (k.off + 56) (leBytes 4 ck.toNat ++ leBytes 4 stat))
      let bits : Word := (if mm then mbCKMM else 0) ||| (if k.err ≠ 0 then mbEERR else 0)
      let s := if due && tagged then s.mbStatus k.owner r.obj bits else s
      let s := s.setCore c { s.core c with ranges := (s.core c).ranges.filter fun x => x.isLoop || x.owner != k.id }
      let s := if k.err = 0 && r.chain then s.setKick c { k with finished := true, prevCk := ck }
        else (s.setCore c { s.core c with kicks := (s.core c).kicks.filter fun x => x.id != k.id }).touched fun w x =>
          match x with
          | .cpwait n => (pick w.batchKicks n).contains k.id
          | _ => false
      let s := match k.barslot with
        | some o => s.mapWaves fun w => if w.key = k.owner then { w with reports := w.reports ++ [⟨k.id, o⟩] } else w
        | none => s
      .next (if due && tagged && rest != 0 then s.decrement k.owner r.obj rest else s)

end Sys2Proof.Machine
end

