-- ==== Sys2Proof/Machine/Launches.lean ====
section
/-! DEFINITION. Launch records and their check, launch queues, dependences, Gong tags, completion, and LNCH
(12/R321 to R333). -/

namespace Sys2Proof.Machine

/-! ### Records (12/R321 to R324) -/

/-- Bits `lo` to `lo + n - 1` of a number. -/
def bitsOf (x lo n : Nat) : Nat := x / 2 ^ lo % 2 ^ n

/-- A role word (12/R322). -/
def Role.ofWord (x : Nat) : Role := ⟨bitsOf x 0 5, 16 * bitsOf x 5 5, bitsOf x 10 5, 64 * bitsOf x 16 11⟩
/-- A queue word (12/R323). -/
def QueueDecl.ofWord (x : Nat) : QueueDecl := ⟨4 * bitsOf x 14 18, bitsOf x 7 7, bitsOf x 2 2, bitsOf x 0 2⟩

/-- A launch record from its 128 bytes; `reservedOk` is the first check of 12/R324. -/
def Rec.ofBytes (bs : List Byte) : Rec :=
  let v (o n : Nat) : Nat := ofLE ((bs.drop o).take n)
  let ctl := v 16 4
  let bufs := v 20 4
  let nr := bitsOf ctl 21 3
  let rw := (List.range 4).map fun i => v (24 + 4 * i) 4
  let qw := (List.range 8).map fun i => v (40 + 4 * i) 4
  let lvl := (List.range 8).map fun t => bitsOf (v 122 2) (2 * t) 2
  let cnt := (List.range 8).map fun t => v (72 + 3 * t) 3
  let deps := (List.range 4).map fun i => (v (96 + 2 * i) 2, v (104 + 4 * i) 4)
  let code : DWord := BitVec.ofNat 64 (v 0 8)
  let tvecd : Word := BitVec.ofNat 32 (v 8 4)
  { code := code, tvec := if tvecd = 0x80000000#32 then 0 else code + tvecd.signExtend 64, gridx := v 12 2, gridy := v 14 2,
    gridz := bitsOf ctl 0 16, bclass := bitsOf ctl 28 4, prio := bitsOf ctl 24 3, nroles := nr, blocks := bitsOf ctl 16 5,
    gbuf := bitsOf bufs 9 13, bbuf := bitsOf bufs 0 9, roles := (rw.take nr).map Role.ofWord,
    queues := qw.map QueueDecl.ofWord, gongLvl := lvl, gongCount := cnt, deps := deps, doneIdx := v 120 2,
    reservedOk := bitsOf ctl 27 1 == 0 && bitsOf bufs 22 10 == 0 && v 124 4 == 0 && (rw.drop nr).all (· == 0) &&
      (rw.all fun x => bitsOf x 27 5 == 0 && bitsOf x 15 1 == 0) &&
      (qw.all fun x => bitsOf x 4 3 == 0 && (bitsOf x 7 7 != 0 || x == 0)) && (deps.all fun d => d.2 != 0 || d.1 == 0) &&
      ((List.zip lvl cnt).all fun x => x.1 != 0 || x.2 == 0) }

/-- The role and stage of each wave of a block, in WAVEID order (06/R178). -/
def Rec.waves (r : Rec) : List (Role × Nat) := r.roles.zipIdx.flatMap fun x => List.replicate x.1.waves x
/-- A, the bytes of the local area (06/R185). -/
def Rec.localBytes (r : Rec) : Nat := (r.roles.map fun x => x.waves * x.spad).sum
/-- The scratchpad bytes of a block (12/R334). -/
def Rec.scratchNeed (r : Rec) : Nat := r.localBytes + 1024 * r.bbuf
/-- The accumulator slots of a block (12/R334). -/
def Rec.accNeed (r : Rec) : Nat := (r.roles.map fun x => x.waves * x.acc).sum
/-- The gangs of the grid. -/
def Rec.gangs (r : Rec) : Nat := r.gridx * r.gridy * r.gridz
/-- Every wave of the launch (09/R259). -/
def Rec.allWaves (r : Rec) : Nat := r.gangs * r.blocks * r.waves.length

/-- The bytes of a gang image (12/R347). -/
def Rec.image (r : Rec) : Nat :=
  4096 + 1024 * r.gbuf + r.blocks * (r.scratchNeed + 2048 + 24576 * r.accNeed + (r.waves.map fun w => 392 * w.1.valloc + 4608).sum)

/-- Blocks, up to `n`, that an empty core takes whose start pointer is `st` (06/R179, 12/R334). -/
def Rec.perCore (r : Rec) (st : Nat) : Nat → Nat
  | 0 => 0
  | n + 1 =>
    let total := n + 1
    let ws := (List.range total).flatMap fun b => r.waves.zipIdx.map fun w => ((st + b * r.waves.length + w.2) % 4, w.1.1.valloc)
    let fits := (List.range 4).all fun k =>
      let mine := ws.filter (·.1 == k)
      decide (mine.length ≤ Config.schedWaves) && decide ((mine.map (·.2)).sum ≤ Config.schedRegs)
    if fits && decide (total * r.scratchNeed ≤ Config.scratchBytes) && decide (total * r.accNeed ≤ 16) then total
    else r.perCore st n

/-- Whether a block fits an empty core and a gang an empty quad, whatever the start pointers (12/R324, log 24). -/
def Rec.fits (r : Rec) (c : Ctx) (gbres : Nat) : Bool :=
  let least := ((List.range 4).map fun st => r.perCore st Config.coreBlocks).min?.getD 0
  decide (1 ≤ least) && decide (r.blocks ≤ 4 * least) && decide (r.gbuf ≤ gbres) &&
    decide (r.blocks * r.waves.length ≤ c.stkcount)

/-- The reason code of a record, 0 when it is accepted (12/R324). -/
def Rec.reason (r : Rec) (c : Ctx) (gbres : Nat) : Nat :=
  let area := r.localBytes
  let badRole (x : Role) : Bool :=
    x.waves == 0 || decide (16 < x.waves) || x.valloc == 0 || decide (256 < x.valloc) || decide (16 < x.acc) || decide (65536 < x.spad)
  let badQueue (q : QueueDecl) : Bool := q.cap != 0 &&
    (decide (q.cap < 2) || decide (64 < q.cap) || decide (r.nroles ≤ q.cons) || decide (r.nroles ≤ q.prod) || decide (area < q.ring + 4 * q.cap))
  if !r.reservedOk then 0x01
  else if r.gridx = 0 ∨ r.gridy = 0 ∨ r.gridz = 0 ∨ r.blocks = 0 ∨ 16 < r.blocks ∨ r.nroles = 0 ∨ 4 < r.nroles then 0x02
  else if r.roles.any badRole ∨ 16 < r.waves.length then 0x03
  else if r.queues.any badQueue then 0x04
  else if 256 < r.bbuf ∨ 4096 < r.gbuf then 0x05
  else if (List.zip r.gongLvl r.gongCount).any fun x => x.1 != 0 && x.2 == 0 && decide (16777215 < r.allWaves) then 0x06
  else if r.code.extractLsb' 0 2 ≠ 0#2 ∨ r.tvec.extractLsb' 0 2 ≠ 0#2 then 0x07
  else if (r.deps.any fun d => d.2 != 0 && decide (c.evsize ≤ d.1)) ∨ (r.doneIdx ≠ 0xFFFF ∧ c.evsize ≤ r.doneIdx) then 0x08
  else if !r.fits c gbres then 0x09
  else if c.savesize < r.image then 0x0A
  else if !c.bclmask.getLsbD r.bclass then 0x0B
  else 0

/-! ### Words that the device reads through a context's tables (12/R325, R328, 18/R454) -/

/-- Where `n` bytes at a pointer of a context lie on this device: none when the region check or the translation fails, the
page is homed elsewhere, or a line is poisoned. -/
def State.ctxPlace (s : State) (cx : CtxId) (need : Perm) (p : DWord) (n : Nat) : Option Nat :=
  if s.leftRegion cx p p then none
  else match s.regionCheck cx need p n with
    | .error _ => none
    | .ok va => match s.translate cx va with
      | .leaf l =>
        let pa := l.pa va
        if need.within l.perm && l.dev == s.dev.devnum && !(s.poisoned pa || s.poisoned (pa + n - 1)) then some pa else none
      | _ => none

/-- What an access of `n` bytes at a pointer of a context must have first: a line recalled or restored (`some`), or the answer of a peer
that holds a table (`none`) (07/R222, 08/R245, 15/R411). -/
def State.ctxWaits (s : State) (cx : CtxId) (need : Perm) (p : DWord) (n : Nat) : Option (Option (Nat × Nat)) :=
  if s.leftRegion cx p p then none
  else match s.regionCheck cx need p n with
    | .error (.held dev line) => some (some (dev, line))
    | .error (.prot _) => none
    | .ok va => match s.translate cx va with
      | .held dev line => some (some (dev, line))
      | .away => some none
      | .leaf l =>
        if need.within l.perm && l.dev == s.dev.devnum then
          (((List.range ((n + 63) / 64)).map (lineOf (l.pa va) + ·)).find? (s.heldLine l.dev)).map fun line => some (l.dev, line)
        else none
      | _ => none

/-- How an event of the device goes on that accesses memory through a context's tables: `f` when the access can be made now. Else the
event comes again, but that a table whose home has not answered for a retry window cannot be read; the fact `ok` says whether the window
lasts (07/R222, 08/R245, 15/R405, R411). -/
def State.whenClear (s : State) (w : Option (Option (Nat × Nat))) (f : State) : State :=
  match w with
  | some (some x) => s.lookAgain x.1 x.2
  | some none => if s.facts.ok then s else f
  | none => f

/-- The bytes at a physical address of this device as the device reads them at D (log 14). -/
def State.homeBytes (s : State) (pa n : Nat) : List Byte :=
  (List.range n).map fun i => BitVec.ofNat 8 (s.homeValue s.dev.devnum (pa + i) 1)

/-- What a read of the device at D over `n` bytes of its memory must do first: it waits for a restore, or partials are recalled (07/R222,
08/R245). -/
def State.spanFirst (s : State) (a n : Nat) : Option State :=
  if s.restores.any fun r => decide (r.lo < a + n) && decide (a < r.lo + r.len) then some s
  else (s.parts.find? fun p => p.dev == s.dev.devnum && decide (lineOf a ≤ lineOf p.addr) && decide (64 * lineOf p.addr < a + n)).map fun p =>
    s.lookAgain s.dev.devnum (lineOf p.addr)

/-- Every core acquires at D: the check of a dependence, and the acceptance of a record, order what its waves read
(12/R327). -/
def State.acquireAll (s : State) : State :=
  { s with cores := s.cores.zipIdx.map fun x => x.1.mapCaches (s.acquireKeep x.2 false) }

/-- The next number of the counter that orders waits. -/
def State.takeTicket (s : State) : Nat × State := (s.dev.ticket, { s with dev := { s.dev with ticket := s.dev.ticket + 1 } })

/-- Launches that have been accepted and have not completed (12/R331). -/
def State.heldLaunches (s : State) : Nat := s.allLaunches.countP fun l => l.id != 0 && l.state != .complete

/-- The dependences of a launch evaluated once more; one that is met stays met, and one whose word cannot be read now is not met yet
(12/R325). -/
def State.evaluate (s : State) (l : Launch) : Launch :=
  let met (d : Nat × Nat) : Bool := d.2 == 0 ||
    (let p := (s.ctxOf l.ctx).evbase + BitVec.ofNat 64 (4 * d.1)
     (s.ctxWaits l.ctx { r := true } p 4).isNone &&
       match s.ctxPlace l.ctx { r := true } p 4 with
       | some pa => decide (d.2 ≤ s.homeValue s.dev.devnum pa 4)
       | none => false)
  { l with depsMet := l.record.deps.zipIdx.map fun d => (l.depsMet.getD d.2 false) || met d.1 }

/-- What the first unmet dependence of a launch that cannot be read now waits for (07/R222, 08/R245). -/
def State.depWaits (s : State) (l : Launch) : Option (Option (Nat × Nat)) :=
  l.record.deps.zipIdx.findSome? fun d =>
    if l.depsMet.getD d.2 false || d.1.2 == 0 then none
    else s.ctxWaits l.ctx { r := true } ((s.ctxOf l.ctx).evbase + BitVec.ofNat 64 (4 * d.1.1)) 4

/-- Physical Gong tags that no launch holds (09/R259). -/
def State.freeTags (s : State) : Nat := 8 - ((s.allLaunches.filter fun l => l.state != .complete).map (·.tagsHeld)).sum
/-- The Gong tags a record declares (09/R259). -/
def Rec.tags (r : Rec) : Nat := r.gongLvl.countP (· != 0)

/-- Whether a launch obtains its tags as soon as its dependences are met: it declares none, or they are all free and no Ready launch holds
it back (12/R333). -/
def State.tagsAtOnce (s : State) (l : Launch) : Bool :=
  l.record.tags == 0 || (decide (l.record.tags ≤ s.freeTags) &&
    s.allLaunches.all fun k => k.id == 0 || k.state != .ready || decide (k.record.prio < l.record.prio))

/-- A launch whose dependences are all met is Ready, or goes on to Placing with its tags, and its record leaves the head of its queue
(12/R331, R333). -/
def State.settle (s : State) (l : Launch) : State :=
  if l.state = .waiting ∧ l.depsMet.all id then
    let (t, s) := s.takeTicket
    let now := s.tagsAtOnce l
    let s := s.acquireAll.setLaunch
      { l with state := if now then .placing else .ready, tagsHeld := if now then l.record.tags else 0, waitFrom := t }
    let q := s.queue l.queue
    s.setQueue l.queue { q with head := q.head + 1, pend := none, state := if q.head + 1 = q.tail then 0 else 1 }
  else
    let s := s.setLaunch l
    s.setQueue l.queue { s.queue l.queue with state := 3 }

/-- Gong tags of a launch at its acceptance (09/R259). -/
def Rec.gongTags (r : Rec) : Vector GongTag 8 :=
  Vector.ofFn fun t : Fin 8 =>
    let lvl := r.gongLvl.getD t.1 0
    let n := r.gongCount.getD t.1 0
    ⟨lvl, if lvl = 0 then 0 else if n = 0 then r.allWaves else n, 0, 0⟩

/-- An accepted launch: its record, the pointer its waves get in s0:s1 (06/R184), its dependences evaluated. -/
def State.acceptLaunch (s : State) (qi : QueueId) (cx : CtxId) (r : Rec) (ptr : DWord) : State :=
  let id := s.dev.nextLaunch
  let q := s.queue qi
  let l : Launch :=
    { id := id, ctx := cx, queue := qi, count := q.head.toNat, record := r, recPtr := ptr, state := .waiting, depsMet := [],
      nextGang := 0, returned := [], retired := 0, gong := r.gongTags, tagsHeld := 0, waitFrom := 0, aged := false }
  let s : State := { s with dev := { s.dev with nextLaunch := id + 1 }, launches := s.launches ++ [l] }
  let s := s.setQueue qi { q with pend := some id }
  s.acquireAll.settle (s.evaluate l)

/-- Stops a queue with a reason code (12/R328, R331). -/
def State.stopQueue (s : State) (qi : QueueId) (why : Nat) : State :=
  s.setQueue qi { s.queue qi with state := 2, err := BitVec.ofNat 8 why }

/-- LAUNCH_ACCEPT: the record at the head of a queue is read and, on a host-fed queue, checked (12/R324, R328, R331). -/
def execLaunchAccept (s : State) : Out :=
  let qi := s.facts.queue
  let q := s.queue qi
  let cx : CtxId := q.ctx.setWidth 12
  if !q.en || q.qsize = 0 || q.head = q.tail || q.state = 2 || q.pend.isSome || decide (4096 ≤ q.ctx.toNat) || !(s.ctxOf cx).en ||
     decide (Config.maxLaunches ≤ s.heldLaunches) then .next s
  else
    let p := q.qbase + BitVec.ofNat 64 (128 * (q.head.toNat % q.qsize))
    .next <| s.whenClear (s.ctxWaits cx { r := true } p 128) <|
      match s.ctxPlace cx { r := true } p 128 with
      | none => s.stopQueue qi 0x0D
      | some pa =>
        let r := Rec.ofBytes (s.homeBytes pa 128)
        let why := if q.src then 0 else r.reason (s.ctxOf cx) s.dev.gbres
        if why ≠ 0 then s.stopQueue qi why
        else
          let ptr := (q.lnch.find? fun e => e.1 = q.head).map (·.2)
          let s := s.setQueue qi { q with lnch := q.lnch.filter fun e => e.1 != q.head }
          s.acceptLaunch qi cx r (ptr.getD p)

/-- DEPENDENCE_EVALUATION: the unmet dependences of a launch are evaluated again; a line that one of them needs is recalled first
(08/R245, 12/R325). -/
def execDependenceEvaluation (s : State) : Out :=
  match s.findLaunch s.facts.launch with
  | none => .next s
  | some l =>
    .next (if l.id = 0 ∨ l.state ≠ .waiting then s
      else match s.depWaits l with
        | some (some x) => (s.settle (s.evaluate l)).lookAgain x.1 x.2
        | _ => s.settle (s.evaluate l))

/-- Whether a Ready launch comes first in the order of 12/R333. -/
def State.firstReady (s : State) (l : Launch) : Bool :=
  s.allLaunches.all fun k => k.id == 0 || k.state != .ready || decide (k.record.prio < l.record.prio) ||
    (k.record.prio == l.record.prio && decide (l.waitFrom ≤ k.waitFrom))

/-- GONG_TAG_GRANT: the Ready launch that comes first obtains its tags and enters Placing (12/R333). -/
def execGongTagGrant (s : State) : Out :=
  match s.findLaunch s.facts.launch with
  | none => .next s
  | some l =>
    let n := l.record.tags
    if l.id = 0 ∨ l.state ≠ .ready ∨ !s.firstReady l ∨ s.freeTags < n then .next s
    else
      let (t, s) := s.takeTicket
      .next (s.setLaunch { l with state := .placing, tagsHeld := n, waitFrom := t })

/-- The completion record (15/R398). -/
def State.completionRecord (s : State) (l : Launch) (evval cflags : Nat) : State :=
  s.record 1 (some l.ctx) (leBytes 2 l.queue.toNat ++ leBytes 2 l.record.doneIdx ++ leBytes 4 l.count ++
    leBytes 8 l.record.code.toNat ++ leBytes 4 evval ++ leBytes 4 cflags ++ leBytes 16 0)

/-- A launch completes: its record when NOTIFY is set, its tags free (12/R326, R333). -/
def State.complete (s : State) (l : Launch) (evval cflags : Nat) : State :=
  let s := if (s.queue l.queue).notify then s.completionRecord l evval cflags else s
  s.setLaunch { l with state := .complete, tagsHeld := 0 }

/-- LAUNCH_COMPLETION: the last gang has retired; the completion word is incremented at D (12/R326). A context under a kill sees
no increment (12/R333); a restore, or the combining of the line's partials, holds the increment up (14/R387, R392). -/
def execLaunchCompletion (s : State) : Out :=
  match s.findLaunch s.facts.launch with
  | none => .next s
  | some l =>
    if l.id = 0 ∨ l.state ≠ .running ∨ l.retired < l.record.gangs ∨ (s.ctxOf l.ctx).killing then .next s
    else if l.record.doneIdx = 0xFFFF then .next (s.complete l 0 0)
    else
      let p := (s.ctxOf l.ctx).evbase + BitVec.ofNat 64 (4 * l.record.doneIdx)
      .next <| s.whenClear (s.ctxWaits l.ctx ⟨true, true, true⟩ p 4) <|
        match s.ctxPlace l.ctx ⟨true, true, true⟩ p 4 with
        | none => s.complete l 0 1
        | some pa =>
          let v := (s.mem.value pa 4 + 1) % 2 ^ 32
          match s.homeWrite (some hostAgent) none (lineOf pa) (placed pa (leBytes 4 v)) with
          | .error c => s.waitPool c l.ctx.toNat (64 * lineOf pa) noUnit .launchCompletion 0 2
          | .ok t => t.complete l v 0

/-! ### Queue registers (12/R330, R331) -/

/-- QTAIL_WRITE: the host publishes records; too many are ignored with ERR 0x0C (12/R331). -/
def execQtailWrite (s : State) : Out :=
  let qi := s.facts.queue
  let q := s.queue qi
  let n : Word := s.facts.val.setWidth 32
  if q.src then .next s
  else if q.qsize < (n - q.head).toNat then .next (s.setQueue qi { q with err := 0x0C })
  else .next (s.setQueue qi { q with tail := n })

/-- QSTAT_SKIP: ERR clears; a stopped queue drops its head record and resumes (12/R330). -/
def execQstatSkip (s : State) : Out :=
  let qi := s.facts.queue
  let q := s.queue qi
  .next (s.setQueue qi (if q.state = 2 then { q with err := 0, head := q.head + 1, state := if q.head + 1 = q.tail then 0 else 1 }
    else { q with err := 0 }))

/-- QSTAT_RETRY: ERR clears; a stopped queue checks its head record again (12/R330). -/
def execQstatRetry (s : State) : Out :=
  let qi := s.facts.queue
  let q := s.queue qi
  .next (s.setQueue qi (if q.state = 2 then { q with err := 0, state := 1 } else { q with err := 0 }))

/-! ### LNCH (12/R332) -/

/-- LAUNCHERR with its record and CTXERR.LREJ (17/R425, 18/R439). -/
def launchErr {α : Type} (p : DWord) (why : Nat) : Act α := do
  modify fun s =>
    let s := s.errorRecord (some s.w.ctx)
      { code := 0x0304, unit := wholeCore s.w.core, wave := some (s.w.pc, s.w.coord), detail := why }
    s.setCx { s.cx with lrej := true }
  raiseTrap .launcherr 0 p

/-- One 64-byte line of the record, read at D with the checks of a load (12/R332). -/
def lnchLine (p : DWord) : Act (List Byte) := do
  let s ← get
  match s.findLane s.w.ctx none { r := true } 64 p with
  | .noPerm => raiseTrap .prot 0 p
  | .badTag => raiseTrap .tagchk 0 p
  | .poison => raiseTrap .poison 0 p
  | .absent m => stop (.park { cause := s.pageCause, addr := p, access := 10, malf := m })
  | .held dev line => stop (.recall dev line)
  | .away => stop (.wait (.remote noLanes p 10))
  | .at_ l =>
    if s.restoring l.dev l.pa then stop (.wait .memdep)
    let asks := l.dev != s.dev.devnum && s.missesD 3 false l 64 != []
    if asks && !s.reachable l.dev then stop (.wait (.remote noLanes p 10))
    if s.reachesHome 3 false l 64 then recallAct l.dev (lineOf l.pa)
    let s ← get
    let (bs, bad) := s.readAt 3 false l 64
    if bad then raiseTrap .poison 0 p
    set ((if asks then s.scReceive s.w.core l.dev else s).afterRead 3 false l 64)
    return bs

/-- The record put into its ring slot at D, a line that the wave does not address, so that TADDR is 0 (04/R146), while a park names the
slot's line (15/R398); a slot that cannot be written is met by the dispatcher's read (12/R328). -/
def lnchWrite (q : LQueue) (bs : List Byte) : Act Unit := do
  let s ← get
  let slot := q.qbase + BitVec.ofNat 64 (128 * (q.tail.toNat % q.qsize))
  match s.ctxWaits s.w.ctx { w := true } slot 128 with
  | some (some x) => stop (.recall x.1 x.2)
  | some none => stop (.wait (.remote noLanes slot 1))
  | none => pure ()
  match s.ctxPlace s.w.ctx { w := true } slot 128 with
  | none => pure ()
  | some pa =>
    let half (line : Nat) (va : DWord) (bs : List (Nat × Byte)) : Act Unit := fun s =>
      match atHome line bs (fun s => s.writeD line true bs) 0 1 s with
      | .error (.park p, t) => .error (.park { p with addr := va }, t)
      | r => r
    half (lineOf pa) slot (placed pa (bs.take 64))
    half (lineOf pa + 1) (slot + 64) (placed (pa + 64) (bs.drop 64))

/-- LNCH. -/
def execLnch (sa sb : SReg) (s : State) : Out :=
  run (.lnch sa sb) .scalar (do
    let s ← get
    let p := s.spair sa
    if p.extractLsb' 0 6 ≠ 0#6 then raiseTrap .align 0 p
    let n := (s.sreg sb).toNat
    let qi : QueueId := BitVec.ofNat 8 n
    let q := s.queue qi
    if 255 < n || !q.src || q.ctx.toNat != s.w.ctx.toNat || !q.en then launchErr p 0
    commitTo 3
    let s ← get
    if s.leftRegion s.w.ctx p p then raiseTrap .prot 0 p
    (match s.regionCheck s.w.ctx { r := true } p 128 with
     | .error (.prot a) => raiseTrap .prot 0 a
     | .error (.held dev line) => stop (.recall dev line)
     | .ok _ => pure ())
    let a ← lnchLine p
    let b ← lnchLine (p + 64)
    let bs := a ++ b
    let why := (Rec.ofBytes bs).reason s.cx s.dev.gbres
    if why ≠ 0 then launchErr p why
    if q.qsize ≤ (q.tail - q.head).toNat then modify (·.setScc false)
    else
      whole (lnchWrite q bs)
      modify fun s =>
        let q := s.queue qi
        (s.setQueue qi { q with tail := q.tail + 1, lnch := (q.tail, p) :: q.lnch }).setScc true) s

end Sys2Proof.Machine
end

