-- ==== Sys2Proof/Machine/Placement.lean ====
section
/-! DEFINITION. Occupancy, placing gangs and blocks, creating waves, retirement, pre-emption, save and restore
(06/R179 to R192, 07/R214, R215, 12/R334 to R347). -/

namespace Sys2Proof.Machine

/-! ### Occupancy of a core (12/R334) -/

/-- What the blocks of a core hold: wave slots and register runs by scheduler, scratchpad runs, accumulator quotas, blocks,
and the start pointer. -/
structure Occ where
  slots : List (Nat × Nat)
  runs : List (Nat × Nat × Nat)
  spad : List (Nat × Nat)
  acc : Nat
  blocks : Nat
  start : Nat
  deriving DecidableEq, Repr

/-- Whether a wave occupies its core: placed, not saved, not ended. -/
def Wave.occupies (w : Wave) : Bool := w.key.launch != 0 && !w.saved && w.life != .ended

/-- Whether a block occupies its core. -/
def State.blockOccupies (s : State) (b : Block) : Bool :=
  b.key.launch != 0 && !b.retired &&
    (match s.findGang b.key.gangKey with
     | some g => g.state == .placing || g.state == .resident || g.state == .saving
     | none => false)

/-- The record of a launch. -/
def State.recordOf (s : State) (l : Nat) : Rec := ((s.findLaunch l).map (·.record)).getD Rec.absent

/-- The occupancy of a core. -/
def State.occ (s : State) (c : CoreId) : Occ :=
  let ws := s.allWaves.filter fun w => w.occupies && w.core == c
  let bs := s.allBlocks.filter fun b => b.core == c && s.blockOccupies b
  { slots := ws.map fun w => (w.sched.toNat, w.slot), runs := ws.map fun w => (w.sched.toNat, w.wbase, w.valloc),
    spad := bs.map fun b => (b.spad, (s.recordOf b.key.launch).scratchNeed), acc := (ws.map (·.quota)).sum, blocks := bs.length,
    start := (s.core c).start.toNat }

/-- The lowest start of a free run of `need` in a range of `cap`, a multiple of `step`. -/
def freeRun (cap step need : Nat) (used : List (Nat × Nat)) : Option Nat :=
  ((0 :: used.map fun u => ceilDiv (u.1 + u.2) step * step).filter fun b =>
    decide (b + need ≤ cap) && used.all fun u => decide (b + need ≤ u.1) || decide (u.1 + u.2 ≤ b)).min?

/-- One wave added: its scheduler, wave slot and window; it takes the lowest free slot of its scheduler (06/R183; DESIGN CHOICE, log 79). -/
def Occ.addWave (o : Occ) (sched valloc quota : Nat) : Option (Occ × Nat × Nat × Nat) :=
  match (List.range Config.schedWaves).find? fun i => !o.slots.contains (sched, i) with
  | none => none
  | some i =>
    match freeRun Config.schedRegs 16 valloc ((o.runs.filter (·.1 == sched)).map (·.2)) with
    | none => none
    | some b => some ({ o with slots := (sched, i) :: o.slots, runs := (sched, b, valloc) :: o.runs, acc := o.acc + quota },
        sched, i, b)

/-- Several waves added in WAVEID order (06/R179). -/
def Occ.addWaves (o : Occ) (start : Nat) : List Role → Option (Occ × List (Nat × Nat × Nat))
  | [] => some (o, [])
  | r :: rs => do
    let (o, p) ← o.addWave (start % 4) r.valloc r.acc
    let (o, ps) ← o.addWaves (start + 1) rs
    return (o, p :: ps)

/-- A block added: the places of its waves and the start of its scratchpad run (12/R334). -/
def Occ.addBlock (o : Occ) (r : Rec) : Option (Occ × List (Nat × Nat × Nat) × Nat) :=
  if Config.coreBlocks ≤ o.blocks ∨ 16 < o.acc + r.accNeed then none
  else match freeRun Config.scratchBytes 64 r.scratchNeed o.spad with
    | none => none
    | some b =>
      match o.addWaves o.start (r.waves.map (·.1)) with
      | none => none
      | some (o, ps) => some ({ o with spad := (b, r.scratchNeed) :: o.spad, blocks := o.blocks + 1,
                                       start := (o.start + r.waves.length) % 4 }, ps, b)

/-- Whether placement may use a core: not closed, not fenced, not awaiting a retest, and its die's scheduler firmware is not
being replaced (01/R48, 17/R428, 18/R442). -/
def State.openCore (s : State) (c : CoreId) : Bool :=
  let k := s.core c
  let busy := s.dev.fwState == .handover || s.dev.fwState == .probation || s.dev.fwState == .fallback
  !k.closed && k.bin != 3#2 && k.retest == .no && s.dev.powered &&
    !(busy && s.dev.staged.any fun i => i.role == 1#2 && i.die == c.extractLsb' 7 2)

/-- A core's occupancy, full when placement may not use it. -/
def State.openOcc (s : State) (c : CoreId) : Occ :=
  let o := s.occ c
  if s.openCore c then o else { o with blocks := Config.coreBlocks }

/-- The cores of a quad. -/
def quadCores (q : QuadId) : List CoreId := (List.range 4).map fun i => q ++ BitVec.ofNat 2 i
/-- The quads of the device. -/
def allQuads : List QuadId := (List.range 128).map (BitVec.ofNat 7)

/-- The stack slices of a context that no wave holds (06/R189). -/
def State.freeSlices (s : State) (cx : CtxId) : List Nat :=
  let used := (s.allWaves.filter fun w => w.key.launch != 0 && w.ctx == cx && w.life != .ended).map (·.sliceIdx)
  (List.range (s.ctxOf cx).stkcount).filter fun i => !used.contains i

/-- The core, of those given, that a block goes to: the most free wave slots among those it fits, ties to the lower
number (12/R335). -/
def pickCore (r : Rec) (os : List (CoreId × Occ)) : Option (CoreId × Occ × List (Nat × Nat × Nat) × Nat) :=
  os.foldl (fun best x =>
    match x.2.addBlock r with
    | none => best
    | some fit =>
      match best with
      | some b => if b.2.1.slots.length ≤ x.2.slots.length + r.waves.length then best else some (x.1, fit)
      | none => some (x.1, fit)) none

/-- How many of `n` blocks fit a quad's cores at once (12/R336). -/
def fitCount (r : Rec) : Nat → List (CoreId × Occ) → Nat
  | 0, _ => 0
  | n + 1, os =>
    match pickCore r os with
    | none => 0
    | some (c, o, _) => 1 + fitCount r n (os.map fun x => if x.1 = c then (c, o) else x)

/-- The occupancies of a quad. -/
def State.quadOcc (s : State) (q : QuadId) : List (CoreId × Occ) := (quadCores q).map fun c => (c, s.openOcc c)

/-- Blocks of a new gang that fit a quad at once, stack slices included (12/R334, R336). -/
def State.fitNew (s : State) (l : Launch) (q : QuadId) : Nat :=
  let w := l.record.waves.length
  let bySlices := if w = 0 then l.record.blocks else (s.freeSlices l.ctx).length / w
  min (fitCount l.record l.record.blocks (s.quadOcc q)) bySlices

/-- Gangs that hold resources. -/
def State.residentGangs (s : State) : List Gang :=
  s.allGangs.filter fun g => g.key.launch != 0 && (g.state == .placing || g.state == .resident || g.state == .saving)

/-- The reserving gang of a quad (12/R336). -/
def State.reserving (s : State) (q : QuadId) : Option Gang := s.residentGangs.find? fun g => g.quad == q && g.state == .placing

/-- Whether the gang buffer of a launch fits the free reserve of a quad's vault, which a fenced vault does not have (12/R334,
17/R430). -/
def State.bufferFits (s : State) (l : Launch) (q : QuadId) : Bool :=
  let used := ((s.residentGangs.filter (·.quad == q)).map fun g => (s.recordOf g.key.launch).gbuf).sum
  let reserve := if (pick s.vaults q).bin = 3#2 then 0 else s.dev.gbres
  l.record.gbuf == 0 || decide (used + l.record.gbuf ≤ reserve)

/-- Whether the next block of a quad's reserving gang fits it, so that what is free there goes to that block (12/R336). -/
def State.reserverFits (s : State) (q : QuadId) : Bool :=
  match (s.reserving q).bind fun g => s.findLaunch g.key.launch with
  | none => false
  | some l => decide (l.record.waves.length ≤ (s.freeSlices l.ctx).length) && (pickCore l.record (s.quadOcc q)).isSome

/-! ### Joint budgets (12/R338, R339) -/

/-- Cores that hold a block of a budget class. -/
def State.classCores (s : State) (cls : Nat) : List CoreId :=
  ((s.allBlocks.filter fun b => s.blockOccupies b && (s.recordOf b.key.launch).bclass == cls).map (·.core)).dedup

/-- The joint budgets of a class for more blocks, one on each of some cores. -/
def State.budgetFor (s : State) (r : Rec) (cs : List CoreId) : Bool :=
  let b := pick s.dev.budgets (BitVec.ofNat 4 r.bclass)
  decide ((s.classCores r.bclass ++ cs).dedup.length ≤ b.cores) && (b.bw == 0 || decide (b.usedBw ≤ b.bw)) &&
    (b.pwr == 0 || decide (b.usedPwr + 600 * r.waves.length * cs.length ≤ b.pwr))
/-- The joint budgets of a class for one more block on a core. -/
def State.budgetOk (s : State) (r : Rec) (c : CoreId) : Bool := s.budgetFor r [c]

/-- A class's estimate with `n` more waves (12/R339). -/
def State.chargeClass (s : State) (r : Rec) (n : Nat) : State :=
  let cls : BitVec 4 := BitVec.ofNat 4 r.bclass
  let b := pick s.dev.budgets cls
  { s with dev := { s.dev with budgets := put s.dev.budgets cls { b with usedPwr := b.usedPwr + 600 * n } } }

/-! ### Saved gangs (12/R335, R339, R346) -/

/-- The blocks of a gang that have not retired, in ascending BLKIDX (12/R335). -/
def State.liveBlocks (s : State) (k : GangKey) : List Block :=
  (List.range 16).filterMap fun i => s.allBlocks.find? fun b => b.key.launch != 0 && b.key == ⟨k.launch, k.gang, i⟩ && !b.retired

/-- Where the blocks of a saved gang go on a quad, one after another (12/R335, R346). -/
def planBlocks (r : Rec) : List Block → List (CoreId × Occ) → List (Block × CoreId × List (Nat × Nat × Nat) × Nat)
  | [], _ => []
  | b :: bs, os =>
    match pickCore r os with
    | none => []
    | some (c, o, ps, spad) => (b, c, ps, spad) :: planBlocks r bs (os.map fun x => if x.1 = c then (c, o) else x)

/-- The plan for a saved gang on a quad that can take it whole: its waves keep their stack slices, and their accumulators find
slots that no pending release holds (06/R189, 10/R293, R294, 12/R346). -/
def State.restorePlan (s : State) (l : Launch) (g : Gang) (q : QuadId) : Option (List (Block × CoreId × List (Nat × Nat × Nat) × Nat)) :=
  let bs := s.liveBlocks g.key
  let p := planBlocks l.record bs (s.quadOcc q)
  let need (c : CoreId) : Nat :=
    ((s.allWaves.filter fun w => p.any fun x => x.2.1 == c && x.1.key == w.key.block).map fun w => w.savedAccs.length).sum
  let free (c : CoreId) : Nat := (s.core c).slots.toList.countP (·.owner.isNone)
  if p.length = bs.length ∧ (quadCores q).all fun c => decide (need c ≤ free c) then some p else none

/-- Whether a quad can take a saved gang now. -/
def State.canRestore (s : State) (l : Launch) (g : Gang) (q : QuadId) : Bool :=
  s.bufferFits l q && !s.reserverFits q && (s.restorePlan l g q).isSome

/-! ### Candidates (12/R336, R337) -/

/-- A candidate of the dispatcher: the next unplaced gang of a launch, or a saved gang. -/
inductive Cand where
  | fresh (l : Launch)
  | saved (l : Launch) (g : Gang)
  deriving DecidableEq, Repr

/-- The launch of a candidate, its time in line and whether it is aged. -/
def Cand.launch : Cand → Launch
  | .fresh l | .saved l _ => l
@[inherit_doc Cand.launch] def Cand.since : Cand → Nat
  | .fresh l => l.waitFrom
  | .saved _ g => g.waitFrom
@[inherit_doc Cand.launch] def Cand.aged : Cand → Bool
  | .fresh l => l.aged
  | .saved _ g => g.aged
/-- Whether the candidate is a saved gang. -/
def Cand.isSaved : Cand → Bool
  | .fresh _ => false
  | .saved _ _ => true

/-- The order of 12/R336. -/
def Cand.before (a b : Cand) : Bool :=
  let p := a.launch.record.prio
  let q := b.launch.record.prio
  decide (q < p) || (p == q && ((a.isSaved && !b.isSaved) || (a.isSaved == b.isSaved && decide (a.since < b.since))))

/-- Insertion in that order. -/
def Cand.insert (c : Cand) : List Cand → List Cand
  | [] => [c]
  | d :: ds => if d.before c then d :: Cand.insert c ds else c :: d :: ds

/-- Whether a launch has an unplaced gang. -/
def Launch.unplaced (l : Launch) : Bool := l.returned != [] || decide (l.nextGang < l.record.gangs)

/-- The candidates in the order they are served (12/R336, R343). -/
def State.candidates (s : State) : List Cand :=
  let open' (cx : CtxId) : Bool := (s.ctxOf cx).en && !(s.ctxOf cx).switchedOut
  let fresh := (s.allLaunches.filter fun l => l.id != 0 && l.state == .placing && l.unplaced && open' l.ctx).map Cand.fresh
  let saved := (s.allGangs.filter fun g => g.key.launch != 0 && g.state == .saved && open' g.ctx).filterMap fun g =>
    (s.findLaunch g.key.launch).map fun l => Cand.saved l g
  (saved ++ fresh).foldr Cand.insert []

/-- The quad of a list that takes most blocks of a new gang, ties to the lower number; a quad with a reserving gang takes none
(12/R336). -/
def State.bestQuad (s : State) (l : Launch) : List QuadId → Option (QuadId × Nat)
  | [] => none
  | q :: qs =>
    let rest := s.bestQuad l qs
    let k := if (s.reserving q).isNone && s.bufferFits l q then s.fitNew l q else 0
    if k = 0 then rest
    else match rest with
      | some r => if k < r.2 then rest else some (q, k)
      | none => some (q, k)

/-- Save slots of a context that resident and saved gangs leave (12/R347). -/
def State.slotsLeft (s : State) (cx : CtxId) : Nat :=
  (s.ctxOf cx).savecount - s.allGangs.countP fun g => g.key.launch != 0 && g.ctx == cx && g.state != .retired

/-- The quad on which a new gang starts: the joint budgets allow its first block there (12/R336, R339). -/
def State.placeNew (s : State) (l : Launch) : Option QuadId :=
  if s.slotsLeft l.ctx = 0 then none
  else match s.bestQuad l allQuads with
    | none => none
    | some (q, _) =>
      match pickCore l.record (s.quadOcc q) with
      | some (c, _) => if s.budgetOk l.record c then some q else none
      | none => none

/-- Whether a replacement of firmware holds saves, restores and switches back (18/R442). -/
def State.fwHolds (s : State) : Bool :=
  s.dev.fwState == .handover || s.dev.fwState == .probation || s.dev.fwState == .fallback

/-- The quad on which a saved gang resumes: the first that can take it, when the joint budgets allow all its blocks; none while a
replacement of firmware makes restores wait (12/R336, R339, R346, 18/R442). -/
def State.placeSaved (s : State) (l : Launch) (g : Gang) : Option QuadId :=
  match allQuads.find? (s.canRestore l g) with
  | none => none
  | some q => if s.fwHolds then none else if s.budgetFor l.record (((s.restorePlan l g q).getD []).map (·.2.1)) then some q else none

/-- The quad on which a candidate can start now. -/
def State.placeOf (s : State) : Cand → Option QuadId
  | .fresh l => s.placeNew l
  | .saved l g => s.placeSaved l g

/-- The candidate that starts next: the first that can. An aged one that cannot bars the new gangs behind it, and no saved gang; `barred`
says that one has been passed (12/R336, R337). -/
def State.nextStart (s : State) (barred : Bool) : List Cand → Option (Cand × QuadId)
  | [] => none
  | c :: cs =>
    match (if barred && !c.isSaved then none else s.placeOf c) with
    | some q => some (c, q)
    | none => s.nextStart (barred || c.aged) cs

/-- GANG_START: the next candidate, when it is a new gang, starts on its quad and reserves it (12/R336, R337). -/
def execGangStart (s : State) : Out :=
  match s.nextStart false s.candidates with
  | some (.fresh l, q) =>
    let idx := match l.returned.min? with
      | some i => i
      | none => l.nextGang
    let (t, s) := s.takeTicket
    let held := (s.allGangs.filter fun g => g.key.launch != 0 && g.ctx == l.ctx && g.state != .retired).map (·.saveSlot)
    let g : Gang :=
      { key := ⟨l.id, idx⟩, ctx := l.ctx, quad := q, state := .placing, placed := 0, blocks := l.record.blocks,
        gcap := 16 * l.record.gbuf, place := Place.empty, waitFrom := t, aged := false, started := t, killed := false,
        saveSlot := ((List.range (held.length + 1)).find? fun i => !held.contains i).getD 0 }
    let l' : Launch :=
      { l with
        returned := l.returned.filter (· != idx)
        nextGang := if l.returned = [] then l.nextGang + 1 else l.nextGang
        waitFrom := t
        aged := false }
    .next ({ s with gangs := s.gangs ++ [g] }.setLaunch l')
  | _ => .next s

/-! ### Placing a block (06/R183, R184, 12/R335) -/

/-- A new wave (06/R184). -/
def newWave (l : Launch) (g : Gang) (cx : Ctx) (c : CoreId) (blk wid : Nat) (role : Role × Nat) (at_ : Nat × Nat × Nat)
    (slice stamp : Nat) : Wave :=
  let i := g.key.gang
  let lo := cx.stkbase + BitVec.ofNat 64 (cx.stkslice * slice)
  let sp := lo + BitVec.ofNat 64 cx.stkslice
  let zeros : Vector Word 64 := Vector.replicate 64 0#32
  let regs := (((zeros.set 0 l.recPtr.lo).set 1 l.recPtr.hi).set 52 sp.lo).set 53 sp.hi
  let ones := BitVec.allOnes 32
  { Wave.absent with
    key := ⟨l.id, i, blk, wid⟩
    ctx := l.ctx
    gx := i % l.record.gridx
    gy := i / l.record.gridx % l.record.gridy
    gz := i / (l.record.gridx * l.record.gridy)
    stage := role.2
    core := c
    sched := BitVec.ofNat 2 at_.1
    slot := at_.2.1
    stamp := stamp
    prio := l.record.prio
    wbase := at_.2.2
    valloc := role.1.valloc
    quota := role.1.acc
    pc := l.record.code
    sregs := ((regs.set 61 ones).set 62 ones).set 63 ones
    status := (if cx.wcomp then stWCOMP else 0) ||| (if cx.diag then stDIAG else 0)
    tvec := l.record.tvec
    slimit := lo
    sliceIdx := slice
    life := .created }

/-- A new block: its scratchpad zero, its barriers and queues as declared (06/R183, 09/R268). -/
def newBlock (l : Launch) (g : Gang) (c : CoreId) (blk spad : Nat) : Block :=
  { Block.absent with
    key := ⟨l.id, g.key.gang, blk⟩
    ctx := l.ctx
    core := c
    spad := spad
    localSize := l.record.localBytes
    bcap := 16 * l.record.bbuf
    queues := Vector.ofFn fun q : Fin 8 =>
      let d := l.record.queues.getD q.1 ⟨0, 0, 0, 0⟩
      ⟨d.prod, d.cons, d.cap, d.ring, 0, 0, 0⟩
    waves := l.record.waves.length
    retired := false }

/-- The waves of a gang that were Created become Ready (06/R191). -/
def State.releaseGang (s : State) (k : GangKey) : State :=
  s.mapWaves fun w => if w.key.gangKey = k ∧ w.life = .created then { w with life := .ready } else w

/-- A gang all of whose blocks are placed is resident; a launch all of whose gangs are placed whole runs (06/R191, 12/R333). -/
def State.gangPlaced (s : State) (g : Gang) : State :=
  let s := (s.setGang { g with state := .resident }).releaseGang g.key
  match s.findLaunch g.key.launch with
  | none => s
  | some l =>
    if l.state = .placing ∧ !l.unplaced ∧ !(s.allGangs.any fun x => x.key.launch == l.id && x.state == .placing) then
      s.setLaunch { l with state := .running }
    else s

/-- The next dispatch stamp of a scheduler (01/R33). -/
def Core.takeStamp (k : Core) (sched : BitVec 2) : Nat × Core := (pick k.stamps sched, { k with stamps := put k.stamps sched (pick k.stamps sched + 1) })

/-- The waves of a new block with their places and stamps, in WAVEID order (06/R183, 01/R33). -/
def newWaves (mk : Nat → Role × Nat → Nat × Nat × Nat → Nat → Wave) : Nat → List ((Role × Nat) × Nat × Nat × Nat) → Core → List Wave × Core
  | _, [], k => ([], k)
  | i, x :: xs, k =>
    let (stamp, k) := k.takeStamp (BitVec.ofNat 2 x.2.1)
    let (ws, k) := newWaves mk (i + 1) xs k
    (mk i x.1 x.2 stamp :: ws, k)

/-- A block put on a core: its waves, its objects, the core's start pointer, the class's estimate (06/R183, 12/R339). Its waves take the lowest
free stack slices in WAVEID order (06/R189; DESIGN CHOICE, log 79). -/
def State.putBlock (s : State) (l : Launch) (g : Gang) (c : CoreId) (ps : List (Nat × Nat × Nat)) (spad : Nat) : State :=
  let n := l.record.waves.length
  let slices := s.freeSlices l.ctx
  let (ws, k) := newWaves (fun i role at_ stamp => newWave l g (s.ctxOf l.ctx) c g.placed i role at_ (slices.getD i 0) stamp) 0
    (List.zip l.record.waves ps) (s.core c)
  let s : State := { s with waves := s.waves ++ ws, blocks := s.blocks ++ [newBlock l g c g.placed spad] }
  let s := (s.setCore c { k with start := k.start + BitVec.ofNat 2 n }).chargeClass l.record n
  let g' : Gang := { g with placed := g.placed + 1 }
  if g'.placed = g'.blocks then s.gangPlaced g' else s.setGang g'

/-- BLOCK_DISPATCH: the next block of a quad's reserving gang is placed, when it fits and its budgets allow it
(06/R183, 12/R334, R335, R339). -/
def execBlockDispatch (s : State) : Out :=
  let q := s.facts.quad
  match s.reserving q with
  | none => .next s
  | some g =>
    match s.findLaunch g.key.launch with
    | none => .next s
    | some l =>
      if (s.ctxOf l.ctx).switchedOut ∨ (s.freeSlices l.ctx).length < l.record.waves.length then .next s
      else match pickCore l.record (s.quadOcc q) with
        | none => .next s
        | some (c, _, ps, spad) => .next (if s.budgetOk l.record c then s.putBlock l g c ps spad else s)

/-- CANDIDATE_AGED: a candidate has waited AGE cycles (12/R337); that they have passed is what the event says (log 12). -/
def execCandidateAged (s : State) : Out :=
  match s.findGang s.facts.gangKey with
  | some g =>
    if g.key.launch ≠ 0 ∧ g.state = .saved then .next (s.setGang { g with aged := true })
    else .next s
  | none =>
    match s.findLaunch s.facts.launch with
    | some l => .next (if l.id ≠ 0 ∧ l.state = .placing ∧ l.unplaced then s.setLaunch { l with aged := true } else s)
    | none => .next s

/-- POWER_ESTIMATE: what a class has moved and draws (12/R339). -/
def execPowerEstimate (s : State) : Out :=
  let b := pick s.dev.budgets s.facts.id
  .next { s with dev := { s.dev with budgets := put s.dev.budgets s.facts.id { b with usedBw := s.facts.size, usedPwr := s.facts.num } } }

/-! ### Moves that the device makes (07/R214, R215, 14/R387, 15/R406) -/

/-- Runs an act with a block and its gang in focus under no wave, as the device on a core, and puts the focus back. -/
def State.asDevice (s : State) (c : CoreId) (cx : CtxId) (b : Option BlockKey) (k : GangKey) (a : Act Unit) : Option Halt × State :=
  let home := s.w.key
  let t := s.unfocus
  let blk := (b.bind t.findBlock).getD Block.absent
  let gang := (t.findGang k).getD Gang.absent
  let w : Wave := { Wave.absent with core := c, ctx := cx }
  let t : State := { t with
    w := w
    blk := blk
    gang := gang
    blocks := t.blocks.filter fun x => x.key.launch = 0 || x.key != blk.key
    gangs := t.gangs.filter fun x => x.key.launch = 0 || x.key != gang.key }
  let (h, t) := match a t with
    | .ok (_, t) => (none, t)
    | .error (h, t) => (some h, t)
  let t := t.unfocus
  (h, if home.launch = 0 then t else t.focusOn home)

/-- What a device move that stops waits for: a pool, a combining, a home, with a record when a retry window has passed, or room at a
marked level (14/R387, 15/R398, R406, log 25). -/
def State.deviceWait (s : State) (cx : CtxId) (unit : UnitId) (i : Instr) : Halt → State
  | .trap t => if t.cause = .shadow then s.waitPool cx cx.toNat t.taddr.toNat unit i 0 5 else s
  | .park p => s.waitPool (p.pool.getD cx) cx.toNat p.addr.toNat unit i 0 5
  | .combine c line => s.waitCombine c line
  | .recall dev line => s.lookAgain dev line
  | .wait (.remote _ va _) => if s.facts.ok then s else s.linkRecord cx va.toNat unit
  | .wait _ => s

/-! ### Retirement (06/R188, 07/R215) -/

/-- Whether engine or array work that waves of a block, or of a gang, started is still running (06/R188, 12/R344). -/
def State.busyWork (s : State) (mine : WaveKey → Bool) : Bool :=
  s.cores.toList.any fun c => (c.kicks.any fun k => mine k.owner) || (c.walks.any fun k => mine k.owner) ||
    (c.loops.any fun l => mine l.owner)

/-- A gang all of whose blocks have retired: Move(G, D), or a discard when it was killed; then it retires and its launch
counts it (07/R215, 13/R362). -/
def State.retireGang (s : State) (g : Gang) (i : Instr) : State :=
  let done (s : State) : State :=
    let s := s.setGang { g with state := .retired, place := Place.empty }
    match s.findLaunch g.key.launch with
    | some l => s.setLaunch { l with retired := l.retired + 1 }
    | none => s
  if g.killed then done s
  else match s.asDevice (g.quad ++ 0#2) g.ctx none g.key moveGD with
    | (none, s) => done s
    | (some h, s) => s.deviceWait g.ctx (wholeQuad g.quad) i h

/-- Whether every block of a gang has retired. -/
def State.blocksRetired (s : State) (g : Gang) : Bool :=
  decide (g.placed = g.blocks) && (s.allBlocks.filter fun b => b.key.launch != 0 && b.key.gangKey == g.key).all (·.retired)

/-- A block that may retire: Move(B, G), and the local area ends (07/R215). -/
def State.retireBlock (s : State) (b : Block) (g : Gang) (i : Instr) : State :=
  let close (s : State) : State :=
    let s := s.setBlock { b with retired := true, scratch := [], poison := [], tags := [], place := Place.empty }
    match s.findGang g.key with
    | some g => if s.blocksRetired g then s.retireGang g i else s
    | none => s
  if g.killed then close s
  else match s.asDevice b.core b.ctx (some b.key) g.key moveBG with
    | (none, s) => close s
    | (some h, s) => s.deviceWait b.ctx (wholeCore b.core) i h

/-- BLOCK_RETIREMENT: a block whose waves have ended and whose work is done retires, its gang with its last block
(06/R188). -/
def execBlockRetirement (s : State) : Out :=
  match s.findBlock s.facts.block with
  | none => .next s
  | some b =>
    match s.findGang b.key.gangKey with
    | none => .next s
    | some g =>
      if b.key.launch = 0 ∨ !s.dev.powered ∨ g.state ≠ .resident then .next s
      else if b.retired then .next (if s.blocksRetired g then s.retireGang g .blockRetirement else s)
      else if (s.allWaves.any fun w => w.key.block == b.key && w.life != .ended) ∨ s.busyWork fun k => k.block == b.key then .next s
      else .next (s.retireBlock b g .blockRetirement)

/-! ### Pre-emption and save (12/R343 to R345) -/

/-- A gang that is only partly placed is released: it becomes an unplaced gang again (12/R343). -/
def State.unplace (s : State) (g : Gang) : State :=
  let home := s.w.key
  let t := s.unfocus
  let t : State := { t with
    waves := t.waves.filter fun w => w.key.gangKey != g.key
    blocks := t.blocks.filter fun b => b.key.gangKey != g.key
    gangs := t.gangs.filter fun x => x.key != g.key }
  let t := match t.findLaunch g.key.launch with
    | some l => t.setLaunch { l with returned := g.key.gang :: l.returned }
    | none => t
  if home.launch = 0 then t else t.focusOn home

/-- A save of a gang is requested: its waves stop issuing, what they fetched is discarded (12/R344 step 1). -/
def State.requestSave (s : State) (g : Gang) : State :=
  if g.state = .placing then s.unplace g
  else if g.state = .resident then
    (s.setGang { g with state := .saving }).mapWaves fun w => if w.key.gangKey = g.key then { w with fetched := [], decoded := [] } else w
  else s

/-- The state as it would be were every saving gang saved. -/
def State.afterSaves (s : State) : State :=
  let saving (k : GangKey) : Bool := s.allGangs.any fun g => g.key == k && g.state == .saving
  (s.mapWaves fun w => if saving w.key.gangKey then { w with saved := true } else w).mapGangs fun g =>
    if g.state = .saving then { g with state := .saved } else g

/-- Whether a candidate fits a quad once the saves in progress are done. -/
def State.fitsAfter (s : State) (c : Cand) (q : QuadId) : Bool :=
  let t := s.afterSaves
  match c with
  | .fresh l => (t.reserving q).isNone && t.bufferFits l q && decide (l.record.blocks ≤ t.fitNew l q)
  | .saved l g => t.canRestore l g q

/-- Saves requested, youngest first, until a candidate fits a quad. -/
def makeRoom (c : Cand) (q : QuadId) : List Gang → State → Option State
  | [], s => if s.fitsAfter c q then some s else none
  | g :: gs, s => if s.fitsAfter c q then some s else makeRoom c q gs (s.requestSave g)

/-- Gangs, youngest first. -/
def insertYoung (g : Gang) : List Gang → List Gang
  | [] => [g]
  | h :: hs => if g.started ≤ h.started then h :: insertYoung g hs else g :: h :: hs

/-- PRIORITY_PREEMPTION: with feature PPRE on, an aged candidate of priority 7 that cannot start has the youngest gangs of
priority 0 to 3 on a quad saved until it fits there (12/R343, 15/R415). -/
def execPriorityPreemption (s : State) : Out :=
  let q := s.facts.quad
  match s.candidates.find? fun c => c.aged && c.launch.record.prio == 7 && (s.placeOf c).isNone with
  | none => .next s
  | some c =>
    if !s.dev.featack[0].getLsbD 2 ∨ s.fwHolds then .next s
    else
      let low := s.residentGangs.filter fun g => g.quad == q && decide ((s.recordOf g.key.launch).prio ≤ 3)
      .next ((makeRoom c q (low.foldr insertYoung []) s).getD s)

/-- The stack-cache bytes of a wave written back: what a RET has left in the cache is live, whatever sp software has set since
(06/R190). -/
def flushStack (w : Wave) : Act Unit := stkWriteBack w.stk

/-- Runs an act with a wave in focus; a stop keeps the state it had reached. -/
def State.inWave (s : State) (k : WaveKey) (a : Act Unit) : Option Halt × State :=
  match s.asWave k a with
  | .ok (_, t) => (none, t)
  | .error (h, t) => (some h, t)

/-- A marked place at a save: its lines go to the shadow pool while it has `free` lines, the rest to the save slot (07/R214). -/
def Place.toPool (p : Place) (free : Nat) : Place :=
  let step (acc : List BLine × Nat) (b : BLine) : List BLine × Nat :=
    if b.held ≠ .place then (acc.1 ++ [b], acc.2)
    else if 0 < acc.2 then (acc.1 ++ [{ b with held := .pool }], acc.2 - 1)
    else (acc.1 ++ [{ b with held := .save }], 0)
  { p with lines := (p.lines.foldl step ([], free)).1 }

/-- A marked place at a resume: lines return to its own storage, those of the save slot before those of the pool (07/R214). -/
def Place.fromPool (p : Place) (cap : Nat) : Place :=
  let back := min cap (p.lines.countP (·.held == .save))
  let step (acc : List BLine × Nat × Nat) (b : BLine) : List BLine × Nat × Nat :=
    if b.held = .save then (if 0 < acc.2.1 then (acc.1 ++ [{ b with held := .place }], acc.2.1 - 1, acc.2.2) else (acc.1 ++ [b], acc.2))
    else if 0 < acc.2.2 then (acc.1 ++ [{ b with held := .place }], acc.2.1, acc.2.2 - 1)
    else (acc.1 ++ [{ b with held := .pool }], acc.2)
  { p with lines := (p.lines.foldl step ([], back, cap - back)).1 }

/-- The part of a save that acts on one wave: the stack cache is written back, and an unmarked W moves into B
(06/R190, 07/R214). -/
def saveWave : Act Unit := do
  let s ← get
  flushStack s.w
  modify fun s => { s with w := { s.w with stk := [] } }
  if !(← get).w.wbuf.marked then moveWB

/-- The waves of a gang, in the order of their blocks and numbers as the state lists them. -/
def State.gangWaves (s : State) (k : GangKey) : List Wave := s.allWaves.filter fun w => w.key.launch != 0 && w.key.gangKey == k

/-- One line of a save slot written at D: it waits for a restore, partials are recalled, and snapshots take their copies (07/R222, 08/R245,
14/R382, R387); a line beyond the device's memory is lost (13/R376, log 15). -/
def State.writeSlotLine (s : State) (line : Nat) (bs : List (Nat × Byte)) : Option Halt × State :=
  if !hasMemory (64 * line) then (none, s)
  else match s.recallFor s.dev.devnum line with
    | .error none => (some (.wait .memdep), s)
    | .error (some (c, line)) => (some (.combine c line), s)
    | .ok s =>
      match s.homeWrite (some hostAgent) none line bs with
      | .error c => (some (.park { cause := .shadowpark, addr := BitVec.ofNat 64 (64 * line), access := 5, pool := some c }), s)
      | .ok s => (none, s)

/-- The lines of a gang's save slot written with the image of the gang, whose layout the manual does not give (12/R344, R345, R347,
log 19); the first stop ends it. -/
def State.writeSlot (s : State) (g : Gang) : Option Halt × State :=
  let c := s.ctxOf g.ctx
  let n := min c.savesize ((s.recordOf g.key.launch).image)
  let base := lineOf (c.savebase + c.savesize * g.saveSlot)
  (List.range (n / 64)).foldl (init := (none, s)) fun r i =>
    match r.1 with
    | some _ => r
    | none => r.2.writeSlotLine (base + i) <|
        (List.range 64).map fun o => (64 * (base + i) + o, Config.savedByte r.2.turn (64 * i + o))

/-- The moves of a save in the order W, B, G, and then the write of the save slot; the first stop ends them (07/R214, 12/R344). -/
def State.saveMoves (s : State) (g : Gang) : Option (Halt × UnitId) × State :=
  let r : Option (Halt × UnitId) × State := (s.gangWaves g.key).foldl (init := (none, s)) fun r w =>
    match r.1 with
    | some _ => r
    | none => if w.life == .ended then r else match r.2.inWave w.key saveWave with
      | (none, s) => (none, s)
      | (some h, s) => (some (h, wholeCore w.core), s)
  let r := (s.liveBlocks g.key).foldl (init := r) fun r b =>
    match r.1 with
    | some _ => r
    | none => if b.place.marked then r else match r.2.asDevice b.core b.ctx (some b.key) g.key moveBG with
      | (none, s) => (none, s)
      | (some h, s) => (some (h, wholeCore b.core), s)
  match r.1 with
  | some _ => r
  | none =>
    let r := if g.place.marked then r else match r.2.asDevice (g.quad ++ 0#2) g.ctx none g.key moveGD with
      | (none, s) => (none, s)
      | (some h, s) => (some (h, wholeQuad g.quad), s)
    match r.1 with
    | some _ => r
    | none =>
      let x := r.2.writeSlot g
      (x.1.map fun h => (h, wholeQuad g.quad), x.2)

/-- A life whose times are counted from a core's CYCLE, with `f` applied to them: the deadline of MB.WAIT and the start of YIELD
(06/R186, 09/R267). -/
def Life.rebase (f : Nat → Nat) : Life → Life
  | .waiting (.mbwait o sd p d e) => .waiting (.mbwait o sd p (d.map f) e)
  | .waiting (.yield since set) => .waiting (.yield (f since) set)
  | l => l

/-- A wave as its save slot holds it: the contents of its accumulator slots go with it, and what is left of a timeout. It has left Ready
(12/R345, 09/R267, 04/R139). -/
def State.savedWave (s : State) (w : Wave) : Wave :=
  let accs := (List.range 16).filterMap fun a => (pick w.accs (BitVec.ofNat 4 a)).map fun i =>
    ((BitVec.ofNat 4 a : BitVec 4), pick (s.core w.core).slots i)
  { w with
    saved := true
    savedAccs := accs
    accs := Vector.replicate 16 none
    wbuf := w.wbuf.toPool (s.poolFree w.ctx)
    left := w.left + 1
    life := w.life.rebase (· - (s.core w.core).cycle) }

/-- The gang enters its save slot and its resources are freed (12/R344 step 4). -/
def State.enterSlot (s : State) (g : Gang) : State :=
  let s := (s.gangWaves g.key).foldl (init := s) fun s w =>
    if w.life == .ended then s
    else
      let s := s.setWave (s.savedWave w)
      let free (t : Slot) : Slot := if t.owner == some w.key then Slot.bound none else t
      s.setCore w.core { s.core w.core with slots := (s.core w.core).slots.map free }
  let s := (s.liveBlocks g.key).foldl (init := s) fun s b => s.setBlock { b with place := b.place.toPool (s.poolFree b.ctx) }
  let (t, s) := s.takeTicket
  match s.findGang g.key with
  | none => s
  | some g => s.setGang { g with state := .saved, place := g.place.toPool (s.poolFree g.ctx), waitFrom := t, aged := false }

/-- Whether a gang's waves have a restore in progress (14/R392). -/
def State.gangRestoring (s : State) (k : GangKey) : Bool := s.restores.any fun r => r.wave.gangKey == k

/-- The switch of a context that is held up starts (18/R439, R442). -/
def State.startHeld (s : State) (cx : CtxId) : State :=
  match (s.ctxOf cx).cmdHeld with
  | none => s
  | some k =>
    (s.setCtx cx { s.ctxOf cx with cmdHeld := none }).starts (if k = 2#2 then .contextSwitchIn else .contextSwitchOut) { s.facts with ctx := cx }

/-- A switch of the context that waited for its saves starts when the last one is over (18/R439). -/
def State.releaseSwitch (s : State) (cx : CtxId) : State :=
  if !s.fwHolds && !(s.residentGangs.any fun g => g.ctx == cx && g.state == .saving) then s.startHeld cx else s

/-- GANG_SAVE: a gang whose save was requested, once its engine work has ended, handles its places and enters its save slot
(12/R344). -/
def execGangSave (s : State) : Out :=
  match s.findGang s.facts.gangKey with
  | none => .next s
  | some g =>
    if g.key.launch = 0 ∨ !s.dev.powered ∨ g.state ≠ .saving ∨ s.gangRestoring g.key ∨ (s.busyWork fun k => k.gangKey == g.key) then .next s
    else match s.saveMoves g with
      | (none, s) => .next ((s.enterSlot g).releaseSwitch g.ctx)
      | (some (h, u), s) => .next (s.deviceWait g.ctx u .gangSave h)

/-! ### Restore (12/R346) -/

/-- Free accumulator slots of a core taken by a restored wave, one for each it had bound; the plan of the restore has seen to it
that there are enough (10/R293). -/
def Core.rebind (c : Core) (k : WaveKey) : List (BitVec 4 × Slot) → Core × List (BitVec 4 × BitVec 4)
  | [] => (c, [])
  | (a, t) :: ts =>
    match ((List.range 16).map (BitVec.ofNat 4)).find? fun i => (pick c.slots i).owner.isNone with
    | none => c.rebind k ts
    | some i =>
      let (c, m) := { c with slots := put c.slots i { t with owner := some k } }.rebind k ts
      (c, (a, i) :: m)

/-- A restored wave on its new core: a new window and place; its pending writes go with it, but for those of the endpoint; its timeout
and its watchdog go on by the new core's CYCLE; stale words of the core are dropped (07/R204, 09/R267, 12/R346). -/
def State.restoreWave (s : State) (w : Wave) (c : CoreId) (at_ : Nat × Nat × Nat) : State :=
  let old := w.core
  let mine (p : PendingWrite) : Bool := p.wave == w.key && decide (p.lane < 96)
  let (k, binds) := (s.core c).rebind w.key w.savedAccs
  let moved := (s.core old).writes.filter mine
  let s := s.setCore c k
  let s := s.setCore old { s.core old with writes := (s.core old).writes.filter fun p => !mine p }
  let s := s.setCore c { s.core c with writes := (s.core c).writes ++ moved }
  let accs := binds.foldl (fun (v : Vector (Option (BitVec 4)) 16) x => put v x.1 (some x.2)) w.accs
  (s.setWave { w with
    core := c, sched := BitVec.ofNat 2 at_.1, slot := at_.2.1, wbase := at_.2.2, accs := accs, savedAccs := [], saved := false,
    life := w.life.rebase (· + k.cycle), waitFrom := k.cycle, wbuf := w.wbuf.fromPool Config.wLines }).acquire c true

/-- Whether a wave was older than another; the stamps of different schedulers may be equal, and then the waves' numbers decide
(01/R33). -/
def Wave.older (a b : Wave) : Bool :=
  decide (a.stamp < b.stamp) || (a.stamp == b.stamp && decide (16 * a.key.blk + a.key.wid < 16 * b.key.blk + b.key.wid))
/-- Waves in the order of their stamps. -/
def insertStamp (w : Wave) : List Wave → List Wave
  | [] => [w]
  | v :: vs => if v.older w then v :: insertStamp w vs else w :: v :: vs

/-- One block of a saved gang on its new core. -/
def State.restoreBlock (s : State) (n : Nat) (b : Block) (c : CoreId) (ps : List (Nat × Nat × Nat)) (spad : Nat) : State :=
  let s := s.setBlock { b with core := c, spad := spad, place := b.place.fromPool b.bcap }
  let s := (s.allWaves.filter fun w => w.key.block == b.key && w.life != .ended).foldl (init := s) fun s w =>
    s.restoreWave w c (ps.getD w.key.wid (0, 0, 0))
  s.setCore c { s.core c with start := (s.core c).start + BitVec.ofNat 2 n }

/-- New stamps of their new schedulers for the live waves of a gang, in the order of their old ones (01/R33). -/
def State.restamp (s : State) (k : GangKey) : State :=
  (((s.gangWaves k).filter (·.life != .ended)).foldr insertStamp []).foldl (init := s) fun s w =>
    let (stamp, c) := (s.core w.core).takeStamp w.sched
    (s.setCore w.core c).setWave { w with stamp := stamp }

/-- GANG_RESTORE: the next candidate, when it is a saved gang, is restored whole on a quad where it fits
(12/R336, R346). -/
def execGangRestore (s : State) : Out :=
  match s.nextStart false s.candidates with
  | some (.saved l g, q) =>
    let plan := (s.restorePlan l g q).getD []
    let s := plan.foldl (init := s) fun s x => s.restoreBlock l.record.waves.length x.1 x.2.1 x.2.2.1 x.2.2.2
    let s := (s.restamp g.key).chargeClass l.record (l.record.waves.length * plan.length)
    .next (s.setGang { g with quad := q, state := .resident, place := g.place.fromPool g.gcap, aged := false })
  | _ => .next s

end Sys2Proof.Machine
end

