-- ==== Sys2Proof/Machine/Units.lean ====
section
/-! DEFINITION. Units by their UNIT value, their bins and mismatch counters (17/R424 to R431). -/

namespace Sys2Proof.Machine

/-- What a UNIT value names (17/R424). -/
inductive UnitRef where
  | core (c : CoreId)
  | slice (i : BitVec 8)
  | vault (q : BitVec 7)
  | port (p : PortId)
  | channel (i : Fin 1536)
  | none
  deriving DecidableEq, Repr

/-- The fields of a UNIT value. -/
def unitKind (u : UnitId) : Nat := (u.extractLsb' 28 4).toNat
@[inherit_doc unitKind] def unitScope (u : UnitId) : Nat := (u.extractLsb' 16 2).toNat
@[inherit_doc unitKind] def unitCore (u : UnitId) : CoreId := u.extractLsb' 19 9
@[inherit_doc unitKind] def unitIndex (u : UnitId) : Nat := (u.extractLsb' 8 8).toNat
@[inherit_doc unitKind] def unitChan (u : UnitId) : Nat := (u.extractLsb' 0 8).toNat
@[inherit_doc unitKind] def unitDie (u : UnitId) : Nat := (u.extractLsb' 26 2).toNat
@[inherit_doc unitKind] def unitQuad (u : UnitId) : Nat := (u.extractLsb' 21 5).toNat
@[inherit_doc unitKind] def unitCoreIn (u : UnitId) : Nat := (u.extractLsb' 19 2).toNat

/-- Decodes the UNIT of one unit, SCOPE 0: INDEX and CHAN keep to the ranges of its kind, and what the kind does not use is zero.
A unit of kinds 0 to 11 names its core, whose bin it takes; the Tabor endpoint has no bin (17/R424, R428, R430). -/
def kindRef (u : UnitId) : UnitRef :=
  let k := unitKind u
  let inCore (n : Nat) : UnitRef := if unitIndex u < n ∧ unitChan u = 0 then .core (unitCore u) else .none
  if k ≤ 2 ∨ k = 5 then inCore 4
  else if k ≤ 11 then inCore 1
  else if unitCoreIn u ≠ 0 then .none
  else if k = 13 then (if unitIndex u = 0 ∧ unitChan u = 0 then .vault (u.extractLsb' 21 7) else .none)
  else if unitQuad u ≠ 0 then .none
  else if k = 12 then
    (if unitIndex u < 64 ∧ unitChan u = 0 then .slice (BitVec.ofNat 8 (unitDie u * 64 + unitIndex u)) else .none)
  else if unitDie u ≠ 0 then .none
  else if k = 14 then
    (if h : unitIndex u < 12 ∧ unitChan u < 128 then .channel ⟨unitIndex u * 128 + unitChan u, by omega⟩ else .none)
  else if h : unitIndex u < 24 ∧ unitChan u = 0 then .port ⟨unitIndex u, h.1⟩ else .none

/-- Decodes a UNIT value: one unit, or a whole core (17/R424). -/
def unitRef (u : UnitId) : UnitRef :=
  if u.getLsbD 18 then .none
  else if unitScope u = 0 then kindRef u
  else if unitScope u = 1 ∧ unitKind u = 0 ∧ unitIndex u = 0 ∧ unitChan u = 0 then .core (unitCore u)
  else .none

/-- The place of a unit's mismatch counter in its core: VPIPE, SPIPE, SFU of schedulers 0 to 3, then TILE (17/R426). -/
def counterOf (u : UnitId) : Option (Fin 13) :=
  match unitScope u, unitRef u with
  | 0, .core _ =>
    if h : unitKind u ≤ 2 ∧ unitIndex u < 4 then some ⟨4 * unitKind u + unitIndex u, by omega⟩
    else if unitKind u = 3 then some 12 else none
  | _, _ => none

/-- THRESH of a counter, as the configuration records have it (17/R426). -/
def Device.threshOf (d : Device) (i : Fin 13) : Nat := (if i = 12 then d.threshTile else d.thresh).toNat

/-- One count against the unit `u` of a core, whose counter is the `i`th: a crossing closes the core, and is the one its move
names, unless the core is closed or fenced (17/R425, R426, R428). -/
def Core.charge (c : Core) (d : Device) (u : UnitId) (i : Fin 13) : Core :=
  let n := min 65535 (c.mcnt[i] + 1)
  let crosses := decide (d.threshOf i ≤ n) && c.bin != 3#2 && !c.closed
  { c with
    mcnt := c.mcnt.set i n
    cleanFrom := d.ftime
    closed := c.closed || crosses
    goal := if crosses then .up else c.goal
    crossed := if crosses then some u else c.crossed }

/-- A BIN_MOVE record (17/R425). -/
def State.binRecord (s : State) (u : UnitId) (old new : BitVec 2) : State :=
  s.errorRecord none { code := 0x0701, unit := u, detail := old.toNat * 4 + new.toNat }

end Sys2Proof.Machine
end

