-- ==== Sys2Proof/Machine/Checking.lean ====
section
/-! DEFINITION. The checker's verdicts, YIELD's end, starvation, the watchdog, the stack cache's background writes, the
throttle and the thermal shutdown (01/R39 to R48, 04/R139, 06/R190, R195, 12/R340 to R342, 18/R450). -/

namespace Sys2Proof.Machine

/-! ### YIELD, starvation, watchdog -/

/-- Whether a wave of a yield's set is done: it has issued or left Ready since (04/R139). -/
def State.yieldDone (s : State) (x : WaveKey × Nat) : Bool :=
  match s.findWave x.1 with
  | none => true
  | some w => w.issues + w.left != x.2 || w.saved || !s.isReady w

/-- YIELD_RESUME: the yielding wave is Ready again once its set is done or 64 cycles have passed (04/R139). -/
def execYieldResume (s : State) : Out :=
  match s.findWave s.facts.wave with
  | none => .next s
  | some w =>
    match w.life with
    | .waiting (.yield since set) =>
      if s.stopped ∨ w.saved then .next s
      else if since + 64 ≤ (s.core w.core).cycle ∨ set.all s.yieldDone then .next (s.setWave { w with life := .ready })
      else .next s
    | _ => .next s

/-- WAVE_STARVED: a Ready wave that has not issued for its class's count of cycles, which is what the event says and which no halt
lengthens (12/R342, 15/R412, log 12). -/
def execWaveStarved (s : State) : Out :=
  match s.findWave s.facts.wave with
  | none => .next s
  | some w =>
    if s.isReady w ∧ !w.saved ∧ !s.stopped then .next (s.setWave { w with starved := true }) else .next s

/-- The stall reason of a wait (06/R186, 18/R446). -/
def Wait.reason : Wait → Nat
  | .barrier _ _ => 5
  | .gong _ _ => 6
  | .mbwait _ _ _ _ _ => 7
  | .queue _ _ _ _ => 8
  | .cpwait _ | .cpseal _ => 9
  | .range => 10
  | .mwait _ | .mbusy => 11
  | .accslot => 12
  | .memdep => 13
  | .wbfull _ => 19
  | .remote _ _ a => if a = 5 then 20 else 13
  | .yield _ _ => 23

/-- What a watchdog record names (06/R195, 17/R425); for MWAIT the manual lists nothing, and the field is 0 (DESIGN CHOICE, log 90). -/
def Wait.object : Wait → Nat
  | .barrier id _ => id.toNat
  | .gong t _ => t.toNat
  | .mbwait o _ _ _ _ => o % 2 ^ 27
  | .queue q _ _ _ => q.toNat
  | .cpwait n => n.toNat
  | _ => 0

/-- Whether a wait draws watchdog records: MB.WAIT with a timeout and YIELD end by themselves, and an interlock is no Waiting
(06/R186, R195). -/
def Wait.watched : Wait → Bool
  | .mbwait _ _ _ d _ => d.isNone
  | .yield _ _ => false
  | x => x.blocks

/-- WATCHDOG: a wave that has stayed Waiting for a whole period draws a record; one whose condition holds waits no more (06/R186,
R195). -/
def execWatchdog (s : State) : Out :=
  match s.findWave s.facts.wave with
  | none => .next s
  | some w =>
    match w.life with
    | .waiting x =>
      let period := 2 ^ (s.ctxOf w.ctx).wdogk
      if s.stopped ∨ w.saved ∨ !x.watched ∨ s.waitOver w x ∨ (s.core w.core).cycle < w.waitFrom + period then .next s
      else
        let s := s.setWave { w with waitFrom := w.waitFrom + period }
        .next (s.record 2 (some w.ctx) (ErrBody.bytes
          { code := 0x0301, unit := wholeCore w.core, wave := some (w.pc, w.coord), detail := x.reason * 2 ^ 27 + x.object }))
    | _ => .next s

/-- STACK_CACHE_WRITEBACK: the oldest `num` bytes of a wave's stack cache are written to memory at D, or none when the write must
wait (06/R190, 14/R387). -/
def execStackCacheWriteback (s : State) : Out :=
  match s.findWave s.facts.wave with
  | none => .next s
  | some w =>
    let n := if s.dev.powered then s.facts.num else 0
    match s.inWave w.key (do
        stkWriteBack (w.stk.take n)
        modify fun s => { s with w := { s.w with stk := s.w.stk.drop n } }) with
    | (none, t) => .next t
    | (some (.combine c line), _) => .next (s.waitCombine c line)
    | (some _, _) => .next s

/-! ### Flush and checker-only mode (01/R40, R45 to R48) -/

/-- Whether a wave may issue, and so be flushed (06/R186, 15/R412, 18/R450). -/
def State.mayIssue (s : State) (w : Wave) : Bool :=
  w.key.launch != 0 && s.isReady w && !w.saved && !s.stopped &&
    (s.findGang w.key.gangKey).any fun g => g.state == .resident

/-- Word 0 of a wave's next instruction, and the instruction where it is one. -/
def State.nextOf (s : State) (k : WaveKey) : Option (Word × Option Instr) :=
  s.seenAs k fun s =>
    match s.heldInstr with
    | some i => (encode i).head?.map fun w => (w, some i)
    | none =>
      match s.fetch with
      | .ok (w, d) => some (w, d.toOption)
      | .error _ => none

/-- Whether an instruction is a load (08/R232). -/
def loads (i : Instr) : Bool :=
  match i with
  | .sld _ _ _ | .sldMs _ | .sldOffset64 _ _ | .vld _ | .vldOffset64 _ _ => true
  | _ => false

/-- The kind of the unit whose claimed result the checker compares: 0 VPIPE, 1 SPIPE, 2 SFU, by the pipe of the opcode and the special
functions of 05/R170; a load and a store claim their addresses, and what becomes of the value, on the pipe of their opcode. None where the
checker performs the instruction without a claim, or where there is no result (01/R28, R29, R36, R46, 04/R145; DEDUCED, log 45). -/
def resultUnit (i : Instr) : Option Nat :=
  match i with
  | .vrcp _ _ | .vrcpVx _ | .vrsq _ _ | .vrsqVx _ | .vsqrt _ _ | .vsqrtVx _ | .vexp2 _ _ | .vexp2Vx _ | .vlog2 _ _ | .vlog2Vx _
  | .vsinpi _ _ | .vsinpiVx _ | .vcospi _ _ | .vcospiVx _ | .vtanh _ _ | .vtanhVx _ => some 2
  | .srd _ imm => if srdClaim imm.toNat = .spipe then some 1 else none
  | .swr _ imm => if swrClaim imm.toNat = .spipe then some 1 else none
  | .sldMs m | .sldOffset64 m _ => if rankOf m.lvl.toNat = 4 then none else some 1
  | .vld m | .vldOffset64 m _ => if rankOf m.lvl.toNat = 4 then none else some 0
  | .satom _ | .satomOffset64 _ _ | .vatom _ | .vatomOffset64 _ _ | .wend | .cpkick _ | .cpwait _ | .cpwaitLiteral _
  | .cptest _ | .cptestLiteral _ | .lnch _ _ | .snap _ _ _ | .snapLiteral _ _ _ | .sqry _ _ | .barSync _ _ _ | .barArrive _ _
  | .gongArrive _ | .gongWait _ | .mbInit _ _ | .mbInitLiteral _ _ | .mbArrive _ _ | .mbArriveLiteral _ _ | .mbWait _ _ _
  | .mbWaitLiteral _ _ _ | .mbTest _ _ | .qpush _ _ | .qpop _ _ | .qtry _ _ | .mloop _ | .mwait _ | .acz _ | .acrel _ | .acld _ _
  | .acst _ _ | .acwr _ | .commit _ | .abort _ | .mark _ | .acq _ | .fence _ | .cfl _ _ _ | .civ _ _ _ | .cwb _ _ _ | .ici _ _ _ => none
  | i => ((encode i).head?).map fun w => if wordP w = 1 then 0 else 1

/-- A core's private cache without the clean bytes of a line, whatever its home. -/
def Core.dropPrivate (c : Core) (line : Nat) : Core :=
  { c with cache := (c.cache.map fun l => if l.line = line then l.keep l.dirty.contains else l).filter (·.bytes != []) }

/-- A value mismatch: flushed, the private copies of the disagreeing lines dropped, no unit charged; after three in a row on a load
the checker performs it (01/R45). Bytes that a software-managed page holds dirty have retired and stay (01/R40). -/
def State.valueMismatch (s : State) (w : Wave) (lines : List Nat) : State :=
  let load := (s.nextOf w.key).any fun x => x.2.any loads
  let s := s.setCore w.core (lines.foldl Core.dropPrivate (s.core w.core))
  s.setWave { w with flushes := w.flushes + 1, valMis := w.valMis + 1, byChecker := load && decide (3 ≤ w.valMis + 1) }

/-- A result mismatch of the unit of a kind, VPIPE, SPIPE or SFU: flushed, the unit charged; the third in a row starts checker-only mode
with a CK_ONLY record (01/R46). Value mismatches and result mismatches are counted apart, and neither count ends the other's run (DESIGN CHOICE, log
59). -/
def State.resultMismatch (s : State) (w : Wave) (kind : Nat) : State :=
  if h : kind < 3 then
    let i : Fin 13 := ⟨4 * kind + w.sched.toNat, by omega⟩
    let u := coreUnit kind w.core w.sched.toNat
    let s := s.setCore w.core ((s.core w.core).charge s.dev u i)
    let third := decide (3 ≤ w.resMis + 1)
    let s := s.setWave { w with flushes := w.flushes + 1, resMis := w.resMis + 1, ckOnly := third }
    if third then
      s.errorRecord (some w.ctx)
        { code := 0x0101, unit := u, wave := some (w.pc, w.coord), count := (s.core w.core).mcnt[i],
          detail := ((s.nextOf w.key).map fun x => x.1.toNat % 2 ^ 11).getD 0 }
    else s
  else s

/-- FLUSH: the checker disagrees with the next instruction of a wave; one that the checker computes alone makes no claim, and the unit
that a result mismatch charges is the one that claims the instruction's result (01/R40, R45, R46). -/
def execFlush (s : State) : Out :=
  match s.findWave s.facts.wave with
  | none => .next s
  | some w =>
    if !s.mayIssue w ∨ w.byChecker ∨ w.ckOnly then .next s
    else match s.facts.flush with
      | .value lines => .next (s.valueMismatch w lines)
      | .result =>
        match (s.nextOf w.key).bind fun x => x.2.bind resultUnit with
        | some kind => .next (s.resultMismatch w kind)
        | none => .next s

/-- The lanes of the next vector instruction of a wave that the event lists as disagreeing; none of a scalar one (04/R146). -/
def State.disagreeing (s : State) (w : Wave) : Vector Word 3 :=
  if (s.nextOf w.key).any fun x => wordP x.1 == 1 then
    s.seenAs w.key fun t => lanesMask (t.active.filter fun l => s.facts.data.any (·.toNat == l))
  else noLanes

/-- CKHARD at a wave's next instruction: its two computations in checker-only mode differ (`bad` none), or an operand is
uncorrectable, in the checked registers (0) or in an accumulator slot; a record names the checker group or the tile array, and
the checker group is retested (01/R47, R48, 17/R425, R432). -/
def State.checkHard (s : State) (w : Wave) (bad : Option Nat) : State :=
  let lanes := s.disagreeing w
  let tile := bad.any (· != 0)
  let unit := if tile then coreUnit 3 w.core else coreUnit 5 w.core w.sched.toNat
  let s := s.errorRecord (some w.ctx)
    { code := if bad.isNone then 0x0102 else 0x0103, uncorr := bad.isSome, unit := unit, wave := some (w.pc, w.coord) }
  let s := if tile then s else s.setCore w.core { s.core w.core with retest := .present }
  s.changeAs w.key fun s => s.trapEntry { cause := .ckhard, lanes := lanes } s.w.pc

/-- CHECKER_ONLY_MODE: the two computations agree, and the instruction is executed by the turns that follow; or CKHARD is raised,
for an uncorrectable operand in either mode (01/R47, 17/R432). -/
def execCheckerOnlyMode (s : State) : Out :=
  match s.findWave s.facts.wave with
  | none => .next s
  | some w =>
    if !s.mayIssue w then .next s
    else if s.facts.bad.isNone && s.facts.ok then
      .next (if w.ckOnly then { s with agenda := .focus w.key :: .wave :: .focus s.w.key :: s.agenda } else s)
    else if s.facts.bad.isSome || w.ckOnly then .next (s.checkHard w s.facts.bad)
    else .next s

/-! ### Throttle and heat (12/R340, 18/R450) -/

/-- THROTTLE_CHANGE: one step of k: down while TJ (`addr`) is 100 °C or more, power as averaged over a second (`size`) above 4,500 W or a
rail current too high (not `ok`), else up; a record at each change. PKGPWR is the power over the last millisecond (`pwr`) (18/R437, R450,
15/R398). -/
def execThrottleChange (s : State) : Out :=
  let tj := s.facts.addr
  let watts := s.facts.size
  let hot := decide (100 ≤ tj)
  let power := decide (4500 < watts)
  let rail := !s.facts.ok
  let old := s.dev.pwrk
  let new := if hot || power || rail then (if old ≤ 1 then 1 else old - 1) else min 16 (old + 1)
  let s : State := { s with dev := { s.dev with pwrk := new, pkgpwr := s.facts.pwr, tj := tj } }
  if new = old then .next s
  else
    let why := (if hot then 1 else 0) + (if power then 2 else 0) + (if rail then 4 else 0) + (if new = 16 then 8 else 0)
    .next (s.record 5 none (leBytes 2 old ++ leBytes 2 new ++ leBytes 4 why ++ leBytes 4 s.facts.pwr ++ leBytes 2 tj ++ leBytes 26 0))

/-- THERMAL_SHUTDOWN: at TJ of 110 °C the core and checker rails go off, until a cold reset (18/R450). -/
def execThermalShutdown (s : State) : Out :=
  if s.facts.addr < 110 then .next s
  else .next { s with dev := { s.dev with powered := false, tj := s.facts.addr } }

end Sys2Proof.Machine
end

