-- ==== Sys2Proof/Machine/Observe.lean ====
section
/-! DEFINITION. Event and trace rings, sync packets and wave sampling (15/R396, 18/R446 to R449). -/

namespace Sys2Proof.Machine

/-! ### Rings -/

/-- A ring size the register takes: 0, or a power of two from 64 to 65,536 (15/R396, 00/R20). -/
def ringSizeOk (n : Nat) : Bool := n == 0 || ((List.range 11).any fun i => n == 64 * 2 ^ i)

/-- ERHEAD_WRITE: the host has consumed records; held ones are written into the room (15/R396). -/
def execErheadWrite (s : State) : Out :=
  let s : State := { s with dev := { s.dev with ring := { s.dev.ring with head := s.facts.val.setWidth 32 } } }
  .next (s.flushRecords s.dev.heldRecs.length)

/-- ERSIZE_WRITE: enables or disables the ring; held records are written once it is enabled (15/R396). -/
def execErsizeWrite (s : State) : Out :=
  let n := (s.facts.val.setWidth 32 : Word).toNat
  if ringSizeOk n then
    let s : State := { s with dev := { s.dev with ring := { s.dev.ring with size := n } } }
    .next (s.flushRecords s.dev.heldRecs.length)
  else .next s

/-! ### Trace packets (18/R448) -/

/-- A trace packet of a core. -/
structure Packet where
  core : CoreId
  sched : Nat := 0
  kind : Nat
  sync : Nat := 0
  body : Nat := 0
  ctx : Nat := 0
  flags : Nat := 0
  place : Nat := 0

/-- Its 32 bytes. -/
def Packet.bytes (p : Packet) (cycle : Nat) : List Byte :=
  leBytes 8 cycle ++ leBytes 2 (p.core.toNat * 2 ^ 7 + p.sched * 2 ^ 5) ++ leBytes 1 p.kind ++ leBytes 1 p.sync ++
    leBytes 8 p.body ++ leBytes 2 p.ctx ++ leBytes 1 p.flags ++ leBytes 1 p.place ++ leBytes 8 0

/-- Whether the trace ring has room. -/
def State.traceRoom (s : State) : Bool := decide (s.dev.trace.pending < s.dev.trace.size)

/-- Writes 32 bytes into the trace ring; none while the ring is full, or a pool or a restore holds the write up (14/R387, R390). -/
def State.tracePut (s : State) (bs : List Byte) : Option State :=
  let g := s.dev.trace
  if !s.traceRoom then none
  else match s.deviceWrite (g.base + 32 * (g.tail.toNat % g.size)) bs with
    | .error _ => none
    | .ok s => some { s with dev := { s.dev with trace := { g with tail := g.tail + 1 } } }

/-- A packet into the trace ring, dropped and counted when it cannot be written at once; a ring of size 0 is full (15/R396, 18/R448, log
15). -/
def State.tracePacket (s : State) (p : Packet) : State :=
  (s.tracePut (p.bytes (s.core p.core).cycle)).getD
    { s with dev := { s.dev with trace := { s.dev.trace with lost := satInc s.dev.trace.lost }, traceLost := s.dev.traceLost + 1 } }

/-- The lost packet that tells of packets dropped, written when the ring has room again (18/R448). -/
def State.traceResume (s : State) : State :=
  let n := s.dev.traceLost
  if n = 0 then s
  else ((s.tracePut (Packet.bytes { core := 0, kind := 3, body := n % 2 ^ 32 } 0)).map fun s =>
    { s with dev := { s.dev with traceLost := 0 } }).getD s

/-- The trace ring with another head or size. -/
def State.setTrace (s : State) (g : Ring) : State := { s with dev := { s.dev with trace := g } }

/-- TRHEAD_WRITE: packets are consumed; one lost packet is written when room returns (18/R448). -/
def execTrheadWrite (s : State) : Out :=
  .next (s.setTrace { s.dev.trace with head := s.facts.val.setWidth 32 }).traceResume

/-- Whether sync packets are written: TRSIZE is not zero, and the core has a clock (18/R449). -/
def State.syncs (s : State) (c : CoreId) : Bool := s.dev.trace.size != 0 && s.clocked c

/-- A sync packet with the CLK bit: a core's clock changes with its bin (17/R428, 18/R449). -/
def State.clockSync (s : State) (c : CoreId) (old new : BitVec 2) : State :=
  if (old == 2#2) != (new == 2#2) && new != 3#2 && s.dev.powered && s.dev.trace.size != 0 then
    s.tracePacket { core := c, kind := 2, sync := 1 + 4 * new.toNat, body := s.dev.ftime }
  else s

/-- TRACE_SYNC: bits 15:0 of a core's CYCLE are zero; the packet gives the core's bin (18/R449). -/
def execTraceSync (s : State) : Out :=
  let c := s.facts.core
  .next (if s.syncs c ∧ (s.core c).cycle % 2 ^ 16 = 0 then s.tracePacket { core := c, kind := 2, sync := 4 * (s.core c).bin.toNat, body := s.dev.ftime } else s)

/-! ### Wave sampling (18/R446) -/

/-- Whether the budgets hold the next block of a gang that is being placed: its core fails them (06/R186, 12/R335, R339). -/
def State.gangGated (s : State) (k : GangKey) : Bool :=
  match s.findGang k, s.findLaunch k.launch with
  | some g, some l => g.state == .placing && (pickCore l.record (s.quadOcc g.quad)).any fun x => !s.budgetOk l.record x.1
  | _, _ => false

/-- The reason of a resident wave, the lowest that holds; that of a Ready wave is what the event says of the cycle (18/R446, log 12). -/
def State.stallReason (s : State) (w : Wave) (seen : Nat) : Nat :=
  let own := match w.life with
    | .parked _ => 2
    | .waiting x => if x.blocks && s.waitOver w x then min seen 23 else x.reason
    | .created => if s.gangGated w.key.gangKey then 21 else 22
    | _ => min seen 23
  if (s.findGang w.key.gangKey).any fun g => g.state == .saving then min own 22 else own

/-- WAVE_SAMPLE: a scheduler of a core with a clock samples its next wave slot (18/R446, R447). -/
def execWaveSample (s : State) : Out :=
  if !s.dev.smpEn ∨ !s.clocked s.facts.core then .next s
  else
    let c := s.facts.core
    let sched := s.facts.sched
    let slot := (pick (s.core c).sample sched).toNat % Config.schedWaves
    let next : BitVec 4 := BitVec.ofNat 4 ((slot + 1) % Config.schedWaves)
    let w := s.allWaves.find? fun w => w.occupies && w.core == c && w.sched == sched && w.slot == slot
    let k := s.core c
    let p : Packet := match w with
      | none => { core := c, sched := sched.toNat, kind := 1, flags := 31, place := slot }
      | some w =>
        { core := c, sched := sched.toNat, kind := 1, body := w.pc.toNat, ctx := w.ctx.toNat,
          flags := s.stallReason w s.facts.num + (if w.sampled != w.issues then 32 else 0) + (if w.status.getLsbD 1 then 64 else 0),
          place := w.key.wid % 16 * 16 + slot }
    let s := s.setCore c { k with sample := put k.sample sched next }
    let s := match w with
      | none => s
      | some w => s.setWave { w with sampled := w.issues }
    .next (s.tracePacket p)

end Sys2Proof.Machine
end

