-- ==== Sys2Proof/Machine/Repair.lean ====
section
/-! DEFINITION. Mismatch counters by the hour, bins, self-tests, readmission, code strength, scrubbing, refresh and the
rebuilding of a directory entry (13/R372, R378, 17/R426 to R433, 18/R445). -/

namespace Sys2Proof.Machine

/-! ### Units with a bin of their own -/

/-- A slice, vault or link port by its UNIT value. -/
def State.ownBin (s : State) (u : UnitId) : Option BinUnit :=
  match unitRef u with
  | .slice i => some (pick s.slices i)
  | .vault v => some (pick s.vaults v)
  | .port p => some s.links[p]
  | _ => none

/-- Replaces it. -/
def State.setOwnBin (s : State) (u : UnitId) (x : BinUnit) : State :=
  match unitRef u with
  | .slice i => { s with slices := put s.slices i x }
  | .vault v => { s with vaults := put s.vaults v x }
  | .port p => { s with links := s.links.set p x }
  | _ => s

/-- A region: a slice, a core's scratchpad, a vault or an MMS channel (17/R432). -/
def State.region? (s : State) (u : UnitId) : Option BinUnit :=
  match unitRef u with
  | .slice i => some (pick s.slices i)
  | .vault v => some (pick s.vaults v)
  | .channel c => some s.channels[c]
  | .core c => if unitKind u = 9 ∧ unitScope u = 0 then some (pick s.spads c) else none
  | _ => none

/-- Replaces it. -/
def State.setRegion (s : State) (u : UnitId) (x : BinUnit) : State :=
  match unitRef u with
  | .slice i => { s with slices := put s.slices i x }
  | .vault v => { s with vaults := put s.vaults v x }
  | .channel c => { s with channels := s.channels.set c x }
  | .core c => { s with spads := put s.spads c x }
  | _ => s

/-- The lines of a vault. -/
def vaultLines (v : BitVec 7) : List Nat :=
  (List.range (2 ^ 18)).map fun i => (0x100000000000 + 2 ^ 24 * v.toNat) / 64 + i

/-! ### Ports (15/R400) -/

/-- A port that is up retrains, with its record (15/R400, 17/R425): one at a bin move writes it too, and is none of the four retrains
that 17/R430 counts (DEDUCED, log 72). -/
def State.retrain (s : State) (p : PortId) : State :=
  let x := s.ports[p]
  if x.up then
    ({ s with ports := s.ports.set p { x with retraining := true } }).errorRecord none
      { code := 0x0601, unit := linkUnit p, detail := x.replays }
  else s

/-- A port that is up is taken down, with its record. -/
def State.portDown (s : State) (p : PortId) : State :=
  let x := s.ports[p]
  if x.up then
    ({ s with ports := s.ports.set p { x with up := false, retraining := false } }).errorRecord none { code := 0x0602, unit := linkUnit p }
  else s

/-! ### Bins of slices, vaults and ports (17/R430) -/

/-- A fenced vault's contents, and the gang buffers that its quad's gangs hold there, are poisoned, with one record; its lines at D
read as poisoned while it is fenced (17/R430, R433, 07/R196). -/
def State.fenceVault (s : State) (u : UnitId) (v : BitVec 7) : State :=
  let holds (g : Gang) : Bool := g.quad == v && (g.state == .placing || g.state == .resident || g.state == .saving)
  let bad (b : BLine) : BLine := if b.held = .place then { b with poison := true } else b
  (s.mapGangs fun g => if holds g then { g with place := { g.place with lines := g.place.lines.map bad } } else g).errorRecord none
    { code := 0x0402, uncorr := true, unit := u }

/-- A slice, vault or port takes a bin, with its record, and then awaits a self-test or none: a port retrains at its new rate or,
fenced, is taken down (17/R430). -/
def State.ownBinTo (s : State) (u : UnitId) (x : BinUnit) (new : BitVec 2) (retest : Retest) : State :=
  let s := (s.setOwnBin u { x with bin := new, cleanFrom := s.dev.ftime, retest := retest }).binRecord u x.bin new
  match unitRef u with
  | .port p => if new = 3#2 then s.portDown p else s.retrain p
  | .vault v => if new = 3#2 then s.fenceVault u v else s
  | _ => s

/-- A slice, vault or port moves to a bin; unless fenced it is retested there (17/R430). -/
def State.moveOwn (s : State) (u : UnitId) (x : BinUnit) (new : BitVec 2) : State :=
  s.ownBinTo u x new (if new = 3#2 then .no else .up)

/-- One bin up. -/
def State.moveOwnUp (s : State) (u : UnitId) (x : BinUnit) : State := if x.bin = 3#2 then s else s.moveOwn u x (x.bin + 1)

/-- A trigger of 17/R430: the unit moves one bin up at once, or when a replacement of firmware is over (18/R442, log 74). -/
def State.trigger (s : State) (u : UnitId) (x : BinUnit) : State :=
  if s.fwHolds then s.setOwnBin u { x with due := true } else s.moveOwnUp u x

/-! ### The command of UNITCMD in hand (17/R431) -/

/-- The unit a command acts on: the one that UNITSEL named when GO was set. -/
def State.commanded (s : State) : UnitId := s.dev.unitgo.getD s.dev.unitsel

/-- The command in hand is done. -/
def State.endCommand (s : State) : State := { s with dev := { s.dev with unitgo := none } }

/-- Whether the command in hand is command `n` on the unit of a UNIT value. -/
def State.commands (s : State) (n : Nat) (u : UnitId) : Bool :=
  s.dev.unitcmd.toNat == n && s.dev.unitgo.any fun v => unitRef v == unitRef u

/-- Starts a self-test of a unit at its present bin, or ends the command when the unit is fenced. A test that is still running goes
first. -/
def State.retestNow (s : State) (u : UnitId) : State :=
  match unitRef u with
  | .core c =>
    let k := s.core c
    if k.bin = 3#2 then s.endCommand else if k.retest ≠ .no then s else s.setCore c { k with retest := .present }
  | _ =>
    match s.ownBin u with
    | none => s.endCommand
    | some x => if x.bin = 3#2 then s.endCommand else if x.retest ≠ .no then s else s.setOwnBin u { x with retest := .present }

/-- What the end of a unit's self-test, which was an `old` one, or of its bin change does to the command in hand: a retest or a
readmission is done, a fence is once the unit is in bin 3, and a retest that waited for another test starts. -/
def State.settleCommand (s : State) (u : UnitId) (old : Retest) : State :=
  let fenced : Bool := match unitRef u with
    | .core c => (s.core c).bin == 3#2
    | _ => (s.ownBin u).any (·.bin == 3#2)
  if s.commands 1 u then (if old = .present then s.endCommand else s.retestNow u)
  else if s.commands 2 u && old == .readmit then s.endCommand
  else if s.commands 3 u && fenced then s.endCommand
  else s

/-! ### Cores -/

/-- Whether no block remains on a core. -/
def State.coreEmpty (s : State) (c : CoreId) : Bool := !(s.allBlocks.any fun b => b.core == c && s.blockOccupies b)

/-- A core's rails and clock take a bin, with the sync packet of a clock change (17/R428). -/
def State.coreClock (s : State) (c : CoreId) (new : BitVec 2) : State :=
  let k := s.core c
  (s.setCore c { k with bin := new, cleanFrom := s.dev.ftime }).clockSync c k.bin new

/-- A core's change of bin is done: one record names the bin from which it started (17/R425, R428). -/
def State.binDone (s : State) (u : UnitId) (c : CoreId) : State :=
  let k := s.core c
  (s.setCore c { k with moving := none }).binRecord u (k.moving.getD k.bin) k.bin

/-- A core takes a bin at once, with its record and the sync packet of a clock change (17/R428). -/
def State.coreBin (s : State) (u : UnitId) (c : CoreId) (new : BitVec 2) : State :=
  let k := s.core c
  ((s.setCore c { k with moving := some (k.moving.getD k.bin) }).coreClock c new).binDone u c

/-- BIN_CHANGE: a CLOSED core with no block left takes the next bin up and is retested there, or is fenced. The record, once the test has
passed or the core is fenced, names the unit that crossed, failed or was commanded (17/R425, R428, R431). A replacement of firmware holds a
change that has not begun (18/R442). -/
def execBinChange (s : State) : Out :=
  match unitRef s.facts.unit with
  | .core c =>
    let k := s.core c
    if !k.closed ∨ k.goal = .down ∨ k.retest ≠ .no ∨ k.bin = 3#2 ∨ !s.coreEmpty c ∨ (s.fwHolds ∧ k.moving.isNone) then .next s
    else
      let new : BitVec 2 := if k.goal = .fence then 3 else k.bin + 1
      let u := if k.goal = .fence ∧ s.commands 3 s.facts.unit then s.commanded else k.crossed.getD (wholeCore c)
      let s := (s.setCore c { k with moving := some (k.moving.getD k.bin) }).coreClock c new
      let s := s.setCore c { s.core c with closed := new != 3#2, retest := if new = 3#2 then .no else .up }
      .next ((if new = 3#2 then s.binDone u c else s).settleCommand u .no)
  | _ => .next s

/-- A core after a self-test that does not fence it: open again, unless a fence awaits it. -/
def Core.tested (k : Core) : Core :=
  { k with retest := .no, closed := k.closed && k.goal == .fence, goal := if k.goal = .fence then .fence else .up }

/-- A core's self-test that passed (17/R428, R429, R431). -/
def State.corePass (s : State) (u : UnitId) (c : CoreId) : State :=
  let k := s.core c
  match k.retest with
  | .up => (s.setCore c { k.tested with mcnt := Vector.replicate 13 0 }).binDone (k.crossed.getD (wholeCore c)) c
  | .present => s.setCore c { k with retest := .no }
  | .down =>
    let s := s.coreBin u c (k.bin - 1)
    s.setCore c (s.core c).tested
  | .readmit =>
    let s := s.coreBin u c 2
    s.setCore c (s.core c).tested
  | .no => s

/-- A core's self-test that failed: after a move up it moves up again; at its present bin it is fenced, once a replacement of firmware is over
(17/R428, R429, 18/R442). -/
def State.coreFail (s : State) (u : UnitId) (c : CoreId) : State :=
  let k := s.core c
  match k.retest with
  | .up => s.setCore c { k with retest := .no, closed := true, crossed := some u }
  | .present =>
    if s.fwHolds then s.setCore c { k with retest := .no, closed := true, goal := .fence, crossed := some u }
    else
      let s := s.coreBin u c 3
      s.setCore c { s.core c with retest := .no, closed := false }
  | .down => s.setCore c { k.tested with cleanFrom := s.dev.ftime }
  | .readmit => s.setCore c { k with retest := .no }
  | .no => s

/-- A slice's, vault's or port's self-test; after a move up one that fails moves the unit up again, which a replacement of firmware does not
hold: that move has begun. A vault that is readmitted keeps its poison: its
lines read as poisoned until the driver unmaps them (17/R430). -/
def State.ownResult (s : State) (u : UnitId) (x : BinUnit) (pass : Bool) : State :=
  match x.retest, pass with
  | .no, _ => s
  | .down, true => s.ownBinTo u x (x.bin - 1) .no
  | .down, false => s.setOwnBin u { x with retest := .no, cleanFrom := s.dev.ftime }
  | .readmit, true =>
    let s := match unitRef u with
      | .vault v => { s with poison := s.poison ++ (vaultLines v).filter fun l => !s.poison.contains l }
      | .port p => { s with ports := s.ports.set p { s.ports[p] with up := true } }
      | _ => s
    s.ownBinTo u x 2 .no
  | .readmit, false => s.setOwnBin u { x with retest := .no }
  | .up, false => s.moveOwnUp u { x with retest := .no }
  | .present, false => s.trigger u { x with retest := .no }
  | _, true => s.setOwnBin u { x with retest := .no }

/-- BIST_COMPLETE: a self-test ends with the result `val` (0 pass) at step `num` (17/R428 to R431, 18/R445). -/
def execBistComplete (s : State) : Out :=
  let u := s.facts.unit
  let pass := s.facts.val == 0#64
  let fail (s : State) : State := if pass then s else s.errorRecord none { code := 0x0702, unit := u, detail := s.facts.num % 2 ^ 24 }
  let note (s : State) : State :=
    let r : Word := BitVec.ofNat 32 ((s.facts.val.toNat % 2 ^ 8) * 2 ^ 24 + (if pass then 0 else s.facts.num % 2 ^ 24))
    { s with dev := { s.dev with bists := (u, r) :: s.dev.bists.filter fun e => unitRef e.1 != unitRef u } }
  match unitRef u with
  | .core c =>
    if (s.core c).retest = .no ∨ !s.coreEmpty c then .next s
    else .next ((if pass then (note s).corePass u c else (fail (note s)).coreFail u c).settleCommand u (s.core c).retest)
  | _ =>
    match s.ownBin u with
    | none => .next s
    | some x => if x.retest = .no then .next s else .next (((fail (note s)).ownResult u x pass).settleCommand u x.retest)

/-- Whole hours from one fabric time to another, saturating (17/R427). -/
def hoursSince (now from_ : Nat) : Nat := min 65535 ((now - from_) / 3600000000000)

/-- READMISSION: CLEANH of a unit in bin 1 or 2 has reached 72; a self-test one bin down starts, on a core once it is
CLOSED and empty; one that drains for it goes on whatever its units are charged meanwhile (17/R428 to R430). -/
def execReadmission (s : State) : Out :=
  let u := s.facts.unit
  match unitRef u with
  | .core c =>
    let k := s.core c
    let may := if k.closed then k.goal == .down else decide (72 ≤ hoursSince s.dev.ftime k.cleanFrom)
    if !may ∨ k.bin = 0#2 ∨ k.bin = 3#2 ∨ k.retest ≠ .no ∨ s.fwHolds then .next s
    else if s.coreEmpty c then .next (s.setCore c { k with closed := true, goal := .down, retest := .down })
    else .next (s.setCore c { k with closed := true, goal := .down })
  | _ =>
    match s.ownBin u with
    | none => .next s
    | some x =>
      if hoursSince s.dev.ftime x.cleanFrom < 72 ∨ x.bin = 0#2 ∨ x.bin = 3#2 ∨ x.retest ≠ .no ∨ s.fwHolds then .next s
      else .next (s.setOwnBin u { x with retest := .down })

/-! ### Commands of UNITCMD (17/R431) -/

/-- UNITCMD_RETEST: the unit is retested at its present bin. -/
def execUnitcmdRetest (s : State) : Out := .next (s.retestNow s.commanded)

/-- UNITCMD_READMIT: a fenced unit is retested, and readmitted at bin 2 when it passes; a replacement of firmware holds it (18/R442). -/
def execUnitcmdReadmit (s : State) : Out :=
  let u := s.commanded
  if s.fwHolds then .next s else
  match unitRef u with
  | .core c =>
    let k := s.core c
    .next (if k.bin ≠ 3#2 then s.endCommand else if k.retest ≠ .no then s else s.setCore c { k with retest := .readmit })
  | _ =>
    match s.ownBin u with
    | none => .next s.endCommand
    | some x => .next (if x.bin ≠ 3#2 then s.endCommand else if x.retest ≠ .no then s else s.setOwnBin u { x with retest := .readmit })

/-- UNITCMD_FENCE: a core closes and is fenced when it is empty; another unit is fenced at once, or when a replacement of firmware is
over (18/R442). -/
def execUnitcmdFence (s : State) : Out :=
  let u := s.commanded
  match unitRef u with
  | .core c =>
    let k := s.core c
    .next (if k.bin = 3#2 then s.endCommand else s.setCore c { k with closed := true, goal := .fence })
  | _ =>
    match s.ownBin u with
    | none => .next s.endCommand
    | some x => .next (if x.bin = 3#2 then s.endCommand else if s.fwHolds then s else (s.moveOwn u x 3).endCommand)

/-- A region takes a code strength, with a record of a change (17/R425, R432). -/
def State.setStrength (s : State) (u : UnitId) (strong : Bool) : State :=
  match s.region? u with
  | none => s
  | some x =>
    if x.strong = strong then s
    else (s.setRegion u { x with strong := strong }).errorRecord none { code := 0x0403, unit := u, detail := if strong then 1 else 0 }

/-- UNITCMD_STRONG_CODE. -/
def execUnitcmdStrongCode (s : State) : Out := .next (s.setStrength s.commanded true).endCommand
/-- UNITCMD_SECDED. -/
def execUnitcmdSecded (s : State) : Out := .next (s.setStrength s.commanded false).endCommand

/-! ### By the hour, scrubbing, refresh, directory -/

/-- HOURLY_HALVING: every mismatch counter is halved, and the counts of an hour restart (17/R426, R430, R432). -/
def execHourlyHalving (s : State) : Out :=
  let fresh (x : BinUnit) : BinUnit := { x with corrected := 0, retrains := 0 }
  .next { s with
    cores := s.cores.map fun c => { c with mcnt := c.mcnt.map (· / 2), corrected := Vector.replicate 5 0 }
    slices := s.slices.map fresh
    vaults := s.vaults.map fresh
    links := s.links.map fresh
    channels := s.channels.map fresh
    spads := s.spads.map fresh }

/-- The counts of an hour that start it give a record (17/R425). -/
def State.firstCorrected (s : State) (u : UnitId) (before n : Nat) : State :=
  if before = 0 ∧ n ≠ 0 then s.errorRecord none { code := 0x0401, unit := u, detail := n } else s

/-- Corrected errors counted in a region: the first of the hour gives a record; the sixteenth strong code; in a slice or vault
with strong code, the sixty-fourth a bin (17/R425, R430, R432). -/
def State.countCorrected (s : State) (u : UnitId) (n : Nat) : State :=
  match s.region? u with
  | none => s
  | some x =>
    let m := x.corrected + n
    let s := (s.setRegion u { x with corrected := m }).firstCorrected u x.corrected n
    let s := if x.corrected < 16 ∧ 16 ≤ m then s.setStrength u true else s
    match s.ownBin u with
    | some y => if y.strong ∧ x.corrected < 64 ∧ 64 ≤ m then s.trigger u y else s
    | none => s

/-- The count of corrected errors that a checker group, or the accumulator slots of a core, keep: schedulers 0 to 3, then the slots
(17/R432). -/
def checkedCount (u : UnitId) : Option (CoreId × Fin 5) :=
  match unitScope u, unitRef u with
  | 0, .core c =>
    if h : unitKind u = 5 ∧ unitIndex u < 4 then some (c, ⟨unitIndex u, by omega⟩)
    else if unitKind u = 3 then some (c, 4) else none
  | _, _ => none

/-- Poisons a line of a home in a place: a spilled one, or with `own` one in its own storage. -/
def Place.poisonLine (p : Place) (own isLocal : Bool) (dev line : Nat) : Place :=
  { p with lines := p.lines.map fun b =>
      if b.isLocal = isLocal ∧ b.dev = dev ∧ b.line = line ∧ (own ∨ b.held ≠ .place) then { b with poison := true } else b }

/-- Whether a region holds the line at D (13/R376, R377, 17/R432): a slice the lines homed there, a vault and a channel those of their
addresses. -/
def State.holdsLine (s : State) (u : UnitId) (line : Nat) : Bool :=
  match unitRef u with
  | .slice i => hasMemory (64 * line) && s.slice line == i
  | .vault v => vaultOf (64 * line) == some v
  | .channel c => hasMemory (64 * line) && (vaultOf (64 * line)).isNone && channelOf (64 * line) == c
  | _ => false

/-- Whether a region is the scratchpad of a core. -/
def isSpad (u : UnitId) (c : CoreId) : Bool := unitKind u == 9 && unitScope u == 0 && unitRef u == .core c

/-- A line with an uncorrectable error is poisoned where it is held, with a record (17/R433): `tag` 0 at D, or in the local area of a block of the
region's core; 1 in a W place; 2 in a block buffer, of such a block or spilled; 3 in a gang buffer, of the region's vault or spilled, the line
being of the home `dev`, or with `size` a local one; 4 in the shadow lines of a context. -/
def State.poisonHeld (s : State) (u : UnitId) (line : Nat) : State :=
  let f := s.facts
  let local' := decide (f.size ≠ 0)
  let at_ (pa : Option Nat) : State := s.errorRecord none { code := 0x0402, uncorr := true, unit := u, addr := pa.map physAddr }
  let inSpad (b : Block) : Bool := b.key == f.block && isSpad u b.core && s.blockOccupies b
  match f.tag.toNat with
  | 0 =>
    if s.holdsLine u line then { at_ (some (64 * line)) with poison := line :: s.poison.filter (· != line) }
    else if s.allBlocks.any fun b => inSpad b && decide (64 * line < b.localSize) then
      (at_ none).mapBlocks fun b => if inSpad b then { b with poison := line :: b.poison.filter (· != line) } else b
    else s
  | 1 => (at_ none).mapWaves fun w => if w.key = f.wave then { w with wbuf := w.wbuf.poisonLine true local' f.dev line } else w
  | 2 => (at_ none).mapBlocks fun b => if b.key = f.block then { b with place := b.place.poisonLine (inSpad b) local' f.dev line } else b
  | 3 => (at_ none).mapGangs fun g =>
      if g.key = f.gangKey then { g with place := g.place.poisonLine (unitRef u == .vault g.quad) local' f.dev line } else g
  | _ =>
    let mark (l : Nat × List Byte × Bool) : Nat × List Byte × Bool := if l.1 = line then (l.1, l.2.1, true) else l
    { at_ none with snaps := s.snaps.map fun p => if p.ctx = f.ctx then { p with shadow := p.shadow.map mark } else p }

/-- SCRUB_SWEEP: a sweep of a region corrects `num` errors and may meet an uncorrectable line; corrected errors of the checked
registers and accumulator slots are counted alike (17/R432, R433). -/
def execScrubSweep (s : State) : Out :=
  let u := s.facts.unit
  let n := s.facts.num
  match s.region? u with
  | some _ =>
    let s := s.countCorrected u n
    .next (match s.facts.bad with
      | some line => s.poisonHeld u line
      | none => s)
  | none =>
    match checkedCount u with
    | none => .next s
    | some (c, i) =>
      let k := s.core c
      .next ((s.setCore c { k with corrected := k.corrected.set i (k.corrected[i] + n) }).firstCorrected u k.corrected[i] n)

/-- MMS_REFRESH: a channel is refreshed; accesses wait, and no state changes (13/R378). -/
def execMmsRefresh (s : State) : Out := .next s

/-- DIRECTORY_RECOVERY: every die drops its copies of a line, whose registered bytes the home holds, its directory entry is empty,
partials are recalled, and a DIR_UNCORR record names it (13/R372). -/
def execDirectoryRecovery (s : State) : Out :=
  let line := s.facts.addr / 64
  match s.combineBefore .directoryRecovery [line] with
  | .error t => .next t
  | .ok s =>
    let drop (l : CacheLine) : Option CacheLine := if l.dev = s.dev.devnum ∧ l.line = line ∧ l.coh then none else some l
    let s : State := { s with
      cores := s.cores.map fun c => c.mapCaches drop
      reg := s.reg.filter fun e => e.1 / 16 != line
      dirs := s.dirs.filter fun e => e.line != line }
    .next (s.errorRecord none { code := 0x0501, uncorr := true, unit := s.sliceOf line, addr := some (physAddr (64 * line)) })

end Sys2Proof.Machine
end

