-- ==== Sys2Proof/Machine/Contexts.lean ====
section
/-! DEFINITION. What the host does to contexts: it resolves parks, runs shootdowns and device flushes, creates contexts,
switches them out and in, and kills them (13/R358 to R362, R375, 14/R394, 18/R438, R439). -/

namespace Sys2Proof.Machine

/-! ### Resolving a park (13/R362) -/

/-- Whether a park answers to a handle written to a context's PKRES: its own context's, or that of the pool it waits on. -/
def Park.answers (p : Park) (own cx : CtxId) (h : Word) : Bool := p.handle == h && (own == cx || p.pool == some cx)

/-- The wave parked under a handle. -/
def State.parkedAs (s : State) (cx : CtxId) (h : Word) : Option (Wave × Park) :=
  s.allWaves.findSome? fun w =>
    match w.life with
    | .parked p => if w.key.launch != 0 && p.answers w.ctx cx h then some (w, p) else none
    | _ => none

/-- The copy request held up under a handle. -/
def State.heldAs (s : State) (cx : CtxId) (h : Word) : Option (CoreId × Kick) :=
  s.cores.toList.zipIdx.findSome? fun x => (x.1.kicks.find? fun k => k.held.any fun p => p.answers k.ctx cx h).map fun k =>
    (BitVec.ofNat 9 x.2, k)

/-- PARK_RESUME: the parked wave is Ready again, or the request goes on (13/R362, 15/R407). -/
def execParkResume (s : State) : Out :=
  match s.parkedAs s.facts.ctx s.facts.val.lo with
  | some (w, _) => .next (s.setWave { w with life := .ready })
  | none =>
    match s.heldAs s.facts.ctx s.facts.val.lo with
    | some (c, k) => .next (s.setKick c { k with held := none })
    | none => .next s

/-- The B and G places of the gangs that `sel` selects are discarded; lines already sent to another home stay with the fabric endpoint
(13/R362, 15/R401). -/
def State.discardPlaces (s : State) (sel : GangKey → Bool) : State :=
  let s := (s.allBlocks.filter fun b => b.key.launch != 0 && sel b.key.gangKey).foldl (init := s) fun s b =>
    s.orphan b.core ⟨b.key.launch, b.key.gang, b.key.blk, 0⟩ b.place
  let s := (s.allGangs.filter fun g => g.key.launch != 0 && sel g.key).foldl (init := s) fun s g =>
    s.orphan (g.quad ++ 0#2) ⟨g.key.launch, g.key.gang, 0, 0⟩ g.place
  let s := s.mapBlocks fun b => if b.key.launch ≠ 0 ∧ sel b.key.gangKey then { b with place := Place.empty } else b
  s.mapGangs fun g => if g.key.launch ≠ 0 ∧ sel g.key then { g with place := Place.empty } else g

/-- A gang without its places; a saved one is gone from its slot and retires (13/R362). -/
def State.discardGang (s : State) (k : GangKey) : State :=
  match s.findGang k with
  | none => s
  | some g =>
    let s := s.discardPlaces (· == k)
    if g.state = .saved then
      let s := s.mapBlocks fun b => if b.key.launch ≠ 0 ∧ b.key.gangKey = k then { b with retired := true, scratch := [], poison := [], tags := [] } else b
      let s := s.setGang { g with state := .retired, place := Place.empty, killed := true }
      match s.findLaunch k.launch with
      | some l => s.setLaunch { l with retired := l.retired + 1 }
      | none => s
    else (s.setGang { g with state := if g.state = .saving then .resident else g.state, place := Place.empty, killed := true }).releaseSwitch g.ctx

/-- Kills every live wave of a gang, each with its record (04/R149). -/
def State.killWaves (s : State) (k : GangKey) (cause : Nat) : State :=
  (s.gangWaves k).foldl (init := s) fun s w =>
    if w.life == .ended then s else s.changeAs w.key fun s => s.killWave cause s.w.pc

/-- PARK_KILL: the parked wave's gang is killed, or the request ends with ERR 0x04 (13/R362). -/
def execParkKill (s : State) : Out :=
  match s.parkedAs s.facts.ctx s.facts.val.lo with
  | some (w, p) =>
    .next ((s.killWaves w.key.gangKey p.cause.code).discardGang w.key.gangKey)
  | none =>
    match s.heldAs s.facts.ctx s.facts.val.lo with
    | some (c, k) => .next (s.setKick c { k with held := none, err := 4 })
    | none => .next s

/-! ### Shootdowns (13/R358 to R361) -/

/-- The virtual range of a shootdown of a kind. -/
def Ctx.shRange (c : Ctx) (kind : Nat) : Nat × Nat :=
  if kind = 1 ∨ c.shlen = 0 then (0, 2 ^ 57) else (c.shbase.toNat, c.shbase.toNat + c.shlen.toNat)

/-- Whether [a, a+n) meets [lo, hi). -/
def meets (lo hi a n : Nat) : Bool := decide (a < hi) && decide (lo < a + n)

/-- Whether the leaves of a range map a physical address of a device. -/
def mapped (ls : List (Nat × Leaf)) (lo hi dev pa : Nat) : Bool :=
  ls.any fun e => e.2.dev == dev && decide (e.2.frame ≤ pa) && decide (pa < e.2.frame + e.2.size) &&
    decide (lo ≤ e.1 + (pa - e.2.frame)) && decide (e.1 + (pa - e.2.frame) < hi)

/-- Registrations end at the words that `sel` selects, with their directory entries following (13/R367, R371). -/
def State.unregisterWhere (s : State) (sel : Nat → Bool) : State :=
  let lines := ((s.reg.filter fun e => sel e.1).map fun e => e.1 / 16).dedup
  lines.foldl (fun s l => s.setReg s.reg l) { s with reg := s.reg.filter fun e => !sel e.1 }

/-- RECALL: registrations of the mapped lines are released, and their partials, whichever context made them, are recalled; a combining that
a pool holds up makes the shootdown wait behind it (13/R359, 14/R387). -/
def State.recallMapped (s : State) (i : Instr) (ls : List (Nat × Leaf)) (lo hi : Nat) : Except State State :=
  let ps := ((s.parts.filter fun p => mapped ls lo hi p.dev p.addr).map fun p => (p.dev, lineOf p.addr)).dedup
  let s := (ps.filter fun l => l.1 != s.dev.devnum).foldl (fun s l => s.recallFar l.1 l.2) s
  (s.combineBefore i ((ps.filter fun l => l.1 == s.dev.devnum).map (·.2))).map fun s =>
    s.unregisterWhere fun w => mapped ls lo hi s.dev.devnum (4 * w)

/-- The lines that a core's caches hold. -/
def Core.lines (c : Core) : List (Nat × Nat) := ((c.cache ++ c.ckc).map fun l => (l.dev, l.line)).dedup

/-- A device flush: each core in ascending order writes back its dirty bytes of the mapped lines and drops the lines
(13/R375). -/
def State.flushMapped (s : State) (ls : List (Nat × Leaf)) (lo hi : Nat) : Except CtxId State :=
  ((List.range 512).map (BitVec.ofNat 9)).foldlM (init := s) fun s (c : CoreId) =>
    ((s.core c).lines.filter fun l => mapped ls lo hi l.1 (64 * l.2)).foldlM (init := s) fun s l => do
      let s ← if l.1 = s.dev.devnum then s.writeBack c l.2 else .ok s
      return s.dropLine c l.1 l.2

/-- The stack-cache bytes of a context's waves in a range go to memory under the translation they hold, before it is
removed (13/R360). -/
def State.flushStacks (s : State) (cx : CtxId) (lo hi : Nat) : Option Halt × State :=
  (s.allWaves.filter fun w => w.key.launch != 0 && w.ctx == cx && w.life != .ended).foldl (init := (none, s)) fun r w =>
    match r.1 with
    | some _ => r
    | none =>
      let hit (b : StkByte) : Bool := meets lo hi b.virt 1
      if !w.stk.any hit then r
      else r.2.inWave w.key do
        stkWriteBack (w.stk.filter hit)
        modify fun s => { s with w := { s.w with stk := s.w.stk.filter fun b => !hit b } }

/-- A place with each line marked as hit or not (13/R361). -/
def Place.mark (p : Place) (hit : BLine → Bool) : Place := { p with lines := p.lines.map fun b => { b with hit := hit b } }

/-- Cached translations of a range, or of a kind 2 the bounds entries, are removed; xt registers that hit the range lose
VALID; buffered lines that carry a removed translation are marked. Each is judged by the address it was translated from (13/R360, R361,
08/R228). -/
def State.removeRange (s : State) (cx : CtxId) (kind lo hi : Nat) : State :=
  let c := s.ctxOf cx
  let xt (x : XtReg) : XtReg := if kind = 2 ∨ meets lo hi x.virt (max x.limit 1) then { x with valid := false } else x
  let line (b : BLine) : Bool := !b.isLocal && kind != 2 && meets lo hi b.virt 64
  let wave (w : Wave) : Wave :=
    if w.ctx = cx then
      { w with xts := w.xts.map xt, wbuf := w.wbuf.mark line, fetched := w.fetched.filter fun e => kind != 2 && !meets lo hi e.1 1
               decoded := w.decoded.filter fun e => kind != 2 && !meets lo hi e.1 1 }
    else w
  let s := s.mapWaves wave
  let s := s.mapBlocks fun b => if b.ctx = cx then { b with place := b.place.mark line } else b
  let s := s.mapGangs fun g => if g.ctx = cx then { g with place := g.place.mark line } else g
  s.setCtx cx { c with
    tlb := if kind = 2 then c.tlb else c.tlb.filter fun e => !meets lo hi e.2.1 e.2.2.size
    rbt := if kind = 2 then [] else c.rbt
    shkind := BitVec.ofNat 2 kind
    shgo := false
    shmap := none
    lastLo := lo
    lastLen := hi - lo
    lastKind := BitVec.ofNat 2 kind }

/-- Whether an access of a context to another home is under way: a write that its home has not performed, or an atomic without an
answer, parked ones among them, but for those to a home that is lost (13/R360, 15/R405, R408). -/
def State.underWay (s : State) (cx : CtxId) : Bool :=
  let mine (k : WaveKey) : Bool := (s.findLaunch k.launch).any (·.ctx == cx)
  let answers (dev : Nat) : Bool := (s.peer dev).any (!·.lost)
  s.cores.toList.any fun c =>
    (c.writes.any fun w => !w.acked && mine w.wave && answers w.dev) || c.atomics.any fun o => o.answer.isNone && mine o.wave && answers o.dev

/-- Whether a line that a range maps is held up at its home: by a restore, or by a partial of a peer that does not answer (14/R392,
08/R245). -/
def State.heldMapped (s : State) (ls : List (Nat × Leaf)) (lo hi : Nat) : Bool :=
  (s.restores.any fun r => (List.range (r.len / 64)).any fun i => mapped ls lo hi s.dev.devnum (r.lo + 64 * i)) ||
    s.parts.any fun p => mapped ls lo hi p.dev p.addr && s.partsAway p.dev (lineOf p.addr)

/-- A shootdown of a kind, after a device flush of the range when `flush` (13/R359, R360, R375). GO stays set, and the event comes
again, while accesses that used what it removes are under way, or a write to memory that it needs waits; the lines of a RECALL stay those that
were mapped when GO was set. -/
def State.shootdown (s : State) (kind : Nat) (flush : Bool) (i : Instr) : Out :=
  let cx := s.facts.ctx
  let c := s.ctxOf cx
  let (lo, hi) := c.shRange kind
  let going (s : State) : State := s.setCtx cx { s.ctxOf cx with shkind := BitVec.ofNat 2 kind, shgo := true }
  let asks := kind ≠ 2 ∧ (c.shrecall ∨ flush)
  match (if asks ∧ c.shmap.isNone then s.tablesHeld c lo hi 5 s.dev.devnum c.troot 0 else none) with
  | some x => .next ((going s).lookAgain x.1 x.2)
  | none =>
  let ls := if asks then c.shmap.getD (s.leavesFrom c lo hi 5 s.dev.devnum c.troot 0) else []
  let going (s : State) : State := (going s).setCtx cx { (going s).ctxOf cx with shmap := some ls }
  if s.underWay cx || s.heldMapped ls lo hi then .next (going s)
  else match (if flush then s.flushMapped ls lo hi else .ok s) with
    | .error p => .next ((going s).waitPool p 0xFFFF lo noUnit i)
    | .ok s =>
      match (if c.shrecall then s.recallMapped i ls lo hi else .ok s) with
      | .error s => .next (going s)
      | .ok s =>
        if kind = 2 then .next (s.removeRange cx kind lo hi)
        else match s.flushStacks cx lo hi with
          | (none, s) => .next (s.removeRange cx kind lo hi)
          | (some h, s) => .next ((going s).deviceWait cx noUnit i h)

/-- SHOOTDOWN_RANGE: KIND 0, with a device flush first when FLCTL bit 2 is set. -/
def execShootdownRange (s : State) : Out := s.shootdown 0 (s.ctxOf s.facts.ctx).flctl .shootdownRange
/-- SHOOTDOWN_CONTEXT: KIND 1. -/
def execShootdownContext (s : State) : Out := s.shootdown 1 false .shootdownContext
/-- SHOOTDOWN_RBT: KIND 2. -/
def execShootdownRbt (s : State) : Out := s.shootdown 2 false .shootdownRbt
/-- DEVICE_FLUSH: KIND 0 while FLCTL bit 2 is set (13/R375). -/
def execDeviceFlush (s : State) : Out :=
  if (s.ctxOf s.facts.ctx).flctl then s.shootdown 0 true .deviceFlush else .next s

/-- SHREF (13/R358, R361). -/
def State.shref (s : State) (cx : CtxId) : Nat :=
  let n (p : Place) : Nat := p.lines.countP (·.hit)
  ((s.allWaves.filter fun w => w.ctx = cx).map fun w => n w.wbuf).sum + ((s.allBlocks.filter fun b => b.ctx = cx).map fun b => n b.place).sum +
    ((s.allGangs.filter fun g => g.ctx = cx).map fun g => n g.place).sum

/-- SNAPREF (13/R358). -/
def State.snapref (s : State) (cx : CtxId) : Nat :=
  let c := s.ctxOf cx
  s.snaps.countP fun p => p.ctx == cx &&
    (c.lastKind != 0#2 || meets c.lastLo (c.lastLo + c.lastLen) p.virt p.len)

/-! ### Contexts (18/R439, 12/R343, 14/R394) -/

/-- CONTEXT_CREATE: the context exists from now on, with its configuration registers as they stand and CTXERR clear (18/R439, log 63);
refused in recovery mode (18/R441), and with WCOMP while that feature is off (15/R415). What the manual resets at no creation, the bound registers
lo, hi, BNDACT and BNDFMT (02/R83) among it, keeps the value an earlier context of the number left (DESIGN CHOICE, log 63). -/
def execContextCreate (s : State) : Out :=
  let cx := s.facts.ctx
  let v : Word := s.facts.val.lo
  let c := s.ctxOf cx
  if c.en ∨ !v.getLsbD 31 ∨ !s.dev.powered ∨ s.dev.fwState = .recovery ∨ (v.getLsbD 30 ∧ !s.dev.featack[0].getLsbD 0) then .next s
  else .next (s.setCtx cx { c with
    en := true
    wcomp := v.getLsbD 30
    diag := v.getLsbD 29
    bclmask := v.extractLsb' 0 16
    kills := 0
    wkill := false
    lrej := false
    serial := 1
    switchedOut := false
    cmdHeld := none })

/-- CONTEXT_SWITCH_OUT: saves of the context's placed gangs are requested, partly placed ones are released, and from now on
nothing of the context is placed (12/R343); a replacement of firmware holds it, GO reading 1, until it is over (18/R442). -/
def execContextSwitchOut (s : State) : Out :=
  let cx := s.facts.ctx
  let c := s.ctxOf cx
  if !c.en ∨ c.killing then .next s
  else if s.fwHolds then .next (s.setCtx cx { c with cmdHeld := some 1 })
  else
    let s := s.setCtx cx { c with switchedOut := true, cmdHeld := none }
    .next ((s.residentGangs.filter fun g => g.ctx == cx).foldl (fun s g => s.requestSave g) s)

/-- CONTEXT_SWITCH_IN: the context's saved gangs are candidates again; a save of the context in progress, or a replacement of firmware,
holds it, GO reading 1, until it is over (18/R439, R442). -/
def execContextSwitchIn (s : State) : Out :=
  let cx := s.facts.ctx
  let c := s.ctxOf cx
  if !c.en ∨ c.killing then .next s
  else if s.fwHolds ∨ (s.residentGangs.any fun g => g.ctx == cx && g.state == .saving) then .next (s.setCtx cx { c with cmdHeld := some 2 })
  else .next (s.setCtx cx { c with switchedOut := false, cmdHeld := none })

/-- A wave of a context that is killed: it ends without a record of its own, and does not count in CTXERR (log 28). -/
def State.endWaves (s : State) (cx : CtxId) : State :=
  (s.allWaves.filter fun w => w.key.launch != 0 && w.ctx == cx && w.life != .ended).foldl (init := s) fun s w =>
    ((s.setCore w.core ((s.core w.core).releaseSlots w.key)).orphan w.core w.key w.wbuf).setWave (w.ending true)

/-- The copy requests of a context that are held up end with ERR 0x04. -/
def State.endHeld (s : State) (cx : CtxId) : State :=
  let kick (k : Kick) : Kick := if k.ctx = cx ∧ k.held.isSome then { k with held := none, err := 4 } else k
  { s with cores := s.cores.map fun c => { c with kicks := c.kicks.map kick } }

/-- The first part of a context kill: its waves end, its places are discarded, one CTX_KILLED record is written. -/
def State.beginKill (s : State) (cx : CtxId) : State :=
  let s := s.errorRecord (some cx) { code := 0x0303, unit := noUnit, detail := cx.toNat }
  let mine (k : WaveKey) : Bool := s.allWaves.any fun w => w.key == k && w.ctx == cx
  let s := (s.abandon mine).endWaves cx
  let s := s.discardPlaces fun k => (s.findGang k).any (·.ctx == cx)
  let s := s.mapGangs fun g => if g.ctx = cx then { g with killed := true } else g
  s.setCtx cx { s.ctxOf cx with killing := true, switchedOut := true }

/-- The last part: blocks and gangs are gone, launches end without an increment (12/R333), snapshots end without a restore,
writers that wait on the pool go on, and the context exists no more (14/R394). -/
def State.endContext (s : State) (cx : CtxId) : State :=
  let s := s.mapBlocks fun b => if b.ctx = cx ∧ b.key.launch ≠ 0 then { b with retired := true, scratch := [], poison := [], tags := [], place := Place.empty } else b
  let s := s.mapGangs fun g => if g.ctx = cx ∧ g.key.launch ≠ 0 then { g with state := .retired, place := Place.empty } else g
  let dead (l : Nat) : Bool := s.allLaunches.any fun x => x.id == l && x.id != 0 && x.ctx == cx
  let drop (q : LQueue) : LQueue :=
    if q.pend.any dead then { q with pend := none, head := q.head + 1, state := if q.head + 1 = q.tail then 0 else 1 } else q
  let s : State := { s with queues := s.queues.map drop }
  let s := s.mapLaunches fun l => if l.ctx = cx ∧ l.id ≠ 0 then { l with state := .complete, tagsHeld := 0 } else l
  let waits := s.poolWait.filter fun e => e.1 = cx
  let s := waits.foldl State.freeKick s
  let s := s.setCtx cx { s.ctxOf cx with en := false, killing := false, switchedOut := false, cmdHeld := none, tlb := [], rbt := [] }
  { s with
    snaps := s.snaps.filter fun p => p.ctx != cx
    poolWait := s.poolWait.filter fun e => e.1 != cx
    retry := if s.retry.any fun e => e.1 == cx then none else s.retry
    agenda := waits.map (·.2) ++ s.agenda }

/-- CONTEXT_KILL: the kill begins at its first event, and ends once the context's restores and engine work have ended
(14/R394, 01/R54). -/
def execContextKill (s : State) : Out :=
  let cx := s.facts.ctx
  if !(s.ctxOf cx).en then .next s
  else
    let s := (if (s.ctxOf cx).killing then s else s.beginKill cx).endHeld cx
    let mine (k : WaveKey) : Bool := s.allWaves.any fun w => w.key == k && w.ctx == cx
    if (s.restores.any fun r => r.ctx == cx) ∨ s.busyWork mine then .next s else .next (s.endContext cx)

end Sys2Proof.Machine
end

