-- ==== Sys2Proof/Machine/Registers.lean ====
section
/-! DEFINITION. The management window: what a host write of a register sets, what a host read returns, the host's coherent
accesses, and the debugger halt (15/R395, R412, 18/R436 to R439 and the rules their tables name). -/

namespace Sys2Proof.Machine

/-- A change of the device registers. -/
def State.onDev (s : State) (f : Device → Device) : State := { s with dev := f s.dev }
/-- A change of a context's register block. -/
def State.onCtx (s : State) (cx : CtxId) (f : Ctx → Ctx) : State := s.setCtx cx (f (s.ctxOf cx))

/-- Whether any context exists. -/
def State.anyContext (s : State) : Bool := s.ctxs.toList.any (·.en)

/-- A field of a written value. -/
def fieldOf (v lo n : Nat) : Nat := v / 2 ^ lo % 2 ^ n
@[inherit_doc fieldOf] def bitAt (v i : Nat) : Bool := v / 2 ^ i % 2 == 1

/-! ### Writes -/

/-- A write of one of FEATACK0 to FEATACK3: only offered features can be acknowledged (15/R414, R415). -/
def State.writeFeatack (s : State) (i : BitVec 2) (v : Nat) : State :=
  if s.anyContext then s
  else s.onDev fun d => { d with featack := put d.featack i (if i = 0 then BitVec.ofNat 32 (v % 32) else 0) }

/-- A write of UNITCMD: none while a command is in hand; GO starts one on the unit that UNITSEL names (17/R431). -/
def State.writeUnitcmd (s : State) (v : Nat) : State :=
  let known := 1 ≤ v % 16 ∧ v % 16 ≤ 5
  let s' := s.onDev fun d => { d with
    unitcmd := BitVec.ofNat 4 v, unitgo := if bitAt v 31 ∧ known then some d.unitsel else none }
  if s.dev.unitgo.isSome then s
  else if !bitAt v 31 then s'
  else
    let s := s'
    match v % 16 with
    | 1 => s.starts .unitcmdRetest s.facts
    | 2 => s.starts .unitcmdReadmit s.facts
    | 3 => s.starts .unitcmdFence s.facts
    | 4 => s.starts .unitcmdStrongCode s.facts
    | 5 => s.starts .unitcmdSecded s.facts
    | _ => s

/-- A write of FWCTL (18/R440): GO with role 3 clears with ERR 5, whatever the command. -/
def State.writeFwctl (s : State) (v : Nat) : State :=
  let s := s.onDev fun d => { d with
    fwCmd := BitVec.ofNat 2 v, fwRole := BitVec.ofNat 2 (fieldOf v 4 2), fwDie := BitVec.ofNat 2 (fieldOf v 6 2) }
  if !bitAt v 31 then s
  else if fieldOf v 4 2 = 3 then s.onDev fun d => { d with fwErr := 5, fwgo := false }
  else if v % 4 = 0 then s
  else
    let s := s.onDev fun d => { d with fwgo := true }
    match v % 4 with
    | 1 => s.starts .firmwareStage s.facts
    | 2 => s.starts .firmwareSwap s.facts
    | _ => s.starts .firmwareAbandon s.facts

/-- A write into the device register block (18/R437); a register that holds a physical address takes one of this device's memory
only (18/R454, 00/R20). -/
def State.writeDevice (s : State) (off v : Nat) : State :=
  let w : Word := BitVec.ofNat 32 v
  match off with
  | 0x10 => s.writeFeatack 0 v
  | 0x14 => s.writeFeatack 1 v
  | 0x18 => s.writeFeatack 2 v
  | 0x1C => s.writeFeatack 3 v
  | 0x20 => if s.dev.ring.size = 0 ∧ v % 4096 = 0 ∧ hasMemory v then s.onDev fun d => { d with ring := { d.ring with base := v } } else s
  | 0x28 => s.starts .ersizeWrite s.facts
  | 0x2C => s.starts .erheadWrite s.facts
  | 0x40 => s.onDev fun d => { d with unitsel := w &&& ~~~(1#32 <<< 18) }
  | 0x44 => s.writeUnitcmd v
  | 0x58 => s.starts .lostsetWrite s.facts
  | 0x5C => if 256 ≤ v ∧ v ≤ 2 ^ 20 then s.onDev fun d => { d with age := v } else s
  | 0x60 => s.starts (if bitAt v 0 then .debugHalt else .debugResume) s.facts
  | 0x70 => if v ≤ 8192 ∧ !s.anyContext then s.onDev fun d => { d with gbres := v } else s
  | 0x80 => s.writeFwctl v
  | 0x88 => if hasMemory v then s.onDev fun d => { d with fwsrc := v } else s
  | 0x90 => s.onDev fun d => { d with fwlen := v }
  | 0xA0 => if hasMemory v then s.onDev fun d => { d with mlbase := v } else s
  | 0xA8 => s.onDev fun d => { d with mlsize := v }
  | 0xB0 => if hasMemory v then s.onDev fun d => { d with attsrc := v } else s
  | 0xB8 => if hasMemory v then s.onDev fun d => { d with attdst := v } else s
  | 0xC0 => if bitAt v 31 ∧ !s.dev.attgo then (s.onDev fun d => { d with attgo := true }).starts .attestation s.facts else s
  | 0xD0 =>
    let k := v % 32
    s.onDev fun d => { d with smpEn := bitAt v 31, smpK := if 6 ≤ k ∧ k ≤ 20 then k else d.smpK }
  | 0xE0 => if s.dev.trace.size = 0 ∧ v % 4096 = 0 ∧ hasMemory v then s.onDev fun d => { d with trace := { d.trace with base := v } } else s
  | 0xE8 => if ringSizeOk v then (s.setTrace { s.dev.trace with size := v }).traceResume else s
  | 0xEC => s.starts .trheadWrite s.facts
  | _ => s

/-- A write of a budget class's register (12/R338). -/
def State.writeBudget (s : State) (off v : Nat) : State :=
  let c : BitVec 4 := BitVec.ofNat 4 (off / 32)
  let b := pick s.dev.budgets c
  let new : Budget := match off % 32 with
    | 0 => if v ≤ 512 then { b with cores := v } else b
    | 4 => { b with bw := v }
    | 8 => { b with pwr := v }
    | _ => b
  s.onDev fun d => { d with budgets := put d.budgets c new }

/-- A write of a launch queue's register (12/R328 to R330). -/
def State.writeQueue (s : State) (q : QueueId) (off v : Nat) : State :=
  let x := s.queue q
  let f : Facts := { s.facts with queue := q }
  match off with
  | 0x00 => if !x.en ∧ v % 4096 = 0 then s.setQueue q { x with qbase := BitVec.ofNat 64 v } else s
  | 0x08 => s.setQueue q { x with
      en := bitAt v 31, src := if x.en then x.src else bitAt v 30, notify := bitAt v 29, ctx := BitVec.ofNat 16 v }
  | 0x0C => if !x.en ∧ (List.range 12).any (fun i => v == 2 ^ (i + 1)) then s.setQueue q { x with qsize := v } else s
  | 0x14 => s.starts .qtailWrite f
  | 0x18 =>
    let s := if bitAt v 0 then s.starts .qstatRetry f else s
    if bitAt v 1 then s.starts .qstatSkip f else s
  | _ => s

/-- A write of a register marked CFG: only while the context does not exist (18/R438); one that holds a physical address takes one of
this device's memory only (18/R454, 00/R20). -/
def State.writeCfg (s : State) (cx : CtxId) (off v : Nat) : State :=
  s.onCtx cx fun c =>
    match off with
    | 0x008 => if v % 4096 = 0 ∧ hasMemory v then { c with rbtbase := v } else c
    | 0x010 => if v % 4096 = 0 ∧ hasMemory v then { c with troot := v } else c
    | 0x018 => if v % 64 = 0 then { c with evbase := BitVec.ofNat 64 v } else c
    | 0x020 => if 1 ≤ v ∧ v ≤ 65535 then { c with evsize := v } else c
    | 0x028 => { c with stkbase := BitVec.ofNat 64 v }
    | 0x030 => if v % 4096 = 0 ∧ 4096 ≤ v ∧ v ≤ 2 ^ 24 then { c with stkslice := v } else c
    | 0x034 => { c with stkcount := v }
    | 0x038 => if hasMemory v then { c with savebase := v } else c
    | 0x040 => { c with savesize := v }
    | 0x044 => { c with savecount := v }
    | 0x098 => if hasMemory v then { c with tagbase := v } else c
    | 0x0A0 => if v % 4096 = 0 ∧ hasMemory v then { c with tagmbase := v } else c
    | 0x0A8 => if v % 4096 = 0 then { c with tagmlen := v } else c
    | _ => c

/-- A write of CTXCFG: EN starts the creation; BCLMASK can always be written, WCOMP and DIAG only while EN is 0 (18/R439). -/
def State.writeCtxcfg (s : State) (cx : CtxId) (v : Nat) : State :=
  if (s.ctxOf cx).en then s.onCtx cx fun c => { c with bclmask := BitVec.ofNat 16 v }
  else if bitAt v 31 then s.starts .contextCreate { s.facts with ctx := cx }
  else s.onCtx cx fun c => { c with wcomp := bitAt v 30, diag := bitAt v 29, bclmask := BitVec.ofNat 16 v }

/-- A write of CTXCMD (18/R439): CMD takes every value, and GO starts the command that is written with it. What a GO does while GO is
already 1 the manual does not say: a switch that is started so takes the place of one that is held up, and a command of nothing leaves
that one waiting (DESIGN CHOICE, log 89). -/
def State.writeCtxcmd (s : State) (cx : CtxId) (v : Nat) : State :=
  let f : Facts := { s.facts with ctx := cx }
  let s := s.onCtx cx fun c => { c with cmd := BitVec.ofNat 2 v }
  if bitAt v 31 then
    match v % 4 with
    | 1 => s.starts .contextSwitchOut f
    | 2 => s.starts .contextSwitchIn f
    | 3 => s.starts .contextKill f
    | _ => s
  else s

/-- A write of SHCTL: KIND stays while GO is 1, and takes no reserved value; GO starts a shootdown of kinds 0 to 2 (13/R359, 00/R20). -/
def State.writeShctl (s : State) (cx : CtxId) (v : Nat) : State :=
  let f : Facts := { s.facts with ctx := cx }
  let s := s.onCtx cx fun c => { c with shrecall := bitAt v 3, shkind := if c.shgo ∨ v % 4 = 3 then c.shkind else BitVec.ofNat 2 v }
  if !bitAt v 31 ∨ (s.ctxOf cx).shgo then s
  else match v % 4 with
    | 0 => s.starts .shootdownRange f
    | 1 => s.starts .shootdownContext f
    | 2 => s.starts .shootdownRbt f
    | _ => s

/-- Whether a context holds no shadow line's snapshot and no spilled line (14/R385). -/
def State.poolIdle (s : State) (cx : CtxId) : Bool := !(s.snaps.any fun p => p.ctx == cx) && s.poolUsed cx == 0

/-- A write into a context's register block (18/R438). -/
def State.writeContext (s : State) (cx : CtxId) (off v : Nat) : State :=
  let f : Facts := { s.facts with ctx := cx }
  let c := s.ctxOf cx
  match off with
  | 0x000 => s.writeCtxcfg cx v
  | 0x004 => s.writeCtxcmd cx v
  | 0x048 => if 20 ≤ v ∧ v ≤ 32 then s.onCtx cx fun c => { c with wdogk := v } else s
  | 0x04C => s.onCtx cx fun c => { c with resfree := v }
  | 0x050 => s.starts (if bitAt v 32 then .parkKill else .parkResume) f
  | 0x058 => s.onCtx cx fun c => { c with flctl := bitAt v 2 }
  | 0x05C => s.onCtx cx fun c => { c with wkill := c.wkill && !bitAt v 0, lrej := c.lrej && !bitAt v 1 }
  | 0x060 =>
    let a := v % 2 ^ 57
    if !c.shgo ∧ a % 4096 = 0 then s.onCtx cx fun c => { c with shbase := BitVec.ofNat 64 a } else s
  | 0x068 =>
    if !c.shgo ∧ v % 4096 = 0 ∧ c.shbase.toNat + v ≤ 2 ^ 57 then s.onCtx cx fun c => { c with shlen := BitVec.ofNat 64 v } else s
  | 0x070 => s.writeShctl cx v
  | 0x080 => if v % 4096 = 0 ∧ hasMemory v ∧ s.poolIdle cx then s.onCtx cx fun c => { c with poolbase := v } else s
  | 0x088 => s.starts .poolsizeWrite f
  | 0x08C => s.onCtx cx fun c => { c with poolmode := bitAt v 0 }
  | _ => if c.en then s else s.writeCfg cx off v

/-- Whether an offset of the window is that of a 64-bit register. -/
def isWide (off : Nat) : Bool :=
  if off < 0x400 then [0x20, 0x48, 0x88, 0xA0, 0xB0, 0xB8, 0xE0].contains off
  else if 0x10000 ≤ off && off < 0x12000 then off % 32 == 0
  else decide (0x100000 ≤ off) && [0x08, 0x10, 0x18, 0x28, 0x38, 0x50, 0x60, 0x68, 0x80, 0x98, 0xA0, 0xA8].contains (off % 4096)

/-- A write at an offset of the window (18/R436). -/
def State.writeWindow (s : State) (off v : Nat) : State :=
  if off < 0x400 then s.writeDevice off v
  else if off < 0x600 then s.writeBudget (off - 0x400) v
  else if off < 0x10000 then s
  else if off < 0x12000 then s.writeQueue (BitVec.ofNat 8 ((off - 0x10000) / 32)) (off % 32) v
  else if 0x100000 ≤ off ∧ off < 0x1100000 then s.writeContext (BitVec.ofNat 12 ((off - 0x100000) / 4096)) (off % 4096) v
  else s

/-- REGISTER_WRITE: a host write of one whole register, at `addr` in the window (00/R18 to R20, 18/R436 to R438); a write of
another size has no effect (log 29). -/
def execRegisterWrite (s : State) : Out :=
  let f := s.facts
  let wide := isWide f.addr
  if f.size = (if wide then 8 else 4) then
    let v := if wide then f.val.toNat else f.val.lo.toNat
    .next (s.writeWindow f.addr v)
  else .next s

/-! ### Reads -/

/-- FEAT0 (15/R415). -/
def feat0 : Nat := 0x1F

/-- UNITST of a unit (17/R427). -/
def State.unitst (s : State) (u : UnitId) : Nat :=
  let b (x : Bool) (i : Nat) : Nat := if x then 2 ^ i else 0
  let own (x : BinUnit) : Nat := hoursSince s.dev.ftime x.cleanFrom * 2 ^ 40 + b x.strong 7 + b (x.retest != .no) 5 + x.bin.toNat
  match unitRef u with
  | .core c =>
    let k := s.core c
    let count := match (if unitScope u = 1 then none else counterOf u) with
      | some i => s.dev.threshOf i * 2 ^ 32 + k.mcnt[i] * 2 ^ 16
      | none => 0
    hoursSince s.dev.ftime k.cleanFrom * 2 ^ 40 + count + b (unitKind u == 9 && unitScope u == 0 && (pick s.spads c).strong) 7 +
      b k.closed 6 + b (k.retest != .no && s.coreEmpty c) 5 + k.bin.toNat
  | .slice i => own (pick s.slices i)
  | .vault v => own (pick s.vaults v)
  | .port p => own s.links[p]
  | .channel c => b s.channels[c].strong 7
  | .none => 0

/-- The place of the running image of the selected role in `Device.running`: management, schedulers by die, fabric. -/
def runningIndex (role die : BitVec 2) : Fin 6 :=
  if role = 0#2 then 0 else if role = 1#2 then ⟨1 + die.toNat, by have := die.isLt; omega⟩ else 5

/-- FWSTAT (18/R440). -/
def Device.fwstat (d : Device) : Nat :=
  let st : Nat := match d.fwState with
    | .idle => 0
    | .staged => 1
    | .handover => 2
    | .probation => 3
    | .recovery => 4
    | .fallback => 3
  st * 2 ^ 29 + d.fwErr.toNat * 2 ^ 16 + d.fwMissed % 256 * 2 ^ 8 + d.running[runningIndex d.fwRole d.fwDie].slot.toNat

/-- A read of the device register block (18/R437). -/
def State.readDevice (s : State) (off : Nat) : Nat :=
  let d := s.dev
  match off with
  | 0x00 => feat0
  | 0x10 => d.featack[0].toNat
  | 0x14 => d.featack[1].toNat
  | 0x18 => d.featack[2].toNat
  | 0x1C => d.featack[3].toNat
  | 0x20 => d.ring.base
  | 0x28 => d.ring.size
  | 0x2C => d.ring.head.toNat
  | 0x30 => d.ring.tail.toNat
  | 0x34 => d.ring.lost.toNat
  | 0x40 => d.unitsel.toNat
  | 0x44 => (if d.unitgo.isSome then 2 ^ 31 else 0) + d.unitcmd.toNat
  | 0x48 => s.unitst d.unitsel
  | 0x50 =>
    if unitRef d.unitsel = .none then 0
    else ((d.bists.find? fun e => unitRef e.1 == unitRef d.unitsel).map (·.2.toNat)).getD 0
  | 0x5C => d.age
  | 0x60 => if d.halt then 1 else 0
  | 0x64 => d.pwrk
  | 0x68 => d.pkgpwr
  | 0x6C => d.tj
  | 0x70 => d.gbres
  | 0x80 => (if d.fwgo then 2 ^ 31 else 0) + d.fwDie.toNat * 64 + d.fwRole.toNat * 16 + d.fwCmd.toNat
  | 0x84 => d.fwstat
  | 0x88 => d.fwsrc
  | 0x90 => d.fwlen
  | 0xA0 => d.mlbase
  | 0xA8 => d.mlsize
  | 0xAC => d.mltail
  | 0xB0 => d.attsrc
  | 0xB8 => d.attdst
  | 0xC0 => if d.attgo then 2 ^ 31 else 0
  | 0xD0 => (if d.smpEn then 2 ^ 31 else 0) + d.smpK
  | 0xE0 => d.trace.base
  | 0xE8 => d.trace.size
  | 0xEC => d.trace.head.toNat
  | 0xF0 => d.trace.tail.toNat
  | 0xF4 => d.trace.lost.toNat
  | _ => 0

/-- A read of a budget class's registers; BUSE is the cores in use, then what POWER_ESTIMATE measured (12/R338). -/
def State.readBudget (s : State) (off : Nat) : Nat :=
  let b := pick s.dev.budgets (BitVec.ofNat 4 (off / 32))
  match off % 32 with
  | 0 => b.cores
  | 4 => b.bw
  | 8 => b.pwr
  | 12 => (s.classCores (off / 32)).length
  | 16 => b.usedBw
  | 20 => b.usedPwr
  | _ => 0

/-- STATE: stopped, waiting on dependences, taking records, or idle (12/R330). -/
def LQueue.status (x : LQueue) : Nat :=
  if x.state = 2 then 2 else if x.pend.isSome then 3 else if x.en && x.head != x.tail then 1 else 0

/-- A read of a launch queue's registers (12/R328 to R330). -/
def LQueue.read (x : LQueue) (off : Nat) : Nat :=
  let b (c : Bool) (i : Nat) : Nat := if c then 2 ^ i else 0
  match off with
  | 0x00 => x.qbase.toNat
  | 0x08 => b x.en 31 + b x.src 30 + b x.notify 29 + x.ctx.toNat
  | 0x0C => x.qsize
  | 0x10 => x.head.toNat
  | 0x14 => x.tail.toNat
  | 0x18 => x.status * 2 ^ 30 + x.err.toNat * 2 ^ 16
  | _ => 0

/-- Whether CTXCMD's command is still being done. -/
def State.cmdGoing (s : State) (cx : CtxId) : Bool :=
  let c := s.ctxOf cx
  c.en && (c.killing || c.cmdHeld.isSome || (c.switchedOut && s.residentGangs.any fun g => g.ctx == cx && g.state == .saving))

/-- A read of a context's register block (18/R438, R439, 13/R358, R359, 14/R385). -/
def State.readContext (s : State) (cx : CtxId) (off : Nat) : Nat :=
  let c := s.ctxOf cx
  let b (x : Bool) (i : Nat) : Nat := if x then 2 ^ i else 0
  match off with
  | 0x000 => b c.en 31 + b c.wcomp 30 + b c.diag 29 + c.bclmask.toNat
  | 0x004 => b (s.cmdGoing cx) 31 + c.cmd.toNat
  | 0x008 => c.rbtbase
  | 0x010 => c.troot
  | 0x018 => c.evbase.toNat
  | 0x020 => c.evsize
  | 0x028 => c.stkbase.toNat
  | 0x030 => c.stkslice
  | 0x034 => c.stkcount
  | 0x038 => c.savebase
  | 0x040 => c.savesize
  | 0x044 => c.savecount
  | 0x048 => c.wdogk
  | 0x04C => c.resfree
  | 0x058 => b c.flctl 2
  | 0x05C => c.kills * 2 ^ 16 + b c.lrej 1 + b c.wkill 0
  | 0x060 => c.shbase.toNat
  | 0x068 => c.shlen.toNat
  | 0x070 => b c.shgo 31 + b c.shrecall 3 + c.shkind.toNat
  | 0x074 => s.shref cx
  | 0x078 => s.snapref cx
  | 0x080 => c.poolbase
  | 0x088 => c.poolsize
  | 0x08C => b c.poolmode 0
  | 0x090 => s.poolUsed cx
  | 0x098 => c.tagbase
  | 0x0A0 => c.tagmbase
  | 0x0A8 => c.tagmlen
  | _ => 0

/-- What a host read at an offset of the window returns; an offset that the window does not assign reads zero (18/R436). -/
def State.readWindow (s : State) (off : Nat) : Nat :=
  if off < 0x400 then s.readDevice off
  else if off < 0x600 then s.readBudget (off - 0x400)
  else if off < 0x10000 then 0
  else if off < 0x12000 then (s.queue (BitVec.ofNat 8 ((off - 0x10000) / 32))).read (off % 32)
  else if 0x100000 ≤ off ∧ off < 0x1100000 then s.readContext (BitVec.ofNat 12 ((off - 0x100000) / 4096)) (off % 4096)
  else 0

/-! ### The host's coherent accesses (15/R395) -/

/-- Whether every byte of a range lies in this device's memory (13/R376). -/
def inMemory (a n : Nat) : Bool := (List.range n).all fun i => hasMemory (a + i)

/-- HOST_COHERENT_WRITE: bytes written at D as agent 512; a line of a running restore holds it up, as does a pool
(07/R222, 14/R387). -/
def execHostCoherentWrite (s : State) : Out :=
  let f := s.facts
  let n := f.data.length
  if !inMemory f.addr n then .fault (.noMemory f.addr)
  else if (List.range n).any fun i => s.restoring s.dev.devnum (f.addr + i) then .next s
  else match s.combineBefore .hostCoherentWrite ((List.range n).map fun i => lineOf (f.addr + i)).dedup with
    | .error t => .next t
    | .ok s => match s.homeWriteAll (some hostAgent) none (placed f.addr f.data) with
      | .ok t => .next t
      | .error c => .next (s.waitPool c 0xFFFF (64 * lineOf f.addr) (linkUnit 24) .hostCoherentWrite)

/-- What the host reads of one byte of its own memory at D: a poisoned line's bytes are open (log 27). -/
def State.hostByte (s : State) (a : Nat) : Byte := if s.poisoned a then Config.poisonRead (s.turn + a) else s.mem.read a

/-- HOST_COHERENT_READ: `size` bytes read at D, their partials recalled first (08/R245). -/
def execHostCoherentRead (s : State) : Out :=
  let f := s.facts
  if !inMemory f.addr f.size then .fault (.noMemory f.addr)
  else if (List.range f.size).any fun i => s.restoring s.dev.devnum (f.addr + i) then .next s
  else
    let lines := ((List.range f.size).map fun i => lineOf (f.addr + i)).dedup
    match s.combineBefore .hostCoherentRead lines with
    | .error t => .next t
    | .ok t => .next (t.onDev fun d => { d with hostRead := (List.range f.size).map fun i => t.hostByte (f.addr + i) })

/-! ### The debugger halt (15/R412) -/

/-- The record of a halt's start or end (15/R398). -/
def State.haltRecord (s : State) (start ns : Nat) : State :=
  s.record 7 none (leBytes 8 start ++ leBytes 8 ns ++ leBytes 24 0)

/-- DEBUG_HALT: every wave stops issuing, while engines and the fabric endpoint go on; refused while DBGHALT is off
(15/R412, R415). -/
def execDebugHalt (s : State) : Out :=
  if s.dev.halt ∨ !s.dev.featack[0].getLsbD 4 then .next s
  else
    let s := s.onDev fun d => { d with halt := true, haltFrom := d.ftime }
    let s : State := { s with cores := s.cores.map fun c => { c with haltCycle := c.cycle } }
    .next (s.haltRecord 1 0)

/-- DEBUG_RESUME: the halt ends; watchdog periods did not advance during it (15/R412). -/
def execDebugResume (s : State) : Out :=
  if !s.dev.halt then .next s
  else
    let gone (w : Wave) : Nat := if w.saved then 0 else (s.core w.core).cycle - max (s.core w.core).haltCycle w.waitFrom
    let ns := s.dev.ftime - s.dev.haltFrom
    let s := s.mapWaves fun w => { w with waitFrom := w.waitFrom + gone w }
    .next ((s.onDev fun d => { d with halt := false }).haltRecord 0 ns)

end Sys2Proof.Machine
end

