-- ==== Sys2Proof/Machine/Fabric.lean ====
section
/-! DEFINITION. The fabric: ports, arrivals from peers, answers, resends, the retry window, and lost devices
(15/R400 to R411). -/

namespace Sys2Proof.Machine

/-! ### Ports (15/R400, 17/R430) -/

/-- Replaces a port. -/
def State.setPort (s : State) (p : PortId) (x : Port) : State := { s with ports := s.ports.set p x }

/-- Failed replays after which a port retrains. -/
def maxReplays : Nat := 16

/-- LINK_REPLAY: a flit is replayed; `ok` says whether its CRC is now good. -/
def execLinkReplay (s : State) : Out :=
  let x := s.ports[s.facts.port]
  if !x.up ∨ x.retraining then .next s
  else .next (s.setPort s.facts.port { x with replays := if s.facts.ok then 0 else x.replays + 1 })

/-- PORT_RETRAIN: after 16 failed replays of a flit the port retrains; the fourth time in an hour moves it a bin up. -/
def execPortRetrain (s : State) : Out :=
  let i := s.facts.port
  let x := s.ports[i]
  if !x.up ∨ x.retraining ∨ x.replays < maxReplays then .next s
  else
    let s := s.retrain i
    let u := s.links[i]
    let s : State := { s with links := s.links.set i { u with retrains := u.retrains + 1 } }
    .next (if u.retrains + 1 = 4 then s.trigger (linkUnit i) s.links[i] else s)

/-- RETRAINING_COMPLETE: the port replays again, or is taken down. -/
def execRetrainingComplete (s : State) : Out :=
  let i := s.facts.port
  let x := s.ports[i]
  if !x.up ∨ !x.retraining then .next s
  else if s.facts.ok then .next (s.setPort i { x with retraining := false, replays := 0 })
  else .next (s.portDown i)

/-- ROUTE_RETURN: a route to a peer is available again; the change of routes waits for a replacement of firmware to end (18/R442). -/
def execRouteReturn (s : State) : Out :=
  match s.peer s.facts.dev with
  | none => .next s
  | some p => .next (if s.fwHolds then s else s.setPeer { p with route := .up })

/-! ### A device that is lost (15/R406, R408 to R410) -/

/-- Whether a line awaits the acknowledgement of a home. -/
def BLine.awaits (b : BLine) (dev : Nat) : Bool := b.dev == dev && b.sent.isSome
/-- A place without the lines that await a home. -/
def Place.without (p : Place) (dev : Nat) : Place := { p with lines := p.lines.filter fun b => !b.awaits dev }

/-- The places whose lines await a home: context and unit that holds each (15/R406, 17/R425). -/
def State.placesOf (s : State) (dev : Nat) : List (CtxId × UnitId) :=
  let awaits (p : Place) : Bool := p.lines.any (·.awaits dev)
  ((s.allWaves.filter fun w => w.key.launch != 0 && awaits w.wbuf).map fun w => (w.ctx, wholeCore w.core)) ++
  ((s.allBlocks.filter fun b => b.key.launch != 0 && awaits b.place).map fun b => (b.ctx, wholeCore b.core)) ++
  ((s.allGangs.filter fun g => g.key.launch != 0 && awaits g.place).map fun g => (g.ctx, wholeQuad g.quad))

/-- The lines that await a home that is lost are discarded, with one record for each place, spilled and saved lines among them. -/
def State.loseLines (s : State) (dev : Nat) : State :=
  let s := (s.placesOf dev).foldl (fun s p => s.errorRecord (some p.1) { code := 0x0603, unit := p.2, detail := dev }) s
  let s := s.mapWaves fun w => { w with wbuf := w.wbuf.without dev }
  let s := s.mapBlocks fun b => { b with place := b.place.without dev }
  s.mapGangs fun g => { g with place := g.place.without dev }

/-- A line that a lost device holds partials of is poisoned, with a record of its address (15/R410). -/
def State.loseLine (s : State) (dev line : Nat) : State :=
  let s : State := { s with poison := line :: s.poison.filter (· != line) }
  s.errorRecord none { code := 0x0502, uncorr := true, unit := s.sliceOf line, addr := some (physAddr (64 * line)), detail := dev }

/-- The lines homed here of which a peer's cores hold partials (15/R410). -/
def State.peerLines (s : State) (dev : Nat) : List Nat := ((s.parts.filter fun p => p.peer == some dev).map fun p => lineOf p.addr).dedup

/-- The commit groups of held writes. -/
def groupsOf (hs : List HeldWrite) : List Nat := (hs.map (·.group)).dedup

/-- The held writes of whole groups that nothing but this home keeps from being performed: no write before them is missing. -/
def wholeGroups : Nat → List HeldWrite → Word → List HeldWrite
  | 0, _, _ => []
  | n + 1, hs, p =>
    match readyRun hs hs.length p [] with
    | none => []
    | some run => run ++ wholeGroups n hs (p + BitVec.ofNat 32 run.length)

/-- A peer is declared lost: groups that have not been received whole are discarded, and so are the endpoint's writes to it (15/R408). -/
def State.declareLost (s : State) (dev why : Nat) : State :=
  match s.peer dev with
  | none => s
  | some p =>
    if p.lost then s
    else
      let kept := wholeGroups p.held.length p.held p.performed
      let gone := p.held.filter fun h => !kept.contains h
      let lines := s.peerLines dev
      let s := s.setPeer { p with lost := true, held := kept }
      let s := lines.foldl (fun s l => s.loseLine dev l) { s with parts := s.parts.filter fun q => q.peer != some dev }
      let s := s.loseLines dev
      let s : State := { s with cores := s.cores.map fun c => { c with writes := c.writes.filter fun w => !(w.dev == dev && w.lane == 96) } }
      s.record 8 none (leBytes 2 dev ++ leBytes 2 why ++ leBytes 4 lines.length ++ leBytes 4 (groupsOf gone).length ++ leBytes 28 0)

/-- LOSTSET_WRITE: the host declares a domain number lost. -/
def execLostsetWrite (s : State) : Out := .next (s.declareLost s.facts.val.lo.toNat 1)

/-- ROUTES_DOWN_TIMEOUT: every route to a peer has been down for 20 ms. -/
def execRoutesDownTimeout (s : State) : Out :=
  match s.peer s.facts.dev with
  | none => .next s
  | some p => .next (if p.route = .down ∧ p.downFrom + 20000000 ≤ s.dev.ftime then s.declareLost p.dev 0 else s)

/-! ### This device as a home (15/R399, R401, R403, R404) -/

/-- Fabric time after a flit with a stamp (15/R403). -/
def State.stamped (s : State) (t : Nat) : State := if s.dev.ftime ≤ t then s.onDev fun d => { d with ftime := t + 1 } else s

/-- Sends a message. -/
def State.send (s : State) (m : Msg) : State := { s with sent := s.sent ++ [m] }

/-- REMOTE_READ_ARRIVAL: a peer reads bytes of a line that is homed here (15/R399). -/
def execRemoteReadArrival (s : State) : Out :=
  let f := s.facts
  if !inMemory f.addr f.size then .fault (.noMemory f.addr)
  else if s.restoring s.dev.devnum f.addr then .next s
  else match s.combineBefore .remoteReadArrival [lineOf f.addr] with
    | .error t => .next t
    | .ok t => .next (t.send (.readReply f.dev f.addr ((List.range f.size).map fun i => t.mem.read (f.addr + i)) (t.poisoned f.addr)))

/-- A held write performed at this home; a reduce combines with what the home holds once partials are in, and a poisoned line stays or
becomes poisoned (08/R245, 09/R273, 17/R433). -/
def State.performOne (s : State) (h : HeldWrite) : Except CtxId State := do
  let lines := (h.data.map fun b => lineOf b.1).dedup
  let s ← lines.foldlM (fun s l => s.recallLine s.dev.devnum l) s
  let bad := h.poison || (h.red.isSome && lines.any s.poison.contains)
  let s ← s.homeWriteAll (some hostAgent) none (h.bytes s.mem)
  return if bad then { s with poison := lines ++ s.poison.filter fun l => !lines.contains l } else s

/-- Performs held writes of a source, one run after another, and acknowledges them; the answer names the pool that stops
one, and its line's address (15/R401, 14/R387). -/
def State.performHeld : Nat → State → Nat → State × Option (CtxId × Nat)
  | 0, s, _ => (s, none)
  | n + 1, s, dev =>
    match s.peer dev with
    | none => (s, none)
    | some p =>
      match readyRun p.held p.held.length p.performed [] with
      | none => (s, none)
      | some run =>
        if (run.flatMap (·.data)).any fun b => s.homeHeld s.dev.devnum b.1 then (s, none)
        else match run.foldlM State.performOne s with
          | .error c => (s, some (c, (((run.flatMap (·.data)).head?).map (·.1)).getD 0))
          | .ok t =>
            let last := p.performed + BitVec.ofNat 32 run.length
            let t := t.setPeer { p with performed := last, held := p.held.filter fun h => !notAfter h.pseq last }
            let t := run.foldl (fun t h => t.send (.writeAck dev h.pseq)) t
            State.performHeld n t dev

/-- The held writes of a source go on; one that a pool stops waits at its home slice. -/
def State.goOn (s : State) (dev n : Nat) : State :=
  match s.performHeld n dev with
  | (t, none) => t
  | (t, some (c, a)) => t.waitPool c 0xFFFF (64 * lineOf a) (linkUnit t.facts.port) .remoteWriteArrival dev

/-- REMOTE_WRITE_ARRIVAL: a write of commit group `size` with PSEQ `num` arrives; `ok` marks the group's last member, an OPC `id` from 2
on a reduce of the format `tag`, `bad` a poisoned line. A lost source's write is refused, while its whole groups go on
(15/R401, R403, R408). -/
def execRemoteWriteArrival (s : State) : Out :=
  let f := s.facts
  match s.peer f.dev with
  | none => .next s
  | some p =>
    if p.lost then .next (s.goOn f.dev (p.held.length + 1))
    else if !inMemory f.addr f.data.length then .fault (.noMemory f.addr)
    else
      let s := s.stamped f.ftime
      let q : Word := BitVec.ofNat 32 f.num
      if notAfter q p.performed then .next (s.send (.writeAck f.dev q))
      else
        let known := p.held.any fun h => h.pseq == q
        if !known ∧ holdFull p.held p.performed q then .next s
        else
          let w : HeldWrite := ⟨q, f.size, f.ok, placed f.addr f.data, if 2 ≤ f.id.toNat then some (f.id.toNat, f.tag.toNat) else none,
            f.bad.isSome, f.ftime⟩
          let s := if known then s else s.setPeer { p with held := p.held ++ [w] }
          .next (s.goOn f.dev (p.held.length + 1))

/-- Whether a home still holds the result of an atomic. -/
def TagEntry.held (e : TagEntry) (now : Nat) (core : CoreId) (tag : BitVec 8) : Bool :=
  e.core == core && e.tag == tag && decide (now < e.at_ + tableLife)

/-- A peer's atomic performed at this home: the old value, or none on a poisoned line (15/R404, 17/R433). -/
def State.homeAtomic (s : State) (pa : Nat) (o : AtomicOp) : Except CtxId (Option Nat × State) := do
  let s ← s.recallLine s.dev.devnum (lineOf pa)
  if s.poisoned pa then return (none, s)
  let m := s.mem.value pa o.bytes
  let s ← s.homeWrite (some hostAgent) none (lineOf pa) (placed pa (leBytes o.bytes (o.apply m)))
  return (some m, s)

/-- REMOTE_ATOMIC_ARRIVAL: a peer's atomic arrives, and is performed once for its tag; what the peer's cores hold of the line comes in
before it (15/R404, R410, 08/R245). -/
def execRemoteAtomicArrival (s : State) : Out :=
  let f := s.facts
  match s.peer f.dev with
  | none => .next s
  | some p =>
    if p.lost then .next s
    else if !inMemory f.addr f.op.bytes then .fault (.noMemory f.addr)
    else
      let s := s.stamped f.ftime
      match p.table.find? fun e => e.held s.dev.ftime f.core f.tag with
      | some e => .next (s.send (.atomicReply f.dev f.core f.tag e.result false))
      | none =>
        if s.restoring s.dev.devnum f.addr then .next s
        else match s.combineBefore .remoteAtomicArrival [lineOf f.addr] with
        | .error t => .next t
        | .ok s => match s.homeAtomic f.addr f.op with
          | .error c => .next (s.waitPool c 0xFFFF (64 * lineOf f.addr) (linkUnit f.port) .remoteAtomicArrival f.dev (if updateOnly f.op.aop then 3 else 2))
          | .ok (none, t) => .next (t.send (.atomicReply f.dev f.core f.tag 0 true))
          | .ok (some m, t) =>
            match t.peer f.dev with
            | none => .next t
            | some p =>
              let e : TagEntry := ⟨f.core, f.tag, BitVec.ofNat 64 m, t.dev.ftime⟩
              let t := t.setPeer { p with table := e :: p.table.filter fun x => !(x.core == f.core && x.tag == f.tag) }
              .next (t.send (.atomicReply f.dev f.core f.tag e.result false))

/-- RESPONSE_ACK_ARRIVAL: the requester has the response; its entry goes (15/R404). -/
def execResponseAckArrival (s : State) : Out :=
  let f := s.facts
  match s.peer f.dev with
  | none => .next s
  | some p => .next (s.setPeer { p with table := p.table.filter fun e => !(e.core == f.core && e.tag == f.tag) })

/-- ATOMIC_TABLE_EXPIRY: an entry that is 10 ms old lapses (15/R404). -/
def execAtomicTableExpiry (s : State) : Out :=
  let f := s.facts
  match s.peer f.dev with
  | none => .next s
  | some p => .next (s.setPeer { p with
      table := p.table.filter fun e => !(e.core == f.core && e.tag == f.tag && decide (e.at_ + tableLife ≤ s.dev.ftime)) })

/-! ### This device as a requester (15/R401, R404 to R407) -/

/-- The lines of a place that a home has performed under a number. -/
def Place.done (p : Place) (dev : Nat) (pseq : Word) : List BLine := p.lines.filter fun b => b.dev == dev && b.sent.any (·.pseq == pseq)

/-- The lines that leave their places when a home has performed a write, each with the core whose endpoint sent it and the gang that holds
the place (15/R406). -/
def State.leaving (s : State) (dev : Nat) (pseq : Word) : List (CoreId × GangKey × BLine) :=
  (s.allWaves.flatMap fun w => (w.wbuf.done dev pseq).map fun b => (w.core, w.key.gangKey, b)) ++
    (s.allBlocks.flatMap fun k => (k.place.done dev pseq).map fun b => (k.core, k.key.gangKey, b)) ++
    s.allGangs.flatMap fun g => (g.place.done dev pseq).map fun b => (g.quad ++ 0#2, g.key, b)

/-- A moved line is at its home: the waves of the gang that wrote it have seen it there, no older copy of it stays in the core, and the core's
clock is ahead of the home's response (07/R204, R217, R221). -/
def State.arrived (s : State) (x : CoreId × GangKey × BLine) : State :=
  ((s.movedFor (fun w => w.key.gangKey == x.2.1) [x.2.2]).dropLine x.1 x.2.2.dev x.2.2.line).scReceive x.1 x.2.2.dev

/-- A write of this device is acknowledged: a lane's write is done, one of the endpoint ends, the copy engine takes note of its own, and a
moved line leaves its place. -/
def State.acknowledge (s : State) (dev : Nat) (pseq : Word) : State :=
  let s := (s.leaving dev pseq).foldl State.arrived s
  let senders := (s.cores.toList.zipIdx.filter fun c => c.1.writes.any fun w => w.dev == dev && w.sent.pseq == pseq).map (·.2)
  let s := senders.foldl (fun s c => s.scReceive (BitVec.ofNat 9 c) dev) s
  let live (k : WaveKey) : Bool := s.allWaves.any fun w => w.key == k && w.life != .ended
  let hit (w : PendingWrite) : Bool := w.dev == dev && w.sent.pseq == pseq
  let keep (w : PendingWrite) : Bool := !hit w || decide (96 < w.lane) || (decide (w.lane < 96) && live w.wave)
  let s : State := { s with
    cores := s.cores.map fun c => { c with
      writes := (c.writes.filter keep).map fun w => if hit w then { w with acked := true } else w } }
  let rest (p : Place) : Place := { p with lines := p.lines.filter fun b => !(p.done dev pseq).contains b }
  let s := s.mapWaves fun w => { w with wbuf := rest w.wbuf }
  let s := s.mapBlocks fun b => { b with place := rest b.place }
  s.mapGangs fun g => { g with place := rest g.place }

/-- REMOTE_WRITE_ACK: the home acknowledges a write that it has performed (15/R406). -/
def execRemoteWriteAck (s : State) : Out :=
  let f := s.facts
  match s.peer f.dev with
  | none => .next s
  | some p => .next (if p.lost ∨ !notAfter (BitVec.ofNat 32 f.num) p.outPerformed then s else s.acknowledge f.dev (BitVec.ofNat 32 f.num))

/-- A write of this device that its home has not acknowledged: its numbers and bytes. -/
def State.unacked (s : State) (dev : Nat) (pseq : Word) : Option (Sent × List (Nat × Byte)) :=
  let ws := s.cores.toList.flatMap (·.writes)
  let lines := (s.allWaves.flatMap (·.wbuf.lines)) ++ (s.allBlocks.flatMap (·.place.lines)) ++ s.allGangs.flatMap (·.place.lines)
  match ws.find? fun w => w.dev == dev && w.sent.pseq == pseq && !w.acked with
  | some w => some (w.sent, w.data)
  | none => lines.findSome? fun b => if b.dev = dev then (b.sent.filter (·.pseq == pseq)).map fun q => (q, b.at_) else none

/-- WRITE_RESEND: an unacknowledged write is sent again with its numbers (15/R401). -/
def execWriteResend (s : State) : Out :=
  let f := s.facts
  let n : Word := BitVec.ofNat 32 f.num
  match s.unacked f.dev n with
  | none => .next s
  | some (q, bs) =>
    let t := s.sendWrite f.dev q bs
    .next (if t.acked f.dev n then t.acknowledge f.dev n else t)

/-- The unanswered atomic of a core under a tag. -/
def State.waiting (s : State) (c : CoreId) (tag : BitVec 8) : Option Outstanding :=
  (s.core c).atomics.find? fun o => o.tag == tag && o.answer.isNone && !o.linklost

/-- Gives an atomic its answer. -/
def State.answer (s : State) (c : CoreId) (tag : BitVec 8) (v : DWord) : State :=
  s.setCore c { s.core c with atomics := (s.core c).atomics.map fun o => if o.tag = tag then { o with answer := some v } else o }

/-- REMOTE_ATOMIC_RESPONSE: the response to an atomic within its retry window; the core's clock is ahead of the timestamp that it carries
(07/R221, 15/R404, R405). -/
def execRemoteAtomicResponse (s : State) : Out :=
  let f := s.facts
  .next (match s.waiting f.core f.tag with
    | some o => (s.answer f.core f.tag f.val).scReceive f.core o.dev
    | none => s)

/-- ATOMIC_RESEND: an unanswered atomic is sent again with its tag (15/R405). -/
def execAtomicResend (s : State) : Out :=
  let f := s.facts
  match s.waiting f.core f.tag with
  | none => .next s
  | some o =>
    let (v, s) := s.sendAtomic f.core o
    let now := s.dev.ftime
    let s := s.setCore f.core { s.core f.core with
      atomics := (s.core f.core).atomics.map fun x => if x.tag = f.tag then { x with sentAt := now } else x }
    .next (match v with
      | some v => s.answer f.core f.tag v
      | none => s)

/-- RESPONSE_ACK_DEADLINE: a response that was received is acknowledged, and the home drops its entry (15/R404). -/
def execResponseAckDeadline (s : State) : Out :=
  let f := s.facts
  let mine (e : TagEntry) : Bool := e.core == f.core && e.tag == f.tag
  if (s.core f.core).atomics.any fun o => o.tag == f.tag && o.answer.isNone then .next s
  else match s.peers.find? fun p => p.outTable.any mine with
    | none => .next s
    | some p => .next ((s.setPeer { p with outTable := p.outTable.filter fun e => !mine e }).send (.ack p.dev f.core f.tag))

/-- Whether a wave's next instruction is WEND, whose move the device makes (15/R406). -/
def State.atWend (s : State) (k : WaveKey) : Bool := (s.nextOf k).any fun x => x.2 == some .wend

/-- RTW expires for a wave that waits for a home: its atomics end their attempt with LINKLOST and it parks; at WEND only a
record tells the host (15/R405, R406). -/
def State.expire (s : State) (w : Wave) (lanes : Vector Word 3) (addr : DWord) (access : Nat) : State :=
  if access = 5 ∧ s.atWend w.key then s.linkRecord w.ctx addr.toNat (wholeCore w.core)
  else
    let lost (o : Outstanding) : Outstanding := if o.wave = w.key ∧ o.answer.isNone then { o with linklost := true } else o
    let s : State := { s with cores := s.cores.map fun c => { c with atomics := c.atomics.map lost } }
    s.changeAs w.key fun s => s.park { cause := .page, lanes := lanes, addr := addr, access := access, link := true }

/-- The record of a device's move whose lines still await a home after RTW (15/R406). -/
def State.moveExpires (s : State) (ctx : CtxId) (unit : UnitId) (p : Place) : State :=
  match p.lines.find? (·.sent.isSome) with
  | some b => s.linkRecord ctx b.va.toNat unit
  | none => s

/-- RETRY_WINDOW_EXPIRY: of a wave's access or move, or of a move that the device makes of a saving wave's, a block's or a gang's
place. A halted wave's state stands (15/R405, R406, R412). -/
def execRetryWindowExpiry (s : State) : Out :=
  let f := s.facts
  match s.findWave f.wave, s.findBlock f.block, s.findGang f.gangKey with
  | some w, _, _ =>
    if w.key.launch = 0 ∨ w.saved then .next s
    else if (s.findGang w.key.gangKey).any fun g => g.state == .saving then .next (s.moveExpires w.ctx (wholeCore w.core) w.wbuf)
    else if s.stopped then .next s
    else match w.life with
      | .waiting (.remote lanes addr access) => .next (s.expire w lanes addr access)
      | .waiting (.wbfull addr) => .next (s.expire w noLanes addr 5)
      | _ => .next s
  | none, some b, _ => .next (if b.key.launch = 0 then s else s.moveExpires b.ctx (wholeCore b.core) b.place)
  | none, none, some g => .next (if g.key.launch = 0 then s else s.moveExpires g.ctx (wholeQuad g.quad) g.place)
  | none, none, none => .next s

end Sys2Proof.Machine
end

