-- ==== Sys2Proof/Machine/Firmware.lean ====
section
/-! DEFINITION. Firmware images, live replacement, the measurement log, attestation, and the two resets
(00/R18, 18/R440 to R445). -/

namespace Sys2Proof.Machine

/-! ### Roles -/

/-- The measurement-log entry of a role's running image, and H (18/R443); a pool or a restore may hold the write up (14/R387, R390). -/
def State.logEntry (s : State) (i : Fin 6) (reason : Nat) : Except (Option CtxId) State := do
  let d := s.dev
  let n := d.mltail + 1
  let e := mlEntry n i.1 reason d.ftime d.running[i]
  let s ← if d.mlsize = 0 then .ok s else s.deviceWrite (d.mlbase + 64 * (n % d.mlsize)) e
  return s.onDev fun d => { d with mltail := n, mlhash := Config.sha3 (d.mlhash ++ e) }

/-- An event whose write the device makes at D: held up, it waits for the pool, or comes again after the restore (14/R387, R390, log
15). -/
def State.written (s : State) (i : Instr) (r : Except (Option CtxId) State) : State :=
  match r with
  | .ok t => t
  | .error c => s.joinPool c (.event i s.facts)

/-- A REMEASURE record (18/R443). -/
def State.remeasure (s : State) (i : Fin 6) (reason : Nat) : State :=
  let r := s.dev.running[i]
  let role : Nat := if i = 0 then 0 else if i = 5 then 2 else 1
  s.record 6 none (leBytes 1 role ++ leBytes 1 reason ++ leBytes 2 r.stateVersion ++ leBytes 4 (s.dev.mltail % 2 ^ 32) ++ r.measurement)

/-- The place of the staged image's role. -/
def State.stagedRole (s : State) : Fin 6 :=
  match s.dev.staged with
  | some i => runningIndex i.role i.die
  | none => 0

/-! ### Staging (18/R440 to R442) -/

/-- What verification finds of staged bytes: the image, or the reason code of its refusal. -/
def checkImage (bs : List Byte) (len : Nat) (role die : BitVec 2) (run : Running) : Image ⊕ Nat :=
  let v (o n : Nat) : Nat := ofLE ((bs.drop o).take n)
  let body := v 16 4
  let img : Image := ⟨BitVec.ofNat 2 (v 4 1), die, v 8 4, v 12 2, Config.signatureOk bs, Config.sha3 (bs.take (64 + body))⟩
  let header := v 0 4 == 0x5746574C && v 5 3 == 0 && v 14 2 == 0 && v 20 44 == 0
  if 2 ^ 24 < body ∨ len ≠ 64 + body + 2420 then .inr 6
  else if !header ∨ !img.signatureOk then .inr 1
  else if v 4 1 ≠ role.toNat then .inr 5
  else if img.version < run.floor then .inr 2
  else if img.stateVersion ≠ run.stateVersion ∧ img.stateVersion ≠ run.stateVersion + 1 then .inr 3
  else .inl img

/-- Refuses a firmware command. -/
def State.refuseFw (s : State) (why : Nat) : Out := .next (s.onDev fun d => { d with fwErr := BitVec.ofNat 8 why, fwgo := false })

/-- The image that runs, by role, when the inactive slot takes `i`. -/
def imageIn (i : Image) (slot : BitVec 2) (floor : Nat) : Running := ⟨slot, i.version, i.stateVersion, floor, i.measurement⟩

/-- The staged bytes written into the slot of its role that is not active. -/
def State.fillSlot (s : State) (i : Image) : State :=
  let k := runningIndex i.role i.die
  let (a, b) := s.dev.images[k]
  let new := if s.dev.active[k] then (imageIn i 0 a.floor, b) else (a, imageIn i 1 b.floor)
  s.onDev fun d => { d with images := d.images.set k new, staged := some i }

/-- FIRMWARE_STAGE: FWLEN bytes at FWSRC are read at D, verified, and written into the inactive slot; GO stays set while the read waits
(07/R222, 08/R245). -/
def execFirmwareStage (s : State) : Out :=
  let d := s.dev
  if (d.fwState ≠ .idle ∧ d.fwState ≠ .recovery) ∨ d.fwRole = 3#2 then s.refuseFw 5
  else if !d.featack[0].getLsbD 3 then s.refuseFw 4
  else if let some t := s.spanFirst d.fwsrc d.fwlen then .next (t.onDev fun d => { d with fwgo := true })
  else match checkImage (s.homeBytes d.fwsrc d.fwlen) d.fwlen d.fwRole d.fwDie d.running[runningIndex d.fwRole d.fwDie] with
    | .inr why => s.refuseFw why
    | .inl i => .next ((s.fillSlot i).onDev fun d => { d with fwState := if d.fwState = .recovery then .recovery else .staged, fwgo := false })

/-- FIRMWARE_SWAP: handover to the staged image begins; in recovery mode its slot is marked active, for the next cold reset to boot, be the
strap set or not (18/R441, log 30). -/
def execFirmwareSwap (s : State) : Out :=
  match s.dev.fwState, s.dev.staged with
  | .staged, some _ => .next (s.onDev fun d => { d with fwState := .handover, previous := none, fwMissed := 0, fwgo := false })
  | .recovery, some i =>
    let k := runningIndex i.role i.die
    .next (s.onDev fun d => { d with active := d.active.set k (!d.active[k]), staged := none, bootSlot := true, fwgo := false })
  | _, _ => s.refuseFw 5

/-- FIRMWARE_ABANDON: the staged image is abandoned. -/
def execFirmwareAbandon (s : State) : Out :=
  match s.dev.fwState with
  | .staged => .next (s.onDev fun d => { d with fwState := .idle, staged := none, fwgo := false })
  | _ => s.refuseFw 5

/-! ### Handover, probation, fallback (18/R442) -/

/-- Whether a role is at its safe point: no save or restore on the die; no self-test and no bin change in progress; no retraining. The scheduler's and management's wait
for SREJ's restores too (14/R392, 18/R442). -/
def State.safePoint (s : State) (i : Image) : Bool :=
  if i.role = 1#2 then
    s.restores == [] && !(s.allGangs.any fun g => g.key.launch != 0 && g.state == .saving && g.quad.extractLsb' 5 2 == i.die)
  else if i.role = 0#2 then
    s.restores == [] && s.cores.toList.all (fun c => c.retest == .no && c.moving.isNone) && s.slices.toList.all (fun x => x.retest == .no) &&
      s.vaults.toList.all (fun x => x.retest == .no) && s.links.toList.all fun x => x.retest == .no
  else s.ports.toList.all fun p => !p.retraining

/-- HANDOVER_SAFE_POINT: the old image writes its state block, and the new one starts from it. -/
def execHandoverSafePoint (s : State) : Out :=
  match s.dev.fwState, s.dev.staged, s.dev.previous with
  | .handover, some i, none =>
    if s.safePoint i then
      let k := runningIndex i.role i.die
      let old := s.dev.running[k]
      .next (s.onDev fun d => { d with
        previous := some (k, old)
        running := d.running.set k (if d.active[k] then d.images[k].1 else d.images[k].2)
        fwMissed := 0
        fwBeat := d.ftime })
    else .next s
  | _, _, _ => .next s

/-- The units of a kind with a move of their bin that waits. -/
def dueUnits {n : Nat} (xs : Vector BinUnit n) (name : Nat → UnitId) : List UnitId :=
  ((List.range n).filter fun i => ((xs[i]?).map (·.due)).getD false).map name

/-- A move of a unit's bin that a trigger asked for during a replacement. -/
def State.moveDue (s : State) (u : UnitId) : State :=
  match s.ownBin u with
  | some x => s.moveOwnUp u { x with due := false }
  | none => s

/-- What was requested during a replacement happens now that it is over: the moves of bins that 17/R430 triggered, the command of UNITCMD
in hand, and the switches of CTXCMD (18/R442). -/
def State.releaseHeld (s : State) : State :=
  let units := dueUnits s.slices (fun i => sliceUnit (i / 64) (i % 64)) ++ dueUnits s.vaults vaultUnit ++ dueUnits s.links linkUnit
  let s := units.foldl State.moveDue s
  let s := match s.dev.unitgo, s.dev.unitcmd.toNat with
    | some _, 2 => s.starts .unitcmdReadmit s.facts
    | some _, 3 => s.starts .unitcmdFence s.facts
    | _, _ => s
  (List.range 4096).foldr (fun i s => s.startHeld (BitVec.ofNat 12 i)) s

/-- FIRMWARE_HEARTBEAT: the new image's first heartbeat begins its probation, the old one's ends a fallback. -/
def execFirmwareHeartbeat (s : State) : Out :=
  let beat (s : State) : State := s.onDev fun d => { d with fwBeat := d.ftime }
  match s.dev.fwState, s.dev.previous with
  | .handover, some _ =>
    let k := s.stagedRole
    .next (s.written .firmwareHeartbeat
      ((((beat s).onDev fun d => { d with fwState := .probation, fwFrom := d.ftime }).logEntry k 1).map fun s => s.remeasure k 1))
  | .probation, _ => .next (beat s)
  | .fallback, _ => .next (s.onDev fun d => { d with fwState := .idle, staged := none, previous := none }).releaseHeld
  | _, _ => .next s

/-- The third missed heartbeat: the old image is restored with its own state block. -/
def State.fallBack (s : State) (k : Nat) (old : Running) : Except (Option CtxId) State :=
  if h : k < 6 then
    let i : Fin 6 := ⟨k, h⟩
    let s := s.onDev fun d => { d with fwState := .fallback, running := d.running.set i old }
    (s.logEntry i 2).map fun s => (s.remeasure i 2).errorRecord none { code := 0x0802, unit := noUnit, detail := s.dev.fwMissed }
  else .ok s

/-- HEARTBEAT_MISSED: a period of 1 ms has passed without a heartbeat of the new image. -/
def execHeartbeatMissed (s : State) : Out :=
  match s.dev.fwState, s.dev.previous with
  | .handover, some (k, old) | .probation, some (k, old) =>
    if s.dev.ftime < s.dev.fwBeat + 1000000 then .next s
    else
      let t := s.onDev fun d => { d with fwMissed := d.fwMissed + 1, fwBeat := d.fwBeat + 1000000 }
      .next (if 3 ≤ t.dev.fwMissed then s.written .heartbeatMissed (t.fallBack k old) else t)
  | _, _ => .next s

/-- PROBATION_END: after 10 s with at most two missed heartbeats the new slot is active. -/
def execProbationEnd (s : State) : Out :=
  if s.dev.fwState ≠ .probation ∨ s.dev.ftime < s.dev.fwFrom + 10000000000 ∨ 3 ≤ s.dev.fwMissed then .next s
  else
    let k := s.stagedRole
    let s := s.errorRecord none { code := 0x0801, unit := noUnit, detail := s.dev.running[k].stateVersion }
    .next (s.onDev fun d => { d with fwState := .idle, active := d.active.set k (!d.active[k]), staged := none, previous := none }).releaseHeld

/-- ATTESTATION: the nonce at ATTSRC, H(MLTAIL) and MLTAIL, signed, are written at ATTDST, and the bit of ATTCTL clears; it stays set while
the read or the write waits (07/R222, 14/R387, 18/R444). -/
def execAttestation (s : State) : Out :=
  let s := s.onDev fun d => { d with attgo := true }
  if let some t := s.spanFirst s.dev.attsrc 32 then .next t else
  let msg := s.homeBytes s.dev.attsrc 32 ++ s.dev.mlhash ++ leBytes 8 s.dev.mltail
  .next (s.written .attestation
    ((s.deviceWrite s.dev.attdst (msg ++ Config.attest msg)).map fun t => t.onDev fun d => { d with attgo := false }))

/-! ### Resets (00/R18, 18/R441, R445) -/

/-- A peer as it stands after a cold reset of this device: the sequences with it start again (15/R401). -/
def Peer.restarted (p : Peer) : Peer :=
  { p with pseqNext := 1, performed := 0, held := [], table := [], outPerformed := 0, outHeld := [], outTable := [], lost := false }

/-- The images that boot: those of the active slots, management's other slot when it fails (`tries` 1), or the recovery
image, under the rollback floors of the configuration records; with the strap set the recovery image alone, until a swap has marked a slot
(18/R440, R441, log 30). -/
def Device.booted (d : Device) (tries : Nat) : Vector Running 6 :=
  let recovery (i : Fin 6) : Running := { Running.reset with slot := 2, floor := d.images[i].1.floor }
  if (d.strap ∧ !d.bootSlot) ∨ 2 ≤ tries then Vector.ofFn recovery
  else Vector.ofFn fun i : Fin 6 =>
    let second := d.active[i] != (i == 0 && tries == 1)
    if second then d.images[i].2 else d.images[i].1

/-- The device registers after a cold reset. -/
def Device.cold (d : Device) (tries : Nat) : Device :=
  let run := d.booted tries
  { Device.reset with
    thresh := d.thresh
    threshTile := d.threshTile
    devnum := d.devnum
    ftime := d.ftime
    strap := d.strap
    images := d.images
    active := d.active
    running := run
    fwState := if (d.strap ∧ !d.bootSlot) ∨ 2 ≤ tries then .recovery else .idle
    mlhash := bootHash d.ftime run }

/-- A unit that fails its test at a cold reset, with RESULT and STEP of its own, is fenced, with its record; a core of which another unit has
failed stays fenced (18/R445). -/
def State.failUnit (s : State) (f : UnitId × Nat × Nat) : State :=
  let u := f.1
  let s := s.errorRecord none { code := 0x0702, unit := u, detail := f.2.2 % 2 ^ 24 }
  let r : Word := BitVec.ofNat 32 (f.2.1 % 2 ^ 8 * 2 ^ 24 + f.2.2 % 2 ^ 24)
  let s := s.onDev fun d => { d with bists := (u, r) :: d.bists.filter fun e => unitRef e.1 != unitRef u }
  match unitRef u with
  | .core c => if (s.core c).bin = 3#2 then s else s.coreBin u c 3
  | _ => match s.ownBin u with
    | some x => if x.bin = 3#2 then s else s.moveOwn u x 3
    | none => s

/-- COLD_RESET: the active slots boot, `size` saying how many of management's failed; every unit is tested, those of `units`
failing with their results and steps; all state but the images, the configuration records, the domain number and fabric time is as after reset (18/R441, R445). The
event includes the boot, which sets the fields that read zero before it: ACTSLOT names the slots that run and THRESH is what the
records hold (00/R18, 17/R426, log 23). -/
def execColdReset (s : State) : Out :=
  let fresh (u : BinUnit) : BinUnit := { u with cleanFrom := s.dev.ftime }
  let t : State := { State.reset with
    agenda := s.agenda
    facts := s.facts
    turn := s.turn
    cores := State.reset.cores.map fun c => { c with cleanFrom := s.dev.ftime }
    slices := State.reset.slices.map fresh
    vaults := State.reset.vaults.map fresh
    links := State.reset.links.map fresh
    peers := s.peers.map Peer.restarted
    dev := s.dev.cold s.facts.size }
  .next (s.facts.units.foldl State.failUnit t)

/-- A core after a warm reset at a fabric time: its bin and mismatch counters are kept, and CLEANH is 0. -/
def Core.warm (c : Core) (now : Nat) : Core := { Core.reset with bin := c.bin, mcnt := c.mcnt, cleanFrom := now }
/-- A unit after a warm reset: its bin and code strength are kept, and CLEANH is 0. -/
def BinUnit.warm (u : BinUnit) (now : Nat) : BinUnit := { BinUnit.reset with bin := u.bin, strong := u.strong, cleanFrom := now }

/-- The device registers after a warm reset; recovery mode, and a slot marked for the next boot, stay (DESIGN CHOICE, log 30). -/
def Device.warm (d : Device) : Device :=
  { Device.reset with
    thresh := d.thresh, threshTile := d.threshTile, devnum := d.devnum, seq := d.seq, ftime := d.ftime, heldRecs := d.heldRecs, featack := d.featack, strap := d.strap
    bootSlot := d.bootSlot, powered := d.powered, images := d.images, active := d.active, running := d.running
    fwState := if d.fwState = .recovery then .recovery else .idle
    mlbase := d.mlbase, mlsize := d.mlsize, mltail := d.mltail, mlhash := d.mlhash
    nextHandle := d.nextHandle, nextLaunch := d.nextLaunch, nextGroup := d.nextGroup }

/-- WARM_RESET: fields marked kept, memory with its poison, the sequences with the domain and what peers hold keep their values; everything
else is as after reset (00/R18, 15/R401, R402, log 30). -/
def execWarmReset (s : State) : Out :=
  .next { State.reset with
    agenda := s.agenda
    facts := s.facts
    turn := s.turn
    cores := s.cores.map (·.warm s.dev.ftime)
    mem := s.mem
    poison := s.poison
    slices := s.slices.map (·.warm s.dev.ftime)
    vaults := s.vaults.map (·.warm s.dev.ftime)
    links := s.links.map (·.warm s.dev.ftime)
    channels := s.channels.map (·.warm s.dev.ftime)
    spads := s.spads.map (·.warm s.dev.ftime)
    ports := s.ports.map fun p => { p with retraining := false, replays := 0 }
    parts := s.parts.filter (·.peer.isSome)
    peers := s.peers
    sent := s.sent
    dev := s.dev.warm }

end Sys2Proof.Machine
end

