-- ==== Sys2Proof/Machine/Loader.lean ====
section
/-! DEFINITION. One step of the wave in focus, and what the loading of a program from outside leaves: the instruction's bytes
where the next fetch reads them, under a running wave where there is none (log 26). -/

namespace Sys2Proof.Machine

/-- The record of the launch that a load from outside makes: one gang of one block of one wave. -/
def loadRecord : Rec :=
  { Rec.absent with
    code := 0x20000, gridx := 1, gridy := 1, gridz := 1, nroles := 1, blocks := 1, roles := [⟨1, 256, 16, 65536⟩],
    gongLvl := List.replicate 8 0, gongCount := List.replicate 8 0, deps := [], doneIdx := 0xFFFF, bbuf := 32, gbuf := 0 }

/-- Table bytes of a context whose region 0 and one 512 GiB leaf grant everything on the first 512 GiB of this device. -/
def loadTables (dev : Nat) : List (Nat × Byte) :=
  placed 0x10000 (leBytes 8 (dev * 2 ^ 54 + 0x11000 + 1)) ++ placed 0x11000 (leBytes 8 (dev * 2 ^ 54 + 0x13F)) ++
    placed 0x12000 (leBytes 8 0 ++ leBytes 8 (2 ^ 39 - 1) ++ leBytes 8 0xF)

/-- The context of that launch. -/
def loadContext (c : Ctx) : Ctx :=
  { c with en := true, rbtbase := 0x12000, troot := 0x10000, stkbase := 0x100000, stkslice := 0x10000, stkcount := 1,
           wcomp := false, switchedOut := false, resfree := 16, tlb := [], rbt := [] }

/-- Bytes put at the home as a load from outside puts them. -/
def State.loadBytes (s : State) (bs : List (Nat × Byte)) : State :=
  let lines := bs.map fun b => lineOf b.1
  { s with
    mem := s.mem.writeAll bs
    poison := s.poison.filter fun l => !lines.contains l
    parts := s.parts.filter fun p => !(p.dev == s.dev.devnum && lines.contains (lineOf p.addr))
    restores := s.restores.filter fun r => !(lines.any fun l => decide (r.lo < 64 * l + 64) && decide (64 * l < r.lo + r.len)) }

/-- A launch of one wave under context 0, resident and in focus. -/
def State.loadLaunch (s : State) : State :=
  let s := s.unfocus
  let id := s.dev.nextLaunch
  let s : State := { (s.loadBytes (loadTables s.dev.devnum)).setCtx 0 (loadContext (s.ctxOf 0)) with dev := { s.dev with nextLaunch := id + 1 } }
  let l : Launch := { Launch.absent with id := id, record := loadRecord, recPtr := 0x30000, state := .running, nextGang := 1 }
  let g : Gang := { Gang.absent with key := ⟨id, 0⟩, state := .resident, placed := 1, blocks := 1 }
  let (stamp, k) := (s.core 0).takeStamp 0
  let w := newWave l g (s.ctxOf 0) 0 0 0 (⟨1, 256, 16, 65536⟩, 0) (0, 0, 0) 0 stamp
  { s.setCore 0 k with
    w := { w with life := .ready }
    blk := newBlock l g 0 0 0
    gang := g
    launch := l
    dev := { s.dev with halt := false, powered := true } }

/-- The physical addresses of the five words from the pc on, when this device homes all of them. -/
def State.codeAddrs (s : State) : Option (List Nat) :=
  (List.range 5).mapM fun k =>
    match s.codePlace (s.w.pc + BitVec.ofNat 64 (4 * k)) with
    | .ok (_, dev, pa) => if dev = s.dev.devnum then some pa else none
    | .error _ => none

/-- The instruction of bits `w` placed where the wave in focus fetches next. -/
def State.loadWords (s : State) (w : Nat) (as : List Nat) : State :=
  let bs := as.zipIdx.flatMap fun a => placed a.1 (leBytes 4 (w / 2 ^ (32 * a.2)))
  let s := s.loadBytes bs
  let s := s.setCo { s.co with icache := [] }
  { s with agenda := [], w := { s.w with issued := none, fetched := [], decoded := [] } }

/-- A load from outside: under the wave in focus when it can run and its code is homed here, else under a launch of its
own. -/
def State.load (s : State) (w : Nat) : State :=
  match (if s.runnable then s.codeAddrs else none) with
  | some as => s.loadWords w as
  | none => s.loadLaunch.loadWords w ((List.range 5).map fun k => 0x20000 + 4 * k)

end Sys2Proof.Machine
end

