-- ==== Sys2Proof/Machine/Tile.lean ====
section
/-! DEFINITION. The tile array: operands as bit planes, exact steps, accumulator slots, the sequencer and the row checker
(10/R284 to R313). -/

namespace Sys2Proof.Machine

/-! ### Formats of the array (10/R287, R288) -/

/-- Code width and plane range of a format code the array accepts. -/
def tileFmt (code : Nat) : Option (Nat × Nat × Nat) :=
  match code with
  | 0x08 => some (8, 5, 8)
  | 0x09 => some (8, 6, 8)
  | 0x0A => some (8, 2, 8)
  | 0x0B => some (6, 2, 6)
  | 0x0C => some (8, 1, 8)
  | 0x0D => some (4, 1, 4)
  | 0x0E => some (4, 1, 4)
  | 0x00 => some (1, 1, 1)
  | _ => none

/-- Formats that the integer modes accept (10/R291). -/
def tileInt (code : Nat) : Bool := code == 0x0C || code == 0x0D || code == 0x0E || code == 0x00

/-- The value of a tapered code of which `p` planes were read: the p-bit NaR pattern of a narrower read is -maxpos (02/R73). -/
def taperedRead (n p top : Nat) : Num :=
  if p < n ∧ top = 2 ^ (p - 1) then (taperedValue p (taperedMax p)).negate else taperedValue p top

/-- The value the array reads: format, planes, truncated code (low bits 0), zero point, PM1; and whether a reserved S4 code
was read (10/R288). -/
def tileValue (code p : Nat) (pm1 : Bool) (x zp : Nat) : Num × Bool :=
  match code with
  | 0x08 => (FloatFmt.e4m3.read x, false)
  | 0x09 => (FloatFmt.e5m2.read x, false)
  | 0x0A => (taperedRead 8 p (x / 2 ^ (8 - p)), false)
  | 0x0B => (taperedRead 6 p (x / 2 ^ (6 - p)), false)
  | 0x0C => (Num.ofInt (toSigned 8 x) 0, false)
  | 0x0D => if p = 4 ∧ x = 8 then (Num.ofInt 0 0, true) else (Num.ofInt (toSigned 4 x) 0, false)
  | 0x0E => (Num.ofInt ((x : Int) - zp) 0, false)
  | _ => (Num.ofInt (if pm1 then 2 * (x : Int) - 1 else x) 0, false)

/-- The bytes of one operand of a step (10/R304). -/
def operandBytes (isA : Bool) (code planes : Nat) : Nat :=
  if code = 0x0E then (if isA then 1584 else 1056) else (if isA then 384 else 256) * planes

/-- A bit of the scratchpad: bit `i` of the bits from byte `o` on. -/
def Memory.bit (m : Memory) (o i : Nat) : Nat := (m.read (o + i / 8)).toNat / 2 ^ (i % 8) % 2

/-- The truncated code of element k of a line, a row of A or a column of B (10/R284, R285). -/
def tileCode (m : Memory) (isA : Bool) (base n planes line k : Nat) : Nat :=
  ((List.range planes).map fun p =>
    m.bit (base + (if isA then 384 else 256) * p + 4 * line) k * 2 ^ (n - 1 - p)).sum

/-- The zero point of a line of a Z4 operand (10/R286). -/
def zeroPoint (m : Memory) (isA : Bool) (base line : Nat) : Nat :=
  ((List.range 4).map fun z => m.bit (base + (if isA then 1536 + 12 * z else 1024 + 8 * z)) line * 2 ^ (3 - z)).sum

/-- The 32 elements of a line. -/
def tileLine (m : Memory) (isA : Bool) (base code planes : Nat) (pm1 : Bool) (line : Nat) : List (Num × Bool) :=
  let n := ((tileFmt code).map (·.1)).getD 1
  let z := if code = 0x0E then zeroPoint m isA base line else 0
  (List.range 32).map fun k => tileValue code planes pm1 (tileCode m isA base n planes line k) z

/-! ### The exact step (10/R289, R290) -/

/-- An exact value in units of 2^-24: every element the array reads is one. -/
def units24 : Num → Int
  | .fin neg m e => signed neg (shiftBy m (e + 24))
  | _ => 0

/-- Whether an element is a NaN or NaR. -/
def nanLike (x : Num) : Bool := x.isNaN || x == .nar
/-- Whether an element is infinite. -/
def isInf (x : Num) : Bool := x matches .inf _

/-- S(r, c) of a row of A and a column of B. -/
def stepSum (a b : List Num) : StepSum :=
  let ps := List.zip a b
  if ps.any fun p => nanLike p.1 || nanLike p.2 then .nan false
  else if ps.any fun p => (isInf p.1 && p.2.isZero) || (isInf p.2 && p.1.isZero) then .nan true
  else
    let infs := (ps.filter fun p => isInf p.1 || isInf p.2).map fun p => p.1.neg != p.2.neg
    match infs with
    | [] => .fin ((ps.map fun p => units24 p.1 * units24 p.2).sum)
    | x :: xs => if xs.any (· != x) then .nan true else .inf x

/-- The planes of an operand as MLOOP names them. -/
def mlA (m : ML) : Nat × Nat := (m.fmtA.toNat, m.pa.toNat)
@[inherit_doc mlA] def mlB (m : ML) : Nat × Nat := (m.fmtB.toNat, m.pb.toNat)
/-- The mode field (10/R304). -/
def mlAcc (m : ML) : Nat := (m.mode.extractLsb' 0 2).toNat
@[inherit_doc mlAcc] def mlZ (m : ML) : Bool := m.mode.getLsbD 2
@[inherit_doc mlAcc] def mlPm1 (m : ML) : Bool := m.mode.getLsbD 3
/-- The operand addresses of step k (10/R298). -/
def Loop.aAt (l : Loop) (k : Nat) : Nat := l.a0 + 16 * l.m.incA.toNat * k
@[inherit_doc Loop.aAt] def Loop.bAt (l : Loop) (k : Nat) : Nat := l.b0 + 16 * l.m.incB.toNat * k
/-- The steps of a loop. -/
def mlSteps (m : ML) : Nat := m.steps1.toNat + 1

/-- The exact step sums of step k from a scratchpad, and INTRES. -/
def Loop.sums (l : Loop) (m : Memory) (k : Nat) : List (List StepSum) × Bool :=
  let as := (List.range 96).map (tileLine m true (l.aAt k) (mlA l.m).1 (mlA l.m).2 (mlPm1 l.m))
  let bs := (List.range 64).map (tileLine m false (l.bAt k) (mlB l.m).1 (mlB l.m).2 (mlPm1 l.m))
  (as.map fun r => bs.map fun c => stepSum (r.map (·.1)) (c.map (·.1)),
    (as ++ bs).any fun r => r.any (·.2))

/-- Changes one element of the sums. -/
def patch (ss : List (List StepSum)) (r c : Nat) (f : StepSum → StepSum) : List (List StepSum) :=
  ss.modify r fun row => row.modify c f

/-- A fault adds to a finite sum; a special one turns finite. -/
def StepSum.disturb (d : Int) : StepSum → StepSum
  | .fin v => .fin (v + d)
  | _ => .fin d
/-- An injected flip of bit 48 + b (10/R303). -/
def StepSum.flip (b : Nat) : StepSum → StepSum
  | .fin v => .fin (if (v / 2 ^ (48 + b)) % 2 = 0 then v + 2 ^ (48 + b) else v - 2 ^ (48 + b))
  | _ => .fin (2 ^ (48 + b))

/-! ### Accumulation (10/R291, R292) -/

/-- The new element bits and flags; only a NaN that arises here, from elements none of which is a NaN, sets IV, so that a signalling
or NaR element sets none (10/R291; log 61). A step sum that is such a NaN sets IV though the accumulator element is a NaN already (DESIGN CHOICE,
log 82). -/
def accumulate (mode : Nat) (x : Word) (s : StepSum) : Word × Flags :=
  if mode = 0 then
    let v := FloatFmt.f32.read x.toNat
    match s with
    | .nan made => (BitVec.ofNat 32 FloatFmt.f32.nanBits, flagIf made fIV)
    | .inf neg =>
      if v.isNaN then (BitVec.ofNat 32 FloatFmt.f32.nanBits, 0)
      else if v == .inf (!neg) then (BitVec.ofNat 32 FloatFmt.f32.nanBits, fIV)
      else (BitVec.ofNat 32 (FloatFmt.f32.infBits neg), 0)
    | .fin 0 => if v.isNaN then (BitVec.ofNat 32 FloatFmt.f32.nanBits, 0) else (x, 0)
    | .fin n =>
      let r := FloatFmt.f32.roundNum .rne false (v.add .rne (Num.ofInt n (-48))).1
      (BitVec.ofNat 32 r.1, r.2)
  else
    match s with
    | .fin n =>
      let t := x.toInt + n / 2 ^ 48
      if mode = 1 then (BitVec.ofInt 32 t, 0)
      else if t < -(2 ^ 31) then (0x80000000#32, fSAT)
      else if 2 ^ 31 - 1 < t then (0x7FFFFFFF#32, fSAT)
      else (BitVec.ofInt 32 t, 0)
    | _ => (x, 0)

/-- An element of a slot. -/
def Slot.elem (t : Slot) (r c : Nat) : Word := ((t.elems[r]?).bind fun row => row[c]?).getD 0

/-- A slot with one step accumulated; the first step of a loop under Z starts from zero (10/R305). -/
def Slot.add (t : Slot) (mode : Nat) (zero : Bool) (f : List (List StepSum)) (intres : Bool) : Slot :=
  let new := (List.range 96).map fun r => (List.range 64).map fun c =>
    accumulate mode (if zero then 0 else t.elem r c) (((f[r]?).bind fun row => row[c]?).getD (.fin 0))
  { t with
    elems := Vector.ofFn fun r : Fin 96 => Vector.ofFn fun c : Fin 64 =>
      (((new[r.1]?).bind fun row => row[c.1]?).map (·.1)).getD 0
    flags := t.flags ||| orFlags (new.flatMap fun row => row.map (·.2)) ||| flagIf intres fINTRES }

/-! ### Slots of a wave (10/R293 to R297) -/

/-- The slot a logical accumulator of the wave in focus is bound to. -/
def State.boundSlot (s : State) (a : BitVec 4) : Option (BitVec 4) := pick s.w.accs a
/-- A slot of the wave's core. -/
def State.slot (s : State) (i : BitVec 4) : Slot := pick s.co.slots i
@[inherit_doc State.slot] def State.setSlot (s : State) (i : BitVec 4) (t : Slot) : State :=
  s.setCo { s.co with slots := put s.co.slots i t }

/-- Bind(acc) (10/R294). Which of the free slots of the core it takes the manual leaves open: the one of the lowest number (DESIGN CHOICE, log
98). -/
def bind (a : BitVec 4) : Act (BitVec 4) := do
  let s ← get
  match s.boundSlot a with
  | some i => return i
  | none =>
    if s.w.quota ≤ s.w.accs.toList.countP (·.isSome) then raiseTrap .accslot a.toNat
    match ((List.range 16).map (BitVec.ofNat 4)).find? fun i => (s.slot i).owner.isNone with
    | none => stop (.wait .accslot)
    | some i =>
      set ({ s with w := { s.w with accs := put s.w.accs a (some i) } }.setSlot i (Slot.bound (some s.w.key)))
      return i

/-- The stops of Bind(acc), with nothing bound yet: the binding comes at the retirement (10/R294). -/
def bindable (a : BitVec 4) : Act Unit := fun s =>
  match bind a s with
  | .ok _ => .ok ((), s)
  | .error e => .error e

/-- The wait of 10/R297: every loop of the wave on the slot has ended; a FAILED slot raises CKHARD and is cleared. -/
def waitLoops (i : BitVec 4) (w : Wait := .mbusy) : Act Unit := do
  let s ← get
  if s.co.slotBusy i then stop (.wait w)
  if (s.slot i).failed then
    set (s.setSlot i { s.slot i with failed := false })
    raiseTrap .ckhard

/-- The wait of 10/R297 on an accumulator; there is nothing to wait for on an unbound one. -/
def waitBound (a : BitVec 4) : Act Unit := do
  match (← get).boundSlot a with
  | some i => waitLoops i
  | none => pure ()

/-- The waiting instruction takes the slot's flags at its retirement (10/R292). -/
def takeFlags (i : BitVec 4) : Act Unit :=
  modify fun s => (s.setSlot i { s.slot i with flags := 0 }).raise (s.slot i).flags

/-- Whether a tile at an offset waits for copies in flight, a store also for loops (10/R309, 09/R281). -/
def tileHeld (store : Bool) (o : Nat) : Act Unit := do
  let s ← get
  if s.rangeHeld store o 24576 then stop (.wait .range)

/-! ### The instructions -/

/-- The lowest operand byte at or beyond a limit, over the steps of one operand (10/R304). -/
def beyond (limit base inc n : Nat) : Nat → Option Nat
  | 0 => none
  | k + 1 =>
    let here := if limit < base + inc * k + n then some (max limit (base + inc * k)) else none
    match beyond limit base inc n k, here with
    | some x, some y => some (min x y)
    | some x, none => some x
    | none, h => h

/-- The checks of MLOOP after those of its encoding (10/R304). Of two misaligned offsets TADDR is that of sa, which the manual leaves open
(DESIGN CHOICE, log 97). -/
def mloopChecks (m : ML) : Act Unit := do
  let s ← get
  let ok (x : Nat × Nat) : Bool := match tileFmt x.1 with
    | some (_, lo, hi) => decide (lo ≤ x.2) && decide (x.2 ≤ hi)
    | none => false
  if !ok (mlA m) || !ok (mlB m) || (mlAcc m != 0 && !(tileInt m.fmtA.toNat && tileInt m.fmtB.toNat)) then raiseTrap .illfmt
  let a0 := (s.sreg m.sa).toNat
  let b0 := (s.sreg m.sb).toNat
  if a0 % 16 ≠ 0 then raiseTrap .align 0 (BitVec.ofNat 64 a0)
  if b0 % 16 ≠ 0 then raiseTrap .align 0 (BitVec.ofNat 64 b0)
  let x := beyond s.blk.localSize a0 (16 * m.incA.toNat) (operandBytes true (mlA m).1 (mlA m).2) (mlSteps m)
  let y := beyond s.blk.localSize b0 (16 * m.incB.toNat) (operandBytes false (mlB m).1 (mlB m).2) (mlSteps m)
  match x, y with
  | some x, some y => raiseTrap .prot 0 (BitVec.ofNat 64 (min x y))
  | some x, none => raiseTrap .prot 0 (BitVec.ofNat 64 x)
  | none, some y => raiseTrap .prot 0 (BitVec.ofNat 64 y)
  | none, none => pure ()

/-- A range of an operand over all steps, rounded outward (09/R281, 10/R298). -/
def loopRange (base inc n steps : Nat) (b : BlockKey) (id : Nat) : Range :=
  ⟨alignDown 64 base, alignDown 64 (base + inc * (steps - 1) + n + 63), b, id, true⟩

/-- MLOOP: one that finds the sequencer full does not issue; else its checks and its retirement (10/R296, R305, 09/R281). -/
def execMloop (m : ML) (s : State) : Out :=
  if s.loopsFull then .next (s.await .mbusy)
  else run (.mloop m) .scalar (do
    mloopChecks m
    let s ← get
    if Config.maxRanges < s.co.ranges.length + 2 then stop (.wait .range)
    bindable m.acc
    (match (← get).boundSlot m.acc with
     | some i => do if ((← get).slot i).failed then waitLoops i else pure ()
     | none => pure ())
    let i ← bind m.acc
    modify fun s =>
      let id := s.dev.nextWork
      let a0 := (s.sreg m.sa).toNat
      let b0 := (s.sreg m.sb).toNat
      let l : Loop := ⟨id, s.w.key, i, s.w.pc, m, a0, b0, 0, 0, [], 0, false, false, false⟩
      let ra := loopRange a0 (16 * m.incA.toNat) (operandBytes true (mlA m).1 (mlA m).2) (mlSteps m) s.w.key.block id
      let rb := loopRange b0 (16 * m.incB.toNat) (operandBytes false (mlB m).1 (mlB m).2) (mlSteps m) s.w.key.block id
      let s := s.setSlot i { s.slot i with isF32 := mlAcc m == 0 }
      let s := s.setCo { s.co with loops := s.co.loops ++ [l], ranges := s.co.ranges ++ [ra, rb] }
      { s with dev := { s.dev with nextWork := id + 1 } }) s

/-- MWAIT (10/R307). -/
def execMwait (acc : BitVec 4) (s : State) : Out :=
  run (.mwait acc) .scalar (do
    match (← get).boundSlot acc with
    | none => pure ()
    | some i =>
      waitLoops i (.mwait acc)
      takeFlags i) s

/-- ACZ (10/R307). -/
def execAcz (acc : BitVec 4) (s : State) : Out :=
  run (.acz acc) .scalar (do
    let i ← bind acc
    waitLoops i
    modify fun s => s.setSlot i { s.slot i with elems := Vector.replicate 96 (Vector.replicate 64 0#32) }
    takeFlags i) s

/-- ACREL (10/R308). -/
def execAcrel (acc : BitVec 4) (s : State) : Out :=
  run (.acrel acc) .scalar (modify fun s =>
    match s.boundSlot acc with
    | none => s
    | some i =>
      let s : State := { s with w := { s.w with accs := put s.w.accs acc none } }
      s.setSlot i (if s.co.slotBusy i then { s.slot i with release := true } else Slot.bound none)) s

/-- The checks on a tile in the local area (10/R309). -/
def tileChecks (o : Nat) : Act Unit := do
  let s ← get
  if o % 64 ≠ 0 then raiseTrap .align 0 (BitVec.ofNat 64 o)
  if s.blk.localSize < o + 24576 then raiseTrap .prot 0 (BitVec.ofNat 64 (max o s.blk.localSize))

/-- ACLD (10/R309, R310). A tile with a poisoned line raises POISON with the tile's offset in TADDR, which the manual leaves open (DESIGN
CHOICE, log 100). -/
def execAcld (acc : BitVec 4) (sa : SReg) (s : State) : Out :=
  run (.acld acc sa) .scalar (do
    let o := ((← get).sreg sa).toNat
    tileChecks o
    bindable acc
    waitBound acc
    tileHeld false o
    let bad := (← get).blk.poison
    if (List.range 384).any fun k => bad.contains (lineOf o + k) then raiseTrap .poison 0 (BitVec.ofNat 64 o)
    let i ← bind acc
    let s ← get
    let bs := (List.range 96).map fun r => s.blk.scratch.bytes (o + 256 * r) 256
    let es : Vector (Vector Word 64) 96 := Vector.ofFn fun r : Fin 96 => Vector.ofFn fun c : Fin 64 =>
      BitVec.ofNat 32 (ofLE (((bs.getD r.1 []).drop (4 * c.1)).take 4))
    set (s.setSlot i { s.slot i with elems := es })
    takeFlags i) s

/-- The tile an ACST writes after its bound check, or BOUND with TMASK zero (10/R311). -/
def Slot.checked (t : Slot) (c : Ctx) : Except TrapInfo (List (List Word) × Bool) :=
  let f : Fmt := if t.isF32 then .f32 else .s32
  let d := c.bound t.bnd
  let rows := t.elems.toList.map (·.toList)
  if d.action = 0 then .ok (rows, false)
  else
    let out := rows.map fun r => r.map fun x => (x, d.clamp f x.toNat)
    if !(out.any fun r => r.any (·.2.isSome)) then .ok (rows, false)
    else if d.action = 3 then .error { cause := .bound, arg := t.bnd.toNat }
    else if d.action = 2 then .ok (out.map fun r => r.map fun x => (x.2.map (BitVec.ofNat 32)).getD x.1, true)
    else .ok (rows, true)

/-- ACST (10/R309, R311); an unbound accumulator stores +0 (R295). -/
def execAcst (acc : BitVec 4) (sa : SReg) (s : State) : Out :=
  run (.acst acc sa) .scalar (do
    let s ← get
    let o := (s.sreg sa).toNat
    tileChecks o
    match s.blk.taggedSlot o 24576 with
    | some t => raiseTrap .barobj 0 (BitVec.ofNat 64 t)
    | none => pure ()
    waitBound acc
    tileHeld true o
    let t : Slot := ((s.boundSlot acc).map s.slot).getD (Slot.bound none)
    match t.checked s.bounds with
    | .error e => stop (.trap e)
    | .ok (rows, hit) =>
      modify fun s => (s.putScratch (placed o (rows.flatMap fun r => r.flatMap fun x => leBytes 4 x.toNat))).setBnd t.bnd hit
      match s.boundSlot acc with
      | some i => takeFlags i
      | none => pure ()) s

/-- ACRD (10/R312): its result is a claim of the vector pipe (01/R36). -/
def execAcrd (x : VX) (s : State) : Out :=
  run (.acrd x) .vpipe (do
    window [(x.vd.toNat, 1)]
    let s ← get
    let col := (x.imm.extractLsb' 0 6).toNat
    match s.boundSlot x.f with
    | none => writeResult x.vd.toNat .f32 ((vxOp x).bnd s) false true 0 (s.active.map fun l => (l, 0))
    | some i =>
      waitLoops i
      let t := s.slot i
      let f : Fmt := if t.isF32 then .f32 else .s32
      writeResult x.vd.toNat f ((vxOp x).bnd s) false true 0 (s.active.map fun l => (l, (t.elem l col).toNat))
      takeFlags i) s

/-- ACWR (10/R313). -/
def execAcwr (x : VX) (s : State) : Out :=
  run (.acwr x) .vector (do
    window [(x.va.toNat, 1)]
    let s ← get
    let f := (s.vreg x.va.toNat).fmt
    if f ≠ .f32 ∧ f ≠ .s32 then vIllfmt
    let i ← bind x.f
    waitLoops i
    modify fun s =>
      let t := s.slot i
      let col := (x.imm.extractLsb' 0 6).toNat
      let es := s.active.foldl (fun (es : Vector (Vector Word 64) 96) l =>
        es.setIfInBounds l (((es[l]?).getD (Vector.replicate 64 0#32)).setIfInBounds col (s.vlane x.va.toNat l))) t.elems
      s.setSlot i { t with elems := es, isF32 := f == .f32, bnd := if x.bov = 0 then t.bnd else x.bov }
    takeFlags i) s

/-! ### The sequencer's events (10/R296 to R303) -/

/-- Replaces the loop in front of a core's sequencer. -/
def State.setFront (s : State) (c : CoreId) (l : Loop) : State :=
  s.setCore c { s.core c with loops := l :: (s.core c).loops.tail }

/-- The loops of a core's sequencer; with the core rails off it does nothing (18/R450). -/
def State.loopsOf (s : State) (c : CoreId) : List Loop := if s.dev.powered then (s.core c).loops else []

/-- LOOP_START: the next loop starts when the previous one has ended (10/R296). -/
def execLoopStart (s : State) : Out :=
  let c := s.facts.core
  match s.loopsOf c with
  | l :: _ => .next (s.setFront c { l with running := true })
  | [] => .next s

/-- Whether a copy request in flight overlaps the operand bytes of a step (10/R298). -/
def Loop.blocked (l : Loop) (c : Core) (k : Nat) : Bool :=
  let hit (o n : Nat) : Bool := c.ranges.any fun r =>
    !r.isLoop && r.blk == l.owner.block && decide (o < r.hi) && decide (r.lo < o + n)
  hit (l.aAt k) (operandBytes true (mlA l.m).1 (mlA l.m).2) || hit (l.bAt k) (operandBytes false (mlB l.m).1 (mlB l.m).2)

/-- An armed injection of target 3 takes the step, once, at its first execution (04/R145, 10/R303). -/
def State.injectStep (s : State) (c : CoreId) (pc : DWord) (owner : WaveKey) : Option (Nat × Nat) × State :=
  match s.findWave owner with
  | none => (none, s)
  | some w =>
    if injArm w.errinj && injTarget w.errinj == 3 then
      match s.asWave owner (fun s => .ok (s.injEvent (coreUnit 3 c) pc)) with
      | .ok (true, s) => (some (injWhere w.errinj, injBit w.errinj), s)
      | .ok (false, s) => (none, s)
      | .error _ => (none, s)
    else (none, s)

/-- K_STEP: the array reads the operands of the next step, or again those of a step that disagreed, and forms its sums;
the fact `flip` is a fault in them (10/R298 to R303). Operand bytes in a poisoned line of the scratchpad are read as they stand: the manual
names no error of the array there (17/R433; DESIGN CHOICE, log 99). -/
def execKStep (s : State) : Out :=
  let c := s.facts.core
  match s.loopsOf c with
  | [] => .next s
  | l :: _ =>
    let k := if l.again then l.done else l.formed
    if !l.running || l.failed || decide (mlSteps l.m ≤ k) || (!l.again && decide (2 ≤ l.buf.length)) || l.blocked (s.core c) k then .next s
    else match s.findBlock l.owner.block with
      | none => .next s
      | some b =>
        let (sums, intres) := l.sums b.scratch k
        let (inj, s) := if l.again then (none, s) else s.injectStep c l.pc l.owner
        let arr := match inj with
          | some (w, bit) => patch sums (w / 64) (w % 64) (StepSum.flip bit)
          | none => sums
        let arr := match s.facts.flip with
          | some f => patch arr f.row f.col (StepSum.disturb f.delta)
          | none => arr
        let f : Formed := ⟨arr, sums, intres, (s.core c).stepCtr % 96⟩
        let s := s.setCore c { s.core c with stepCtr := (s.core c).stepCtr + 1 }
        .next (s.setFront c (if l.again then { l with buf := f :: l.buf, again := false }
          else { l with buf := l.buf ++ [f], formed := l.formed + 1 }))

/-- The class of a sum for the comparison of specials: finite, an infinity, or NaN. -/
def StepSum.kind : StepSum → Nat
  | .fin _ => 0 | .inf false => 1 | .inf true => 2 | .nan _ => 3

/-- The finite part of a sum. -/
def StepSum.part : StepSum → Int
  | .fin v => v
  | _ => 0

/-- The row checker's verdict: the column checksums over finite sums, the places of specials, and row ρ (10/R300). -/
def Formed.agrees (f : Formed) : Bool :=
  let col (ss : List (List StepSum)) (c : Nat) : Int := (ss.map fun r => (r.getD c (.fin 0)).part).sum
  ((List.range 64).all fun c => col f.arr c == col f.exact c) &&
  (f.arr.map fun r => r.map StepSum.kind) == (f.exact.map fun r => r.map StepSum.kind)

/-- The slot of the loop in front with step sums accumulated. -/
def Loop.next (l : Loop) (t : Slot) (sums : List (List StepSum)) (intres : Bool) : Slot :=
  t.add (mlAcc l.m) (l.done == 0 && mlZ l.m) sums intres

/-- A fault of the array in its accumulation: an element is off by `delta`. -/
def Slot.disturb (t : Slot) : Option StepFlip → Slot
  | none => t
  | some f =>
    let row := (t.elems[f.row]?).getD (Vector.replicate 64 0#32)
    { t with elems := t.elems.setIfInBounds f.row (row.setIfInBounds f.col (t.elem f.row f.col + BitVec.ofInt 32 f.delta)) }

/-- The row checker's recompute of row `rho` through the accumulation: its element values are those of the array's slot
(10/R300). -/
def Loop.rowAgrees (l : Loop) (t new : Slot) (f : Formed) : Bool :=
  (List.range 64).all fun c =>
    (accumulate (mlAcc l.m) (if l.done == 0 && mlZ l.m then 0 else t.elem f.rho c)
      ((((f.exact[f.rho]?).bind fun row => row[c]?)).getD (.fin 0))).1 == new.elem f.rho c

/-- The waits on the loops of a slot of a core, whose watchdog period starts anew when a step of one is accumulated (06/R195, 10/R297). -/
def State.loopMoved (s : State) (c : CoreId) (i : BitVec 4) : State :=
  s.touched fun w x => w.core == c && (match x with
    | .mwait a => pick w.accs a == some i
    | _ => false)

/-- The step in front is accumulated: the loop's slot takes its new values. -/
def State.accept1 (s : State) (c : CoreId) (l : Loop) (t : Slot) : State :=
  let s := s.setCore c { s.core c with slots := put (s.core c).slots l.slot t }
  (s.setFront c { l with buf := l.buf.tail, done := l.done + 1, disagreed := 0 }).loopMoved c l.slot

/-- ROW_CHECK_VERDICT: an agreeing step is accumulated; a first disagreement has it executed again; a second charges the
array and hands the step to the checker. The fact `flip` is a fault in the array's accumulation (10/R300 to R302). -/
def execRowCheckVerdict (s : State) : Out :=
  let c := s.facts.core
  match s.loopsOf c with
  | [] => .next s
  | l :: _ =>
    match l.buf with
    | [] => .next s
    | f :: _ =>
      let t := pick (s.core c).slots l.slot
      let new := (l.next t f.arr f.intres).disturb s.facts.flip
      if !l.running || l.failed || l.again || decide (2 ≤ l.disagreed) then .next s
      else if f.agrees && l.rowAgrees t new f then .next (s.accept1 c l new)
      else if l.disagreed = 0 then
        let s := s.setCore c { s.core c with reexec := (s.core c).reexec + 1 }
        .next (s.setFront c { l with buf := l.buf.tail, disagreed := 1, again := true })
      else
        let s := s.setCore c ((s.core c).charge s.dev (coreUnit 3 c) 12)
        let w := (s.findWave l.owner).map fun w => (l.pc, w.coord)
        let s := s.errorRecord ((s.findWave l.owner).map (·.ctx))
          { code := 0x0201, unit := coreUnit 3 c, wave := w, count := (s.core c).mcnt[12], detail := l.done }
        .next (s.setFront c { l with disagreed := 2 })

/-- CHECKER_ONLY_STEP: the row checker computes the step twice; the fact `ok` says whether the two agree. A loop that has failed has none
(10/R302). -/
def execCheckerOnlyStep (s : State) : Out :=
  let c := s.facts.core
  match s.loopsOf c with
  | [] => .next s
  | l :: _ =>
    match l.buf with
    | [] => .next s
    | f :: _ =>
      if l.disagreed ≠ 2 ∨ l.failed then .next s
      else if s.facts.ok then .next (s.accept1 c l (l.next (pick (s.core c).slots l.slot) f.exact f.intres))
      else
        let t := pick (s.core c).slots l.slot
        let s := s.setCore c { s.core c with slots := put (s.core c).slots l.slot { t with failed := true }, retest := .present }
        let w := (s.findWave l.owner).map fun w => (l.pc, w.coord)
        let s := s.errorRecord ((s.findWave l.owner).map (·.ctx))
          { code := 0x0202, unit := coreUnit 4 c, wave := w, detail := l.done }
        .next (s.setFront c { l with failed := true })

/-- LOOP_END: a loop that has accumulated its steps, or failed, leaves; its ranges go, and a slot whose release waited for it
returns to the free list (10/R298, R305, R308). -/
def execLoopEnd (s : State) : Out :=
  let c := s.facts.core
  match s.loopsOf c with
  | [] => .next s
  | l :: rest =>
    if !l.running || !(l.failed || l.done == mlSteps l.m) then .next s
    else
      let k := { s.core c with loops := rest, ranges := (s.core c).ranges.filter fun r => !(r.isLoop && r.owner == l.id) }
      let t := pick k.slots l.slot
      .next ((s.setCore c (if t.release && !k.slotBusy l.slot then { k with slots := put k.slots l.slot (Slot.bound none) } else k)).loopMoved c
        l.slot)

end Sys2Proof.Machine
end

