-- ==== Sys2Proof/Machine/Dispatch.lean ====
section
/-! DEFINITION. One arm per instruction: the meaning it calls. -/

namespace Sys2Proof.Machine

/-- The meaning of an instruction. -/
def exec (i : Instr) (s : State) : Host.Outcome State Fault Refusal :=
  match i with
  | .sadd sd sa sb => Sys2Proof.Machine.execSadd sd sa sb s
  | .saddLiteral sd sa lit => Sys2Proof.Machine.execSaddLiteral sd sa lit s
  | .ssub sd sa sb => Sys2Proof.Machine.execSsub sd sa sb s
  | .ssubLiteral sd sa lit => Sys2Proof.Machine.execSsubLiteral sd sa lit s
  | .smul sd sa sb => Sys2Proof.Machine.execSmul sd sa sb s
  | .smulLiteral sd sa lit => Sys2Proof.Machine.execSmulLiteral sd sa lit s
  | .smulhi sd sa sb => Sys2Proof.Machine.execSmulhi sd sa sb s
  | .smulhiLiteral sd sa lit => Sys2Proof.Machine.execSmulhiLiteral sd sa lit s
  | .smulhu sd sa sb => Sys2Proof.Machine.execSmulhu sd sa sb s
  | .smulhuLiteral sd sa lit => Sys2Proof.Machine.execSmulhuLiteral sd sa lit s
  | .sdiv sd sa sb => Sys2Proof.Machine.execSdiv sd sa sb s
  | .sdivLiteral sd sa lit => Sys2Proof.Machine.execSdivLiteral sd sa lit s
  | .sdivu sd sa sb => Sys2Proof.Machine.execSdivu sd sa sb s
  | .sdivuLiteral sd sa lit => Sys2Proof.Machine.execSdivuLiteral sd sa lit s
  | .srem sd sa sb => Sys2Proof.Machine.execSrem sd sa sb s
  | .sremLiteral sd sa lit => Sys2Proof.Machine.execSremLiteral sd sa lit s
  | .sremu sd sa sb => Sys2Proof.Machine.execSremu sd sa sb s
  | .sremuLiteral sd sa lit => Sys2Proof.Machine.execSremuLiteral sd sa lit s
  | .sand sd sa sb => Sys2Proof.Machine.execSand sd sa sb s
  | .sandLiteral sd sa lit => Sys2Proof.Machine.execSandLiteral sd sa lit s
  | .sor sd sa sb => Sys2Proof.Machine.execSor sd sa sb s
  | .sorLiteral sd sa lit => Sys2Proof.Machine.execSorLiteral sd sa lit s
  | .sxor sd sa sb => Sys2Proof.Machine.execSxor sd sa sb s
  | .sxorLiteral sd sa lit => Sys2Proof.Machine.execSxorLiteral sd sa lit s
  | .sandn sd sa sb => Sys2Proof.Machine.execSandn sd sa sb s
  | .sandnLiteral sd sa lit => Sys2Proof.Machine.execSandnLiteral sd sa lit s
  | .sshl sd sa sb => Sys2Proof.Machine.execSshl sd sa sb s
  | .sshlLiteral sd sa lit => Sys2Proof.Machine.execSshlLiteral sd sa lit s
  | .sshr sd sa sb => Sys2Proof.Machine.execSshr sd sa sb s
  | .sshrLiteral sd sa lit => Sys2Proof.Machine.execSshrLiteral sd sa lit s
  | .ssar sd sa sb => Sys2Proof.Machine.execSsar sd sa sb s
  | .ssarLiteral sd sa lit => Sys2Proof.Machine.execSsarLiteral sd sa lit s
  | .srol sd sa sb => Sys2Proof.Machine.execSrol sd sa sb s
  | .srolLiteral sd sa lit => Sys2Proof.Machine.execSrolLiteral sd sa lit s
  | .smin sd sa sb => Sys2Proof.Machine.execSmin sd sa sb s
  | .sminLiteral sd sa lit => Sys2Proof.Machine.execSminLiteral sd sa lit s
  | .smax sd sa sb => Sys2Proof.Machine.execSmax sd sa sb s
  | .smaxLiteral sd sa lit => Sys2Proof.Machine.execSmaxLiteral sd sa lit s
  | .sminu sd sa sb => Sys2Proof.Machine.execSminu sd sa sb s
  | .sminuLiteral sd sa lit => Sys2Proof.Machine.execSminuLiteral sd sa lit s
  | .smaxu sd sa sb => Sys2Proof.Machine.execSmaxu sd sa sb s
  | .smaxuLiteral sd sa lit => Sys2Proof.Machine.execSmaxuLiteral sd sa lit s
  | .saddc sd sa sb => Sys2Proof.Machine.execSaddc sd sa sb s
  | .saddcLiteral sd sa lit => Sys2Proof.Machine.execSaddcLiteral sd sa lit s
  | .scmp c sa sb => Sys2Proof.Machine.execScmp c sa sb s
  | .scmpLiteral c sa lit => Sys2Proof.Machine.execScmpLiteral c sa lit s
  | .scmpn c sa sb => Sys2Proof.Machine.execScmpn c sa sb s
  | .scmpnLiteral c sa lit => Sys2Proof.Machine.execScmpnLiteral c sa lit s
  | .ssel sd sa sb => Sys2Proof.Machine.execSsel sd sa sb s
  | .sselLiteral sd sa lit => Sys2Proof.Machine.execSselLiteral sd sa lit s
  | .smov sd sa => Sys2Proof.Machine.execSmov sd sa s
  | .sli sd imm => Sys2Proof.Machine.execSli sd imm s
  | .sliLiteral sd lit => Sys2Proof.Machine.execSliLiteral sd lit s
  | .slid sd lit => Sys2Proof.Machine.execSlid sd lit s
  | .saddi sd sa imm => Sys2Proof.Machine.execSaddi sd sa imm s
  | .sbfe sd sa sb => Sys2Proof.Machine.execSbfe sd sa sb s
  | .sbfeLiteral sd sa lit => Sys2Proof.Machine.execSbfeLiteral sd sa lit s
  | .sbfi sd sa sb => Sys2Proof.Machine.execSbfi sd sa sb s
  | .sbfiLiteral sd sa lit => Sys2Proof.Machine.execSbfiLiteral sd sa lit s
  | .spop sd sa => Sys2Proof.Machine.execSpop sd sa s
  | .sclz sd sa => Sys2Proof.Machine.execSclz sd sa s
  | .sctz sd sa => Sys2Proof.Machine.execSctz sd sa s
  | .sbrev sd sa => Sys2Proof.Machine.execSbrev sd sa s
  | .saddd sd sa sb => Sys2Proof.Machine.execSaddd sd sa sb s
  | .sadddLiteral sd sa lit => Sys2Proof.Machine.execSadddLiteral sd sa lit s
  | .ssubd sd sa sb => Sys2Proof.Machine.execSsubd sd sa sb s
  | .ssubdLiteral sd sa lit => Sys2Proof.Machine.execSsubdLiteral sd sa lit s
  | .smuld sd sa sb => Sys2Proof.Machine.execSmuld sd sa sb s
  | .smuldLiteral sd sa lit => Sys2Proof.Machine.execSmuldLiteral sd sa lit s
  | .sshld sd sa sb => Sys2Proof.Machine.execSshld sd sa sb s
  | .sshldLiteral sd sa lit => Sys2Proof.Machine.execSshldLiteral sd sa lit s
  | .sshrd sd sa sb => Sys2Proof.Machine.execSshrd sd sa sb s
  | .sshrdLiteral sd sa lit => Sys2Proof.Machine.execSshrdLiteral sd sa lit s
  | .scmpd c sa sb => Sys2Proof.Machine.execScmpd c sa sb s
  | .scmpdLiteral c sa lit => Sys2Proof.Machine.execScmpdLiteral c sa lit s
  | .br disp => Sys2Proof.Machine.execBr disp s
  | .bsc disp => Sys2Proof.Machine.execBsc disp s
  | .bsnc disp => Sys2Proof.Machine.execBsnc disp s
  | .bez sa disp => Sys2Proof.Machine.execBez sa disp s
  | .bnz sa disp => Sys2Proof.Machine.execBnz sa disp s
  | .bexz disp => Sys2Proof.Machine.execBexz disp s
  | .bexnz disp => Sys2Proof.Machine.execBexnz disp s
  | .bcmz disp => Sys2Proof.Machine.execBcmz disp s
  | .bcmnz disp => Sys2Proof.Machine.execBcmnz disp s
  | .jmpr sa => Sys2Proof.Machine.execJmpr sa s
  | .call la f disp => Sys2Proof.Machine.execCall la f disp s
  | .callr sa imm => Sys2Proof.Machine.execCallr sa imm s
  | .ret imm => Sys2Proof.Machine.execRet imm s
  | .trap imm => Sys2Proof.Machine.execTrap imm s
  | .srd sd imm => Sys2Proof.Machine.execSrd sd imm s
  | .swr sa imm => Sys2Proof.Machine.execSwr sa imm s
  | .mand sd => Sys2Proof.Machine.execMand sd s
  | .mandn sd => Sys2Proof.Machine.execMandn sd s
  | .melse sa => Sys2Proof.Machine.execMelse sa s
  | .mrest sa => Sys2Proof.Machine.execMrest sa s
  | .mcnt sd => Sys2Proof.Machine.execMcnt sd s
  | .mfirst sd => Sys2Proof.Machine.execMfirst sd s
  | .sld sd sa imm => Sys2Proof.Machine.execSld sd sa imm s
  | .sldMs m => Sys2Proof.Machine.execSldMs m s
  | .sldOffset64 m lit => Sys2Proof.Machine.execSldOffset64 m lit s
  | .sst sd sa imm => Sys2Proof.Machine.execSst sd sa imm s
  | .sstMs m => Sys2Proof.Machine.execSstMs m s
  | .sstOffset64 m lit => Sys2Proof.Machine.execSstOffset64 m lit s
  | .satom m => Sys2Proof.Machine.execSatom m s
  | .satomOffset64 m lit => Sys2Proof.Machine.execSatomOffset64 m lit s
  | .xld xt sa => Sys2Proof.Machine.execXld xt sa s
  | .xinv xt => Sys2Proof.Machine.execXinv xt s
  | .commit lvl => Sys2Proof.Machine.execCommit lvl s
  | .abort lvl => Sys2Proof.Machine.execAbort lvl s
  | .mark lvl => Sys2Proof.Machine.execMark lvl s
  | .acq lvl => Sys2Proof.Machine.execAcq lvl s
  | .fence lvl => Sys2Proof.Machine.execFence lvl s
  | .cfl sd sa sb => Sys2Proof.Machine.execCfl sd sa sb s
  | .civ sd sa sb => Sys2Proof.Machine.execCiv sd sa sb s
  | .cwb sd sa sb => Sys2Proof.Machine.execCwb sd sa sb s
  | .ici sd sa sb => Sys2Proof.Machine.execIci sd sa sb s
  | .barSync c n id => Sys2Proof.Machine.execBarSync c n id s
  | .barArrive n id => Sys2Proof.Machine.execBarArrive n id s
  | .gongArrive tag => Sys2Proof.Machine.execGongArrive tag s
  | .gongWait tag => Sys2Proof.Machine.execGongWait tag s
  | .mbInit sa sb => Sys2Proof.Machine.execMbInit sa sb s
  | .mbInitLiteral sa lit => Sys2Proof.Machine.execMbInitLiteral sa lit s
  | .mbArrive sa sb => Sys2Proof.Machine.execMbArrive sa sb s
  | .mbArriveLiteral sa lit => Sys2Proof.Machine.execMbArriveLiteral sa lit s
  | .mbWait sd sa sb => Sys2Proof.Machine.execMbWait sd sa sb s
  | .mbWaitLiteral sd sa lit => Sys2Proof.Machine.execMbWaitLiteral sd sa lit s
  | .mbTest sd sa => Sys2Proof.Machine.execMbTest sd sa s
  | .qpush q sa => Sys2Proof.Machine.execQpush q sa s
  | .qpop q sd => Sys2Proof.Machine.execQpop q sd s
  | .qtry q sd => Sys2Proof.Machine.execQtry q sd s
  | .cpkick sa => Sys2Proof.Machine.execCpkick sa s
  | .cpseal sd => Sys2Proof.Machine.execCpseal sd s
  | .cpwait sb => Sys2Proof.Machine.execCpwait sb s
  | .cpwaitLiteral lit => Sys2Proof.Machine.execCpwaitLiteral lit s
  | .cptest sb => Sys2Proof.Machine.execCptest sb s
  | .cptestLiteral lit => Sys2Proof.Machine.execCptestLiteral lit s
  | .lnch sa sb => Sys2Proof.Machine.execLnch sa sb s
  | .snap sd sa sb => Sys2Proof.Machine.execSnap sd sa sb s
  | .snapLiteral sd sa lit => Sys2Proof.Machine.execSnapLiteral sd sa lit s
  | .sacc sa => Sys2Proof.Machine.execSacc sa s
  | .srej sa => Sys2Proof.Machine.execSrej sa s
  | .sqry sd sa => Sys2Proof.Machine.execSqry sd sa s
  | .mloop m => Sys2Proof.Machine.execMloop m s
  | .mwait acc => Sys2Proof.Machine.execMwait acc s
  | .acz acc => Sys2Proof.Machine.execAcz acc s
  | .acrel acc => Sys2Proof.Machine.execAcrel acc s
  | .acld acc sa => Sys2Proof.Machine.execAcld acc sa s
  | .acst acc sa => Sys2Proof.Machine.execAcst acc sa s
  | .acrd x => Sys2Proof.Machine.execAcrd x s
  | .acwr x => Sys2Proof.Machine.execAcwr x s
  | .vadd vd va vb => Sys2Proof.Machine.execVadd vd va vb s
  | .vaddVx x => Sys2Proof.Machine.execVaddVx x s
  | .vsub vd va vb => Sys2Proof.Machine.execVsub vd va vb s
  | .vsubVx x => Sys2Proof.Machine.execVsubVx x s
  | .vmul vd va vb => Sys2Proof.Machine.execVmul vd va vb s
  | .vmulVx x => Sys2Proof.Machine.execVmulVx x s
  | .vfma vd va vb => Sys2Proof.Machine.execVfma vd va vb s
  | .vfmaVx x => Sys2Proof.Machine.execVfmaVx x s
  | .vmad vd va vb => Sys2Proof.Machine.execVmad vd va vb s
  | .vmadVx x => Sys2Proof.Machine.execVmadVx x s
  | .vmulhi vd va vb => Sys2Proof.Machine.execVmulhi vd va vb s
  | .vmulhiVx x => Sys2Proof.Machine.execVmulhiVx x s
  | .vmin vd va vb => Sys2Proof.Machine.execVmin vd va vb s
  | .vminVx x => Sys2Proof.Machine.execVminVx x s
  | .vmax vd va vb => Sys2Proof.Machine.execVmax vd va vb s
  | .vmaxVx x => Sys2Proof.Machine.execVmaxVx x s
  | .vabs vd va => Sys2Proof.Machine.execVabs vd va s
  | .vabsVx x => Sys2Proof.Machine.execVabsVx x s
  | .vneg vd va => Sys2Proof.Machine.execVneg vd va s
  | .vnegVx x => Sys2Proof.Machine.execVnegVx x s
  | .vcmp c va vb => Sys2Proof.Machine.execVcmp c va vb s
  | .vcmpVx x => Sys2Proof.Machine.execVcmpVx x s
  | .vsel vd va vb => Sys2Proof.Machine.execVsel vd va vb s
  | .vselVx x => Sys2Proof.Machine.execVselVx x s
  | .vmov vd va => Sys2Proof.Machine.execVmov vd va s
  | .vmovVx x => Sys2Proof.Machine.execVmovVx x s
  | .vand vd va vb => Sys2Proof.Machine.execVand vd va vb s
  | .vandVx x => Sys2Proof.Machine.execVandVx x s
  | .vor vd va vb => Sys2Proof.Machine.execVor vd va vb s
  | .vorVx x => Sys2Proof.Machine.execVorVx x s
  | .vxor vd va vb => Sys2Proof.Machine.execVxor vd va vb s
  | .vxorVx x => Sys2Proof.Machine.execVxorVx x s
  | .vandn vd va vb => Sys2Proof.Machine.execVandn vd va vb s
  | .vandnVx x => Sys2Proof.Machine.execVandnVx x s
  | .vshl vd va vb => Sys2Proof.Machine.execVshl vd va vb s
  | .vshlVx x => Sys2Proof.Machine.execVshlVx x s
  | .vshr vd va vb => Sys2Proof.Machine.execVshr vd va vb s
  | .vshrVx x => Sys2Proof.Machine.execVshrVx x s
  | .vsar vd va vb => Sys2Proof.Machine.execVsar vd va vb s
  | .vsarVx x => Sys2Proof.Machine.execVsarVx x s
  | .vpop vd va => Sys2Proof.Machine.execVpop vd va s
  | .vpopVx x => Sys2Proof.Machine.execVpopVx x s
  | .vclz vd va => Sys2Proof.Machine.execVclz vd va s
  | .vclzVx x => Sys2Proof.Machine.execVclzVx x s
  | .vbfe x => Sys2Proof.Machine.execVbfe x s
  | .vbfi x => Sys2Proof.Machine.execVbfi x s
  | .vmovs vd sb => Sys2Proof.Machine.execVmovs vd sb s
  | .vmovsLiteral vd lit => Sys2Proof.Machine.execVmovsLiteral vd lit s
  | .vlane vd => Sys2Proof.Machine.execVlane vd s
  | .vcvt x => Sys2Proof.Machine.execVcvt x s
  | .vtag x => Sys2Proof.Machine.execVtag x s
  | .vdot x => Sys2Proof.Machine.execVdot x s
  | .vred x => Sys2Proof.Machine.execVred x s
  | .vshfl x => Sys2Proof.Machine.execVshfl x s
  | .vbcast x => Sys2Proof.Machine.execVbcast x s
  | .vgetl sd va sb => Sys2Proof.Machine.execVgetl sd va sb s
  | .vgetlLiteral sd va lit => Sys2Proof.Machine.execVgetlLiteral sd va lit s
  | .vsetl vd sa sb => Sys2Proof.Machine.execVsetl vd sa sb s
  | .vsetlLiteral vd sa lit => Sys2Proof.Machine.execVsetlLiteral vd sa lit s
  | .vrcp vd va => Sys2Proof.Machine.execVrcp vd va s
  | .vrcpVx x => Sys2Proof.Machine.execVrcpVx x s
  | .vrsq vd va => Sys2Proof.Machine.execVrsq vd va s
  | .vrsqVx x => Sys2Proof.Machine.execVrsqVx x s
  | .vsqrt vd va => Sys2Proof.Machine.execVsqrt vd va s
  | .vsqrtVx x => Sys2Proof.Machine.execVsqrtVx x s
  | .vexp2 vd va => Sys2Proof.Machine.execVexp2 vd va s
  | .vexp2Vx x => Sys2Proof.Machine.execVexp2Vx x s
  | .vlog2 vd va => Sys2Proof.Machine.execVlog2 vd va s
  | .vlog2Vx x => Sys2Proof.Machine.execVlog2Vx x s
  | .vsinpi vd va => Sys2Proof.Machine.execVsinpi vd va s
  | .vsinpiVx x => Sys2Proof.Machine.execVsinpiVx x s
  | .vcospi vd va => Sys2Proof.Machine.execVcospi vd va s
  | .vcospiVx x => Sys2Proof.Machine.execVcospiVx x s
  | .vtanh vd va => Sys2Proof.Machine.execVtanh vd va s
  | .vtanhVx x => Sys2Proof.Machine.execVtanhVx x s
  | .vld m => Sys2Proof.Machine.execVld m s
  | .vldOffset64 m lit => Sys2Proof.Machine.execVldOffset64 m lit s
  | .vst m => Sys2Proof.Machine.execVst m s
  | .vstOffset64 m lit => Sys2Proof.Machine.execVstOffset64 m lit s
  | .vatom m => Sys2Proof.Machine.execVatom m s
  | .vatomOffset64 m lit => Sys2Proof.Machine.execVatomOffset64 m lit s
  | .unassignedOpcode w => Sys2Proof.Machine.execUnassignedOpcode w s
  | .brk => Sys2Proof.Machine.execBrk s
  | .tret => Sys2Proof.Machine.execTret s
  | .nop => Sys2Proof.Machine.execNop s
  | .wend => Sys2Proof.Machine.execWend s
  | .yield => Sys2Proof.Machine.execYield s
  | .fbar => Sys2Proof.Machine.execFbar s
  | .mcmc => Sys2Proof.Machine.execMcmc s
  | .msetall => Sys2Proof.Machine.execMsetall s
  | .commitBV => Sys2Proof.Machine.execCommitBV s
  | .yieldResume => Sys2Proof.Machine.execYieldResume s
  | .walkerLine => Sys2Proof.Machine.execWalkerLine s
  | .barrierRelease => Sys2Proof.Machine.execBarrierRelease s
  | .gongRelease => Sys2Proof.Machine.execGongRelease s
  | .mbWaitTimeout => Sys2Proof.Machine.execMbWaitTimeout s
  | .copyRequestFetch => Sys2Proof.Machine.execCopyRequestFetch s
  | .copyLineTransfer => Sys2Proof.Machine.execCopyLineTransfer s
  | .copyRequestEnd => Sys2Proof.Machine.execCopyRequestEnd s
  | .snapshotRestoreComplete => Sys2Proof.Machine.execSnapshotRestoreComplete s
  | .poolWriterProceed => Sys2Proof.Machine.execPoolWriterProceed s
  | .loopStart => Sys2Proof.Machine.execLoopStart s
  | .kStep => Sys2Proof.Machine.execKStep s
  | .rowCheckVerdict => Sys2Proof.Machine.execRowCheckVerdict s
  | .checkerOnlyStep => Sys2Proof.Machine.execCheckerOnlyStep s
  | .loopEnd => Sys2Proof.Machine.execLoopEnd s
  | .flush => Sys2Proof.Machine.execFlush s
  | .checkerOnlyMode => Sys2Proof.Machine.execCheckerOnlyMode s
  | .watchdog => Sys2Proof.Machine.execWatchdog s
  | .waveStarved => Sys2Proof.Machine.execWaveStarved s
  | .stackCacheWriteback => Sys2Proof.Machine.execStackCacheWriteback s
  | .blockDispatch => Sys2Proof.Machine.execBlockDispatch s
  | .gangStart => Sys2Proof.Machine.execGangStart s
  | .blockRetirement => Sys2Proof.Machine.execBlockRetirement s
  | .launchCompletion => Sys2Proof.Machine.execLaunchCompletion s
  | .launchAccept => Sys2Proof.Machine.execLaunchAccept s
  | .dependenceEvaluation => Sys2Proof.Machine.execDependenceEvaluation s
  | .gongTagGrant => Sys2Proof.Machine.execGongTagGrant s
  | .candidateAged => Sys2Proof.Machine.execCandidateAged s
  | .priorityPreemption => Sys2Proof.Machine.execPriorityPreemption s
  | .gangSave => Sys2Proof.Machine.execGangSave s
  | .gangRestore => Sys2Proof.Machine.execGangRestore s
  | .powerEstimate => Sys2Proof.Machine.execPowerEstimate s
  | .throttleChange => Sys2Proof.Machine.execThrottleChange s
  | .thermalShutdown => Sys2Proof.Machine.execThermalShutdown s
  | .parkResume => Sys2Proof.Machine.execParkResume s
  | .parkKill => Sys2Proof.Machine.execParkKill s
  | .shootdownRange => Sys2Proof.Machine.execShootdownRange s
  | .shootdownContext => Sys2Proof.Machine.execShootdownContext s
  | .shootdownRbt => Sys2Proof.Machine.execShootdownRbt s
  | .deviceFlush => Sys2Proof.Machine.execDeviceFlush s
  | .directoryRecovery => Sys2Proof.Machine.execDirectoryRecovery s
  | .poolsizeWrite => Sys2Proof.Machine.execPoolsizeWrite s
  | .contextCreate => Sys2Proof.Machine.execContextCreate s
  | .contextSwitchOut => Sys2Proof.Machine.execContextSwitchOut s
  | .contextSwitchIn => Sys2Proof.Machine.execContextSwitchIn s
  | .contextKill => Sys2Proof.Machine.execContextKill s
  | .qtailWrite => Sys2Proof.Machine.execQtailWrite s
  | .qstatSkip => Sys2Proof.Machine.execQstatSkip s
  | .qstatRetry => Sys2Proof.Machine.execQstatRetry s
  | .erheadWrite => Sys2Proof.Machine.execErheadWrite s
  | .ersizeWrite => Sys2Proof.Machine.execErsizeWrite s
  | .trheadWrite => Sys2Proof.Machine.execTrheadWrite s
  | .traceSync => Sys2Proof.Machine.execTraceSync s
  | .waveSample => Sys2Proof.Machine.execWaveSample s
  | .linkReplay => Sys2Proof.Machine.execLinkReplay s
  | .portRetrain => Sys2Proof.Machine.execPortRetrain s
  | .remoteWriteArrival => Sys2Proof.Machine.execRemoteWriteArrival s
  | .remoteWriteAck => Sys2Proof.Machine.execRemoteWriteAck s
  | .remoteAtomicArrival => Sys2Proof.Machine.execRemoteAtomicArrival s
  | .remoteAtomicResponse => Sys2Proof.Machine.execRemoteAtomicResponse s
  | .atomicResend => Sys2Proof.Machine.execAtomicResend s
  | .atomicTableExpiry => Sys2Proof.Machine.execAtomicTableExpiry s
  | .retryWindowExpiry => Sys2Proof.Machine.execRetryWindowExpiry s
  | .routesDownTimeout => Sys2Proof.Machine.execRoutesDownTimeout s
  | .lostsetWrite => Sys2Proof.Machine.execLostsetWrite s
  | .debugHalt => Sys2Proof.Machine.execDebugHalt s
  | .debugResume => Sys2Proof.Machine.execDebugResume s
  | .firmwareStage => Sys2Proof.Machine.execFirmwareStage s
  | .firmwareSwap => Sys2Proof.Machine.execFirmwareSwap s
  | .firmwareAbandon => Sys2Proof.Machine.execFirmwareAbandon s
  | .handoverSafePoint => Sys2Proof.Machine.execHandoverSafePoint s
  | .firmwareHeartbeat => Sys2Proof.Machine.execFirmwareHeartbeat s
  | .heartbeatMissed => Sys2Proof.Machine.execHeartbeatMissed s
  | .probationEnd => Sys2Proof.Machine.execProbationEnd s
  | .coldReset => Sys2Proof.Machine.execColdReset s
  | .warmReset => Sys2Proof.Machine.execWarmReset s
  | .attestation => Sys2Proof.Machine.execAttestation s
  | .unitcmdRetest => Sys2Proof.Machine.execUnitcmdRetest s
  | .unitcmdReadmit => Sys2Proof.Machine.execUnitcmdReadmit s
  | .unitcmdFence => Sys2Proof.Machine.execUnitcmdFence s
  | .unitcmdStrongCode => Sys2Proof.Machine.execUnitcmdStrongCode s
  | .unitcmdSecded => Sys2Proof.Machine.execUnitcmdSecded s
  | .hourlyHalving => Sys2Proof.Machine.execHourlyHalving s
  | .binChange => Sys2Proof.Machine.execBinChange s
  | .bistComplete => Sys2Proof.Machine.execBistComplete s
  | .readmission => Sys2Proof.Machine.execReadmission s
  | .scrubSweep => Sys2Proof.Machine.execScrubSweep s
  | .mmsRefresh => Sys2Proof.Machine.execMmsRefresh s
  | .hostCoherentWrite => Sys2Proof.Machine.execHostCoherentWrite s
  | .hostCoherentRead => Sys2Proof.Machine.execHostCoherentRead s
  | .registerWrite => Sys2Proof.Machine.execRegisterWrite s
  | .instructionFetchFailure => Sys2Proof.Machine.execInstructionFetchFailure s
  | .remoteReadArrival => Sys2Proof.Machine.execRemoteReadArrival s
  | .responseAckArrival => Sys2Proof.Machine.execResponseAckArrival s
  | .responseAckDeadline => Sys2Proof.Machine.execResponseAckDeadline s
  | .writeResend => Sys2Proof.Machine.execWriteResend s
  | .retrainingComplete => Sys2Proof.Machine.execRetrainingComplete s
  | .routeReturn => Sys2Proof.Machine.execRouteReturn s

end Sys2Proof.Machine
end

