-- ==== Sys2Proof/Machine/Step.lean ====
section
/-! DEFINITION. One step of the device: the first turn of the agenda, or, with an empty agenda, the wave in focus. -/

namespace Sys2Proof.Machine

/-- The wave in focus executes the instruction at its pc, or issues nothing. -/
def stepWave (s : State) : Host.Outcome State Fault Refusal :=
  match s.todo with
  | .idle => .next s
  | .noWord => exec .instructionFetchFailure s
  | .illegal v => .next (s.illop v)
  | .full => .next (s.await .mbusy)
  | .perform i => exec i s

/-- A step. An event of the agenda is a row that has no encoding; it reads its outside facts from the state (log 1). -/
def step (s : State) : Host.Outcome State Fault Refusal :=
  match s.agenda with
  | [] => stepWave { s with turn := s.turn + 1 }
  | .wave :: ts => stepWave { s with agenda := ts, turn := s.turn + 1 }
  | .event i f :: ts =>
    if encode i = [] then exec i { s with agenda := ts, turn := s.turn + 1, facts := f }
    else .next { s with agenda := ts, turn := s.turn + 1 }
  | t :: ts => .next (State.plain { s with agenda := ts, turn := s.turn + 1 } t)

/-- The state with an instruction placed where the next step fetches: its bits are `w`, those above `nbits` zero. -/
def State.withFetchWord (s : State) (nbits w : Nat) : State := s.load (w % 2 ^ nbits)

end Sys2Proof.Machine
end

