-- ==== Sys2Proof/Certificates/Slice0/Obligations.lean ====
section
/-! DEFINITION. Statements about the machine, for the provers; `Claims` holds the vocabulary they share. -/

namespace Sys2Proof.Claims

open Sys2Proof.Machine

/-! ### Vocabulary -/

/-- No injected error touches the instruction: ERRINJ.ARM is clear (04/R145). -/
abbrev Calm (s : State) : Prop := injArm s.w.errinj = false

/-- The instruction completes: exec answers `t` with the pc `n` bytes on and the retirement counted (03/R90, 04/R142). -/
abbrev Does (i : Instr) (n : Nat) (s t : State) : Prop := exec i s = .next (t.retire n)

/-- Word `k` of a list of words, zero past its end. -/
def nth (ws : List Word) (k : Nat) : Word := ws.getD k 0

/-- OP and LEN of an instruction's first word on the scalar and control pipe (03/R91). -/
def codeIs (i : Instr) (op len : Nat) : Prop := wordP (nth (encode i) 0) = 0 ∧ wordOp (nth (encode i) 0) = op ∧ wordLen (nth (encode i) 0) = len

/-- What the decoder reads from a list of words. -/
def decodeList (ws : List Word) : Decoded := decodeWords (nth ws 0) (nth ws 1) (nth ws 2) (nth ws 3) (nth ws 4)

/-- The state in which a step with an empty agenda executes the wave in focus. -/
def begun (s : State) : State := { s with turn := s.turn + 1 }

/-- Everything but the scalar registers, STATUS and what retirement advances is as before. -/
def OnlyScalars (s t : State) : Prop :=
  t = { s with w := { s.w with
    sregs := t.w.sregs, status := t.w.status, pc := t.w.pc, seqno := t.w.seqno, issues := t.w.issues, issued := t.w.issued, todo := t.w.todo,
    released := t.w.released, stamped := t.w.stamped, valMis := t.w.valMis, resMis := t.w.resMis, starved := t.w.starved, ckOnly := t.w.ckOnly,
    byChecker := t.w.byChecker, life := t.w.life } }

/-- STATUS but for SCC. -/
def sameButScc (x y : Word) : Prop := ∀ k, k ≠ 0 → x.getLsbD k = y.getLsbD k

/-- A wave that trap entry sends to its handler (04/R147). -/
structure Handled (s t : State) (cause : Cause) (arg : Nat) (tpc taddr : DWord) (lanes : Vector Word 3) : Prop where
  pc : t.w.pc = s.w.tvec
  tcause : t.w.tcause = BitVec.ofNat 32 (arg * 256 + cause.code)
  tpc : t.w.tpc = tpc
  taddr : t.w.taddr = taddr
  tmask : t.w.tmask = lanes
  hm : t.hm = true
  status : ∀ k, k ≠ 1 → t.w.status.getLsbD k = s.w.status.getLsbD k
  sregs : t.w.sregs = s.w.sregs
  vregs : t.w.vregs = s.w.vregs ∧ t.w.rot = s.w.rot ∧ t.w.bndst = s.w.bndst ∧ t.w.accs = s.w.accs ∧ t.w.xts = s.w.xts
  places : t.w.wbuf = s.w.wbuf ∧ t.blk = s.blk ∧ t.gang = s.gang
  memory : ∀ a, t.mem.read a = s.mem.read a

/-- The condition under which trap entry finds a handler (04/R147). -/
def CanHandle (s : State) : Prop := s.hm = false ∧ s.w.tvec ≠ 0#64 ∧ s.w.tvec.extractLsb' 0 2 = 0#2

/-- A wave that KillWave ends (04/R149, 18/R439): registers as a WEND releases them, the W buffer discarded, the kill counted. -/
structure Killed (s t : State) : Prop where
  ended : t.w.life = .ended ∧ t.w.killed = true
  buffer : t.w.wbuf = Place.empty
  accs : ∀ i, i < 16 → t.w.accs[i]? = some none
  counted : t.cx.wkill = true ∧ t.cx.kills = min 65535 (s.cx.kills + 1)

/-- The instructions of 04/R123 to R130 that write scalar registers and SCC alone. -/
def scalarPlain : Instr → Bool
  | .sadd .. | .saddLiteral .. | .ssub .. | .ssubLiteral .. | .smul .. | .smulLiteral .. | .smulhi .. | .smulhiLiteral ..
  | .smulhu .. | .smulhuLiteral .. | .sdiv .. | .sdivLiteral .. | .sdivu .. | .sdivuLiteral .. | .srem .. | .sremLiteral ..
  | .sremu .. | .sremuLiteral .. | .sand .. | .sandLiteral .. | .sor .. | .sorLiteral .. | .sxor .. | .sxorLiteral ..
  | .sandn .. | .sandnLiteral .. | .sshl .. | .sshlLiteral .. | .sshr .. | .sshrLiteral .. | .ssar .. | .ssarLiteral ..
  | .srol .. | .srolLiteral .. | .smin .. | .sminLiteral .. | .smax .. | .smaxLiteral .. | .sminu .. | .sminuLiteral ..
  | .smaxu .. | .smaxuLiteral .. | .saddc .. | .saddcLiteral .. | .scmp .. | .scmpLiteral .. | .scmpn .. | .scmpnLiteral ..
  | .ssel .. | .sselLiteral .. | .smov .. | .sli .. | .sliLiteral .. | .slid .. | .saddi .. | .sbfe .. | .sbfeLiteral ..
  | .sbfi .. | .sbfiLiteral .. | .spop .. | .sclz .. | .sctz .. | .sbrev .. | .saddd .. | .sadddLiteral .. | .ssubd ..
  | .ssubdLiteral .. | .smuld .. | .smuldLiteral .. | .sshld .. | .sshldLiteral .. | .sshrd .. | .sshrdLiteral ..
  | .scmpd .. | .scmpdLiteral .. | .mand .. | .mandn .. | .melse .. | .mrest .. | .mcnt .. | .mfirst .. | .mcmc | .msetall => true
  | _ => false

/-- The numbers of the scalar registers that such an instruction writes. -/
def dests : Instr → List Nat
  | .scmp .. | .scmpLiteral .. | .scmpn .. | .scmpnLiteral .. | .scmpd .. | .scmpdLiteral .. => []
  | .slid d _ | .saddd d _ _ | .sadddLiteral d _ _ | .ssubd d _ _ | .ssubdLiteral d _ _ | .smuld d _ _ | .smuldLiteral d _ _
  | .sshld d _ _ | .sshldLiteral d _ _ | .sshrd d _ _ | .sshrdLiteral d _ _ => [d.toNat, d.toNat + 1]
  | .mand d | .mandn d => [d.toNat, d.toNat + 1, d.toNat + 2, 61, 62, 63]
  | .melse _ | .mrest _ | .msetall => [61, 62, 63]
  | .mcmc => [58, 59, 60]
  | .sadd d _ _ | .saddLiteral d _ _ | .ssub d _ _ | .ssubLiteral d _ _ | .smul d _ _ | .smulLiteral d _ _ | .smulhi d _ _
  | .smulhiLiteral d _ _ | .smulhu d _ _ | .smulhuLiteral d _ _ | .sdiv d _ _ | .sdivLiteral d _ _ | .sdivu d _ _
  | .sdivuLiteral d _ _ | .srem d _ _ | .sremLiteral d _ _ | .sremu d _ _ | .sremuLiteral d _ _ | .sand d _ _
  | .sandLiteral d _ _ | .sor d _ _ | .sorLiteral d _ _ | .sxor d _ _ | .sxorLiteral d _ _ | .sandn d _ _
  | .sandnLiteral d _ _ | .sshl d _ _ | .sshlLiteral d _ _ | .sshr d _ _ | .sshrLiteral d _ _ | .ssar d _ _
  | .ssarLiteral d _ _ | .srol d _ _ | .srolLiteral d _ _ | .smin d _ _ | .sminLiteral d _ _ | .smax d _ _
  | .smaxLiteral d _ _ | .sminu d _ _ | .sminuLiteral d _ _ | .smaxu d _ _ | .smaxuLiteral d _ _ | .saddc d _ _
  | .saddcLiteral d _ _ | .ssel d _ _ | .sselLiteral d _ _ | .saddi d _ _ | .sbfe d _ _ | .sbfeLiteral d _ _ | .sbfi d _ _
  | .sbfiLiteral d _ _ | .smov d _ | .sli d _ | .sliLiteral d _ | .spop d _ | .sclz d _ | .sctz d _ | .sbrev d _
  | .mcnt d | .mfirst d => [d.toNat]
  | _ => []

/-- The instructions of that group that change SCC (04/R121). -/
def setsScc : Instr → Bool
  | .scmp .. | .scmpLiteral .. | .scmpn .. | .scmpnLiteral .. | .scmpd .. | .scmpdLiteral .. | .saddc .. | .saddcLiteral ..
  | .mand .. | .mandn .. | .melse .. | .mcnt .. | .mfirst .. => true
  | _ => false

end Sys2Proof.Claims

open Sys2Proof Sys2Proof.Machine

/-! ### Encoding, fetch and step -/

/-- 03/R90 to R106: an encoded well-formed instruction decodes to itself, whatever words follow it. -/
def Sys2Proof.Claims.DecodeOfEncode : Prop :=
  ∀ (i : Instr) (rest : List Word), i.wellFormed = true → encode i ≠ [] → Claims.decodeList (encode i ++ rest) = .ok i

/-- 03/R94, R108: what the decoder accepts is well-formed and encodes to the very words it was read from. -/
def Sys2Proof.Claims.EncodeOfDecode : Prop :=
  ∀ (w0 w1 w2 w3 w4 : Word) (i : Instr), decodeWords w0 w1 w2 w3 w4 = .ok i →
    i.wellFormed = true ∧ encode i ≠ [] ∧ encode i = [w0, w1, w2, w3, w4].take (encode i).length

/-- The worked encodings of the manual, each read as the instruction it is given for. -/
def Sys2Proof.Claims.WorkedEncodings : Prop :=
  Claims.decodeList [0xFF861940] = .ok (.saddi 3 3 (-1)) ∧
  Claims.decodeList [0x410200A8] = .ok (.scmp 2 1 2) ∧
  Claims.decodeList [0x00082102, 0, 1] = .ok (.sadddLiteral 4 4 0x100000000) ∧
  Claims.decodeList [0x00005300] = .ok (.mand 10) ∧
  Claims.decodeList [0xFFF63A20] = .ok (.bnz 7 (-5)) ∧
  Claims.decodeList [0x00000249, 0x10, 0x10] = .ok (.call 0 16 16) ∧
  Claims.decodeList [0x01000258] = .ok (.ret 2) ∧
  Claims.decodeList [0x04802298] = .ok (.srd 4 9) ∧
  Claims.decodeList [0x04F002A0] = .ok (.swr 56 9) ∧
  Claims.decodeList [0x03800268] = .ok (.trap 7) ∧
  Claims.decodeList [0x00000270] = .ok .tret ∧
  Claims.decodeList [0x04085580] = .ok (.snap 10 4 8) ∧
  Claims.decodeList [0x030802A8] = .ok (.lnch 4 6) ∧
  Claims.decodeList [0x00100518] = .ok (.cpkick 8)

/-- A step of the wave in focus runs the instruction that it has issued and that waits (06/R187), else the one that the words at its pc decode
to (03/R90, R108). The first word that cannot be fetched, literal words included, makes the step INSTRUCTION_FETCH_FAILURE; words that
decode to nothing raise ILLOP, but those of an MLOOP at a full sequencer, which do not issue (10/R296). -/
def Sys2Proof.Claims.StepRunsDecoded : Prop :=
  ∀ (s : State) (w0 : Word), s.agenda = [] → (Claims.begun s).runnable = true →
    (∀ (i : Instr), s.w.life.blocked = true → s.w.issued = some i → step s = exec i (Claims.begun s)) ∧
    (s.w.life.blocked = false ∨ s.w.issued = none →
      (∀ (ws : List Word) (i : Instr), (Claims.begun s).codeWord s.w.pc = .ok w0 →
        (Claims.begun s).moreWords (wordsAsked w0) (s.w.pc + 4) = .ok ws → Claims.decodeList (w0 :: ws) = .ok i →
        step s = exec i (Claims.begun s)) ∧
      (∀ (ws : List Word) (r : Reject), (Claims.begun s).codeWord s.w.pc = .ok w0 →
        (Claims.begun s).moreWords (wordsAsked w0) (s.w.pc + 4) = .ok ws → Claims.decodeList (w0 :: ws) = .error r →
        step s = .next (if isMloop w0 && decide (8 ≤ s.co.loops.length) then (Claims.begun s).await .mbusy
          else (Claims.begun s).illop (wordP w0 == 1))) ∧
      (∀ h, (Claims.begun s).codeWord s.w.pc = .error h → step s = exec .instructionFetchFailure (Claims.begun s)) ∧
      (∀ (h : Halt) (k : Nat), (Claims.begun s).codeWord s.w.pc = .ok w0 → 1 ≤ k → k ≤ wordsAsked w0 →
        (∀ j, j < k → ∃ x, (Claims.begun s).codeWord (s.w.pc + BitVec.ofNat 64 (4 * j)) = .ok x) →
        (Claims.begun s).codeWord (s.w.pc + BitVec.ofNat 64 (4 * k)) = .error h →
        step s = exec .instructionFetchFailure (Claims.begun s)))

/-- A turn of the agenda that is an event of the table runs that row with the facts that come with it; another wave's turn
changes the focus alone. -/
def Sys2Proof.Claims.StepRunsAgenda : Prop :=
  ∀ (s : State) (ts : List Turn),
    (∀ (i : Instr) (f : Facts), s.agenda = .event i f :: ts → encode i = [] →
      step s = exec i { s with agenda := ts, turn := s.turn + 1, facts := f }) ∧
    (∀ k, s.agenda = .focus k :: ts → step s = .next (State.focusOn { s with agenda := ts, turn := s.turn + 1 } k))

/-! ### Scalar arithmetic (04/R120 to R131) -/

/-- 04/R123: sums, products, logic, shifts, minima and maxima, in both forms. -/
def Sys2Proof.Claims.ScalarArithmetic : Prop :=
  ∀ (s : State) (sd sa sb : SReg) (lit : DWord), Claims.Calm s → lit.hi = 0 →
    let a := s.sreg sa
    let b := s.sreg sb
    let k := lit.lo
    let out (n : Nat) (i : Instr) (x : Word) : Prop := Claims.Does i n s (s.setS sd x)
    (out 4 (.sadd sd sa sb) (a + b) ∧ out 12 (.saddLiteral sd sa lit) (a + k)) ∧
    (out 4 (.ssub sd sa sb) (a - b) ∧ out 12 (.ssubLiteral sd sa lit) (a - k)) ∧
    (out 4 (.smul sd sa sb) (BitVec.ofNat 32 (a.toNat * b.toNat)) ∧
      out 12 (.smulLiteral sd sa lit) (BitVec.ofNat 32 (a.toNat * k.toNat))) ∧
    (out 4 (.smulhi sd sa sb) (BitVec.ofInt 32 (a.toInt * b.toInt / 2 ^ 32)) ∧
      out 12 (.smulhiLiteral sd sa lit) (BitVec.ofInt 32 (a.toInt * k.toInt / 2 ^ 32))) ∧
    (out 4 (.smulhu sd sa sb) (BitVec.ofNat 32 (a.toNat * b.toNat / 2 ^ 32)) ∧
      out 12 (.smulhuLiteral sd sa lit) (BitVec.ofNat 32 (a.toNat * k.toNat / 2 ^ 32))) ∧
    (out 4 (.sand sd sa sb) (a &&& b) ∧ out 12 (.sandLiteral sd sa lit) (a &&& k)) ∧
    (out 4 (.sor sd sa sb) (a ||| b) ∧ out 12 (.sorLiteral sd sa lit) (a ||| k)) ∧
    (out 4 (.sxor sd sa sb) (a ^^^ b) ∧ out 12 (.sxorLiteral sd sa lit) (a ^^^ k)) ∧
    (out 4 (.sandn sd sa sb) (a &&& ~~~b) ∧ out 12 (.sandnLiteral sd sa lit) (a &&& ~~~k)) ∧
    (out 4 (.sshl sd sa sb) (a <<< (b.toNat % 32)) ∧ out 12 (.sshlLiteral sd sa lit) (a <<< (k.toNat % 32))) ∧
    (out 4 (.sshr sd sa sb) (a >>> (b.toNat % 32)) ∧ out 12 (.sshrLiteral sd sa lit) (a >>> (k.toNat % 32))) ∧
    (out 4 (.ssar sd sa sb) (BitVec.ofInt 32 (a.toInt / 2 ^ (b.toNat % 32))) ∧
      out 12 (.ssarLiteral sd sa lit) (BitVec.ofInt 32 (a.toInt / 2 ^ (k.toNat % 32)))) ∧
    (out 4 (.srol sd sa sb) ((a <<< (b.toNat % 32)) ||| (a >>> (32 - b.toNat % 32))) ∧
      out 12 (.srolLiteral sd sa lit) ((a <<< (k.toNat % 32)) ||| (a >>> (32 - k.toNat % 32)))) ∧
    (out 4 (.smin sd sa sb) (BitVec.ofInt 32 (min a.toInt b.toInt)) ∧
      out 12 (.sminLiteral sd sa lit) (BitVec.ofInt 32 (min a.toInt k.toInt))) ∧
    (out 4 (.smax sd sa sb) (BitVec.ofInt 32 (max a.toInt b.toInt)) ∧
      out 12 (.smaxLiteral sd sa lit) (BitVec.ofInt 32 (max a.toInt k.toInt))) ∧
    (out 4 (.sminu sd sa sb) (BitVec.ofNat 32 (min a.toNat b.toNat)) ∧
      out 12 (.sminuLiteral sd sa lit) (BitVec.ofNat 32 (min a.toNat k.toNat))) ∧
    (out 4 (.smaxu sd sa sb) (BitVec.ofNat 32 (max a.toNat b.toNat)) ∧
      out 12 (.smaxuLiteral sd sa lit) (BitVec.ofNat 32 (max a.toNat k.toNat)))

/-- 04/R124: division never traps; the quotient is truncated, the remainder has the sign of sa, and a divisor of 0 gives all
ones and the dividend. -/
def Sys2Proof.Claims.ScalarDivision : Prop :=
  ∀ (s : State) (sd sa sb : SReg) (lit : DWord), Claims.Calm s → lit.hi = 0 →
    let a := s.sreg sa
    let both (i j : Instr) (f : Word → Word) : Prop :=
      Claims.Does i 4 s (s.setS sd (f (s.sreg sb))) ∧ Claims.Does j 12 s (s.setS sd (f lit.lo))
    (∃ f, both (.sdiv sd sa sb) (.sdivLiteral sd sa lit) f ∧ f 0 = 0xFFFFFFFF ∧
      ∀ b, b ≠ 0 → (f b = BitVec.ofInt 32 (a.toInt.tdiv b.toInt)) ∧ (a = 0x80000000 → b = 0xFFFFFFFF → f b = 0x80000000)) ∧
    (∃ f, both (.sdivu sd sa sb) (.sdivuLiteral sd sa lit) f ∧ f 0 = 0xFFFFFFFF ∧
      ∀ b, b ≠ 0 → (f b).toNat = a.toNat / b.toNat) ∧
    (∃ f, both (.srem sd sa sb) (.sremLiteral sd sa lit) f ∧ f 0 = a ∧
      ∀ b, b ≠ 0 → (f b).toInt = a.toInt - b.toInt * a.toInt.tdiv b.toInt) ∧
    (∃ f, both (.sremu sd sa sb) (.sremuLiteral sd sa lit) f ∧ f 0 = a ∧
      ∀ b, b ≠ 0 → (f b).toNat = a.toNat % b.toNat)

/-- 04/R123: SADDC adds SCC, and SCC takes the carry out of bit 31. -/
def Sys2Proof.Claims.AddWithCarry : Prop :=
  ∀ (s : State) (sd sa sb : SReg) (lit : DWord), Claims.Calm s → lit.hi = 0 →
    let sum (b : Word) : Nat := (s.sreg sa).toNat + b.toNat + (if s.scc then 1 else 0)
    let out (b : Word) : State := (s.setS sd (BitVec.ofNat 32 (sum b))).setScc (decide (2 ^ 32 ≤ sum b))
    Claims.Does (.saddc sd sa sb) 4 s (out (s.sreg sb)) ∧ Claims.Does (.saddcLiteral sd sa lit) 12 s (out lit.lo)

/-- 04/R125: bit-field extract and insert, bit by bit; a width of 0 means 32 and a field is cut at bit 31. -/
def Sys2Proof.Claims.BitFields : Prop :=
  ∀ (s : State) (sd sa sb : SReg) (lit : DWord), Claims.Calm s → lit.hi = 0 →
    let off (b : Word) : Nat := (b.extractLsb' 0 5).toNat
    let width (b : Word) : Nat := if b.extractLsb' 8 5 = 0 then 32 else (b.extractLsb' 8 5).toNat
    let extracted (b x : Word) : Prop :=
      ∀ k, k < 32 → x.getLsbD k = (decide (k < width b) && (s.sreg sa).getLsbD (off b + k))
    let inserted (b x : Word) : Prop :=
      ∀ k, k < 32 → x.getLsbD k = if off b ≤ k ∧ k < off b + width b then (s.sreg sa).getLsbD (k - off b) else (s.sreg sd).getLsbD k
    (∃ x, extracted (s.sreg sb) x ∧ Claims.Does (.sbfe sd sa sb) 4 s (s.setS sd x)) ∧
    (∃ x, extracted lit.lo x ∧ Claims.Does (.sbfeLiteral sd sa lit) 12 s (s.setS sd x)) ∧
    (∃ x, inserted (s.sreg sb) x ∧ Claims.Does (.sbfi sd sa sb) 4 s (s.setS sd x)) ∧
    (∃ x, inserted lit.lo x ∧ Claims.Does (.sbfiLiteral sd sa lit) 12 s (s.setS sd x)) ∧
    Claims.codeIs (.sbfe sd sa sb) 0x1A 0 ∧ Claims.codeIs (.sbfi sd sa sb) 0x1B 0

/-- 04/R126: population count, leading and trailing zeros (32 for zero) and bit reversal. -/
def Sys2Proof.Claims.BitCounts : Prop :=
  ∀ (s : State) (sd sa : SReg), Claims.Calm s →
    let a := s.sreg sa
    (∃ x : Word, Claims.Does (.spop sd sa) 4 s (s.setS sd x) ∧ x.toNat = ((List.range 32).filter fun k => a.getLsbD k).length) ∧
    (∃ x : Word, Claims.Does (.sclz sd sa) 4 s (s.setS sd x) ∧ x.toNat ≤ 32 ∧ a.toNat < 2 ^ (32 - x.toNat) ∧
      (x.toNat < 32 → a.getLsbD (31 - x.toNat) = true)) ∧
    (∃ x : Word, Claims.Does (.sctz sd sa) 4 s (s.setS sd x) ∧ x.toNat ≤ 32 ∧ (∀ k, k < x.toNat → a.getLsbD k = false) ∧
      (x.toNat < 32 → a.getLsbD x.toNat = true)) ∧
    (∃ x : Word, Claims.Does (.sbrev sd sa) 4 s (s.setS sd x) ∧ ∀ k, k < 32 → x.getLsbD k = a.getLsbD (31 - k)) ∧
    Claims.codeIs (.spop sd sa) 0x1C 0 ∧ Claims.codeIs (.sclz sd sa) 0x1D 0 ∧ Claims.codeIs (.sctz sd sa) 0x1E 0 ∧ Claims.codeIs (.sbrev sd sa) 0x1F 0

/-- 04/R127, R129: the compares set SCC by the f3 code, signed, unsigned, or signed on 64-bit pairs; SSEL selects by SCC. -/
def Sys2Proof.Claims.ComparesAndSelect : Prop :=
  ∀ (s : State) (c : BitVec 3) (sd sa sb : SReg) (lit : DWord), Claims.Calm s → c.toNat ≤ 5 →
    let holds (x y : Int) : Bool := match c.toNat with
      | 0 => decide (x = y) | 1 => decide (x ≠ y) | 2 => decide (x < y) | 3 => decide (x ≤ y) | 4 => decide (y < x)
      | _ => decide (y ≤ x)
    let pick (b : Word) : Word := if s.scc then s.sreg sa else b
    (lit.hi = 0 →
      (Claims.Does (.scmp c sa sb) 4 s (s.setScc (holds (s.sreg sa).toInt (s.sreg sb).toInt)) ∧
        Claims.Does (.scmpLiteral c sa lit) 12 s (s.setScc (holds (s.sreg sa).toInt lit.lo.toInt))) ∧
      (Claims.Does (.scmpn c sa sb) 4 s (s.setScc (holds (s.sreg sa).toNat (s.sreg sb).toNat)) ∧
        Claims.Does (.scmpnLiteral c sa lit) 12 s (s.setScc (holds (s.sreg sa).toNat lit.lo.toNat))) ∧
      (Claims.Does (.ssel sd sa sb) 4 s (s.setS sd (pick (s.sreg sb))) ∧
        Claims.Does (.sselLiteral sd sa lit) 12 s (s.setS sd (pick lit.lo)))) ∧
    (sa.toNat % 2 = 0 →
      (sb.toNat % 2 = 0 → Claims.Does (.scmpd c sa sb) 4 s (s.setScc (holds (s.spair sa).toInt (s.spair sb).toInt))) ∧
      Claims.Does (.scmpdLiteral c sa lit) 12 s (s.setScc (holds (s.spair sa).toInt lit.toInt))) ∧
    Claims.codeIs (.scmp c sa sb) 0x15 0 ∧ Claims.codeIs (.scmpn c sa sb) 0x16 0 ∧ Claims.codeIs (.ssel sd sa sb) 0x17 0

/-- 04/R128: moves and immediates. -/
def Sys2Proof.Claims.MovesAndImmediates : Prop :=
  ∀ (s : State) (sd sa : SReg) (imm : BitVec 9) (lit : DWord), Claims.Calm s →
    Claims.Does (.smov sd sa) 4 s (s.setS sd (s.sreg sa)) ∧
    Claims.Does (.sli sd imm) 4 s (s.setS sd (BitVec.ofInt 32 imm.toInt)) ∧
    (lit.hi = 0 → Claims.Does (.sliLiteral sd lit) 12 s (s.setS sd lit.lo)) ∧
    (sd.toNat % 2 = 0 → Claims.Does (.slid sd lit) 12 s ((s.setS sd lit.lo).setS (sd + 1) lit.hi)) ∧
    Claims.Does (.saddi sd sa imm) 4 s (s.setS sd (s.sreg sa + BitVec.ofInt 32 imm.toInt))

/-- 04/R129: the pair instructions; a pair is read back with its low half in the even register. -/
def Sys2Proof.Claims.PairArithmetic : Prop :=
  ∀ (s : State) (sd sa sb : SReg) (lit : DWord), Claims.Calm s → sd.toNat % 2 = 0 → sa.toNat % 2 = 0 →
    let a := s.spair sa
    let out (n : Nat) (i : Instr) (x : DWord) : Prop := Claims.Does i n s (s.setPair sd x)
    (∀ x, (s.setPair sd x).spair sd = x) ∧
    (sb.toNat % 2 = 0 → out 4 (.saddd sd sa sb) (a + s.spair sb) ∧ out 4 (.ssubd sd sa sb) (a - s.spair sb) ∧
      out 4 (.smuld sd sa sb) (a * s.spair sb)) ∧
    (out 12 (.sadddLiteral sd sa lit) (a + lit) ∧ out 12 (.ssubdLiteral sd sa lit) (a - lit) ∧
      out 12 (.smuldLiteral sd sa lit) (a * lit)) ∧
    (out 4 (.sshld sd sa sb) (a <<< ((s.sreg sb).toNat % 64)) ∧ out 4 (.sshrd sd sa sb) (a >>> ((s.sreg sb).toNat % 64))) ∧
    (lit.hi = 0 → out 12 (.sshldLiteral sd sa lit) (a <<< (lit.toNat % 64)) ∧ out 12 (.sshrdLiteral sd sa lit) (a >>> (lit.toNat % 64)))

/-- 04/R130, R131: the mask instructions, on EXEC and CMASK as the scalar registers they are. -/
def Sys2Proof.Claims.MaskInstructions : Prop :=
  ∀ (s : State) (r : SReg), Claims.Calm s →
    let e := s.exec3
    let c := s.cmask3
    let and (x y : Vector Word 3) : Vector Word 3 := #v[x[0] &&& y[0], x[1] &&& y[1], x[2] &&& y[2]]
    let andNot (x y : Vector Word 3) : Vector Word 3 := #v[x[0] &&& ~~~y[0], x[1] &&& ~~~y[1], x[2] &&& ~~~y[2]]
    let some' (m : Vector Word 3) : Bool := decide (m ≠ #v[0, 0, 0])
    let lanes := (List.range 96).filter (maskBit (and e c))
    (r.toNat ≤ 61 →
      Claims.Does (.mand r) 4 s (((s.setTriple r e).setTriple rEXEC (and e c)).setScc (some' (and e c))) ∧
      Claims.Does (.mandn r) 4 s (((s.setTriple r e).setTriple rEXEC (andNot e c)).setScc (some' (andNot e c))) ∧
      Claims.Does (.melse r) 4 s ((s.setTriple rEXEC (andNot (s.triple r) e)).setScc (some' (andNot (s.triple r) e))) ∧
      Claims.Does (.mrest r) 4 s (s.setTriple rEXEC (s.triple r))) ∧
    Claims.Does (.mcnt r) 4 s ((s.setS r (BitVec.ofNat 32 lanes.length)).setScc (decide (lanes.length ≠ 0))) ∧
    Claims.Does (.mfirst r) 4 s ((s.setS r (BitVec.ofNat 32 (lanes.head?.getD 96))).setScc (decide (lanes ≠ []))) ∧
    Claims.Does .mcmc 4 s (s.setTriple rCMASK (andNot e c)) ∧
    Claims.Does .msetall 4 s (s.setTriple rEXEC #v[0xFFFFFFFF, 0xFFFFFFFF, 0xFFFFFFFF]) ∧
    Claims.codeIs (.mand r) 0x60 0 ∧ Claims.codeIs (.mandn r) 0x61 0 ∧ Claims.codeIs (.melse r) 0x62 0 ∧ Claims.codeIs (.mrest r) 0x63 0 ∧
    Claims.codeIs (.mcnt r) 0x64 0 ∧ Claims.codeIs (.mfirst r) 0x65 0 ∧ Claims.codeIs .mcmc 0x66 0 ∧ Claims.codeIs .msetall 0x67 0

/-! ### Control (04/R132 to R152) -/

/-- 04/R132, R133: each branch goes to its own address plus 4 times the displacement when it is taken, else to the next
instruction; JMPR goes to the pair. A transfer writes nothing but the pc. -/
def Sys2Proof.Claims.BranchesTransfer : Prop :=
  ∀ (s : State) (d : BitVec 21) (e : BitVec 15) (sa : SReg), Claims.Calm s → s.w.pc.extractLsb' 0 2 = 0 →
    let goes (i : Instr) (taken : Prop) (dst : DWord) : Prop :=
      (taken → exec i s = .next (s.retireTo dst)) ∧ (¬ taken → Claims.Does i 4 s s)
    let far : DWord := s.w.pc + BitVec.ofInt 64 (4 * d.toInt)
    let near : DWord := s.w.pc + BitVec.ofInt 64 (4 * e.toInt)
    goes (.br d) True far ∧
    goes (.bsc d) (s.scc = true) far ∧ goes (.bsnc d) (s.scc = false) far ∧
    goes (.bez sa e) (s.sreg sa = 0) near ∧ goes (.bnz sa e) (s.sreg sa ≠ 0) near ∧
    goes (.bexz d) (s.sreg 61 = 0 ∧ s.sreg 62 = 0 ∧ s.sreg 63 = 0) far ∧
    goes (.bexnz d) (s.sreg 61 ≠ 0 ∨ s.sreg 62 ≠ 0 ∨ s.sreg 63 ≠ 0) far ∧
    goes (.bcmz d) (s.sreg 58 = 0 ∧ s.sreg 59 = 0 ∧ s.sreg 60 = 0) far ∧
    goes (.bcmnz d) (s.sreg 58 ≠ 0 ∨ s.sreg 59 ≠ 0 ∨ s.sreg 60 ≠ 0) far ∧
    (sa.toNat % 2 = 0 → (s.spair sa).extractLsb' 0 2 = 0 → exec (.jmpr sa) s = .next (s.retireTo (s.spair sa)))

/-- 04/R133, R147: a taken transfer whose target is no multiple of 4 raises ALIGN at the transferring instruction, with the
target in TADDR: the nine branches, JMPR, CALL, CALLR, RET and TRET, TRET in handler mode alone (where it kills the wave). -/
def Sys2Proof.Claims.MisalignedTransfers : Prop :=
  ∀ (s : State) (d : BitVec 21) (e : BitVec 15) (sa : SReg) (la : BitVec 4) (f : BitVec 8) (disp : Word) (imm : BitVec 9),
    let raises (i : Instr) (tgt : DWord) : Prop := tgt.extractLsb' 0 2 ≠ 0#2 →
      exec i s = .next (s.trapEntry { cause := .align, taddr := tgt } s.w.pc)
    let far (i : Instr) (taken : Prop) : Prop := taken → raises i (s.w.pc + BitVec.ofInt 64 (4 * d.toInt))
    let near (i : Instr) (taken : Prop) : Prop := taken → raises i (s.w.pc + BitVec.ofInt 64 (4 * e.toInt))
    far (.br d) True ∧ far (.bsc d) (s.scc = true) ∧ far (.bsnc d) (s.scc = false) ∧
    near (.bez sa e) (s.sreg sa = 0) ∧ near (.bnz sa e) (s.sreg sa ≠ 0) ∧
    far (.bexz d) (s.sreg 61 = 0 ∧ s.sreg 62 = 0 ∧ s.sreg 63 = 0) ∧
    far (.bexnz d) (s.sreg 61 ≠ 0 ∨ s.sreg 62 ≠ 0 ∨ s.sreg 63 ≠ 0) ∧
    far (.bcmz d) (s.sreg 58 = 0 ∧ s.sreg 59 = 0 ∧ s.sreg 60 = 0) ∧
    far (.bcmnz d) (s.sreg 58 ≠ 0 ∨ s.sreg 59 ≠ 0 ∨ s.sreg 60 ≠ 0) ∧
    (sa.toNat % 2 = 0 → raises (.jmpr sa) (s.spair sa)) ∧
    (f.toNat % 8 = 0 → f.toNat < s.w.valloc → raises (.call la f disp) (s.w.pc + BitVec.ofInt 64 (4 * disp.toInt))) ∧
    (sa.toNat % 2 = 0 → imm.toNat ≤ 31 → 8 * imm.toNat < s.w.valloc → raises (.callr sa imm) (s.spair sa)) ∧
    (imm.toNat ≤ 31 → 8 * imm.toNat < s.w.valloc → raises (.ret imm) (s.spair rLK)) ∧
    (s.hm = true → s.w.tpc.extractLsb' 0 2 ≠ 0#2 → exec .tret s = .next (s.killWave Cause.align.code s.w.pc))

/-- 04/R134 to R136, R451: a call whose frame can be stored, register by register its tag and then its earlier spill, slides the window, links and lowers SP; each of the F registers
awaits its spill at its place in the frame and loses its tag. -/
def Sys2Proof.Claims.CallsSlide : Prop :=
  ∀ (s v : State) (la : BitVec 4) (f : BitVec 8) (disp : Word) (sa : SReg) (imm : BitVec 9) (n : Nat),
    let sp := s.spair rSP
    let newsp := sp - BitVec.ofNat 64 (384 * n + 64 * ((n + 31) / 32))
    let waiting : State := (List.range n).foldl (init := v) fun x k =>
      x.setVreg k { x.vreg k with pend := true, paddr := newsp + BitVec.ofNat 64 (384 * k), fmt := .b32, bnd := 0 }
    let after (len : Nat) (dst : DWord) : State :=
      (((waiting.setPair rLK (s.w.pc + BitVec.ofNat 64 len)).setPair rSP newsp).setRot ((v.w.rot + n) % v.w.valloc)).retireTo dst
    Claims.Calm v → v.w.pc = s.w.pc → n < s.w.valloc → sp.extractLsb' 0 6 = 0#6 → ¬ newsp < s.w.slimit →
    (List.range n).forM (frameTag newsp n) s = .ok ((), v) →
    (f.toNat = n → n % 8 = 0 → (s.w.pc + BitVec.ofInt 64 (4 * disp.toInt)).extractLsb' 0 2 = 0#2 →
      exec (.call la f disp) s = .next (after 12 (s.w.pc + BitVec.ofInt 64 (4 * disp.toInt)))) ∧
    (8 * imm.toNat = n → imm.toNat ≤ 31 → sa.toNat % 2 = 0 → (s.spair sa).extractLsb' 0 2 = 0#2 →
      exec (.callr sa imm) s = .next (after 4 (s.spair sa)))

/-- 04/R135 with F = 0, whatever the stack holds: LK takes the return address, and nothing else but the pc changes (ROT is taken modulo
VALLOC, below which it always is). -/
def Sys2Proof.Claims.PlainCalls : Prop :=
  ∀ (s : State) (la : BitVec 4) (disp : Word) (sa : SReg), Claims.Calm s → 0 < s.w.valloc →
    (s.spair rSP).extractLsb' 0 6 = 0#6 → ¬ s.spair rSP < s.w.slimit →
    let tgt := s.w.pc + BitVec.ofInt 64 (4 * disp.toInt)
    let same : State := s.setRot (s.w.rot % s.w.valloc)
    (tgt.extractLsb' 0 2 = 0#2 →
      ∃ t, exec (.call la 0 disp) s = .next t ∧ t.w.pc = tgt ∧ t.spair rLK = s.w.pc + 12 ∧
        (∀ r : SReg, r ≠ 54 → r ≠ 55 → t.sreg r = s.sreg r) ∧ t.w.status = s.w.status ∧ Claims.OnlyScalars same t) ∧
    (sa.toNat % 2 = 0 → (s.spair sa).extractLsb' 0 2 = 0#2 →
      ∃ t, exec (.callr sa 0) s = .next t ∧ t.w.pc = s.spair sa ∧ t.spair rLK = s.w.pc + 4 ∧
        (∀ r : SReg, r ≠ 54 → r ≠ 55 → t.sreg r = s.sreg r) ∧ t.w.status = s.w.status ∧ Claims.OnlyScalars same t)

/-- 04/R135: the checks of a call come in the manual's order: F of VALLOC or more, a target or an SP that is misaligned, and
a frame below SLIMIT. -/
def Sys2Proof.Claims.CallChecks : Prop :=
  ∀ (s : State) (la : BitVec 4) (f : BitVec 8) (disp : Word), f.toNat % 8 = 0 →
    let i : Instr := .call la f disp
    let newsp := s.spair rSP - BitVec.ofNat 64 (384 * f.toNat + 64 * ((f.toNat + 31) / 32))
    let traps (c : Cause) (addr : DWord) : Prop := exec i s = .next (s.trapEntry { cause := c, taddr := addr } s.w.pc)
    (s.w.valloc ≤ f.toNat → traps .illop 0) ∧
    (f.toNat < s.w.valloc → (s.w.pc + BitVec.ofInt 64 (4 * disp.toInt)).extractLsb' 0 2 = 0#2 →
      ((s.spair rSP).extractLsb' 0 6 ≠ 0#6 → traps .align (s.spair rSP)) ∧
      ((s.spair rSP).extractLsb' 0 6 = 0#6 → newsp < s.w.slimit → traps .stack newsp))

/-- 04/R136: RET slides back, gives the F registers their tags and, where no spill is pending, their lanes, and raises SP. A
register whose spill is pending keeps its lanes. -/
def Sys2Proof.Claims.ReturnSlidesBack : Prop :=
  ∀ (s u : State) (imm : BitVec 9), imm.toNat ≤ 31 → Claims.Calm u →
    let n := 8 * imm.toNat
    let sp := s.spair rSP
    let back : State := s.setRot ((s.w.rot + s.w.valloc - n) % s.w.valloc)
    n < s.w.valloc → (s.spair rLK).extractLsb' 0 2 = 0#2 → (List.range n).forM (refill sp n) back = .ok ((), u) →
    ∃ t, exec (.ret imm) s = .next t ∧ t.w.pc = s.spair rLK ∧
      t.spair rSP = sp + BitVec.ofNat 64 (384 * n + 64 * ((n + 31) / 32)) ∧
      (∀ r : SReg, r ≠ 52 → r ≠ 53 → t.sreg r = u.sreg r) ∧ t.w.vregs = u.w.vregs ∧ t.w.rot = u.w.rot ∧
      (n = 0 → t.w.vregs = s.w.vregs) ∧ t.mem = u.mem ∧ t.w.status = u.w.status

/-- 04/R136, R137: one register of RET: the tag comes from the frame's 16-bit word, a reserved one as B32 with bound index 0; a
register whose spill is pending keeps its lanes, another takes the 384 bytes of the frame. -/
def Sys2Proof.Claims.RefillRestores : Prop :=
  ∀ (s u v : State) (sp : DWord) (n k : Nat) (b0 b1 : Byte) (ls : List Byte),
    stackLoad (sp + BitVec.ofNat 64 (384 * n + 2 * k)) 2 s = .ok ([b0, b1], u) →
    let tag := b0.toNat + 256 * b1.toNat
    let got (x : State) (r : VReg) : Prop := refill sp n k s = .ok ((), x.setVreg k r)
    let fmt : Fmt := (Fmt.ofCode (tag / 16)).getD .b32
    let bnd : BitVec 4 := if (Fmt.ofCode (tag / 16)).isSome then BitVec.ofNat 4 tag else 0
    ((u.vreg k).pend = true → got u { u.vreg k with pend := false, fmt := fmt, bnd := bnd }) ∧
    ((u.vreg k).pend = false → stackLoad (sp + BitVec.ofNat 64 (384 * k)) 384 u = .ok (ls, v) →
      got v { v.vreg k with lanes := lanesOfBytes ls, fmt := fmt, bnd := bnd })

/-- 04/R139, 08/R253: NOP changes the pc and SEQNO alone, FBAR also discards what was fetched or decoded ahead; YIELD retires, and the
wave then waits for the other Ready waves of its scheduler, if there are any. -/
def Sys2Proof.Claims.NopYieldFbar : Prop :=
  ∀ (s : State), Claims.Calm s →
    Claims.Does .nop 4 s s ∧
    Claims.Does .fbar 4 s { s with w := { s.w with fetched := [], decoded := [] } } ∧
    (s.yieldSet = [] → Claims.Does .yield 4 s s) ∧
    (s.yieldSet ≠ [] → ∃ t, exec .yield s = .next t ∧ t.w.life = .waiting (.yield s.co.cycle s.yieldSet) ∧
      t.w.pc = s.w.pc + 4 ∧ t.w.seqno = s.w.seqno + 1 ∧ t.w.sregs = s.w.sregs ∧ t.w.vregs = s.w.vregs ∧
      t.w.status = s.w.status ∧ ∀ a, t.mem.read a = s.mem.read a)

/-- 04/R140: WEND whose W buffer moves ends the wave, with its accumulators, stack cache and buffer released. -/
def Sys2Proof.Claims.WendEnds : Prop :=
  ∀ (s u : State), moveWB s = .ok ((), u) →
    ∃ t, exec .wend s = .next t ∧ t.w.life = .ended ∧ t.w.killed = false ∧ t.w.wbuf = Place.empty ∧ t.w.stk = [] ∧
      (∀ k, k < 16 → t.w.accs[k]? = some none) ∧ t.blk = u.blk ∧ t.gang = u.gang ∧ (∀ a, t.mem.read a = u.mem.read a) ∧
      (∀ sl ∈ t.co.slots, sl.owner = some u.w.key → sl.release = true)

/-- 04/R141, R142: SRD writes the state register at the index, a 64-bit one to an even pair; the index is one the table
assigns and ERRINJ is read in diagnostic contexts alone. -/
def Sys2Proof.Claims.ReadStateRegister : Prop :=
  ∀ (s : State) (sd : SReg), Claims.Calm s →
    let word (i : BitVec 9) (x : Word) : Prop := Claims.Does (.srd sd i) 4 s (s.setS sd x)
    let wide (i : BitVec 9) (x : DWord) : Prop := sd.toNat % 2 = 0 → Claims.Does (.srd sd i) 4 s (s.setPair sd x)
    word 0x00 (BitVec.ofNat 32 s.w.key.wid) ∧ word 0x01 (BitVec.ofNat 32 s.w.gx) ∧ word 0x02 (BitVec.ofNat 32 s.w.gy) ∧
    word 0x03 (BitVec.ofNat 32 s.w.gz) ∧ word 0x04 (BitVec.ofNat 32 s.w.key.blk) ∧ word 0x05 (BitVec.ofNat 32 s.w.stage) ∧
    word 0x06 (BitVec.ofNat 32 s.w.wbase) ∧ word 0x07 (BitVec.ofNat 32 s.w.valloc) ∧ wide 0x08 s.w.slimit ∧
    word 0x09 s.w.status ∧ word 0x0A s.w.bndst ∧ word 0x0B s.w.abtn ∧ word 0x0C s.levelst ∧
    word 0x0D s.bounds.bndact ∧ word 0x0E s.bounds.bndfmt ∧ word 0x10 s.w.tcause ∧ wide 0x11 s.w.tpc ∧ wide 0x12 s.w.taddr ∧
    word 0x13 s.w.tmask[0] ∧ word 0x14 s.w.tmask[1] ∧ word 0x15 s.w.tmask[2] ∧ wide 0x16 s.w.tvec ∧
    wide 0x20 (BitVec.ofNat 64 s.co.cycle) ∧ wide 0x21 s.w.seqno ∧
    (s.w.status.getLsbD 3 = true → word 0x30 s.w.errinj) ∧
    (∀ b : BitVec 4, b ≠ 0 → word (BitVec.ofNat 9 (0x40 + 2 * b.toNat)) (pick s.bounds.bdlo b) ∧
      word (BitVec.ofNat 9 (0x41 + 2 * b.toNat)) (pick s.bounds.bdhi b)) ∧
    (word 0x40 0 ∧ word 0x41 0)

/-- 04/R141, R142, R145: SWR writes the RW registers, each in the bits that may be written; TPC is written in handler mode, the words of bd0
take no write, and ERRINJ ignores a write whose TARGET is reserved or whose WHERE can name nothing. -/
def Sys2Proof.Claims.WriteStateRegister : Prop :=
  ∀ (s : State) (sa : SReg), Claims.Calm s →
    let x := s.sreg sa
    let does (i : BitVec 9) (t : State) : Prop := Claims.Does (.swr sa i) 4 s t
    does 0x09 (s.setStatus ((s.w.status &&& ~~~0x7F01#32) ||| (x &&& 0x7F01#32))) ∧
    does 0x0A { s with w := { s.w with bndst := x &&& 0xFFFE#32 } } ∧
    does 0x0B { s with w := { s.w with abtn := s.w.abtn &&& ~~~(x &&& 6#32) } } ∧
    does 0x0D ((s.setCx { s.cx with bndact := x &&& ~~~3#32 }).leaveOld 0x0D s.cx.bndact) ∧
    does 0x0E ((s.setCx { s.cx with bndfmt := x &&& 0xFFFE#32 }).leaveOld 0x0E s.cx.bndfmt) ∧
    (∀ b : BitVec 4, b ≠ 0 → does (BitVec.ofNat 9 (0x40 + 2 * b.toNat)) ((s.setCx { s.cx with bdlo := put s.cx.bdlo b x }).leaveOld (0x40 + 2 * b.toNat) (pick s.cx.bdlo b)) ∧
      does (BitVec.ofNat 9 (0x41 + 2 * b.toNat)) ((s.setCx { s.cx with bdhi := put s.cx.bdhi b x }).leaveOld (0x41 + 2 * b.toNat) (pick s.cx.bdhi b))) ∧
    (sa.toNat % 2 = 0 → does 0x16 { s with w := { s.w with tvec := s.spair sa } } ∧
      (s.hm = true → does 0x11 { s with w := { s.w with tpc := s.spair sa } })) ∧
    (does 0x40 s ∧ does 0x41 s) ∧
    (let target := (x.extractLsb' 28 3).toNat
     let place := (x.extractLsb' 8 13).toNat
     let names : Prop := ((target = 0 ∨ target = 2 ∨ target = 5) ∧ place < 96) ∨ (target = 1 ∧ place = 0) ∨ (target = 3 ∧ place < 96 * 64) ∨
       target = 4
     s.w.status.getLsbD 3 = true →
       (names → does 0x30 { s with w := { s.w with
         errinj := (x &&& 0x7FFFFF1F#32) ||| ((s.w.errinj ||| x) &&& 0x80000000#32), injCount := 0 } }) ∧
       (¬ names → does 0x30 s))

/-- 02/R89: the wave that writes a bound word sees the new value; another wave of the context sees the old one or the new, the old
one only while the writer's CYCLE is below its deadline; a wave that no old value is left with, as after an operation that orders
the write before it, sees the new one. -/
def Sys2Proof.Claims.BoundVisibility : Prop :=
  ∀ (s : State) (k : Nat) (old now : Word),
    (s.leaveOld k old).seenWord k now = now ∧ s.ordered.seenWord k now = now ∧ (s.ordered).bounds = s.cx ∧
    (s.seenWord k now = now ∨ ∃ o ∈ s.w.oldBounds, o.index = k ∧ o.value = s.seenWord k now ∧ (s.core o.core).cycle < o.until_) ∧
    (∀ w ∈ (s.leaveOld k old).waves, ∃ v ∈ s.waves, w = v ∨
      (v.ctx = s.w.ctx ∧ w = { v with oldBounds := ⟨k, old, s.w.core, s.co.cycle + 256⟩ :: v.oldBounds }))

/-- 04/R141, R150, R152: reads and writes that the mode or the table forbids raise ILLOP: an index the table does not assign,
a write to a read-only register, TPC outside handler mode, ERRINJ in a context that is not diagnostic; TRET outside handler
mode too. -/
def Sys2Proof.Claims.ForbiddenAccess : Prop :=
  ∀ (s : State) (r : SReg) (i : BitVec 9),
    let illop := Host.Outcome.next (s.trapEntry { cause := .illop } s.w.pc)
    let assigned : Prop := i.toNat ≤ 0x0E ∨ (0x10 ≤ i.toNat ∧ i.toNat ≤ 0x16) ∨ i.toNat = 0x20 ∨ i.toNat = 0x21 ∨
      (i.toNat = 0x30 ∧ s.w.status.getLsbD 3 = true) ∨ (0x40 ≤ i.toNat ∧ i.toNat ≤ 0x5F)
    let writable : Prop := i.toNat = 0x09 ∨ i.toNat = 0x0A ∨ i.toNat = 0x0B ∨ i.toNat = 0x0D ∨ i.toNat = 0x0E ∨
      (i.toNat = 0x11 ∧ s.hm = true) ∨ i.toNat = 0x16 ∨ (i.toNat = 0x30 ∧ s.w.status.getLsbD 3 = true) ∨
      (0x40 ≤ i.toNat ∧ i.toNat ≤ 0x5F)
    (¬ assigned → exec (.srd r i) s = illop) ∧ (¬ writable → exec (.swr r i) s = illop) ∧
    (s.hm = false → exec .tret s = illop)

/-- 04/R147, R151: BRK enters the handler with TPC at its own address and does not retire; TRAP n retires and enters it with
TPC at the next instruction. Nothing but the trap state, HM and the pc changes. -/
def Sys2Proof.Claims.SoftwareTraps : Prop :=
  ∀ (s : State) (n : BitVec 9), Claims.CanHandle s →
    (∃ t, exec .brk s = .next t ∧ Claims.Handled s t .brk 0 s.w.pc 0 noLanes ∧ t.w.seqno = s.w.seqno) ∧
    (n.toNat ≤ 255 → Claims.Calm s → ∃ t, exec (.trap n) s = .next t ∧ Claims.Handled s t .trapi n.toNat (s.w.pc + 4) 0 noLanes ∧
      t.w.seqno = s.w.seqno + 1)

/-- 04/R147, R149, R150: in handler mode, or with TVEC 0, TRAP, BRK and an opcode that is not assigned kill the wave; a TVEC
with bits 1:0 not zero is never entered. -/
def Sys2Proof.Claims.TrapsThatKill : Prop :=
  ∀ (s : State) (n : BitVec 9) (w : Word), n.toNat ≤ 255 →
    (s.hm = true ∨ s.w.tvec = 0 ∨ s.w.tvec.extractLsb' 0 2 ≠ 0#2) →
    (∃ t, exec .brk s = .next t ∧ Claims.Killed s t) ∧ (∃ t, exec (.trap n) s = .next t ∧ Claims.Killed s t) ∧
    (∃ t, exec (.unassignedOpcode w) s = .next t ∧ Claims.Killed s t)

/-- 03/R107, R108, 04/R146: UNASSIGNED_OPCODE raises ILLOP; a vector one (P = 1) names every active lane in TMASK. -/
def Sys2Proof.Claims.UnassignedOpcodeTraps : Prop :=
  ∀ (s : State) (w : Word), Claims.CanHandle s →
    ∃ t, exec (.unassignedOpcode w) s = .next t ∧
      Claims.Handled s t .illop 0 s.w.pc 0 (if w.getLsbD 2 then s.exec3 else noLanes) ∧ t.w.seqno = s.w.seqno

/-- 04/R152: TRET in handler mode goes to TPC and clears HM; the trap registers keep their values. -/
def Sys2Proof.Claims.TretReturns : Prop :=
  ∀ (s : State), Claims.Calm s → s.hm = true → s.w.tpc.extractLsb' 0 2 = 0#2 →
    ∃ t, exec .tret s = .next t ∧ t.w.pc = s.w.tpc ∧ t.hm = false ∧
      (∀ k, k ≠ 1 → t.w.status.getLsbD k = s.w.status.getLsbD k) ∧ t.w.sregs = s.w.sregs ∧
      t.w.tpc = s.w.tpc ∧ t.w.tcause = s.w.tcause ∧ t.w.taddr = s.w.taddr ∧ t.w.tmask = s.w.tmask ∧ Claims.OnlyScalars s t

/-- 03/R94, R108, 04/R146: an instruction of the table whose encoding breaks a rule raises ILLOP and writes nothing else; one of the
vector pipe (bit 2 of its first word is 1) names every active lane, a scalar one none. An MLOOP at a full sequencer does not issue
(10/R296). -/
def Sys2Proof.Claims.IllFormedTraps : Prop :=
  ∀ (s : State) (i : Instr), i.wellFormed = false → (∀ m, i = .mloop m → s.co.loops.length < 8) →
    let lanes : Vector Word 3 := if wordP (Claims.nth (encode i) 0) = 1 then s.exec3 else noLanes
    exec i s = .next (s.trapEntry { cause := .illop, lanes := lanes } s.w.pc) ∧
    (Claims.CanHandle s → ∃ t, exec i s = .next t ∧ Claims.Handled s t .illop 0 s.w.pc 0 lanes ∧ t.w.seqno = s.w.seqno)

/-- 04/R121, R122, R130: what the scalar arithmetic, compare, select, move, bit and mask instructions leave alone. A write
reaches sd (its pair for a 64-bit form, three registers and EXEC for the mask forms); STATUS changes in SCC alone, and only
by the instructions the manual lists. -/
def Sys2Proof.Claims.ScalarFrame : Prop :=
  ∀ (s t : State) (i : Instr), Claims.Calm s → i.wellFormed = true → Claims.scalarPlain i = true → exec i s = .next t →
    (∀ r : SReg, r.toNat ∉ Claims.dests i → t.sreg r = s.sreg r) ∧
    (Claims.setsScc i = false → t.w.status = s.w.status) ∧ Claims.sameButScc t.w.status s.w.status ∧
    t.w.pc = s.w.pc + BitVec.ofNat 64 i.size ∧ t.w.seqno = s.w.seqno + 1 ∧ (∀ a, t.mem.read a = s.mem.read a) ∧
    Claims.OnlyScalars s t

/-- 04/R136 with F = 0, whatever the stack holds: RET goes to LK; SP and every register are as before. -/
def Sys2Proof.Claims.PlainReturn : Prop :=
  ∀ (s : State), Claims.Calm s → 0 < s.w.valloc → (s.spair rLK).extractLsb' 0 2 = 0#2 →
    ∃ t, exec (.ret 0) s = .next t ∧ t.w.pc = s.spair rLK ∧ t.w.seqno = s.w.seqno + 1 ∧ (∀ r : SReg, t.sreg r = s.sreg r) ∧
      t.w.vregs = s.w.vregs ∧ t.w.status = s.w.status ∧ t.mem = s.mem

/-! ### Vector instructions (05/R154 to R174) -/

namespace Sys2Proof.Claims

/-- The registers named lie in the window (03/R103). -/
abbrev InWindow (s : State) (ns : List Nat) : Prop := ∀ n ∈ ns, n < s.w.valloc
/-- The pending spills of the registers to be written have been stored, which leads from `s` to `u` (04/R451). -/
abbrev Spilled (s u : State) (vd words : Nat) : Prop :=
  s.active ≠ [] → (List.range words).forM (fun k => spill (vd + k)) s = .ok ((), u)
/-- No bound is compared: the bound register's action is off (02/R86). -/
abbrev Unbound (s : State) (b : BitVec 4) : Prop := (s.bounds.bound b).action = 0

/-- vN with the lanes of a list replaced, and its tag when one is given. -/
def lanePut (s : State) (n : Nat) (act : List Nat) (tag : Option (Fmt × BitVec 4)) (val : Nat → Word) : State :=
  s.setVreg n { s.vreg n with
    lanes := Vector.ofFn fun l : Fin 96 => if act.contains l.val then val l else (s.vreg n).lanes[l]
    fmt := (tag.map (·.1)).getD (s.vreg n).fmt
    bnd := (tag.map (·.2)).getD (s.vreg n).bnd }

/-- What a vector result leaves: with no active lane nothing, else the active lanes of vd (a pair when `pair`). -/
def written (s u : State) (vd : Nat) (pair : Bool) (tag : Option (Fmt × BitVec 4)) (val : Nat → Nat) : State :=
  if s.active = [] then s
  else
    let x := lanePut u vd s.active tag fun l => BitVec.ofNat 32 (val l)
    if pair then lanePut x (vd + 1) s.active tag fun l => BitVec.ofNat 32 (val l / 2 ^ 32) else x

/-- A bit and move instruction writes `val` under the tag of va and sets no flag (05/R156, R163). -/
def BitsInto (s u : State) (len vd va : Nat) (srcs : List Nat) (val : Nat → Word) (i : Instr) : Prop :=
  i.wellFormed = true → InWindow s (vd :: srcs) → Spilled s u vd 1 → Unbound s (s.vreg va).bnd →
    exec i s = .next ((written s u vd false (some ((s.vreg va).fmt, (s.vreg va).bnd)) fun l => (val l).toNat).retire len)

/-- Both forms of a two-operand bit instruction. -/
def Bits2 (s u : State) (vd va vb : BitVec 7) (x : VX) (f : Word → Word → Word) (i : Instr) (j : Instr) : Prop :=
  BitsInto s u 4 vd.toNat va.toNat [va.toNat, vb.toNat] (fun l => f (s.vlane va.toNat l) (s.vlane vb.toNat l)) i ∧
  BitsInto s u 12 x.vd.toNat x.va.toNat (if x.i = 1#1 then [x.va.toNat] else [x.va.toNat, x.vb.toNat])
    (fun l => f (s.vlane x.va.toNat l) (if x.i = 1#1 then x.imm else s.vlane x.vb.toNat l)) j

/-- Both forms of a one-operand bit instruction. -/
def Bits1 (s u : State) (vd va : BitVec 7) (x : VX) (f : Word → Word) (i : Instr) (j : Instr) : Prop :=
  BitsInto s u 4 vd.toNat va.toNat [va.toNat] (fun l => f (s.vlane va.toNat l)) i ∧
  BitsInto s u 12 x.vd.toNat x.va.toNat [x.va.toNat] (fun l => f (s.vlane x.va.toNat l)) j

/-- What a numeric instruction asks of its operands: window, formats, rounding and saturation fields, pairs (05/R157 to R159). -/
structure NumericOk (o : NumOp) (v : VOp) (s : State) : Prop where
  window : InWindow s (v.vd :: v.va :: v.vb :: (if o.ternary then [v.vc] else []))
  accepted : o.accepts (s.vreg v.va).fmt = true
  sameFmt : (o.unary = false → v.imm = none → (s.vreg v.vb).fmt = (s.vreg v.va).fmt) ∧
    (o.ternary = true → (s.vreg v.vc).fmt = (s.vreg v.va).fmt)
  fields : (v.rnd ≠ 0 → (s.vreg v.va).fmt.isFloat = true) ∧
    (v.sat = true → o.unary = true → (s.vreg v.va).fmt.isFloat = false)
  pairs : (s.vreg v.va).fmt.isPair = true → ∀ n ∈ v.vd :: v.va :: v.vb :: (if o.ternary then [v.vc] else []),
    n % 2 = 0 ∧ n + 2 ≤ s.w.valloc
  pairTags : (s.vreg v.va).fmt.isPair = true → (s.vreg v.va).fmt = (s.vreg (v.va + 1)).fmt ∧
    (o.unary = false → v.imm = none → (s.vreg v.vb).fmt = (s.vreg (v.vb + 1)).fmt) ∧
    (o.ternary = true → (s.vreg v.vc).fmt = (s.vreg (v.vc + 1)).fmt)
  unbound : Unbound s (v.bnd s)

/-- The elements of a lane's result with their flags (05/R159). -/
def numericElems (o : NumOp) (v : VOp) (s : State) (l : Nat) : List (Nat × Flags) :=
  let f := (s.vreg v.va).fmt
  let a := f.elems (s.vval f.isPair v.va l)
  let b := if o.unary then a else f.elems (v.bval s f l)
  let c := if o.ternary then f.elems (s.vval f.isPair v.vc l) else a
  (List.range f.count).map fun k => o.elem f (Rnd.ofBits v.rnd) v.sat (a.getD k 0) (b.getD k 0) (c.getD k 0)

/-- A numeric instruction writes its elements, packed, under va's format, and raises their flags. -/
def NumericInto (o : NumOp) (v : VOp) (s u : State) (len : Nat) (i : Instr) : Prop :=
  let f := (s.vreg v.va).fmt
  i.wellFormed = true → NumericOk o v s → Spilled s u v.vd (if f.isPair then 2 else 1) →
    exec i s = .next (((written s u v.vd f.isPair (some (f, v.bnd s)) fun l => f.pack ((numericElems o v s l).map (·.1))).raise
      (orFlags (s.active.flatMap fun l => (numericElems o v s l).map (·.2)))).retire len)

/-- The destination of a bit and move or lane-exchange instruction. -/
def bitClass : Instr → Option Nat
  | .vand d _ _ | .vor d _ _ | .vxor d _ _ | .vandn d _ _ | .vshl d _ _ | .vshr d _ _ | .vsar d _ _ | .vpop d _ | .vclz d _
  | .vmov d _ | .vsel d _ _ => some d.toNat
  | .vandVx x | .vorVx x | .vxorVx x | .vandnVx x | .vshlVx x | .vshrVx x | .vsarVx x | .vpopVx x | .vclzVx x | .vmovVx x
  | .vselVx x | .vbfe x | .vbfi x | .vshfl x | .vbcast x => some x.vd.toNat
  | _ => none

/-- Everything but one vector register, BNDST and what retirement advances is as before. -/
def OnlyVector (s t : State) : Prop :=
  t = { s with w := { s.w with
    vregs := t.w.vregs, bndst := t.w.bndst, pc := t.w.pc, seqno := t.w.seqno, issues := t.w.issues, issued := t.w.issued, todo := t.w.todo,
    released := t.w.released, stamped := t.w.stamped, valMis := t.w.valMis, resMis := t.w.resMis, starved := t.w.starved, ckOnly := t.w.ckOnly,
    byChecker := t.w.byChecker, life := t.w.life } }

end Sys2Proof.Claims

/-- 05/R163, R156: the bit and move instructions on every lane word, in both forms; no flag is set. -/
def Sys2Proof.Claims.VectorBits : Prop :=
  ∀ (s u : State) (vd va vb : BitVec 7) (x : VX), Claims.Calm s → Claims.Calm u →
    Claims.Bits2 s u vd va vb x (· &&& ·) (.vand vd va vb) (.vandVx x) ∧
    Claims.Bits2 s u vd va vb x (· ||| ·) (.vor vd va vb) (.vorVx x) ∧
    Claims.Bits2 s u vd va vb x (· ^^^ ·) (.vxor vd va vb) (.vxorVx x) ∧
    Claims.Bits2 s u vd va vb x (fun a b => a &&& ~~~b) (.vandn vd va vb) (.vandnVx x) ∧
    Claims.Bits2 s u vd va vb x (fun a b => a <<< (b.toNat % 32)) (.vshl vd va vb) (.vshlVx x) ∧
    Claims.Bits2 s u vd va vb x (fun a b => a >>> (b.toNat % 32)) (.vshr vd va vb) (.vshrVx x) ∧
    Claims.Bits2 s u vd va vb x (fun a b => a.sshiftRight (b.toNat % 32)) (.vsar vd va vb) (.vsarVx x) ∧
    Claims.Bits1 s u vd va x (fun a => BitVec.ofNat 32 ((List.range 32).filter fun k => a.getLsbD k).length) (.vpop vd va) (.vpopVx x) ∧
    Claims.Bits1 s u vd va x leadingZeros (.vclz vd va) (.vclzVx x) ∧
    Claims.Bits1 s u vd va x id (.vmov vd va) (.vmovVx x) ∧
    Claims.BitsInto s u 12 x.vd.toNat x.va.toNat [x.va.toNat]
      (fun l => bfExtract (s.vlane x.va.toNat l) (bfOffset x.imm) (bfWidth x.imm)) (.vbfe x) ∧
    Claims.BitsInto s u 12 x.vd.toNat x.va.toNat [x.va.toNat]
      (fun l => bfInsert (s.vlane x.vd.toNat l) (s.vlane x.va.toNat l) (bfOffset x.imm) (bfWidth x.imm)) (.vbfi x)

/-- 05/R162, R170 to R172: VSEL by CMASK; VSHFL and VBCAST take lanes of va, active or not, within groups of the width. -/
def Sys2Proof.Claims.VectorSelectAndExchange : Prop :=
  ∀ (s u : State) (vd va vb : BitVec 7) (x : VX), Claims.Calm s → Claims.Calm u →
    let chosen (a b : Nat) (l : Nat) : Word := if maskBit s.cmask3 l then s.vlane a l else s.vlane b l
    let w := (x.imm.extractLsb' 0 8).toNat
    let d := (x.imm.extractLsb' 8 8).toNat
    let j (k : Nat) (l : Nat) : Nat := match x.f.toNat with
      | 0 => (s.vlane x.vb.toNat l).toNat % w
      | 1 => if k < d then k else k - d
      | 2 => if k + d < w then k + d else k
      | _ => if k ^^^ d < w then k ^^^ d else k
    Claims.BitsInto s u 4 vd.toNat va.toNat [va.toNat, vb.toNat] (chosen va.toNat vb.toNat) (.vsel vd va vb) ∧
    Claims.BitsInto s u 12 x.vd.toNat x.va.toNat [x.va.toNat, x.vb.toNat] (chosen x.va.toNat x.vb.toNat) (.vselVx x) ∧
    Claims.BitsInto s u 12 x.vd.toNat x.va.toNat (if x.f = 0 then [x.va.toNat, x.vb.toNat] else [x.va.toNat])
      (fun l => s.vlane x.va.toNat (l / w * w + j (l % w) l)) (.vshfl x) ∧
    Claims.BitsInto s u 12 x.vd.toNat x.va.toNat [x.va.toNat] (fun l => s.vlane x.va.toNat (l / w * w + d)) (.vbcast x)

/-- 05/R164, R167, R173: VMOVS, VLANE, VTAG, and the moves of one lane, which ignore EXEC; a lane number of 96 or more raises
ILLOP with TMASK zero. -/
def Sys2Proof.Claims.LaneMoves : Prop :=
  ∀ (s u : State) (vd va : BitVec 7) (sd sa sb : SReg) (lit : DWord) (x : VX), Claims.Calm s → Claims.Calm u → lit.hi = 0 →
    (vd.toNat < s.w.valloc → Claims.Unbound s (s.vreg vd.toNat).bnd →
      (Claims.Spilled s u vd.toNat 1 →
        Claims.Does (.vmovs vd sb) 4 s (Claims.written s u vd.toNat false none fun _ => (s.sreg sb).toNat) ∧
        Claims.Does (.vmovsLiteral vd lit) 12 s (Claims.written s u vd.toNat false none fun _ => lit.lo.toNat) ∧
        Claims.Does (.vlane vd) 4 s (Claims.written s u vd.toNat false (some (.n32, (s.vreg vd.toNat).bnd)) id)) ∧
      (spill vd.toNat s = .ok ((), u) →
        ((s.sreg sb).toNat < 96 →
          Claims.Does (.vsetl vd sa sb) 4 s (Claims.lanePut u vd.toNat [(s.sreg sb).toNat] none fun _ => s.sreg sa)) ∧
        (lit.lo.toNat < 96 →
          Claims.Does (.vsetlLiteral vd sa lit) 12 s (Claims.lanePut u vd.toNat [lit.lo.toNat] none fun _ => s.sreg sa)))) ∧
    (x.vd.toNat < s.w.valloc → (Instr.vtag x).wellFormed = true → ∀ f, Fmt.ofCode (x.imm.toNat / 16) = some f →
      Claims.Does (.vtag x) 12 s (if s.active = [] then s
        else s.setVreg x.vd.toNat { s.vreg x.vd.toNat with fmt := f, bnd := BitVec.ofNat 4 x.imm.toNat })) ∧
    (va.toNat < s.w.valloc →
      ((s.sreg sb).toNat < 96 → Claims.Does (.vgetl sd va sb) 4 s (s.setS sd (s.vlane va.toNat (s.sreg sb).toNat))) ∧
      (lit.lo.toNat < 96 → Claims.Does (.vgetlLiteral sd va lit) 12 s (s.setS sd (s.vlane va.toNat lit.lo.toNat))) ∧
      (96 ≤ (s.sreg sb).toNat → exec (.vgetl sd va sb) s = .next (s.trapEntry { cause := .illop } s.w.pc) ∧
        exec (.vsetl va sa sb) s = .next (s.trapEntry { cause := .illop } s.w.pc)))

/-- 05/R158 to R160: the numeric instructions, one-word and extended, on every format they accept; each element is the exact
value rounded once, and the flags of every active lane are raised together. -/
def Sys2Proof.Claims.VectorNumeric : Prop :=
  ∀ (s u : State) (vd va vb : BitVec 7) (x : VX), Claims.Calm s → Claims.Calm u →
    let short (o : NumOp) (i : Instr) : Prop := Claims.NumericInto o (v3Op vd va vb) s u 4 i
    let short1 (o : NumOp) (i : Instr) : Prop := Claims.NumericInto o (v3Op vd va 0) s u 4 i
    let long (o : NumOp) (i : Instr) : Prop := Claims.NumericInto o (vxOp x) s u 12 i
    (short .add (.vadd vd va vb) ∧ long .add (.vaddVx x)) ∧ (short .sub (.vsub vd va vb) ∧ long .sub (.vsubVx x)) ∧
    (short .mul (.vmul vd va vb) ∧ long .mul (.vmulVx x)) ∧ (short .fma (.vfma vd va vb) ∧ long .fma (.vfmaVx x)) ∧
    (short .mad (.vmad vd va vb) ∧ long .mad (.vmadVx x)) ∧ (short .mulhi (.vmulhi vd va vb) ∧ long .mulhi (.vmulhiVx x)) ∧
    (short .min (.vmin vd va vb) ∧ long .min (.vminVx x)) ∧ (short .max (.vmax vd va vb) ∧ long .max (.vmaxVx x)) ∧
    (short1 .abs (.vabs vd va) ∧ long .abs (.vabsVx x)) ∧ (short1 .neg (.vneg vd va) ∧ long .neg (.vnegVx x))

/-- 05/R159, 02/R75: the element operations of the 32-bit integer formats: N32 and S32 wrap without a flag, VMULHI takes the
high half, and with sat = 1 a result outside the format gives its nearest value and SAT. -/
def Sys2Proof.Claims.IntegerElements : Prop :=
  ∀ (a b c : Word),
    let n (o : NumOp) (x : Word) : Prop := o.elem .n32 .rne false a.toNat b.toNat c.toNat = (x.toNat, 0)
    let z (o : NumOp) (x : Word) : Prop := o.elem .s32 .rne false a.toNat b.toNat c.toNat = (x.toNat, 0)
    (n .add (a + b) ∧ n .sub (a - b) ∧ n .mul (a * b) ∧ n .mad (a * b + c) ∧
      n .mulhi (BitVec.ofNat 32 (a.toNat * b.toNat / 2 ^ 32)) ∧ n .min (BitVec.ofNat 32 (min a.toNat b.toNat)) ∧
      n .max (BitVec.ofNat 32 (max a.toNat b.toNat))) ∧
    (z .add (a + b) ∧ z .sub (a - b) ∧ z .mul (a * b) ∧ z .mad (a * b + c) ∧
      z .mulhi (BitVec.ofInt 32 (a.toInt * b.toInt / 2 ^ 32)) ∧ z .min (BitVec.ofInt 32 (min a.toInt b.toInt)) ∧
      z .max (BitVec.ofInt 32 (max a.toInt b.toInt)) ∧ z .neg (-a) ∧ z .abs (if a.toInt < 0 then -a else a)) ∧
    (2 ^ 31 ≤ a.toInt + b.toInt → NumOp.add.elem .s32 .rne true a.toNat b.toNat c.toNat = (0x7FFFFFFF, fSAT)) ∧
    (a.toInt + b.toInt < -(2 ^ 31) → NumOp.add.elem .s32 .rne true a.toNat b.toNat c.toNat = (0x80000000, fSAT))

/-- 05/R161: VCMP writes the three CMASK words and raises its flags: the bit of an active lane is set when every element of it
passes, that of an inactive lane is clear. -/
def Sys2Proof.Claims.VectorCompare : Prop :=
  ∀ (s : State) (c va vb : BitVec 7) (x : VX), Claims.Calm s →
    let ok (v : VOp) : Prop :=
      let f := (s.vreg v.va).fmt
      Claims.InWindow s [v.va, v.vb] ∧ f ≠ .b32 ∧ f ≠ .z4x8 ∧ (v.imm = none → (s.vreg v.vb).fmt = f) ∧
      (f.isPair = true → v.va % 2 = 0 ∧ v.va + 2 ≤ s.w.valloc ∧ (s.vreg (v.va + 1)).fmt = f ∧
        (v.imm = none → v.vb % 2 = 0 ∧ v.vb + 2 ≤ s.w.valloc ∧ (s.vreg (v.vb + 1)).fmt = f))
    let each (cond : Nat) (v : VOp) (l : Nat) : List (Bool × Flags) :=
      let f := (s.vreg v.va).fmt
      (List.range f.count).map fun k =>
        compareElem cond f ((f.elems (s.vval f.isPair v.va l)).getD k 0) ((f.elems (v.bval s f l)).getD k 0)
    let out (n : Nat) (i : Instr) (cond : Nat) (v : VOp) : Prop := i.wellFormed = true → ok v →
      ∃ t m, exec i s = .next t ∧
        t = ((s.setTriple rCMASK m).raise (orFlags (s.active.flatMap fun l => (each cond v l).map (·.2)))).retire n ∧
        ∀ l, l < 96 → maskBit m l = (s.active.contains l && (each cond v l).all (·.1))
    out 4 (.vcmp c va vb) c.toNat (v3Op 0 va vb) ∧ out 12 (.vcmpVx x) x.f.toNat (vxOp x)

/-- 05/R166, R168, R169, R174: conversion, dot product, reduction and special functions write each active lane with the value
their element operation gives, under the format their entry names. -/
def Sys2Proof.Claims.VectorConvertDotReduce : Prop :=
  ∀ (s u : State) (x : VX), Claims.Calm s → Claims.Calm u →
    let va := x.va.toNat
    let vb := x.vb.toNat
    let vc := x.vc.toNat
    let vd := x.vd.toNat
    let fa := (s.vreg va).fmt
    let fb := (s.vreg vb).fmt
    let fc := (s.vreg vc).fmt
    let bnd := (vxOp x).bnd s
    let rnd := Rnd.ofBits x.rnd
    let sat := x.sat == 1#1
    let out (i : Instr) (fd : Fmt) (es : Nat → List (Nat × Flags)) : Prop :=
      Claims.Spilled s u vd (if fd.isPair then 2 else 1) →
      exec i s = .next (((Claims.written s u vd fd.isPair (some (fd, bnd)) fun l => fd.pack ((es l).map (·.1))).raise
        (orFlags (s.active.flatMap fun l => (es l).map (·.2)))).retire 12)
    Claims.InWindow s [vd, va, vb, vc] → Claims.Unbound s bnd →
    ((Instr.vcvt x).wellFormed = true → ∀ fd, Fmt.ofCode x.rfmt.toNat = some fd → fd ≠ .z4x8 → fa ≠ .b32 →
      (x.vc ≠ 0 → fa = .z4x8) → (x.rnd ≠ 0 → ¬ (fa.isInt = true ∧ fd.isInt = true)) →
      (fa.isPair = true → va % 2 = 0 ∧ va + 2 ≤ s.w.valloc ∧ (s.vreg (va + 1)).fmt = fa) →
      (fd.isPair = true → vd % 2 = 0 ∧ vd + 2 ≤ s.w.valloc) →
      out (.vcvt x) fd fun l => (List.range (min fa.count fd.count)).map fun k =>
        let v := fa.value ((fa.elems (s.vval fa.isPair va l)).getD k 0) (if fa = .z4x8 then (s.vlane vc l).toNat % 16 else 0)
        let r := fd.round rnd sat (fa.isFloat || fa.tapered.isSome) v.1
        (r.1, r.2 ||| v.2 ||| flagIf v.1.signals fIV)) ∧
    ((Instr.vred x).wellFormed = true → redAccepts x.f.toNat fa = true → (x.rnd ≠ 0 → fa.isFloat = true) →
      (fa.isPair = true → va % 2 = 0 ∧ va + 2 ≤ s.w.valloc ∧ vd % 2 = 0 ∧ vd + 2 ≤ s.w.valloc ∧ (s.vreg (va + 1)).fmt = fa) →
      out (.vred x) fa fun _ => (List.range fa.count).map fun k =>
        redElem x.f.toNat fa rnd sat (s.active.map fun l => (fa.elems (s.vval fa.isPair va l)).getD k 0)) ∧
    ((Instr.vdot x).wellFormed = true → dotAccepts fa fb fc = true → Claims.Spilled s u vd 1 →
      let e (l : Nat) : Nat × Flags :=
        let v := dotSum fa fb fc (s.vlane va l).toNat (s.vlane vb l).toNat (s.vlane vc l).toNat
        let r := fc.round .rne sat false v.1
        (r.1, r.2 ||| v.2)
      exec (.vdot x) s = .next (((Claims.written s u vd false (some (fc, bnd)) fun l => (e l).1).raise
        (orFlags (s.active.map fun l => (e l).2))).retire 12))

/-- 05/R174, 02/R81: the special functions on F32, in both forms. -/
def Sys2Proof.Claims.SpecialFunctions : Prop :=
  ∀ (s u : State) (vd va : BitVec 7) (x : VX), Claims.Calm s → Claims.Calm u →
    let out (n : Nat) (fn : Special) (v : VOp) (i : Instr) : Prop :=
      i.wellFormed = true → Claims.InWindow s [v.vd, v.va] → (s.vreg v.va).fmt = .f32 → Claims.Unbound s (v.bnd s) →
      Claims.Spilled s u v.vd 1 →
      let e (l : Nat) : Nat × Flags := fn.apply (FloatFmt.f32.read (s.vlane v.va l).toNat)
      exec i s = .next (((Claims.written s u v.vd false (some (.f32, v.bnd s)) fun l => (e l).1).raise
        (orFlags (s.active.map fun l => (e l).2))).retire n)
    let both (fn : Special) (i j : Instr) : Prop := out 4 fn (v3Op vd va 0) i ∧ out 12 fn (vxOp x) j
    both .rcp (.vrcp vd va) (.vrcpVx x) ∧ both .rsq (.vrsq vd va) (.vrsqVx x) ∧ both .sqrt (.vsqrt vd va) (.vsqrtVx x) ∧
    both .exp2 (.vexp2 vd va) (.vexp2Vx x) ∧ both .log2 (.vlog2 vd va) (.vlog2Vx x) ∧
    both .sinpi (.vsinpi vd va) (.vsinpiVx x) ∧ both .cospi (.vcospi vd va) (.vcospiVx x) ∧ both .tanh (.vtanh vd va) (.vtanhVx x)

namespace Sys2Proof.Claims

/-- The formats that 05/R158 refuses an operation. -/
def refuses (o : NumOp) (f : Fmt) : Bool :=
  [Fmt.b32, .t8x4, .t6x5, .z4x8].contains f ||
    (match o with
    | .add | .sub => [Fmt.e4m3x4, .e5m2x4].contains f
    | .mul => [Fmt.e4m3x4, .e5m2x4, .s4x8].contains f
    | .fma => [Fmt.s32, .n32, .s64, .e4m3x4, .e5m2x4, .s8x4, .s4x8].contains f
    | .mad | .mulhi => [Fmt.f32, .f64, .h16x2, .bf16x2, .s64, .e4m3x4, .e5m2x4, .s8x4, .s4x8].contains f
    | .min | .max => false
    | .abs | .neg => f == .n32)

/-- A vector instruction traps, naming every active lane, and does nothing else. -/
abbrev VTraps (s : State) (i : Instr) (c : Cause) : Prop := exec i s = .next (s.trapEntry { cause := c, lanes := s.exec3 } s.w.pc)

/-- ILLOP for a register outside the window; then, in the window, ILLFMT where `bad` holds. -/
def WindowThenFormat (s : State) (i : Instr) (regs : List Nat) (bad : Prop) : Prop :=
  i.wellFormed = true → (¬ InWindow s regs → VTraps s i .illop) ∧ (InWindow s regs → bad → VTraps s i .illfmt)

/-- The traps of a numeric instruction, in their order: the window's ILLOP; ILLFMT for a format that is refused, for sources of two formats, for
a source pair of two codes; ILLOP for a pair that is odd or beyond VALLOC, and for rnd and sat. -/
def NumericTraps (o : NumOp) (v : VOp) (s : State) (i : Instr) : Prop :=
  let srcs := v.va :: ((if o.unary || v.imm.isSome then [] else [v.vb]) ++ if o.ternary then [v.vc] else [])
  let f := (s.vreg v.va).fmt
  let fits (n : Nat) : Prop := n % 2 = 0 ∧ n + 2 ≤ s.w.valloc
  let oneCode : Prop := f.isPair = true → ∀ n ∈ srcs, fits n → (s.vreg (n + 1)).fmt = f
  WindowThenFormat s i (v.vd :: srcs) (refuses o f = true ∨ ∃ n ∈ srcs, (s.vreg n).fmt ≠ f) ∧
  (i.wellFormed = true → InWindow s (v.vd :: srcs) → refuses o f = false → (∀ n ∈ srcs, (s.vreg n).fmt = f) →
    (f.isPair = true → (∃ n ∈ srcs, fits n ∧ (s.vreg (n + 1)).fmt ≠ f) → VTraps s i .illfmt) ∧
    (oneCode → f.isPair = true → (∃ n ∈ v.vd :: srcs, ¬ fits n) → VTraps s i .illop) ∧
    (oneCode → (f.isPair = true → ∀ n ∈ v.vd :: srcs, fits n) →
      (v.rnd ≠ 0 ∧ f.isFloat = false) ∨ (v.sat = true ∧ o.unary = true ∧ f.isFloat = true) → VTraps s i .illop))

end Sys2Proof.Claims

/-- 05/R158, R161, R165, R168, R169, R174, 02/R57, R61, R79, 03/R103: every numeric instruction and format that is refused raises ILLFMT, in both
forms, after the ILLOP of a register outside the window; both name every active lane. -/
def Sys2Proof.Claims.FormatTraps : Prop :=
  ∀ (s : State) (vd va vb c : BitVec 7) (x : VX),
    let two (o : NumOp) (i j : Instr) : Prop := Claims.NumericTraps o (v3Op vd va vb) s i ∧ Claims.NumericTraps o (vxOp x) s j
    let one (o : NumOp) (i j : Instr) : Prop := Claims.NumericTraps o (v3Op vd va 0) s i ∧ Claims.NumericTraps o (vxOp x) s j
    let cmp (v : VOp) (i : Instr) : Prop :=
      let srcs := v.va :: if v.imm.isSome then [] else [v.vb]
      let f := (s.vreg v.va).fmt
      Claims.WindowThenFormat s i srcs (f = .b32 ∨ f = .z4x8 ∨ ∃ n ∈ srcs, (s.vreg n).fmt ≠ f)
    let special (i j : Instr) : Prop :=
      Claims.WindowThenFormat s i [vd.toNat, va.toNat] ((s.vreg va.toNat).fmt ≠ .f32) ∧
      Claims.WindowThenFormat s j [x.vd.toNat, x.va.toNat] ((s.vreg x.va.toNat).fmt ≠ .f32)
    let bits (i : Instr) : Prop := ¬ Claims.InWindow s [vd.toNat, va.toNat, vb.toNat] → Claims.VTraps s i .illop
    let fa := (s.vreg x.va.toNat).fmt
    (two .add (.vadd vd va vb) (.vaddVx x) ∧ two .sub (.vsub vd va vb) (.vsubVx x) ∧ two .mul (.vmul vd va vb) (.vmulVx x) ∧
      two .fma (.vfma vd va vb) (.vfmaVx x) ∧ two .mad (.vmad vd va vb) (.vmadVx x) ∧ two .mulhi (.vmulhi vd va vb) (.vmulhiVx x) ∧
      two .min (.vmin vd va vb) (.vminVx x) ∧ two .max (.vmax vd va vb) (.vmaxVx x) ∧
      one .abs (.vabs vd va) (.vabsVx x) ∧ one .neg (.vneg vd va) (.vnegVx x)) ∧
    (cmp (v3Op 0 va vb) (.vcmp c va vb) ∧ cmp (vxOp x) (.vcmpVx x)) ∧
    (let regs := [x.vd.toNat, x.va.toNat] ++ if x.vc = 0 then [] else [x.vc.toNat]
     Claims.WindowThenFormat s (.vcvt x) regs
       (0x0E ≤ x.rfmt.toNat ∨ (fa = .b32 ∧ (x.rfmt = 6 ∨ x.rfmt = 7 → x.vd.toNat % 2 = 0 ∧ x.vd.toNat + 2 ≤ s.w.valloc)))) ∧
    Claims.WindowThenFormat s (.vdot x) [x.vd.toNat, x.va.toNat, x.vb.toNat, x.vc.toNat]
      ((fa, (s.vreg x.vb.toNat).fmt, (s.vreg x.vc.toNat).fmt) ∉ [(Fmt.s8x4, Fmt.s8x4, Fmt.s32), (.e4m3x4, .e4m3x4, .f32),
        (.e4m3x4, .e5m2x4, .f32), (.e5m2x4, .e4m3x4, .f32), (.e5m2x4, .e5m2x4, .f32), (.t8x4, .t8x4, .f32)]) ∧
    Claims.WindowThenFormat s (.vred x) [x.vd.toNat, x.va.toNat]
      (x.f.toNat ≤ 2 ∧ fa ∉ [Fmt.s32, .n32, .s64, .f32, .f64, .h16x2, .bf16x2]) ∧
    Claims.WindowThenFormat s (.vtag x) [x.vd.toNat] (0xF0 ≤ x.imm.toNat) ∧
    (special (.vrcp vd va) (.vrcpVx x) ∧ special (.vrsq vd va) (.vrsqVx x) ∧ special (.vsqrt vd va) (.vsqrtVx x) ∧
      special (.vexp2 vd va) (.vexp2Vx x) ∧ special (.vlog2 vd va) (.vlog2Vx x) ∧ special (.vsinpi vd va) (.vsinpiVx x) ∧
      special (.vcospi vd va) (.vcospiVx x) ∧ special (.vtanh vd va) (.vtanhVx x)) ∧
    (bits (.vand vd va vb) ∧ bits (.vor vd va vb) ∧ bits (.vxor vd va vb) ∧ bits (.vandn vd va vb) ∧ bits (.vshl vd va vb) ∧
      bits (.vshr vd va vb) ∧ bits (.vsar vd va vb) ∧ bits (.vsel vd va vb))

/-- 02/R86 to R88: VMOV under a bound: with action flag the result is written and BNDST takes bit b, with action clamp the
clamped one is; with action trap and an outside element BOUND names the lanes that have one and nothing is written. -/
def Sys2Proof.Claims.BoundActions : Prop :=
  ∀ (s u : State) (vd va : BitVec 7), Claims.Calm s → Claims.Calm u →
    let b := (s.vreg va.toNat).bnd
    let f := (s.vreg va.toNat).fmt
    let d := s.bounds.bound b
    let outside := s.active.filter fun l => (List.range f.count).any fun k => (d.clamp f (f.elem (s.vlane va.toNat l).toNat k)).isSome
    Claims.InWindow s [vd.toNat, va.toNat] → f ≠ .b32 → f.isPair = false →
    (outside ≠ [] → d.action = 3 →
      exec (.vmov vd va) s = .next (s.trapEntry { cause := .bound, arg := b.toNat, lanes := lanesMask outside } s.w.pc)) ∧
    (Claims.Spilled s u vd.toNat 1 →
      let out (val : Nat → Nat) : Prop := exec (.vmov vd va) s =
        .next (((Claims.written s u vd.toNat false (some (f, b)) val).setBnd b (decide (outside ≠ []))).retire 4)
      (d.action = 1 → out fun l => (s.vlane va.toNat l).toNat) ∧
      (d.action = 2 → out fun l => (d.lane f (s.vlane va.toNat l).toNat).1))

/-- 05/R154, R156: what a bit and move or lane-exchange instruction that retires leaves alone: every other vector register,
the inactive lanes of its own, the scalar registers, STATUS, memory and the rest of the state. -/
def Sys2Proof.Claims.VectorFrame : Prop :=
  ∀ (s u t : State) (i : Instr) (vd : Nat), Claims.Calm s → Claims.Calm u → i.wellFormed = true →
    Claims.bitClass i = some vd → Claims.Spilled s u vd 1 → exec i s = .next t → t.w.seqno = s.w.seqno + 1 →
    let v := if s.active = [] then s else u
    (∀ m, v.vidx m ≠ v.vidx vd → t.vreg m = v.vreg m) ∧ (∀ l, l < 96 → l ∉ s.active → t.vlane vd l = v.vlane vd l) ∧
    t.w.sregs = v.w.sregs ∧ t.w.status = v.w.status ∧ (∀ a, t.mem.read a = v.mem.read a) ∧ Claims.OnlyVector v t

/-! ### The values of elements (02/R55 to R82), in rational numbers -/

namespace Sys2Proof.Claims

/-- A float format by its fields: exponent bits, fraction bits and bias (02/R64, R65, R69). -/
structure Shape where
  eb : Nat
  fb : Nat
  bias : Nat

/-- The float formats. -/
def shape : Fmt → Option Shape
  | .f32 => some ⟨8, 23, 127⟩ | .f64 => some ⟨11, 52, 1023⟩ | .h16x2 => some ⟨5, 10, 15⟩ | .bf16x2 => some ⟨8, 7, 127⟩
  | .e4m3x4 => some ⟨4, 3, 7⟩ | .e5m2x4 => some ⟨5, 2, 15⟩ | _ => none

/-- A rational with a sign given apart. -/
def withSign (neg : Bool) (q : ℚ) : ℚ := if neg then -q else q
/-- The code of a sign and the code of a magnitude. -/
def Shape.code (h : Shape) (neg : Bool) (k : Nat) : Nat := (if neg then 2 ^ (h.eb + h.fb) else 0) + k
/-- The value of a magnitude's code, exponent field above fraction field; subnormal codes have no hidden bit. -/
def Shape.val (h : Shape) (k : Nat) : ℚ :=
  if k < 2 ^ h.fb then k * 2 ^ (1 - h.bias - h.fb : ℤ)
  else (2 ^ h.fb + (k % 2 ^ h.fb : Nat)) * 2 ^ ((k / 2 ^ h.fb : Nat) - h.bias - h.fb : ℤ)
/-- The first magnitude code that is not finite: E4M3 has finite values up to 448, the others end at the exponent field of ones. -/
def top (f : Fmt) (h : Shape) : Nat := if f = .e4m3x4 then 0x7F else (2 ^ h.eb - 1) * 2 ^ h.fb
/-- The canonical NaN of a format (02/R66). -/
def canonicalNaN : Fmt → Nat
  | .f32 => 0x7FC00000 | .f64 => 0x7FF8000000000000 | .h16x2 => 0x7E00 | .bf16x2 => 0x7FC0 | .e4m3x4 => 0x7F | _ => 0x7E
/-- Whether a magnitude code that is above the infinities is a signalling NaN: its top fraction bit is 0, but E4M3 has none. -/
def signals (f : Fmt) (h : Shape) (k : Nat) : Bool := f != .e4m3x4 && k / 2 ^ (h.fb - 1) % 2 == 0

/-- An element reads as a finite number. -/
def Finite (f : Fmt) (a : Nat) (neg : Bool) (q : ℚ) : Prop :=
  ∃ (m : Nat) (e : Int), f.value a = (.fin neg m e, 0) ∧ q = withSign neg (m * 2 ^ e)

/-- The magnitude code to which a magnitude is rounded, the first code that is not finite standing for what lies above (02/R67). -/
def RoundsTo (f : Fmt) (h : Shape) (rnd : Rnd) (neg : Bool) (q : ℚ) (k : Nat) : Prop :=
  let below : Prop := h.val k ≤ q ∧ (k = top f h ∨ q < h.val (k + 1))
  let above : Prop := (q ≤ h.val k ∨ k = top f h) ∧ (k = 0 ∨ h.val (k - 1) < q)
  k ≤ top f h ∧
    match rnd with
    | .rne => ∀ j, j ≤ top f h → |q - h.val k| < |q - h.val j| ∨ (|q - h.val k| = |q - h.val j| ∧ (j = k ∨ k % 2 = 0))
    | .rz => below
    | .ru => if neg then below else above
    | .rd => if neg then above else below

/-- Tininess after rounding: rounded to the format's precision with no least exponent, the magnitude lies below the least normal one
(02/R68). -/
def Tiny (h : Shape) (rnd : Rnd) (neg : Bool) (q : ℚ) : Prop :=
  let least : ℚ := 2 ^ (1 - h.bias : ℤ)
  let away : Prop := q ≤ least * (1 - 2 ^ (-(h.fb + 1) : ℤ))
  match rnd with
  | .rne => q < least * (1 - 2 ^ (-(h.fb + 2) : ℤ))
  | .rz => q < least
  | .ru => if neg then q < least else away
  | .rd => if neg then away else q < least

/-- A result and its flags are those of a rational rounded once; `zneg` is the sign of an exact zero (02/R62, R67, R68, R70). -/
def Rounded (f : Fmt) (h : Shape) (rnd : Rnd) (sat : Bool) (q : ℚ) (zneg : Bool) (r : Nat × Flags) : Prop :=
  let neg : Bool := decide (q < 0)
  let toInf : Bool := match rnd with | .rne => true | .rz => false | .ru => !neg | .rd => neg
  (q = 0 → r = (h.code zneg 0, 0)) ∧
  (q ≠ 0 → ∃ k, RoundsTo f h rnd neg |q| k ∧
    (k = top f h → r =
      if toInf && sat then (h.code neg (k - 1), fSAT ||| fNX)
      else if toInf && f == .e4m3x4 then (canonicalNaN f, fIV ||| fOF ||| fNX)
      else if toInf then (h.code neg k, fOF ||| fNX)
      else (h.code neg (k - 1), fOF ||| fNX)) ∧
    (k < top f h → r.1 = h.code neg k ∧
      (h.val k = |q| → r.2 = 0) ∧ (h.val k ≠ |q| → Tiny h rnd neg |q| → r.2 = fNX ||| fUF) ∧
      (h.val k ≠ |q| → ¬ Tiny h rnd neg |q| → r.2 = fNX)))

/-- A rational rounded to an integer (02/R67). -/
def RoundsToInt (rnd : Rnd) (q : ℚ) (v : Int) : Prop :=
  match rnd with
  | .rne => |q - v| < 1 / 2 ∨ (|q - v| = 1 / 2 ∧ v % 2 = 0)
  | .rz => |(v : ℚ)| ≤ |q| ∧ |q| < |(v : ℚ)| + 1 ∧ 0 ≤ v * q
  | .ru => q ≤ v ∧ (v : ℚ) < q + 1
  | .rd => (v : ℚ) ≤ q ∧ q < v + 1

/-- Width, least and greatest value of the integer formats that results take (02/R75, R76). -/
def intShape : Fmt → Option (Nat × Int × Int)
  | .s32 => some (32, -(2 ^ 31), 2 ^ 31 - 1) | .n32 => some (32, 0, 2 ^ 32 - 1) | .s64 => some (64, -(2 ^ 63), 2 ^ 63 - 1)
  | .s8x4 => some (8, -128, 127) | .s4x8 => some (4, -7, 7) | _ => none

/-- The integer of an element's code: unsigned for N32, two's complement for the others, 0 for the reserved code of S4 (02/R75, R76). -/
def intOf (f : Fmt) (w a : Nat) : Int := if f = .n32 then a else if f = .s4x8 ∧ a = 8 then 0 else (BitVec.ofNat w a).toInt
/-- The flag of an operand: S4's reserved code (02/R76). -/
def intFlag (f : Fmt) (a : Nat) : Flags := if f = .s4x8 ∧ a = 8 then fINTRES else 0

/-- An integer result narrowed: it wraps, or saturates with `sat` and in S4 always (02/R75, R76). -/
def Narrowed (f : Fmt) (w : Nat) (lo hi : Int) (sat : Bool) (v : Int) (r : Nat × Flags) : Prop :=
  ((lo ≤ v ∧ v ≤ hi) ∨ (sat = false ∧ f ≠ .s4x8) → r = ((v % 2 ^ w).toNat, 0)) ∧
  (sat = true ∨ f = .s4x8 → (v < lo → r = ((lo % 2 ^ w).toNat, fSAT)) ∧ (hi < v → r = ((hi % 2 ^ w).toNat, fSAT)))

/-- The exact integer of an operation (05/R159). -/
def exactInt (o : NumOp) (a b c : Int) : Int :=
  match o with
  | .add => a + b | .sub => a - b | .mul => a * b | .fma | .mad => a * b + c | .mulhi => a * b / 2 ^ 32
  | .min => min a b | .max => max a b | .abs => |a| | .neg => -a

/-- The order that a condition code asks for (04/R127, 05/R161). -/
def Ordered (c : Nat) (a b : ℚ) : Prop :=
  match c with
  | 0 => a = b | 1 => a ≠ b | 2 => a < b | 3 => a ≤ b | 4 => b < a | _ => b ≤ a

end Sys2Proof.Claims

/-- 02/R56, R58: where element `i` of a lane word lies: its bit `j` is bit `width * i + j` of the word, and a packed word gives its elements
back. -/
def Sys2Proof.Claims.ElementPlacement : Prop :=
  ∀ (f : Fmt) (count width : Nat), (f, count, width) ∈ [(Fmt.b32, 1, 32), (.s32, 1, 32), (.n32, 1, 32), (.f32, 1, 32), (.h16x2, 2, 16), (.bf16x2, 2, 16),
      (.s64, 1, 64), (.f64, 1, 64), (.e4m3x4, 4, 8), (.e5m2x4, 4, 8), (.t8x4, 4, 8), (.t6x5, 5, 6), (.s8x4, 4, 8), (.s4x8, 8, 4), (.z4x8, 8, 4)] →
    (∀ (x i j : Nat), i < count → j < width → ((f.elems x).getD i 0).testBit j = x.testBit (width * i + j)) ∧
    (∀ x i j, width ≤ j → ((f.elems x).getD i 0).testBit j = false) ∧
    (∀ es : List Nat, es.length = count → (∀ e ∈ es, e < 2 ^ width) → f.elems (f.pack es) = es ∧ f.pack es < 2 ^ (width * count))

/-- 02/R64 to R66, R69: what the codes of the float formats stand for. -/
def Sys2Proof.Claims.FloatReads : Prop :=
  ∀ (f : Fmt) (h : Claims.Shape), Claims.shape f = some h → ∀ (neg : Bool) (k : Nat), k < 2 ^ (h.eb + h.fb) →
    let x := f.value (h.code neg k)
    (k < Claims.top f h → Claims.Finite f (h.code neg k) neg (Claims.withSign neg (h.val k))) ∧
    (k = Claims.top f h → f ≠ .e4m3x4 → x = (.inf neg, 0)) ∧
    (k = Claims.top f h → f = .e4m3x4 → x = (.nan false, 0)) ∧
    (Claims.top f h < k → x = (.nan (Claims.signals f h k), 0))

/-- 02/R66 to R70: an exact value is rounded once into a float format; an infinity stays one but in E4M3, and a NaN or NaR gives the canonical
NaN. That an infinity that saturates in E4M3 sets SAT alone is the model's choice (log 67). -/
def Sys2Proof.Claims.FloatRounding : Prop :=
  ∀ (f : Fmt) (h : Claims.Shape), Claims.shape f = some h → ∀ (rnd : Rnd) (sat fromFloat : Bool),
    (∀ (neg : Bool) (m : Nat) (e : Int),
      Claims.Rounded f h rnd sat (Claims.withSign neg (m * 2 ^ e)) neg (f.round rnd sat fromFloat (.fin neg m e))) ∧
    (∀ neg, f.round rnd sat fromFloat (.inf neg) =
      if f = .e4m3x4 then (if sat then (h.code neg 0x7E, fSAT) else (0x7F, fIV)) else (h.code neg (Claims.top f h), 0)) ∧
    (∀ b, f.round rnd sat fromFloat (.nan b) = (Claims.canonicalNaN f, 0)) ∧
    f.round rnd sat fromFloat .nar = (Claims.canonicalNaN f, 0)

/-- 05/R159, R160, 02/R62, R66, R68: sums, products and fused products of finite elements are the exact rational rounded once, with the sign of
a zero; a NaN gives the canonical NaN, with IV for a signalling one; infinities of a sum and of a product. -/
def Sys2Proof.Claims.FloatArithmetic : Prop :=
  ∀ (f : Fmt) (h : Claims.Shape), Claims.shape f = some h → ∀ (rnd : Rnd) (sat : Bool) (a b c : Nat),
    let sign (x y : Bool) : Bool := if x = y then x else rnd == .rd
    let out (o : NumOp) : Nat × Flags := o.elem f rnd sat a b c
    (∀ (na nb nc : Bool) (x y z : ℚ), Claims.Finite f a na x → Claims.Finite f b nb y → Claims.Finite f c nc z →
      Claims.Rounded f h rnd sat (x + y) (sign na nb) (out .add) ∧
      Claims.Rounded f h rnd sat (x - y) (sign na !nb) (out .sub) ∧
      Claims.Rounded f h rnd sat (x * y) (na != nb) (out .mul) ∧
      Claims.Rounded f h rnd sat (x * y + z) (sign (na != nb) nc) (out .fma)) ∧
    (∀ sig, f.value a = (.nan sig, 0) → ∀ o ∈ [NumOp.add, .sub, .mul, .min, .max], ∀ (x : Num), f.value b = (x, 0) →
      out o = (Claims.canonicalNaN f, if sig = true ∨ x = .nan true then fIV else 0) ∧
      o.elem f rnd sat b a c = (Claims.canonicalNaN f, if sig = true ∨ x = .nan true then fIV else 0)) ∧
    (∀ sig, f.value a = (.nan sig, 0) → out .abs = (Claims.canonicalNaN f, 0) ∧ out .neg = (Claims.canonicalNaN f, 0)) ∧
    (∀ n, f.value a = (.inf n, 0) →
      (∀ nb y, Claims.Finite f b nb y →
        out .add = (h.code n (Claims.top f h), 0) ∧ out .sub = (h.code n (Claims.top f h), 0) ∧
        (y = 0 → out .mul = (Claims.canonicalNaN f, fIV)) ∧ (y ≠ 0 → out .mul = (h.code (n != nb) (Claims.top f h), 0))) ∧
      (f.value b = (.inf n, 0) → out .add = (h.code n (Claims.top f h), 0) ∧ out .sub = (Claims.canonicalNaN f, fIV)) ∧
      (f.value b = (.inf !n, 0) → out .add = (Claims.canonicalNaN f, fIV)))

/-- 05/R160: VMIN, VMAX, VABS and VNEG of float elements that are not NaN: the lesser or greater operand, -0 below +0, and the sign bit cleared
or inverted, with no flag. -/
def Sys2Proof.Claims.FloatSelection : Prop :=
  ∀ (f : Fmt) (h : Claims.Shape), Claims.shape f = some h → ∀ (rnd : Rnd) (sat na nb : Bool) (j k c : Nat),
    let last := if f = .e4m3x4 then Claims.top f h - 1 else Claims.top f h
    let a := h.code na j
    let b := h.code nb k
    let x := Claims.withSign na (h.val j)
    let y := Claims.withSign nb (h.val k)
    j ≤ last → k ≤ last →
      (x < y ∨ (x = y ∧ na = true) → NumOp.min.elem f rnd sat a b c = (a, 0) ∧ NumOp.max.elem f rnd sat a b c = (b, 0)) ∧
      (y < x ∨ (x = y ∧ na = false) → NumOp.min.elem f rnd sat a b c = (b, 0) ∧ NumOp.max.elem f rnd sat a b c = (a, 0)) ∧
      (j < Claims.top f h → NumOp.abs.elem f rnd sat a b c = (h.code false j, 0) ∧ NumOp.neg.elem f rnd sat a b c = (h.code (!na) j, 0))

/-- 02/R75, R76, 05/R159: the element operations of the integer formats: exact, then wrapped or, with sat = 1 and in S4 always, the nearest
value with SAT; S4's reserved code reads as 0 with INTRES. -/
def Sys2Proof.Claims.PackedIntegers : Prop :=
  ∀ (f : Fmt) (w : Nat) (lo hi : Int), Claims.intShape f = some (w, lo, hi) →
    ∀ (o : NumOp) (rnd : Rnd) (sat : Bool) (a b c : Nat), o ≠ .mulhi → a < 2 ^ w → b < 2 ^ w → c < 2 ^ w →
      let v := Claims.exactInt o (Claims.intOf f w a) (Claims.intOf f w b) (Claims.intOf f w c)
      let fl : Flags := Claims.intFlag f a ||| (if o = .abs ∨ o = .neg then 0 else Claims.intFlag f b) |||
        (if o = .fma ∨ o = .mad then Claims.intFlag f c else 0)
      ∃ r, Claims.Narrowed f w lo hi (sat && o != .min && o != .max) v r ∧ o.elem f rnd sat a b c = (r.1, r.2 ||| fl)

/-- 02/R77, R78: an integer element, and a Z4 code less its zero point, read as an exact integer; an integer is narrowed into an integer format,
and a float or tapered value is rounded and, out of range, saturates with IV. That no such conversion sets SAT, and that a negative
value into N32 wraps, is the model's reading (log 78). -/
def Sys2Proof.Claims.IntegerConversions : Prop :=
  (∀ (f : Fmt) (w : Nat) (lo hi : Int), Claims.intShape f = some (w, lo, hi) →
    (∀ a, a < 2 ^ w → ∃ neg m, f.value a = (.fin neg m 0, Claims.intFlag f a) ∧ (if neg then -(m : Int) else m) = Claims.intOf f w a) ∧
    (∀ (rnd : Rnd) (sat neg : Bool) (m : Nat),
      Claims.Narrowed f w lo hi sat (if neg then -(m : Int) else m) (f.round rnd sat false (.fin neg m 0))) ∧
    (∀ (rnd : Rnd) (sat neg : Bool) (m : Nat) (e v : Int),
      let q := Claims.withSign neg (m * 2 ^ e)
      let r := f.round rnd sat true (.fin neg m e)
      Claims.RoundsToInt rnd q v →
        (v < lo → r = ((lo % 2 ^ w).toNat, fIV)) ∧ (hi < v → r = ((hi % 2 ^ w).toNat, fIV)) ∧
        (lo ≤ v → v ≤ hi → r = ((v % 2 ^ w).toNat, if q = v then 0 else fNX))) ∧
    (∀ (rnd : Rnd) (sat sig : Bool), f.round rnd sat true (.nan sig) = (0, fIV) ∧ f.round rnd sat true .nar = (0, fIV) ∧
      f.round rnd sat true (.inf false) = ((hi % 2 ^ w).toNat, fIV) ∧ f.round rnd sat true (.inf true) = ((lo % 2 ^ w).toNat, fIV))) ∧
  (∀ u z, u < 16 → z < 16 → ∃ neg m, Fmt.z4x8.value u z = (.fin neg m 0, 0) ∧ (if neg then -(m : Int) else m) = (u : Int) - z)

/-- 02/R71: the values of the tapered codes by their fields: a regime of k ones and a zero, or of k zeros and a one, then the exponent bit and the
fraction as far as there is room; the negative codes are two's complements. -/
def Sys2Proof.Claims.TaperedReads : Prop :=
  ∀ (f : Fmt) (n : Nat), (f = .t8x4 ∧ n = 8) ∨ (f = .t6x5 ∧ n = 6) →
    let is (c : Nat) (q : ℚ) : Prop := Claims.Finite f c false q ∧ (c ≠ 0 → Claims.Finite f (2 ^ n - c) true (-q))
    is 0 0 ∧ f.value (2 ^ (n - 1)) = (.nar, 0) ∧ is (2 ^ (n - 1) - 1) (4 ^ (n - 2)) ∧
    is (2 ^ (n - 1) - 2) (4 ^ (n - 3)) ∧ is 1 (4 ^ (2 - n : ℤ)) ∧
    ∀ k e x, 1 ≤ k → k + 3 ≤ n → e < 2 → x < 2 ^ (n - 3 - k) →
      is ((2 ^ k - 1) * 2 ^ (n - 1 - k) + e * 2 ^ (n - 3 - k) + x) (4 ^ (k - 1) * 2 ^ e * (1 + x / 2 ^ (n - 3 - k))) ∧
      is (2 ^ (n - 2 - k) + e * 2 ^ (n - 3 - k) + x) (4 ^ (-k : ℤ) * 2 ^ e * (1 + x / 2 ^ (n - 3 - k)))

/-- 02/R72: a value goes to the nearest tapered code in code order: the boundary between two neighbours is the value of the code of one bit more
that lies between them, and the even code takes it; beyond the range it saturates with SAT, and a value that is no real number gives NaR
with IV. -/
def Sys2Proof.Claims.TaperedRounding : Prop :=
  ∀ (f : Fmt) (n : Nat), (f = .t8x4 ∧ n = 8) ∨ (f = .t6x5 ∧ n = 6) → ∀ (rnd : Rnd) (sat fromFloat neg : Bool),
    let out (x : Num) : Nat × Flags := f.round rnd sat fromFloat x
    let signed (c : Nat) : Nat := if neg then 2 ^ n - c else c
    (∀ e, out (.fin neg 0 e) = (0, 0)) ∧ out (.inf neg) = (2 ^ (n - 1), fIV) ∧ out (.nan neg) = (2 ^ (n - 1), fIV) ∧ out .nar = (2 ^ (n - 1), fIV) ∧
    (∀ (m : Nat) (e : Int), m ≠ 0 →
      let q : ℚ := m * 2 ^ e
      let r := out (.fin neg m e)
      (4 ^ (n - 2) < q → r = (signed (2 ^ (n - 1) - 1), fSAT ||| fNX)) ∧ (q < 4 ^ (2 - n : ℤ) → r = (signed 1, fSAT ||| fNX)) ∧
      (∀ c, 1 ≤ c → c < 2 ^ (n - 1) → Claims.Finite f c false q → r = (signed c, 0)) ∧
      (∀ (c : Nat) (x y b : ℚ) (m' : Nat) (e' : Int), 1 ≤ c → c + 1 < 2 ^ (n - 1) → Claims.Finite f c false x → Claims.Finite f (c + 1) false y →
        taperedValue (n + 1) (2 * c + 1) = .fin false m' e' → b = m' * 2 ^ e' → x < q → q < y →
        (q < b → r = (signed c, fNX)) ∧ (b < q → r = (signed (c + 1), fNX)) ∧
        (q = b → r = (signed (if c % 2 = 0 then c else c + 1), fNX))))

/-- 05/R161: one element of VCMP: the order of exact values, -0 equal to +0; NaN passes `.ne` alone, with IV by the condition; tapered codes are
ordered as signed integers; S4's reserved code reads as 0 with INTRES. -/
def Sys2Proof.Claims.ElementCompare : Prop :=
  ∀ (c a b : Nat), c ≤ 5 →
    (∀ (f : Fmt) (h : Claims.Shape) (na nb : Bool) (j k : Nat), Claims.shape f = some h → a = h.code na j → b = h.code nb k →
      let last := if f = .e4m3x4 then Claims.top f h - 1 else Claims.top f h
      let r := compareElem c f a b
      (j ≤ last → k ≤ last → (r.1 = true ↔ Claims.Ordered c (Claims.withSign na (h.val j)) (Claims.withSign nb (h.val k))) ∧ r.2 = 0) ∧
      (j < 2 ^ (h.eb + h.fb) → k < 2 ^ (h.eb + h.fb) → last < j ∨ last < k →
        (r.1 = true ↔ c = 1) ∧
        r.2 = if 2 ≤ c ∨ (last < j ∧ Claims.signals f h j = true) ∨ (last < k ∧ Claims.signals f h k = true) then fIV else 0)) ∧
    (∀ (f : Fmt) (w : Nat) (lo hi : Int), Claims.intShape f = some (w, lo, hi) → a < 2 ^ w → b < 2 ^ w →
      let r := compareElem c f a b
      (r.1 = true ↔ Claims.Ordered c (Claims.intOf f w a) (Claims.intOf f w b)) ∧ r.2 = Claims.intFlag f a ||| Claims.intFlag f b) ∧
    (∀ (f : Fmt) (n : Nat), (f = .t8x4 ∧ n = 8) ∨ (f = .t6x5 ∧ n = 6) → a < 2 ^ n → b < 2 ^ n →
      let r := compareElem c f a b
      (r.1 = true ↔ Claims.Ordered c ((BitVec.ofNat n a).toInt : ℚ) ((BitVec.ofNat n b).toInt : ℚ)) ∧ r.2 = 0)

/-- 05/R168, R169, 02/R68, R80: the reduction and the dot product of finite elements: the exact sum of all of them rounded once, whatever their
order; the bitwise reductions; a NaN or NaR element, or a product of an infinity and a zero, gives the canonical NaN with IV. -/
def Sys2Proof.Claims.SumsOnce : Prop :=
  (∀ (f : Fmt) (h : Claims.Shape) (rnd : Rnd) (sat : Bool) (es : List (Nat × Bool × ℚ)), Claims.shape f = some h → es ≠ [] →
    (∀ e ∈ es, Claims.Finite f e.1 e.2.1 e.2.2) →
      Claims.Rounded f h rnd sat (es.map (·.2.2)).sum (es.all (·.2.1) || (rnd == .rd && es.any (·.2.1)))
        (redElem 0 f rnd sat (es.map (·.1)))) ∧
  (∀ (f : Fmt) (w : Nat) (lo hi : Int) (rnd : Rnd) (sat : Bool) (es : List Nat), Claims.intShape f = some (w, lo, hi) → f ≠ .s4x8 → es ≠ [] →
    (∀ e ∈ es, e < 2 ^ w) →
      Claims.Narrowed f w lo hi sat (es.map (Claims.intOf f w)).sum (redElem 0 f rnd sat es) ∧
      (∃ r ∈ es, redElem 1 f rnd sat es = (r, 0) ∧ ∀ e ∈ es, Claims.intOf f w r ≤ Claims.intOf f w e) ∧
      (∃ r ∈ es, redElem 2 f rnd sat es = (r, 0) ∧ ∀ e ∈ es, Claims.intOf f w e ≤ Claims.intOf f w r)) ∧
  (∀ (f : Fmt) (rnd : Rnd) (sat : Bool) (es : List Nat) (j : Nat), j < f.bits → (∀ e ∈ es, e < 2 ^ f.bits) →
    (redElem 3 f rnd sat es).1.testBit j = es.all (·.testBit j) ∧ (redElem 4 f rnd sat es).1.testBit j = es.any (·.testBit j) ∧
    (redElem 5 f rnd sat es).1.testBit j = decide ((es.filter (·.testBit j)).length % 2 = 1) ∧
    ∀ op ∈ [3, 4, 5], (redElem op f rnd sat es).2 = 0) ∧
  (∀ (x y c : Nat) (sat : Bool),
    let r := dotSum .s8x4 .s8x4 .s32 x y (c % 2 ^ 32)
    let byte (v i : Nat) : Int := (BitVec.ofNat 8 (v / 2 ^ (8 * i))).toInt
    r.2 = 0 ∧ Claims.Narrowed .s32 32 (-(2 ^ 31)) (2 ^ 31 - 1) sat
      ((BitVec.ofNat 32 c).toInt + ((List.range 4).map fun i => byte x i * byte y i).sum) (Fmt.round .s32 .rne sat false r.1)) ∧
  (∀ (fa fb : Fmt) (x y c : Nat) (sat : Bool), dotAccepts fa fb .f32 = true →
    let el (v i : Nat) : Nat := v / 2 ^ (8 * i) % 2 ^ 8
    let r := dotSum fa fb .f32 x y c
    (∀ (nc : Bool) (z : ℚ) (ps : Nat → Bool × ℚ × Bool × ℚ), Claims.Finite .f32 c nc z →
      (∀ i, i < 4 → Claims.Finite fa (el x i) (ps i).1 (ps i).2.1 ∧ Claims.Finite fb (el y i) (ps i).2.2.1 (ps i).2.2.2) →
      r.2 = 0 ∧ Claims.Rounded .f32 ⟨8, 23, 127⟩ .rne sat (z + ((List.range 4).map fun i => (ps i).2.1 * (ps i).2.2.2).sum)
        (nc && (List.range 4).all fun i => (ps i).1 != (ps i).2.2.1) (Fmt.round .f32 .rne sat false r.1)) ∧
    (∀ i s, i < 4 → ((fa.value (el x i)).1.isNaN = true ∨ (fb.value (el y i)).1.isNaN = true ∨
        ((fa.value (el x i)).1 = .inf s ∧ ∃ n, Claims.Finite fb (el y i) n 0) ∨ ((fb.value (el y i)).1 = .inf s ∧ ∃ n, Claims.Finite fa (el x i) n 0)) →
      r.2 = fIV ∧ Fmt.round .f32 .rne sat false r.1 = (0x7FC00000, 0)))

/-! ### When the vector instructions complete: conditions on the state and the operands alone -/

namespace Sys2Proof.Claims

/-- An instruction that goes on: exec answers a state at the next instruction, in which it is counted as retired. -/
def Completes (i : Instr) (len : Nat) (s : State) : Prop :=
  ∃ t, exec i s = .next t ∧ t.w.pc = s.w.pc + BitVec.ofNat 64 len ∧ t.w.seqno = s.w.seqno + 1

/-- No spill of the registers to be written is pending (04/R451). -/
abbrev NoPend (s : State) (vd words : Nat) : Prop := ∀ k, k < words → (s.vreg (vd + k)).pend = false

/-- A bit and move instruction completes in the window, under no bound, with no spill pending. -/
def BitsComplete (s : State) (len vd va : Nat) (srcs : List Nat) (i : Instr) : Prop :=
  i.wellFormed = true → InWindow s (vd :: va :: srcs) → NoPend s vd 1 → Unbound s (s.vreg va).bnd → Completes i len s

/-- A numeric instruction completes on operands that it accepts, with no spill pending. -/
def NumericCompletes (o : NumOp) (v : VOp) (s : State) (len : Nat) (i : Instr) : Prop :=
  i.wellFormed = true → NumericOk o v s → NoPend s v.vd 2 → Completes i len s

end Sys2Proof.Claims

/-- 04/R451: where no spill is pending a write of vector registers makes none, so that the vector instructions complete there. -/
def Sys2Proof.Claims.NoSpillPending : Prop :=
  ∀ (s : State) (vd words : Nat), Claims.NoPend s vd words → Claims.Spilled s s vd words

/-- 05/R162, R163, R170 to R172: the bit, move, select and exchange instructions complete in every state whose destination has no
spill pending, with their registers in the window and no bound on the result. -/
def Sys2Proof.Claims.VectorBitsComplete : Prop :=
  ∀ (s : State) (d a b : BitVec 7) (x : VX), Claims.Calm s →
    let two (i : Instr) : Prop := Claims.BitsComplete s 4 d.toNat a.toNat [b.toNat] i
    let one (i : Instr) : Prop := Claims.BitsComplete s 4 d.toNat a.toNat [] i
    let long (i : Instr) : Prop := Claims.BitsComplete s 12 x.vd.toNat x.va.toNat [x.vb.toNat] i
    (two (.vand d a b) ∧ long (.vandVx x)) ∧ (two (.vor d a b) ∧ long (.vorVx x)) ∧ (two (.vxor d a b) ∧ long (.vxorVx x)) ∧
    (two (.vandn d a b) ∧ long (.vandnVx x)) ∧ (two (.vshl d a b) ∧ long (.vshlVx x)) ∧ (two (.vshr d a b) ∧ long (.vshrVx x)) ∧
    (two (.vsar d a b) ∧ long (.vsarVx x)) ∧ (one (.vpop d a) ∧ long (.vpopVx x)) ∧ (one (.vclz d a) ∧ long (.vclzVx x)) ∧
    (one (.vmov d a) ∧ long (.vmovVx x)) ∧ (two (.vsel d a b) ∧ long (.vselVx x)) ∧
    long (.vbfe x) ∧ long (.vbfi x) ∧ long (.vshfl x) ∧ long (.vbcast x)

/-- 05/R164, R167, R173: VMOVS, VLANE, VTAG, VGETL and VSETL complete in the window, a lane number being below 96. -/
def Sys2Proof.Claims.LaneMovesComplete : Prop :=
  ∀ (s : State) (d a : BitVec 7) (sd sa sb : SReg) (lit : DWord) (x : VX), Claims.Calm s → lit.hi = 0 →
    (d.toNat < s.w.valloc → Claims.Unbound s (s.vreg d.toNat).bnd → Claims.NoPend s d.toNat 1 →
      Claims.Completes (.vmovs d sb) 4 s ∧ Claims.Completes (.vmovsLiteral d lit) 12 s ∧ Claims.Completes (.vlane d) 4 s ∧
      ((s.sreg sb).toNat < 96 → Claims.Completes (.vsetl d sa sb) 4 s) ∧
      (lit.lo.toNat < 96 → Claims.Completes (.vsetlLiteral d sa lit) 12 s)) ∧
    (a.toNat < s.w.valloc →
      ((s.sreg sb).toNat < 96 → Claims.Completes (.vgetl sd a sb) 4 s) ∧
      (lit.lo.toNat < 96 → Claims.Completes (.vgetlLiteral sd a lit) 12 s)) ∧
    ((Instr.vtag x).wellFormed = true → x.vd.toNat < s.w.valloc → (Fmt.ofCode (x.imm.toNat / 16)).isSome = true → Claims.Completes (.vtag x) 12 s)

/-- 05/R158 to R160: the numeric instructions complete on every format that they accept. -/
def Sys2Proof.Claims.VectorNumericComplete : Prop :=
  ∀ (s : State) (d a b : BitVec 7) (x : VX), Claims.Calm s →
    let both (o : NumOp) (i j : Instr) : Prop :=
      Claims.NumericCompletes o (v3Op d a b) s 4 i ∧ Claims.NumericCompletes o (vxOp x) s 12 j
    let sign (o : NumOp) (i j : Instr) : Prop :=
      Claims.NumericCompletes o (v3Op d a 0) s 4 i ∧ Claims.NumericCompletes o (vxOp x) s 12 j
    both .add (.vadd d a b) (.vaddVx x) ∧ both .sub (.vsub d a b) (.vsubVx x) ∧ both .mul (.vmul d a b) (.vmulVx x) ∧
    both .fma (.vfma d a b) (.vfmaVx x) ∧ both .mad (.vmad d a b) (.vmadVx x) ∧ both .mulhi (.vmulhi d a b) (.vmulhiVx x) ∧
    both .min (.vmin d a b) (.vminVx x) ∧ both .max (.vmax d a b) (.vmaxVx x) ∧
    sign .abs (.vabs d a) (.vabsVx x) ∧ sign .neg (.vneg d a) (.vnegVx x)

/-- 05/R166, R168, R169, R174: conversion, reduction, dot product and the special functions complete on the formats that they
accept. -/
def Sys2Proof.Claims.ConversionsComplete : Prop :=
  ∀ (s : State) (d a : BitVec 7) (x : VX), Claims.Calm s →
    let va := x.va.toNat
    let vd := x.vd.toNat
    let fa := (s.vreg va).fmt
    (Claims.InWindow s [vd, va, x.vb.toNat, x.vc.toNat] → Claims.Unbound s ((vxOp x).bnd s) → Claims.NoPend s vd 2 →
      ((Instr.vcvt x).wellFormed = true → ∀ fd, Fmt.ofCode x.rfmt.toNat = some fd → fd ≠ .z4x8 → fa ≠ .b32 →
        (x.vc ≠ 0 → fa = .z4x8) → (x.rnd ≠ 0 → ¬ (fa.isInt = true ∧ fd.isInt = true)) →
        (fa.isPair = true → va % 2 = 0 ∧ va + 2 ≤ s.w.valloc ∧ (s.vreg (va + 1)).fmt = fa) →
        (fd.isPair = true → vd % 2 = 0 ∧ vd + 2 ≤ s.w.valloc) → Claims.Completes (.vcvt x) 12 s) ∧
      ((Instr.vred x).wellFormed = true → redAccepts x.f.toNat fa = true → (x.rnd ≠ 0 → fa.isFloat = true) →
        (fa.isPair = true → va % 2 = 0 ∧ va + 2 ≤ s.w.valloc ∧ vd % 2 = 0 ∧ vd + 2 ≤ s.w.valloc ∧ (s.vreg (va + 1)).fmt = fa) →
        Claims.Completes (.vred x) 12 s) ∧
      ((Instr.vdot x).wellFormed = true → dotAccepts fa (s.vreg x.vb.toNat).fmt (s.vreg x.vc.toNat).fmt = true →
        Claims.Completes (.vdot x) 12 s)) ∧
    (let out (len : Nat) (v : VOp) (i : Instr) : Prop := i.wellFormed = true → Claims.InWindow s [v.vd, v.va] →
       (s.vreg v.va).fmt = .f32 → Claims.Unbound s (v.bnd s) → Claims.NoPend s v.vd 1 → Claims.Completes i len s
     let both (i j : Instr) : Prop := out 4 (v3Op d a 0) i ∧ out 12 (vxOp x) j
     both (.vrcp d a) (.vrcpVx x) ∧ both (.vrsq d a) (.vrsqVx x) ∧ both (.vsqrt d a) (.vsqrtVx x) ∧
     both (.vexp2 d a) (.vexp2Vx x) ∧ both (.vlog2 d a) (.vlog2Vx x) ∧ both (.vsinpi d a) (.vsinpiVx x) ∧
     both (.vcospi d a) (.vcospiVx x) ∧ both (.vtanh d a) (.vtanhVx x))

/-! ### Memory instructions (08/R226 to R245) -/

namespace Sys2Proof.Claims

/-- The scalar loads, stores and atomics: word 1 and operands, offset and length in bytes (08/R229). -/
def scalarLoad : Instr → Option (MS × DWord × Nat)
  | .sld sd sa imm => some (siForm sd sa, imm.signExtend 64, 4)
  | .sldMs m => some (m, m.off.signExtend 64, 12)
  | .sldOffset64 m lit => some (m, lit, 20)
  | _ => none
@[inherit_doc scalarLoad] def scalarStore : Instr → Option (MS × DWord × Nat)
  | .sst sd sa imm => some (siForm sd sa, imm.signExtend 64, 4)
  | .sstMs m => some (m, m.off.signExtend 64, 12)
  | .sstOffset64 m lit => some (m, lit, 20)
  | _ => none
@[inherit_doc scalarLoad] def scalarAtomic : Instr → Option (MS × DWord × Nat)
  | .satom m => some (m, m.off.signExtend 64, 12)
  | .satomOffset64 m lit => some (m, lit, 20)
  | _ => none
/-- The vector loads, stores and atomics. -/
def vectorLoad : Instr → Option (MX × DWord × Nat)
  | .vld m => some (m, m.off.signExtend 64, 12)
  | .vldOffset64 m lit => some (m, lit, 20)
  | _ => none
@[inherit_doc vectorLoad] def vectorStore : Instr → Option (MX × DWord × Nat)
  | .vst m => some (m, m.off.signExtend 64, 12)
  | .vstOffset64 m lit => some (m, lit, 20)
  | _ => none
@[inherit_doc vectorLoad] def vectorAtomic : Instr → Option (MX × DWord × Nat)
  | .vatom m => some (m, m.off.signExtend 64, 12)
  | .vatomOffset64 m lit => some (m, lit, 20)
  | _ => none

/-- The addresses of a scalar form, and what a lane stores: nothing for a load, sd for a store; an atomic takes x from sb and
CAS's c from sd (08/R242). -/
def loadOps (m : MS) (off : DWord) : MemOps := ⟨msLane m off, fun _ _ => 0, fun _ _ => 0, fun _ => pure ()⟩
@[inherit_doc loadOps] def storeOps (m : MS) (off : DWord) : MemOps :=
  ⟨msLane m off, fun s _ => s.srun m.sd (wordsOf (2 ^ m.width.toNat)), fun _ _ => 0, fun _ => pure ()⟩
@[inherit_doc loadOps] def atomicOps (m : MS) (off : DWord) : MemOps :=
  ⟨msLane m off, fun s _ => s.srun m.sb (wordsOf (2 ^ m.width.toNat)), fun s _ => s.srun m.sd (wordsOf (2 ^ m.width.toNat)),
    fun _ => pure ()⟩
/-- Those of a vector form: CAS takes c from vt and x from the registers after it. -/
def vloadOps (m : MX) (off : DWord) : MemOps := ⟨mxLane m off, fun _ _ => 0, fun _ _ => 0, fun _ => pure ()⟩
@[inherit_doc vloadOps] def vstoreOps (m : MX) (off : DWord) : MemOps :=
  ⟨mxLane m off, fun s l => s.vrun m.vt.toNat (wordsOf (2 ^ m.width.toNat)) l, fun _ _ => 0, fun _ => pure ()⟩
@[inherit_doc vloadOps] def vatomicOps (m : MX) (off : DWord) : MemOps :=
  let w := wordsOf (2 ^ m.width.toNat)
  ⟨mxLane m off, fun s l => s.vrun (if isCas m.aop then m.vt.toNat + w else m.vt.toNat) w l, fun s l => s.vrun m.vt.toNat w l,
    fun _ => pure ()⟩

/-- A translation register that an access finds not valid has been translated again (08/R228). -/
def fresh (m : Mem) (s : State) : State := match m.xt with
  | some r => s.freshXt r
  | none => s

/-- An access begun in `s` whose checks of 08/R232 pass in `b`, after the commit of a release order: every lane is aligned, permitted and
translated, and none meets a held range, a restore in progress or a poisoned line. `p` holds the lanes with their places: all the active
ones, or those that a park has left. -/
structure Checked (m : Mem) (o : MemOps) (s b : State) (p : List (Lane × Loc)) : Prop where
  feature : m.kind = .update → rankOf m.lvl = 4 → s.xupd = true
  table : ∀ r, m.xt = some r → (s.xt r).valid = true ∨ s.xtHeld (s.xt r).vbase = none
  checks : m.checks o b true = .ok ⟨p, []⟩
  ranges : m.loc = true → ∀ x ∈ p, b.rangeHeld (m.kind != .load) x.2.pa m.bytes = false
  restores : ∀ x ∈ p, x.2.isLocal = false → b.restoring x.2.dev x.2.pa = false
  clean : ∀ x ∈ p, m.meetsPoison b x.2 = false

/-- The commit of a release order, after the spills of the registers to be written and the checks that need no tag, leads from `s` to `b`
(07/R218, 13/R363). -/
def Released (m : Mem) (o : MemOps) (dest : List Nat) (s b : State) : Prop :=
  if m.commits = true ∧ s.w.released = false then
    ∃ p d c, m.checks o s false = .ok p ∧ (if p.ok = [] then d = s else dest.forM spill s = .ok ((), d)) ∧
      commitTo (rankOf m.lvl) d = .ok ((), c) ∧ b = c.setReleased
  else b = s

/-- The commit of a release order is made, and the checks pass after it. -/
def Ready (m : Mem) (o : MemOps) (dest : List Nat) (s b : State) (p : List (Lane × Loc)) : Prop :=
  Released m o dest (fresh m s) b ∧ Checked m o s b p

/-- The registers of a vector access's result run. -/
def runOf (m : MX) : List Nat := (List.range (wordsOf (2 ^ m.width.toNat))).map (m.vt.toNat + ·)

/-- The spills of the registers to be written, the stamp of an sc operation and the recalls lead from `b` to `u` (04/R138, 07/R221,
08/R245). -/
def Prepared (m : Mem) (o : MemOps) (dest : List Nat) (b : State) (p : List (Lane × Loc)) (u : State) : Prop :=
  ∃ d, (if p = [] then d = b else dest.forM spill b = .ok ((), d)) ∧
    m.recalls o p (if m.isSc then d.stampOnce else d) = .ok ((), u)

/-- What the load of one lane leaves: the read signature, the core's caches and clock, and what the wave has seen (07/R204,
R207). -/
def afterLoad (m : Mem) (u : State) (l : Loc) : State :=
  let x := if rankOf m.lvl ≤ 1 then u.noteRead l else u
  (if m.asksPeer u l then x.scReceive x.w.core l.dev else x).afterRead m.lvl m.isSc l m.bytes

/-- The values that some lanes load, one after another (08/R232). -/
def loaded (m : Mem) : State → List (Lane × Loc) → LaneVals
  | _, [] => []
  | u, x :: xs => (x.1.lane, ofLE (u.readAt m.lvl m.isSc x.2 m.bytes).1) :: loaded m (afterLoad m u x.2) xs

/-- The home of a place answers: it is this device, or a peer that can be reached. -/
def Answers (s : State) (l : Loc) : Prop := l.isLocal = true ∨ l.dev = s.dev.devnum ∨ s.reachable l.dev = true

/-- The acquire after an access that asks for one (07/R218). -/
def acquired (m : Mem) (t : State) : State := if m.acquires then t.acquireAt m.lvl else t

/-- Registers and buffers that an access leaves alone, with its memory. -/
structure SameBut (u t : State) (len : Nat) : Prop where
  pc : t.w.pc = u.w.pc + BitVec.ofNat 64 len
  status : t.w.status = u.w.status
  special : t.w.bndst = u.w.bndst ∧ t.w.tvec = u.w.tvec ∧ t.w.tpc = u.w.tpc ∧ t.w.tcause = u.w.tcause ∧ t.w.xts = u.w.xts ∧
    t.w.accs = u.w.accs ∧ t.w.rot = u.w.rot
  places : t.w.wbuf = u.w.wbuf ∧ t.blk.place = u.blk.place ∧ t.gang = u.gang
  memory : ∀ a, t.mem.read a = u.mem.read a

end Sys2Proof.Claims

/-- 08/R226 to R228: XLD writes the translation of its pointer to the register, once no line of the tables that it reads must be recalled
or restored first (07/R222, 08/R245; log 14); XINV makes it not valid. The home, the coherence and the tag enable of the run go with FRAME (log
5). -/
def Sys2Proof.Claims.TranslationRegisters : Prop :=
  ∀ (s : State) (r : BitVec 3) (sa : SReg), Claims.Calm s →
    (sa.toNat % 2 = 0 →
      (s.xtHeld (s.spair sa) = none → Claims.Does (.xld r sa) 4 s (s.setXt r (s.xtLoad (s.spair sa)))) ∧
      (∀ x, s.xtHeld (s.spair sa) = some x → exec (.xld r sa) s = .next ((s.halted (.recall x.1 x.2)).holds (.xld r sa)))) ∧
    Claims.Does (.xinv r) 4 s (s.setXt r { s.xt r with valid := false }) ∧
    (s.xtLoad (s.spair sa)).vbase = s.spair sa ∧ (s.xtLoad (s.spair sa)).valid = true ∧
    (s.runAt s.w.ctx (s.spair sa) = none → (s.xtLoad (s.spair sa)).limit = 0) ∧
    Claims.decodeList [0x420#32 ||| r.setWidth 32 <<< 11 ||| sa.setWidth 32 <<< 17] = (if sa = 0 then .ok (.xinv r) else .error .reservedField)

/-- 08/R229 to R231, R238: a scalar load whose lane passes the checks writes sd, or the pair, with the value read at the level,
extended as SX says; nothing else but the pc changes. -/
def Sys2Proof.Claims.ScalarLoads : Prop :=
  ∀ (i : Instr) (m : MS) (off : DWord) (len : Nat) (s b u : State) (ln : Lane) (l : Loc),
    Claims.scalarLoad i = some (m, off, len) → i.wellFormed = true → Claims.Calm u →
    let a := msMem m .load
    let o := Claims.loadOps m off
    Claims.Ready a o [] s b [(ln, l)] → Claims.Prepared a o [] b [(ln, l)] u →
    (a.asksPeer u l = true → u.reachable l.dev = true) →
    let v := ofLE (u.readAt a.lvl a.isSc l a.bytes).1
    ∃ t, exec i s = .next t ∧
      (a.bytes = 8 → t.spair m.sd = BitVec.ofNat 64 v) ∧
      (a.bytes ≠ 8 → t.sreg m.sd = BitVec.ofNat 32 (extended (m.sx == 1#1) a.bytes v)) ∧
      (∀ r : SReg, r ≠ m.sd → (a.bytes = 8 → r ≠ m.sd + 1) → t.sreg r = u.sreg r) ∧
      t.w.vregs = u.w.vregs ∧ t.blk.scratch = u.blk.scratch ∧ Claims.SameBut u t len

/-- 08/R230, R231, R236: a vector load writes the active lanes of its registers with the values read, lane after lane, their
tags kept. -/
def Sys2Proof.Claims.VectorLoads : Prop :=
  ∀ (i : Instr) (m : MX) (off : DWord) (len : Nat) (s b u : State) (p : List (Lane × Loc)),
    Claims.vectorLoad i = some (m, off, len) → i.wellFormed = true → Claims.Calm u →
    let a := mxMem m .load
    let o := Claims.vloadOps m off
    let words := wordsOf a.bytes
    m.voff.toNat < s.w.valloc → m.vt.toNat + words ≤ s.w.valloc →
    (∀ k, k < words → (u.vreg (m.vt.toNat + k)).pend = false ∧ Claims.Unbound u (u.vreg (m.vt.toNat + k)).bnd) →
    Claims.Ready a o (Claims.runOf m) s b p → Claims.Prepared a o (Claims.runOf m) b p u → (∀ x ∈ p, Claims.Answers u x.2) →
    let val (n : Nat) : Nat := ((LaneVals.at_ (Claims.loaded a u p) n).map (extended (m.sx == 1#1) a.bytes)).getD 0
    ∃ t, exec i s = .next t ∧
      t.w.vregs = ((List.range words).foldl (init := u) fun x k =>
        Claims.lanePut x (m.vt.toNat + k) (p.map fun x => x.1.lane) none fun n => BitVec.ofNat 32 (val n / 2 ^ (32 * k))).w.vregs ∧
      t.w.sregs = u.w.sregs ∧ t.blk.scratch = u.blk.scratch ∧ Claims.SameBut u t len

/-- 08/R232, R237, R238: a store every lane of which performs retires with what the lanes left, at any level. -/
def Sys2Proof.Claims.StoresComplete : Prop :=
  ∀ (i : Instr) (off : DWord) (len : Nat) (s b u w : State) (p : List (Lane × Loc)) (vals : LaneVals), i.wellFormed = true →
    (∀ m, Claims.scalarStore i = some (m, off, len) →
      let a := msMem m .store
      let o := Claims.storeOps m off
      Claims.Ready a o [] s b p → Claims.Prepared a o [] b p u → a.perform o p [] (a.post o p [] u) = .ok ((vals, []), w) →
      exec i s = .next ((Claims.acquired a w).retire len)) ∧
    (∀ m, Claims.vectorStore i = some (m, off, len) →
      let a := mxMem m .store
      let o := Claims.vstoreOps m off
      m.voff.toNat < s.w.valloc → m.vt.toNat + wordsOf a.bytes ≤ s.w.valloc →
      Claims.Ready a o [] s b p → Claims.Prepared a o [] b p u →
      a.perform o p [] (a.post o p [] u) = .ok ((vals, []), w) → exec i s = .next ((Claims.acquired a w).retire len))

/-- 07/R199, 08/R231, R237: a local store at B or above writes the lanes' bytes into the scratchpad, lane after lane, and
nothing else of memory. -/
def Sys2Proof.Claims.LocalStores : Prop :=
  ∀ (i : Instr) (m : MX) (n : MS) (off : DWord) (len : Nat) (s b u : State) (p : List (Lane × Loc)), i.wellFormed = true →
    let placedAll (bytes : Nat) (val : Nat → Nat) : List (Nat × Byte) :=
      p.flatMap fun x => placed x.2.pa (leBytes bytes (val x.1.lane))
    let out (a : Mem) (val : Nat → Nat) : Prop := ∃ t, exec i s = .next t ∧
      t.blk.scratch = u.blk.scratch.writeAll (placedAll a.bytes val) ∧ t.w.sregs = u.w.sregs ∧ t.w.vregs = u.w.vregs ∧
      Claims.SameBut u t len
    (Claims.scalarStore i = some (n, off, len) →
      let a := msMem n .store
      let o := Claims.storeOps n off
      a.loc = true → 1 ≤ rankOf a.lvl → Claims.Ready a o [] s b p → Claims.Prepared a o [] b p u → out a (o.x u)) ∧
    (Claims.vectorStore i = some (m, off, len) →
      let a := mxMem m .store
      let o := Claims.vstoreOps m off
      m.voff.toNat < s.w.valloc → m.vt.toNat + wordsOf a.bytes ≤ s.w.valloc →
      a.loc = true → 1 ≤ rankOf a.lvl → Claims.Ready a o [] s b p → Claims.Prepared a o [] b p u → out a (o.x u))

/-- 07/R197, R201, 08/R237: a scalar store at W puts its bytes into the wave's W buffer, where a read at W finds them, and
changes no byte of memory or of the scratchpad. -/
def Sys2Proof.Claims.StoresAtW : Prop :=
  ∀ (i : Instr) (m : MS) (off : DWord) (len : Nat) (s b u : State) (ln : Lane) (l : Loc),
    Claims.scalarStore i = some (m, off, len) → i.wellFormed = true → m.lvl = 0 →
    let a := msMem m .store
    let o := Claims.storeOps m off
    Claims.Ready a o [] s b [(ln, l)] → Claims.Prepared a o [] b [(ln, l)] u → l.pa % 64 + a.bytes ≤ 64 →
    (∀ b ∈ u.w.wbuf.lines, b.sent = none) →
    ((u.w.wbuf.find l.isLocal l.dev (lineOf l.pa)).isSome = true ∨ u.w.wbuf.used < 64) →
    ∃ t, exec i s = .next t ∧
      (∀ k, k < a.bytes → (t.w.wbuf.byte l.isLocal l.dev (l.pa + k)).map (·.1) = (leBytes a.bytes (o.x u 0))[k]?) ∧
      (∀ loc dev pa, ¬ (loc = l.isLocal ∧ dev = l.dev ∧ l.pa ≤ pa ∧ pa < l.pa + a.bytes) →
        (t.w.wbuf.byte loc dev pa).map (·.1) = (u.w.wbuf.byte loc dev pa).map (·.1)) ∧
      (∀ b, t.mem.read b = u.mem.read b) ∧ t.blk = u.blk ∧ t.gang = u.gang ∧ t.w.sregs = u.w.sregs ∧ t.w.vregs = u.w.vregs ∧
      t.w.status = u.w.status ∧ t.w.pc = u.w.pc + BitVec.ofNat 64 len

/-- 07/R201, 13/R367: a scalar store at D on a coherent page of this device writes its bytes at the home and no other byte of
memory; no partial, snapshot or fenced vault stands in the way, and no dirty line of the core must go home to make room. -/
def Sys2Proof.Claims.StoresAtD : Prop :=
  ∀ (i : Instr) (m : MS) (off : DWord) (len : Nat) (s b u : State) (ln : Lane) (l : Loc),
    Claims.scalarStore i = some (m, off, len) → i.wellFormed = true → m.lvl = 3 →
    let a := msMem m .store
    let o := Claims.storeOps m off
    Claims.Ready a o [] s b [(ln, l)] → Claims.Prepared a o [] b [(ln, l)] u →
    l.isLocal = false → l.coh = true → l.dev = u.dev.devnum → (∀ k, k < a.bytes → u.restoring l.dev (l.pa + k) = false) → u.parts = [] → u.snaps = [] → u.vaultFenced (64 * lineOf l.pa) = false → Memory.wf u.mem →
    u.makeRoom u.w.core l.dev (lineOf l.pa) = .ok u →
    ∃ t, exec i s = .next t ∧
      (∀ b, b < l.pa ∨ l.pa + a.bytes ≤ b → t.mem.read b = u.mem.read b) ∧
      (∀ k, k < a.bytes → some (t.mem.read (l.pa + k)) = (leBytes a.bytes (o.x u 0))[k]?) ∧
      t.w.sregs = u.w.sregs ∧ t.w.vregs = u.w.vregs ∧ t.w.wbuf = u.w.wbuf ∧ t.blk = u.blk ∧ t.gang = u.gang ∧
      t.w.status = u.w.status ∧ t.w.pc = u.w.pc + BitVec.ofNat 64 len

/-- 08/R241, R242: an atomic every lane of which performs writes the old values to its result registers when V = 1, and
retires. -/
def Sys2Proof.Claims.AtomicsComplete : Prop :=
  ∀ (i : Instr) (off : DWord) (len : Nat) (s b u w : State) (p : List (Lane × Loc)) (vals : LaneVals), i.wellFormed = true →
    (∀ m, Claims.scalarAtomic i = some (m, off, len) →
      let a := msMem m (atomicKind m.aop)
      let o := Claims.atomicOps m off
      Claims.Ready a o [] s b p → Claims.Prepared a o [] b p u → a.perform o p [] u = .ok ((vals, []), w) → vals.length = 1 →
      let old := (vals.map (·.2)).headD 0
      let res := if m.v = 0 then w else if a.bytes = 8 then w.setPair m.sd (BitVec.ofNat 64 old) else w.setS m.sd (BitVec.ofNat 32 old)
      exec i s = .next ((Claims.acquired a res).retire len)) ∧
    (∀ m, Claims.vectorAtomic i = some (m, off, len) →
      let a := mxMem m (atomicKind m.aop)
      let o := Claims.vatomicOps m off
      let words := wordsOf a.bytes
      m.voff.toNat < s.w.valloc → m.vt.toNat + (if isCas m.aop then 2 * words else words) ≤ s.w.valloc →
      (m.v = 1 → ∀ k, k < words → (w.vreg (m.vt.toNat + k)).pend = false) →
      let dest := if m.v = 1 then Claims.runOf m else []
      Claims.Ready a o dest s b p → Claims.Prepared a o dest b p u → a.perform o p [] u = .ok ((vals, []), w) →
      let res := if m.v = 0 then w else (List.range words).foldl (init := w) fun x k =>
        Claims.lanePut x (m.vt.toNat + k) (vals.map (·.1)) none fun n => BitVec.ofNat 32 ((LaneVals.at_ vals n).getD 0 / 2 ^ (32 * k))
      exec i s = .next ((Claims.acquired a res).retire len))

/-- 08/R241, R242: a scalar atomic on the scratchpad answers the old value and leaves the new one in its place; no other byte
changes. -/
def Sys2Proof.Claims.LocalAtomics : Prop :=
  ∀ (i : Instr) (m : MS) (off : DWord) (len : Nat) (s b u : State) (ln : Lane) (l : Loc),
    Claims.scalarAtomic i = some (m, off, len) → i.wellFormed = true → updateOnly m.aop = false →
    let a := msMem m .atomic
    let o := Claims.atomicOps m off
    a.loc = true → 1 ≤ rankOf a.lvl → u.w.wbuf = Place.empty → Memory.wf u.blk.scratch →
    Claims.Ready a o [] s b [(ln, l)] → Claims.Prepared a o [] b [(ln, l)] u →
    let old := u.blk.scratch.value l.pa a.bytes
    let new := atomicValue m.aop (8 * a.bytes) old (o.x u 0 % 2 ^ (8 * a.bytes)) (o.c u 0 % 2 ^ (8 * a.bytes))
    ∃ t, exec i s = .next t ∧
      (m.v = 1 → if a.bytes = 8 then t.spair m.sd = BitVec.ofNat 64 old else t.sreg m.sd = BitVec.ofNat 32 old) ∧
      (m.v = 0 → t.w.sregs = u.w.sregs) ∧
      (∀ k, k < a.bytes → some (t.blk.scratch.read (l.pa + k)) = (leBytes a.bytes new)[k]?) ∧
      (∀ b, b < l.pa ∨ l.pa + a.bytes ≤ b → t.blk.scratch.read b = u.blk.scratch.read b) ∧
      (∀ b, t.mem.read b = u.mem.read b) ∧ t.w.status = u.w.status ∧ t.w.vregs = u.w.vregs ∧
      t.w.pc = u.w.pc + BitVec.ofNat 64 len

/-- 08/R241: the operations of an atomic on words and double words, update-only forms alike: ten on integers, and FADD, whose sum is
rounded to nearest even and is the canonical NaN where an operand is a NaN. -/
def Sys2Proof.Claims.AtomicOperations : Prop :=
  ∀ (m x c : Word) (n y d : DWord),
    let op (k : BitVec 5) (r : Word) : Prop := atomicValue k 32 m.toNat x.toNat c.toNat = r.toNat
    let op2 (k : BitVec 5) (r : DWord) : Prop := atomicValue k 64 n.toNat y.toNat d.toNat = r.toNat
    let sum (f : FloatFmt) (a b : Nat) : Nat := (f.roundNum .rne false ((f.read a).add .rne (f.read b)).1).1
    let wide : Prop :=
      (op2 0x00 (n + y) ∧ op2 0x10 (n + y)) ∧
      (op2 0x01 (if y.toInt < n.toInt then y else n) ∧ op2 0x11 (if y.toInt < n.toInt then y else n)) ∧
      (op2 0x02 (if n.toInt < y.toInt then y else n) ∧ op2 0x12 (if n.toInt < y.toInt then y else n)) ∧
      (op2 0x03 (if y.toNat < n.toNat then y else n) ∧ op2 0x13 (if y.toNat < n.toNat then y else n)) ∧
      (op2 0x04 (if n.toNat < y.toNat then y else n) ∧ op2 0x14 (if n.toNat < y.toNat then y else n)) ∧
      (op2 0x05 (n &&& y) ∧ op2 0x15 (n &&& y)) ∧ (op2 0x06 (n ||| y) ∧ op2 0x16 (n ||| y)) ∧
      (op2 0x07 (n ^^^ y) ∧ op2 0x17 (n ^^^ y)) ∧ op2 0x08 y ∧ op2 0x09 (if n = d then y else n)
    let float : Prop :=
      (∀ k : BitVec 5, k = 0x0A ∨ k = 0x1A → atomicValue k 32 m.toNat x.toNat c.toNat = sum .f32 m.toNat x.toNat ∧
        ((FloatFmt.f32.read m.toNat).isNaN = true ∨ (FloatFmt.f32.read x.toNat).isNaN = true → op k 0x7FC00000)) ∧
      atomicValue 0x0A 64 n.toNat y.toNat d.toNat = sum .f64 n.toNat y.toNat ∧
      ((FloatFmt.f64.read n.toNat).isNaN = true ∨ (FloatFmt.f64.read y.toNat).isNaN = true → op2 0x0A 0x7FF8000000000000)
    wide ∧ float ∧
    (op 0x00 (m + x) ∧ op 0x10 (m + x)) ∧
    (op 0x01 (if x.toInt < m.toInt then x else m) ∧ op 0x11 (if x.toInt < m.toInt then x else m)) ∧
    (op 0x02 (if m.toInt < x.toInt then x else m) ∧ op 0x12 (if m.toInt < x.toInt then x else m)) ∧
    (op 0x03 (if x.toNat < m.toNat then x else m) ∧ op 0x13 (if x.toNat < m.toNat then x else m)) ∧
    (op 0x04 (if m.toNat < x.toNat then x else m) ∧ op 0x14 (if m.toNat < x.toNat then x else m)) ∧
    (op 0x05 (m &&& x) ∧ op 0x15 (m &&& x)) ∧ (op 0x06 (m ||| x) ∧ op 0x16 (m ||| x)) ∧ (op 0x07 (m ^^^ x) ∧ op 0x17 (m ^^^ x)) ∧
    op 0x08 x ∧ op 0x09 (if m = c then x else m)

/-- 08/R232, 13/R353, 09/R263: the checks of a scalar access in their order: alignment; for local bytes the end of the local
area, then tagged slots for a store; for a global address its region. The trap names no lane. -/
def Sys2Proof.Claims.AccessChecks : Prop :=
  ∀ (i : Instr) (m : MS) (off : DWord) (len : Nat) (s : State), i.wellFormed = true → s.w.todo = none →
    let ln := msLane m off s 0
    let n := 2 ^ m.width.toNat
    let traps (c : Cause) (a : DWord) : Prop := exec i s = .next (s.trapEntry { cause := c, taddr := a } s.w.pc)
    (Claims.scalarLoad i = some (m, off, len) ∨ Claims.scalarStore i = some (m, off, len) →
      (ln.va.toNat % n ≠ 0 → traps .align ln.va) ∧
      (ln.va.toNat % n = 0 →
        (m.as = 1 → s.blk.localSize < ln.va.toNat + n → traps .prot ln.va) ∧
        (m.as = 0 → s.regionHeld s.w.ctx ln.va = none → s.leftRegion s.w.ctx ln.base ln.va = true → traps .prot ln.va) ∧
        (∀ e, m.as = 0 → s.leftRegion s.w.ctx ln.base ln.va = false →
          s.regionCheck s.w.ctx (if (Claims.scalarLoad i).isSome then { r := true } else { w := true }) ln.va n = .error (.prot e) →
          traps .prot e))) ∧
    (∀ slot, Claims.scalarStore i = some (m, off, len) → ln.va.toNat % n = 0 → m.as = 1 → ln.va.toNat + n ≤ s.blk.localSize →
      s.blk.taggedSlot ln.va.toNat n = some slot → traps .barobj (BitVec.ofNat 64 slot))

/-! ### Visibility and walkers (07/R196 to R221, 08/R246 to R252) -/

/-- 07/R205, R220, 08/R246: COMMIT whose moves end leaves the places below its level empty, and FENCE also acquires; a commit
writes no register. -/
def Sys2Proof.Claims.CommitAndFence : Prop :=
  ∀ (s u : State) (lvl : BitVec 3), 1 ≤ lvl.toNat → lvl.toNat ≤ 4 → commitTo lvl.toNat s = .ok ((), u) →
    Claims.Does (.commit lvl) 4 s u ∧ Claims.Does (.fence lvl) 4 s (u.acquireAt lvl.toNat) ∧
    (lvl = 1 → u.w.wbuf = Place.empty) ∧ (lvl = 2 → u.blk.place = Place.empty) ∧
    (3 ≤ lvl.toNat → u.gang.place = Place.empty)

/-- 07/R205: a move out of a place that holds nothing changes nothing but its mark. -/
def Sys2Proof.Claims.EmptyMove : Prop :=
  ∀ (s : State), (s.w.wbuf.lines = [] → moveWB s = .ok ((), s.setW Place.empty)) ∧
    (s.blk.place.lines = [] → moveBG s = .ok ((), s.setB Place.empty)) ∧
    (s.gang.place.lines = [] → moveGD s = .ok ((), s.setG Place.empty))

/-- 07/R207, R208: COMMIT.B.V moves only when no conflict has been noted; SCC tells which. -/
def Sys2Proof.Claims.ValidatedCommit : Prop :=
  ∀ (s u : State), Claims.Calm s → Claims.Calm u →
    (s.w.conflict = true → Claims.Does .commitBV 4 s (s.setScc false)) ∧
    (s.w.conflict = false → moveWB s = .ok ((), u) →
      Claims.Does .commitBV 4 s (u.clearSig.setScc true) ∧ (u.clearSig.setScc true).w.sig = [] ∧
      (u.clearSig.setScc true).w.conflict = false)

/-- 07/R209 to R211, R220: ABORT discards a place and sets the notice bit in every wave of the block, or of the gang, that shares it; MARK
marks one; ACQ drops what may be stale at D or X, and below them leaves no old bound value, which is log 38. -/
def Sys2Proof.Claims.AbortMarkAcquire : Prop :=
  ∀ (s : State),
    (∃ t, exec (.abort 0) s = .next t ∧ t.w.wbuf = Place.empty ∧ t.w.sig = [] ∧ t.w.conflict = false ∧ t.blk = s.blk ∧
      t.gang = s.gang ∧ t.w.sregs = s.w.sregs ∧ (∀ a, t.mem.read a = s.mem.read a)) ∧
    (∃ t, exec (.abort 1) s = .next t ∧ t.blk.place = Place.empty ∧ t.w.abtn = s.w.abtn ||| 2 ∧ t.w.wbuf = s.w.wbuf ∧
      t.waves = s.waves.map (fun w => if w.key.block = s.w.key.block then { w with abtn := w.abtn ||| 2 } else w) ∧
      t.gang = s.gang ∧ (∀ a, t.mem.read a = s.mem.read a)) ∧
    (∃ t, exec (.abort 2) s = .next t ∧ t.gang.place = Place.empty ∧ t.w.abtn = s.w.abtn ||| 4 ∧ t.w.wbuf = s.w.wbuf ∧
      t.waves = s.waves.map (fun w => if w.key.gangKey = s.w.key.gangKey then { w with abtn := w.abtn ||| 4 } else w) ∧
      t.blk = s.blk ∧ (∀ a, t.mem.read a = s.mem.read a)) ∧
    Claims.Does (.mark 0) 4 s ((s.setW { s.w.wbuf with marked := true }).clearSig) ∧
    Claims.Does (.mark 1) 4 s (s.setB { s.blk.place with marked := true }) ∧
    Claims.Does (.mark 2) 4 s (s.setG { s.gang.place with marked := true }) ∧
    Claims.Does (.acq 1) 4 s s.ordered ∧ Claims.Does (.acq 2) 4 s s.ordered ∧ Claims.Does (.acq 3) 4 s (s.ordered.acquire s.w.core false) ∧
    Claims.Does (.acq 4) 4 s (s.ordered.acquire s.w.core true)

/-- 08/R249, R252: a walker instruction whose range is aligned and permitted hands its request, with the virtual
address that the check gives, to the core's walker and retires; a length of 0 does nothing. -/
def Sys2Proof.Claims.WalkersAccept : Prop :=
  ∀ (s : State) (sd sa sb : SReg), sa.toNat % 2 = 0 →
    let base := s.spair sa
    let n := (s.sreg sb).toNat
    let o := (s.sreg sd).toNat
    base.extractLsb' 0 6 = 0#6 → n % 64 = 0 → o % 16 = 0 → o + 16 ≤ s.blk.localSize →
    let does (t : WalkOp → State) : Prop := Claims.Does (.cfl sd sa sb) 4 s (t .cfl) ∧ Claims.Does (.civ sd sa sb) 4 s (t .civ) ∧
      Claims.Does (.cwb sd sa sb) 4 s (t .cwb) ∧ Claims.Does (.ici sd sa sb) 4 s (t .ici)
    (n = 0 → does fun _ => s) ∧
    (n ≠ 0 → s.leftRegion s.w.ctx base base = false → s.leftRegion s.w.ctx base (base + BitVec.ofNat 64 (n - 1)) = false →
      s.co.walks.length < 16 → ∀ a,
      let taken (op : WalkOp) : State := s.setCo { s.co with walks := s.co.walks ++ [⟨op, s.w.key, s.w.ctx, o, a, n / 64⟩] }
      (s.regionCheck s.w.ctx { w := true } base n = .ok a → Claims.Does (.civ sd sa sb) 4 s (taken .civ)) ∧
      (s.regionCheck s.w.ctx { r := true } base n = .ok a → Claims.Does (.cfl sd sa sb) 4 s (taken .cfl) ∧
        Claims.Does (.cwb sd sa sb) 4 s (taken .cwb) ∧ Claims.Does (.ici sd sa sb) 4 s (taken .ici)))

/-- 08/R250 to R252: WALKER_LINE takes the next line of the oldest request; a page that is absent is skipped, a table entry that is poisoned
or out of reach is an error, one that must be recalled or restored first makes it come again, ICI drops the line from every instruction cache and fetch buffer, and each line is counted on the object. On a coherent page
the core's registrations of the line end, and CFL and CIV drop its copy. With the core rails off nothing happens (18/R450). That a table out of
reach counts as an error at once is log 86, and that the recall of a table's line comes first is log 14. -/
def Sys2Proof.Claims.WalkerLines : Prop :=
  ∀ (s : State) (w : Walk) (rest : List Walk), (s.core s.facts.core).walks = w :: rest →
    (s.dev.powered = false → exec .walkerLine s = .next s) ∧ (s.dev.powered = true →
    let va := w.va
    (s.translate w.ctx va = .poison ∨ s.translate w.ctx va = .away → exec .walkerLine s = .next (s.countWalk s.facts.core w rest true)) ∧
    (∀ dev line, s.translate w.ctx va = .held dev line → exec .walkerLine s = .next (s.lookAgain dev line)) ∧
    (∀ b, s.translate w.ctx va = .absent b → exec .walkerLine s = .next (s.countWalk s.facts.core w rest false)) ∧
    (∀ l, s.translate w.ctx va = .leaf l → w.op = .ici → l.dev = s.dev.devnum →
      exec .walkerLine s = .next ((s.dropCode (lineOf (l.pa va))).countWalk s.facts.core w rest false)) ∧
    (∀ l, s.translate w.ctx va = .leaf l → w.op ≠ .ici → l.dev = s.dev.devnum →
      let line := lineOf (l.pa va)
      let k := s.facts.core
      s.restoring l.dev (64 * line) = false → s.parts = [] → (∀ e ∈ s.poolWait, e.2 ≠ .combine line) →
      (l.coh = true → exec .walkerLine s = .next
        ((if w.op = .cwb then s.unregister k line else (s.unregister k line).dropLine k l.dev line).countWalk k w rest (!s.facts.ok))) ∧
      (∀ t, l.coh = false → s.walkLine w.op k l.dev line false = .ok t →
        exec .walkerLine s = .next (t.countWalk k w rest (!s.facts.ok)))))

/-! ### Synchronisation (09/R255 to R270) -/

/-- 09/R256 to R258: an arrival that does not complete a generation counts; the last one ends it, resets the barrier and
releases its waiters. A BAR.SYNC that does not end the generation waits for it. A wave released leaves no old bound value: log 38. -/
def Sys2Proof.Claims.NamedBarriers : Prop :=
  ∀ (s u : State) (c : BitVec 1) (n : BitVec 5) (id : BitVec 4), 1 ≤ n.toNat → n.toNat ≤ 16 → s.hm = false →
    let b := s.bar id
    (b.expected = none ∨ b.expected = some n.toNat) →
    let changed (y : Barrier) (x : State) : State := (x.setBar id y).touched fun w z => w.key.block == x.w.key.block && z == .barrier id false
    let ended (x : State) : State := (changed ⟨!b.gen, none, 0, false⟩ x).mapWaves (Wave.endBarrier x.w.key.block id)
    let counted (flag : Bool) (x : State) : State := changed ⟨b.gen, some n.toNat, b.count + 1, flag⟩ x
    moveWB s = .ok ((), u) →
    (b.count + 1 ≠ n.toNat →
      Claims.Does (.barArrive n id) 4 s (counted b.cr u) ∧
      exec (.barSync c n id) s = .next (((counted (b.cr || c == 1) u).await (.barrier id false)).holds (.barSync c n id))) ∧
    (b.count + 1 = n.toNat → b.cr = false →
      Claims.Does (.barArrive n id) 4 s (ended u) ∧ (c = 0 → Claims.Does (.barSync c n id) 4 s (ended u).ordered)) ∧
    (∀ v, b.count + 1 = n.toNat → (b.cr = true ∨ c = 1) → moveBG u = .ok ((), v) →
      Claims.Does (.barSync c n id) 4 s (ended v).ordered ∧ (b.cr = true → Claims.Does (.barArrive n id) 4 s (ended v)))

/-- 09/R257, 04/R150: a count that differs from the generation's raises BARMM with the barrier's number; in handler mode the
barrier, Gong and QPOP instructions raise ILLOP, which kills the wave. -/
def Sys2Proof.Claims.SyncTraps : Prop :=
  ∀ (s : State) (c : BitVec 1) (n : BitVec 5) (id : BitVec 4) (tag q : BitVec 3) (sd : SReg) (k : Nat), 1 ≤ n.toNat → n.toNat ≤ 16 →
    (s.hm = false → (s.bar id).expected = some k → k ≠ n.toNat →
      exec (.barSync c n id) s = .next (s.trapEntry { cause := .barmm, arg := id.toNat } s.w.pc) ∧
      exec (.barArrive n id) s = .next (s.trapEntry { cause := .barmm, arg := id.toNat } s.w.pc)) ∧
    (s.hm = true → ∀ i ∈ [Instr.barSync c n id, .barArrive n id, .gongArrive tag, .gongWait tag, .qpop q sd],
      exec i s = .next (s.killWave Cause.illop.code s.w.pc))

/-- 09/R258: BARRIER_RELEASE retires every wave of the block that waits on the ended generation, unless the device is halted or the
core rails are off; what its waves see of a bound word afterwards is log 38. -/
def Sys2Proof.Claims.BarrierRelease : Prop :=
  ∀ (s : State), ∃ t, exec .barrierRelease s = .next t ∧ (s.dev.halt = true ∨ s.dev.powered = false → t = s) ∧
    (s.dev.halt = false → s.dev.powered = true → s.w.key.block = s.facts.block → s.w.saved = false → s.w.life = .waiting (.barrier s.facts.id true) →
      t.w = (s.w.retired (s.w.pc + 4)).ordered) ∧
    (s.w.key.block ≠ s.facts.block → t.w = s.w) ∧ t.mem = s.mem ∧ t.blk = s.blk

/-- 09/R261: GONG.ARRIVE commits at the tag's level and counts; the arrival that reaches the expected count ends the episode.
GONG.WAIT goes on once its episode has ended, with no old bound value left (log 38), and waits before. -/
def Sys2Proof.Claims.GongArriveWait : Prop :=
  ∀ (s u : State) (tag : BitVec 3), s.hm = false → (s.gongTag tag).level ≠ 0 →
    let g := s.gongTag tag
    (commitTo g.level s = .ok ((), u) →
      ∃ t, exec (.gongArrive tag) s = .next t ∧ pick t.w.gong tag = some g.episode ∧
        (g.arrivals + 1 < g.expected → pick t.launch.gong tag = { g with arrivals := g.arrivals + 1 }) ∧
        (g.expected ≤ g.arrivals + 1 → pick t.launch.gong tag = { g with arrivals := 0, episode := g.episode + 1 }) ∧
        t.w.pc = u.w.pc + 4) ∧
    (∀ e, pick s.w.gong tag = some e →
      (e < g.episode → Claims.Does (.gongWait tag) 4 s (s.acquireAt g.level)) ∧
      (g.episode ≤ e → exec (.gongWait tag) s = .next ((s.await (.gong tag e)).holds (.gongWait tag))))

/-- 09/R261: GONG_RELEASE retires the waves of the launch whose episode has ended, with no old bound value left (log 38). -/
def Sys2Proof.Claims.GongRelease : Prop :=
  ∀ (s : State) (l : Launch) (e : Nat), s.findLaunch s.facts.launch = some l →
    let tag : BitVec 3 := s.facts.tag.setWidth 3
    ∃ t, exec .gongRelease s = .next t ∧ t.mem = s.mem ∧
      (s.w.key.launch = l.id → s.w.saved = false → s.dev.halt = false → s.dev.powered = true → s.w.life = .waiting (.gong tag e) →
        (e < (pick l.gong tag).episode → t.w = (s.w.retired (s.w.pc + 4)).ordered) ∧ ((pick l.gong tag).episode ≤ e → t.w = s.w))

/-- 09/R265, R266, 06/R195: MB.INIT writes and tags a slot, or drops it, which ends waits and begins the watchdog period of those that go on;
MB.ARRIVE counts down; the count that reaches 0 flips the parity, reloads and wakes the waits. -/
def Sys2Proof.Claims.BarrierObjects : Prop :=
  ∀ (s u : State) (sa sb : SReg) (lit : DWord), lit.hi = 0 →
    let o := (s.sreg sa).toNat
    let k := s.w.key.block
    let init (v : Word) : State :=
      let x := s.putScratch (placed o (leBytes 4 v.toNat ++ leBytes 4 0 ++ leBytes 4 v.toNat ++ leBytes 4 0))
      let y : State := { x with blk := { x.blk with tags := if x.blk.tagged o then x.blk.tags else o :: x.blk.tags } }
      ((y.setW (y.w.wbuf.dropSlot o)).mapWaves (Wave.endMbWait k o id true 0)).objectMoved k o
    let drop : State :=
      let y : State := { s with blk := { s.blk with tags := s.blk.tags.filter (· != o) } }
      (y.mapWaves (Wave.endMbWait k o (fun _ => true) false (s.blk.word (o + 4)))).objectMoved k o
    (o % 16 = 0 → o + 16 ≤ s.blk.localSize → s.slotHeld o = false →
      (∀ v, (v = s.sreg sb ∧ 0 < v.toInt → Claims.Does (.mbInit sa sb) 4 s (init v)) ∧
        (v = lit.lo ∧ 0 < v.toInt → Claims.Does (.mbInitLiteral sa lit) 12 s (init v))) ∧
      (s.sreg sb = 0xFFFFFFFF → Claims.Does (.mbInit sa sb) 4 s drop) ∧
      (lit.lo = 0xFFFFFFFF → Claims.Does (.mbInitLiteral sa lit) 12 s drop)) ∧
    (s.blk.tagged o = true → moveWB s = .ok ((), u) →
      (0 < (s.sreg sb).toInt → Claims.Does (.mbArrive sa sb) 4 s (u.decrement u.w.key o (s.sreg sb).toNat)) ∧
      (0 < lit.lo.toInt → Claims.Does (.mbArriveLiteral sa lit) 12 s (u.decrement u.w.key o lit.lo.toNat)))

/-- 09/R264: Decrement, for a wave, on an object of the block in focus: above 0 the count is stored; else word 1 flips its parity and the
count takes the reload value. -/
def Sys2Proof.Claims.ObjectDecrement : Prop :=
  ∀ (s : State) (k : WaveKey) (o d : Nat), k.block = s.blk.key → Memory.wf s.blk.scratch →
    let b := s.blk
    let c := (b.word o).toInt - d
    let t := s.decrement k o d
    (0 < c → t.blk = b.setWord o (BitVec.ofInt 32 c) ∧ t.w.life = s.w.life ∧ (k = s.w.key → s.w.life = .ready → t.w = s.w)) ∧
    (t.w.sregs = s.w.sregs ∧ t.w.vregs = s.w.vregs ∧ t.w.status = s.w.status ∧ t.w.pc = s.w.pc) ∧
    (c ≤ 0 → t.blk.word o = b.word (o + 8) ∧ t.blk.word (o + 4) = b.word (o + 4) ^^^ 1) ∧
    t.mem = s.mem ∧ t.gang = s.gang

/-- 09/R267: MB.WAIT goes on at once when the parity differs from sd's bit 0, with word 1 in sd and SCC = 1; a wait that has
ended gives word 1 and how it ended; MB.TEST gives SCC and never waits. One that finds the generation ended leaves no old bound value: log 38. -/
def Sys2Proof.Claims.BarrierObjectWaits : Prop :=
  ∀ (s : State) (sd sa sb : SReg) (lit : DWord), lit.hi = 0 →
    let o := (s.sreg sa).toNat
    let w1 := s.blk.word (o + 4)
    let p := (s.sreg sd).getLsbD 0
    s.blk.tagged o = true →
    (w1.getLsbD 0 ≠ p → Claims.Does (.mbTest sd sa) 4 s ((s.setS sd w1).setScc true).ordered) ∧
    (w1.getLsbD 0 = p → Claims.Does (.mbTest sd sa) 4 s ((s.setS sd w1).setScc false)) ∧
    (s.w.life = .ready →
      (w1.getLsbD 0 ≠ p → Claims.Does (.mbWait sd sa sb) 4 s ((s.setS sd w1).setScc true).ordered ∧
        Claims.Does (.mbWaitLiteral sd sa lit) 12 s ((s.setS sd w1).setScc true).ordered) ∧
      (w1.getLsbD 0 = p → exec (.mbWait sd sa sb) s = .next ((s.await (.mbwait o sd p
        (if s.sreg sb = 0 then none else some (s.co.cycle + (s.sreg sb).toNat)) none)).holds (.mbWait sd sa sb)) ∧
        exec (.mbWaitLiteral sd sa lit) s = .next ((s.await (.mbwait o sd p
        (if lit.lo = 0 then none else some (s.co.cycle + lit.lo.toNat)) none)).holds (.mbWaitLiteral sd sa lit)))) ∧
    (∀ obj r par dl ok word, s.w.life = .waiting (.mbwait obj r par dl (some (ok, word))) →
      let t := if ok then ((s.setS sd word).setScc true).ordered else (s.setS sd word).setScc false
      Claims.Does (.mbWait sd sa sb) 4 s t ∧ Claims.Does (.mbWaitLiteral sd sa lit) 12 s t)

/-- 09/R267, 12/R345: MB_WAIT_TIMEOUT ends a wait whose deadline the core's CYCLE has reached, with TMO set in word 1; before it, while
the device is halted or its core rails are off, or while the wave is saved, nothing happens. -/
def Sys2Proof.Claims.BarrierObjectTimeout : Prop :=
  ∀ (s : State) (o : Nat) (r : SReg) (p : Bool) (d : Nat), s.facts.wave = s.w.key → s.w.life = .waiting (.mbwait o r p (some d) none) →
    s.blk.key = s.w.key.block → Memory.wf s.blk.scratch →
    ((s.dev.halt = true ∨ s.dev.powered = false ∨ s.w.saved = true ∨ s.co.cycle < d) → exec .mbWaitTimeout s = .next s) ∧
    (s.dev.halt = false → s.dev.powered = true → s.w.saved = false → d ≤ s.co.cycle → ∃ t, exec .mbWaitTimeout s = .next t ∧
      t.w.life = .waiting (.mbwait o r p (some d) (some (false, s.blk.word (o + 4) ||| 0x400))) ∧
      t.blk.word (o + 4) = s.blk.word (o + 4) ||| 0x400 ∧ t.mem = s.mem)

/-- 09/R268 to R270: QPUSH into a queue with room, QPOP and QTRY of an entry. The waiting QPOPs of the block come before a QTRY: with no more
entries than they take it clears SCC, else they are served in its own step and it takes the next entry (log 84). An entry taken leaves no old
bound value (log 38).
The wrong stage or an undeclared queue raises QUEUEERR. -/
def Sys2Proof.Claims.Queues : Prop :=
  ∀ (s u : State) (q : BitVec 3) (sa sd : SReg),
    let x := pick s.blk.queues q
    let popped (z : State) : State :=
      let y := pick z.blk.queues q
      ((z.queueMoved q { y with head := (y.head + 1) % y.cap, count := y.count - 1 }).setS sd
        (z.blk.word (y.ring + 4 * (y.head % y.cap)))).ordered
    let n := (s.waitingPops q).length
    (x.cap = 0 ∨ s.w.stage ≠ x.prod → exec (.qpush q sa) s = .next (s.trapEntry { cause := .queueerr, arg := q.toNat } s.w.pc)) ∧
    (x.cap = 0 ∨ s.w.stage ≠ x.cons → exec (.qtry q sd) s = .next (s.trapEntry { cause := .queueerr, arg := q.toNat } s.w.pc)) ∧
    (0 < x.cap → s.w.stage = x.prod → x.count < x.cap → s.queuedBefore q true = false → moveWB s = .ok ((), u) →
      Claims.Does (.qpush q sa) 4 s ((u.putScratch (placed (x.ring + 4 * (x.tail % x.cap)) (leBytes 4 (u.sreg sa).toNat))).queueMoved q
        { x with tail := (x.tail + 1) % x.cap, count := x.count + 1 })) ∧
    (0 < x.cap → s.w.stage = x.cons →
      (x.count ≤ n → Claims.Does (.qtry q sd) 4 s (s.setScc false)) ∧
      (n < x.count → Claims.Does (.qtry q sd) 4 s ((popped ((List.range n).foldl (fun z _ => z.servePop q) s)).setScc true)) ∧
      (∀ w t r, s.waitingPops q = [(w, t, r)] → 1 < x.count → (∀ v ∈ s.waves, v.key = w.key → v = w) → w.key ≠ s.w.key →
        ∃ z, exec (.qtry q sd) s = .next z ∧ z.scc = true ∧ z.sreg sd = s.blk.word (x.ring + 4 * ((x.head + 1) % x.cap)) ∧
          z.findWave w.key = some ((w.retired (w.pc + 4)).ordered.withS r (s.blk.word (x.ring + 4 * (x.head % x.cap)))) ∧
          (pick z.blk.queues q).count = x.count - 2) ∧
      (0 < x.count → s.queuedBefore q false = false → s.hm = false → Claims.Does (.qpop q sd) 4 s (popped s)))

/-! ### When the instructions of memory and of synchronisation complete -/

namespace Sys2Proof.Claims

/-- The W, B and G places of the wave hold no line. -/
def NoLines (s : State) : Prop := s.w.wbuf.lines = [] ∧ s.blk.place.lines = [] ∧ s.gang.place.lines = []

/-- Its three places emptied. -/
def emptied (s : State) : State := ((s.setW Place.empty).setB Place.empty).setG Place.empty

/-- Nothing stands between a write at D and this device's memory: no core holds a partial, no snapshot is active, no restore is in
progress (07/R222, 08/R245, 14/R382). -/
def Clear (s : State) : Prop := s.parts = [] ∧ s.snaps = [] ∧ s.restores = []

/-- The core holds no dirty byte of this device (13/R373). -/
def NoDirty (s : State) : Prop := ∀ l ∈ s.co.cache ++ s.co.ckc, l.dev = s.dev.devnum → l.dirty = []

/-- Every lane's place is local or homed on this device. -/
def HomedHere (s : State) (p : List (Lane × Loc)) : Prop := ∀ x ∈ p, x.2.isLocal = true ∨ x.2.dev = s.dev.devnum

/-- How many lines some lanes touch. -/
def linesOf (p : List (Lane × Loc)) : Nat := (p.map fun x => (x.2.isLocal, x.2.dev, lineOf x.2.pa)).dedup.length

/-- The place in which a store or an atomic leaves its bytes has room for the lines of its lanes: the W, B or G buffer; the scratchpad, D and
X always have (07/R197, R199, R200). -/
def Fits (a : Mem) (s : State) (p : List (Lane × Loc)) : Prop :=
  (a.lvl = 0 → s.w.wbuf.used + linesOf p ≤ 64) ∧
  (a.loc = false → a.lvl = 1 → s.blk.place.used + linesOf p ≤ s.blk.bcap) ∧
  (a.loc = false → a.lvl = 2 → s.gang.place.used + linesOf p ≤ s.gang.gcap)

/-- The places below a level emptied: what Commit leaves of places that hold no line (07/R205). -/
def emptiedTo (rank : Nat) (s : State) : State :=
  let s := if 1 ≤ rank then s.setW Place.empty else s
  let s := if 2 ≤ rank then s.setB Place.empty else s
  if 3 ≤ rank then s.setG Place.empty else s

/-- The state in which an access goes on after the commit of its release order, where the places hold no line. -/
def afterRelease (a : Mem) (s : State) : State :=
  if a.commits = true ∧ s.w.released = false then (emptiedTo (rankOf a.lvl) s).setReleased else s

/-- What an access asks for, of the state and the operands alone, where the places hold no line: its checks pass, those that need no tag also
before the commit of a release order, and a commit at X finds no dirty byte in the core. -/
def Passes (a : Mem) (o : MemOps) (s : State) (p : List (Lane × Loc)) : Prop :=
  Checked a o s (afterRelease a (fresh a s)) p ∧
  (a.commits = true → s.w.released = false → a.checks o (fresh a s) false = .ok ⟨p, []⟩ ∧ (rankOf a.lvl = 4 → NoDirty s))

/-- The byte that the lanes of a store leave at an address: of those that cover it the highest writes last (08/R232). -/
def storedByte (a : Mem) (o : MemOps) (u : State) (p : List (Lane × Loc)) (loc : Bool) (dev pa : Nat) : Option Byte :=
  p.reverse.findSome? fun x =>
    if x.2.isLocal = loc ∧ x.2.dev = dev ∧ x.2.pa ≤ pa ∧ pa < x.2.pa + a.bytes then (leBytes a.bytes (o.x u x.1.lane))[pa - x.2.pa]? else none

/-- A place `y` that holds the bytes of `x` and over them those of a store. -/
def Holds (x y : Place) (stored : Bool → Nat → Nat → Option Byte) : Prop :=
  ∀ loc dev pa, (y.byte loc dev pa).map (·.1) = (stored loc dev pa).orElse fun _ => (x.byte loc dev pa).map (·.1)

/-- What a store or an atomic leaves alone whatever its level: registers, STATUS and the pc's advance. -/
def RegsKept (u t : State) (len : Nat) : Prop :=
  t.w.sregs = u.w.sregs ∧ t.w.vregs = u.w.vregs ∧ t.w.status = u.w.status ∧ t.w.pc = u.w.pc + BitVec.ofNat 64 len ∧ t.w.xts = u.w.xts ∧
    t.w.accs = u.w.accs ∧ t.w.tvec = u.w.tvec ∧ t.w.bndst = u.w.bndst

/-- Memory after the lanes of an atomic, one after another: each reads its old value and writes the new one (08/R232, R241). -/
def atomicMemory (a : Mem) (o : MemOps) (u : State) : Memory → List (Lane × Loc) → Memory
  | m, [] => m
  | m, x :: xs =>
    let n := 8 * a.bytes
    let new := atomicValue a.aop n (m.value x.2.pa a.bytes) (o.x u x.1.lane % 2 ^ n) (o.c u x.1.lane % 2 ^ n)
    atomicMemory a o u (m.writeAll (placed x.2.pa (leBytes a.bytes new))) xs

/-- Every lane's line is on a coherent page of this device whose vault is not fenced, and none is being restored. -/
def AtHome (a : Mem) (u : State) (p : List (Lane × Loc)) : Prop :=
  ∀ x ∈ p, x.2.isLocal = false ∧ x.2.coh = true ∧ x.2.dev = u.dev.devnum ∧ u.vaultFenced (64 * lineOf x.2.pa) = false ∧
    ∀ k, k < a.bytes → u.restoring x.2.dev (x.2.pa + k) = false

end Sys2Proof.Claims

/-- 08/R232, R236 to R242, 07/R218: a load, store or atomic, with a release order or without, whose lanes pass the checks retires, when its
places are local or homed here, nothing stands between it and memory, and the buffer it writes has room. -/
def Sys2Proof.Claims.AccessesComplete : Prop :=
  ∀ (i : Instr) (off : DWord) (len : Nat) (s : State) (p : List (Lane × Loc)), i.wellFormed = true → Claims.Calm s →
    Claims.NoLines s → Claims.Clear s → Claims.HomedHere s p →
    (∀ m, Claims.scalarLoad i = some (m, off, len) →
      Claims.Passes (msMem m .load) (Claims.loadOps m off) s p → Claims.Completes i len s) ∧
    (∀ m, Claims.scalarStore i = some (m, off, len) → Claims.Fits (msMem m .store) s p →
      Claims.Passes (msMem m .store) (Claims.storeOps m off) s p → Claims.Completes i len s) ∧
    (∀ m, Claims.scalarAtomic i = some (m, off, len) →
      let a := msMem m (atomicKind m.aop)
      Claims.Fits a s p → Claims.Passes a (Claims.atomicOps m off) s p → Claims.Completes i len s) ∧
    (∀ m, Claims.vectorLoad i = some (m, off, len) →
      m.voff.toNat < s.w.valloc → m.vt.toNat + wordsOf (mxMem m .load).bytes ≤ s.w.valloc →
      (∀ k ∈ Claims.runOf m, (s.vreg k).pend = false ∧ Claims.Unbound s (s.vreg k).bnd) →
      Claims.Passes (mxMem m .load) (Claims.vloadOps m off) s p → Claims.Completes i len s) ∧
    (∀ m, Claims.vectorStore i = some (m, off, len) →
      let a := mxMem m .store
      m.voff.toNat < s.w.valloc → m.vt.toNat + wordsOf a.bytes ≤ s.w.valloc →
      Claims.Fits a s p → Claims.Passes a (Claims.vstoreOps m off) s p → Claims.Completes i len s) ∧
    (∀ m, Claims.vectorAtomic i = some (m, off, len) →
      let a := mxMem m (atomicKind m.aop)
      let words := wordsOf a.bytes
      m.voff.toNat < s.w.valloc → m.vt.toNat + (if isCas m.aop then 2 * words else words) ≤ s.w.valloc →
      (∀ k ∈ Claims.runOf m, (s.vreg k).pend = false) →
      Claims.Fits a s p → Claims.Passes a (Claims.vatomicOps m off) s p → Claims.Completes i len s)

/-- 07/R197, R199, R200, R201, 08/R237: a store, scalar or vector, at W, or at B or G of global bytes, leaves its lanes' bytes in the wave's W
buffer, the block buffer or the gang buffer, where there is room for their lines, and changes neither memory, the scratchpad nor another
place. -/
def Sys2Proof.Claims.StoresInPlaces : Prop :=
  ∀ (i : Instr) (off : DWord) (len : Nat) (s b u : State) (p : List (Lane × Loc)), i.wellFormed = true →
    let out (a : Mem) (o : MemOps) : Prop :=
      let stored := Claims.storedByte a o u p
      let clean (x : Place) : Prop := ∀ l ∈ x.lines, l.sent = none
      Claims.Ready a o [] s b p → Claims.Prepared a o [] b p u → (∀ x ∈ p, x.2.pa % 64 + a.bytes ≤ 64) → Claims.Fits a u p →
      (a.lvl = 0 → clean u.w.wbuf → ∃ t, exec i s = .next t ∧ Claims.Holds u.w.wbuf t.w.wbuf stored ∧ t.blk = u.blk ∧ t.gang = u.gang ∧
        (∀ x, t.mem.read x = u.mem.read x) ∧ Claims.RegsKept u t len) ∧
      (a.loc = false → a.lvl = 1 → 0 < u.blk.bcap → clean u.blk.place → ∃ t, exec i s = .next t ∧ Claims.Holds u.blk.place t.blk.place stored ∧
        t.blk = { u.blk with place := t.blk.place } ∧ t.w.wbuf = u.w.wbuf ∧ t.gang = u.gang ∧ (∀ x, t.mem.read x = u.mem.read x) ∧
        Claims.RegsKept u t len) ∧
      (a.loc = false → a.lvl = 2 → 0 < u.gang.gcap → clean u.gang.place → ∃ t, exec i s = .next t ∧
        Claims.Holds u.gang.place t.gang.place stored ∧ t.gang = { u.gang with place := t.gang.place } ∧ t.w.wbuf = u.w.wbuf ∧ t.blk = u.blk ∧
        (∀ x, t.mem.read x = u.mem.read x) ∧ Claims.RegsKept u t len)
    (∀ m, Claims.scalarStore i = some (m, off, len) → out (msMem m .store) (Claims.storeOps m off)) ∧
    (∀ m, Claims.vectorStore i = some (m, off, len) → m.voff.toNat < s.w.valloc → m.vt.toNat + wordsOf (mxMem m .store).bytes ≤ s.w.valloc →
      out (mxMem m .store) (Claims.vstoreOps m off))

/-- 07/R201, 08/R232, R237, 13/R367: a store at D, scalar or vector, on coherent pages of this device leaves its lanes' bytes at the home, where
the highest lane that covers a byte writes it, and changes no other byte of memory. -/
def Sys2Proof.Claims.StoresAtHome : Prop :=
  ∀ (i : Instr) (off : DWord) (len : Nat) (s b u : State) (p : List (Lane × Loc)), i.wellFormed = true →
    let out (a : Mem) (o : MemOps) : Prop := a.lvl = 3 → a.loc = false →
      Claims.Ready a o [] s b p → Claims.Prepared a o [] b p u → Claims.AtHome a u p → u.parts = [] → u.snaps = [] → Claims.NoDirty u →
      Memory.wf u.mem → ∃ t, exec i s = .next t ∧
        (∀ x, t.mem.read x = (Claims.storedByte a o u p false u.dev.devnum x).getD (u.mem.read x)) ∧
        t.w.wbuf = u.w.wbuf ∧ t.blk = u.blk ∧ t.gang = u.gang ∧ Claims.RegsKept u t len
    (∀ m, Claims.scalarStore i = some (m, off, len) → out (msMem m .store) (Claims.storeOps m off)) ∧
    (∀ m, Claims.vectorStore i = some (m, off, len) → m.voff.toNat < s.w.valloc → m.vt.toNat + wordsOf (mxMem m .store).bytes ≤ s.w.valloc →
      out (mxMem m .store) (Claims.vstoreOps m off))

/-- 07/R219, 08/R232, R241, R242: an atomic at D that returns a value, scalar or vector, on coherent pages of this device, in a wave whose
places hold no line, leaves the new values at the home, one lane after another, and changes no other byte of memory; a scalar one with V = 1
answers the old value. -/
def Sys2Proof.Claims.AtomicsAtHome : Prop :=
  ∀ (i : Instr) (off : DWord) (len : Nat) (s b u : State) (p : List (Lane × Loc)), i.wellFormed = true →
    let out (a : Mem) (o : MemOps) (dest : List Nat) (kept : State → Prop) : Prop := a.lvl = 3 → a.loc = false →
      Claims.Ready a o dest s b p → Claims.Prepared a o dest b p u → Claims.NoLines u → Claims.AtHome a u p → u.parts = [] → u.snaps = [] →
      Claims.NoDirty u → Memory.wf u.mem → ∃ t, exec i s = .next t ∧
        (∀ x, t.mem.read x = (Claims.atomicMemory a o u u.mem p).read x) ∧ t.blk = u.blk ∧ t.gang = u.gang ∧ t.w.status = u.w.status ∧
        t.w.pc = u.w.pc + BitVec.ofNat 64 len ∧ kept t
    (∀ m, Claims.scalarAtomic i = some (m, off, len) → updateOnly m.aop = false →
      let a := msMem m .atomic
      out a (Claims.atomicOps m off) [] fun t => t.w.vregs = u.w.vregs ∧ (m.v = 0 → t.w.sregs = u.w.sregs) ∧
        ∀ ln l, p = [(ln, l)] → m.v = 1 →
          let old := u.mem.value l.pa a.bytes
          (if a.bytes = 8 then t.spair m.sd = BitVec.ofNat 64 old else t.sreg m.sd = BitVec.ofNat 32 old) ∧
          ∀ r : SReg, r ≠ m.sd → (a.bytes = 8 → r ≠ m.sd + 1) → t.sreg r = u.sreg r) ∧
    (∀ m, Claims.vectorAtomic i = some (m, off, len) → updateOnly m.aop = false → m.voff.toNat < s.w.valloc →
      m.vt.toNat + (if isCas m.aop then 2 else 1) * wordsOf (mxMem m .atomic).bytes ≤ s.w.valloc →
      (m.v = 1 → ∀ k ∈ Claims.runOf m, (u.vreg k).pend = false) →
      out (mxMem m .atomic) (Claims.vatomicOps m off) (if m.v = 1 then Claims.runOf m else []) fun t =>
        t.w.sregs = u.w.sregs ∧ (m.v = 0 → t.w.vregs = u.w.vregs))

/-- 07/R205, R220, 08/R246: COMMIT and FENCE at each level complete when the places hold no line, at X when the core holds no
dirty byte either. -/
def Sys2Proof.Claims.CommitsComplete : Prop :=
  ∀ (s : State), Claims.NoLines s →
    let out (lvl : BitVec 3) (t : State) : Prop :=
      Claims.Does (.commit lvl) 4 s t ∧ Claims.Does (.fence lvl) 4 s (t.acquireAt lvl.toNat)
    out 1 (s.setW Place.empty) ∧ out 2 ((s.setW Place.empty).setB Place.empty) ∧ out 3 (Claims.emptied s) ∧
    (Claims.NoDirty s → out 4 (Claims.emptied s)) ∧
    (Claims.Calm s → s.w.conflict = false → Claims.Does .commitBV 4 s ((s.setW Place.empty).clearSig.setScc true))

/-- 04/R140, 09/R257, R261, R266, R270: what commits its W buffer first completes when the places hold no line: WEND, an arrival on a
barrier, GONG.ARRIVE, MB.ARRIVE and QPUSH. -/
def Sys2Proof.Claims.ArrivalsComplete : Prop :=
  ∀ (s : State) (c : BitVec 1) (n : BitVec 5) (id : BitVec 4) (tag q : BitVec 3) (sa sb : SReg) (lit : DWord), Claims.NoLines s →
    (∃ t, exec .wend s = .next t ∧ t.w.life = .ended ∧ t.w.killed = false ∧ t.w.seqno = s.w.seqno + 1) ∧
    (s.hm = false → 1 ≤ n.toNat → n.toNat ≤ 16 → ((s.bar id).expected = none ∨ (s.bar id).expected = some n.toNat) →
      Claims.Completes (.barArrive n id) 4 s ∧ ((s.bar id).count + 1 = n.toNat → Claims.Completes (.barSync c n id) 4 s)) ∧
    (s.hm = false → (s.gongTag tag).level ≠ 0 → (s.gongTag tag).level ≤ 3 → Claims.Completes (.gongArrive tag) 4 s) ∧
    (s.blk.tagged (s.sreg sa).toNat = true →
      (0 < (s.sreg sb).toInt → Claims.Completes (.mbArrive sa sb) 4 s) ∧
      (lit.hi = 0 → 0 < lit.lo.toInt → Claims.Completes (.mbArriveLiteral sa lit) 12 s)) ∧
    (let x := pick s.blk.queues q
     0 < x.cap → s.w.stage = x.prod → x.count < x.cap → s.queuedBefore q true = false → Claims.Completes (.qpush q sa) 4 s)

/-! ### Copy engine, launches and snapshots (09/R271 to R280, 12/R332, 14/R379 to R394) -/

/-- 09/R279: CPKICK gives the core's copy engine the 64 bytes at sa, counted in the open batch; the request's checks are made
as it starts. A misaligned or outlying request traps; a full engine makes it wait. That it reads the 64 bytes at once, whatever ranges of
requests cover them, is the model's choice (log 81). -/
def Sys2Proof.Claims.CopyKick : Prop :=
  ∀ (s : State) (sa : SReg), Claims.Calm s →
    let o := (s.sreg sa).toNat
    let raw := s.readAt 0 false ⟨true, 0, o, BitVec.ofNat 64 o, 0, true⟩ 64
    let id := s.dev.nextWork
    (o % 64 ≠ 0 → exec (.cpkick sa) s = .next (s.trapEntry { cause := .align, taddr := BitVec.ofNat 64 o } s.w.pc)) ∧
    (o % 64 = 0 → s.blk.localSize < o + 64 →
      exec (.cpkick sa) s = .next (s.trapEntry { cause := .prot, taddr := BitVec.ofNat 64 o } s.w.pc)) ∧
    (o % 64 = 0 → o + 64 ≤ s.blk.localSize → 32 ≤ s.co.kicks.length → exec (.cpkick sa) s = .next (s.await .memdep)) ∧
    (o % 64 = 0 → o + 64 ≤ s.blk.localSize → s.co.kicks.length < 32 → raw.2 = false → s.dev.powered = true → (∀ x ∈ s.co.kicks, x.id ≠ id) →
      ∃ t k, exec (.cpkick sa) s = .next t ∧ t.kick s.w.core id = some k ∧ k.raw = raw.1 ∧ k.off = o ∧ k.first = true ∧
        k.owner = s.w.key ∧ k.ctx = s.w.ctx ∧ k.pc = s.w.pc ∧
        (s.blk.key = s.w.key.block → s.co.ranges.length < 32 → k.started = true ∧ k.err = ((Req.ofBytes raw.1).check true s.blk).1) ∧
        t.w.unsealed = s.w.unsealed ++ [id] ∧ t.w.pc = s.w.pc + 4 ∧ t.w.sregs = s.w.sregs ∧ t.w.status = s.w.status ∧
        t.blk = s.blk ∧ t.mem = s.mem)

/-- 09/R280: CPSEAL closes the open batch under the next number, once the batch that held that number is complete. That
reports of that batch which nobody has taken stay with the number is the model's choice (log 81). -/
def Sys2Proof.Claims.CopySeal : Prop :=
  ∀ (s : State) (sd : SReg), Claims.Calm s →
    let n := s.w.nextBatch
    (s.batchDone n = false → exec (.cpseal sd) s = .next (s.await (.cpseal n))) ∧
    (s.batchDone n = true → ∃ t, Claims.Does (.cpseal sd) 4 s t ∧ t.sreg sd = n.setWidth 32 ∧ t.w.nextBatch = n + 1 ∧
      t.w.unsealed = [] ∧
      (∀ k, k ∈ pick t.w.batchKicks n ↔ k ∈ s.w.unsealed ∨ (k ∈ pick s.w.batchKicks n ∧ ∃ r ∈ s.w.reports, r.kick = k)) ∧
      (∀ m, m ≠ n → pick t.w.batchKicks m = pick s.w.batchKicks m) ∧ (∀ r, r ≠ sd → t.sreg r = s.sreg r) ∧
      t.w.status = s.w.status ∧ t.mem = s.mem ∧ t.blk = s.blk ∧ t.gang = s.gang ∧ t.w.vregs = s.w.vregs)

/-- 09/R278, R280: CPWAIT waits for the batch, CPTEST tells in SCC; a complete batch with a report of ERR 0x09 raises BAROBJ with
the slot's offset and clears the report. -/
def Sys2Proof.Claims.CopyWait : Prop :=
  ∀ (s : State) (sb : SReg) (lit : DWord), lit.hi = 0 →
    let both (n : BitVec 4) (w c : Instr) (len : Nat) : Prop :=
      let mine (r : BatchReport) : Bool := (pick s.w.batchKicks n).contains r.kick
      (s.batchDone n = false → exec w s = .next ((s.await (.cpwait n)).holds w) ∧ Claims.Does c len s (s.setScc false)) ∧
      (s.batchDone n = true → s.w.reports.any mine = false → Claims.Does w len s s ∧ Claims.Does c len s (s.setScc true)) ∧
      (∀ r, s.batchDone n = true → s.w.reports.find? mine = some r →
        let t : State := { s with w := { s.w with reports := s.w.reports.erase r } }
        exec w s = .next (t.trapEntry { cause := .barobj, taddr := BitVec.ofNat 64 r.slot } s.w.pc) ∧
        exec c s = .next (t.trapEntry { cause := .barobj, taddr := BitVec.ofNat 64 r.slot } s.w.pc))
    both ((s.sreg sb).extractLsb' 0 4) (.cpwait sb) (.cptest sb) 4 ∧
    both (lit.extractLsb' 0 4) (.cpwaitLiteral lit) (.cptestLiteral lit) 12

/-- 09/R277, R281: a chained request is taken from the local area after its predecessor; a request that waited for the
scoreboard starts when there is room. -/
def Sys2Proof.Claims.CopyFetch : Prop :=
  ∀ (s : State) (k : Kick), s.kick s.facts.core s.facts.num = some k → s.w.key = k.owner → s.blk.key = k.owner.block → Claims.Calm s →
    (s.core s.facts.core).ranges.length < 32 →
    let next := s.blk.scratch.bytes k.req.nxt 64
    (k.finished = true → ∃ t x, exec .copyRequestFetch s = .next t ∧ t.kick s.facts.core s.facts.num = some x ∧ x.raw = next ∧
      x.off = k.req.nxt ∧ x.first = false ∧ x.owner = k.owner ∧ x.prevCk = k.prevCk ∧ x.started = true ∧
      x.err = ((Req.ofBytes next).check false s.blk).1 ∧ t.w = s.w ∧ t.blk = s.blk ∧ t.mem = s.mem) ∧
    (k.finished = false → k.started = false → ∃ t x, exec .copyRequestFetch s = .next t ∧
      t.kick s.facts.core s.facts.num = some x ∧ x.started = true ∧ x.raw = k.raw ∧ x.err = (k.req.check k.first s.blk).1 ∧
      t.w = s.w ∧ t.blk = s.blk ∧ t.mem = s.mem) ∧
    (k.finished = false → k.started = true → exec .copyRequestFetch s = .next s)

/-- 09/R273: a line of a copy from the local area to the local area at B: the source bytes stand at the destination, the other
bytes are as before, and the request has moved on. How many bytes one event moves, up to the end of a line of the source or of the
destination, is log 22. -/
def Sys2Proof.Claims.CopyLine : Prop :=
  ∀ (s : State) (k : Kick), s.kick s.facts.core s.facts.num = some k → s.w.key = k.owner → s.blk.key = k.owner.block →
    k.started = true → k.finished = false → k.err = 0 → k.held = none → s.engineSent s.facts.core k = none → k.saved = [] → k.inj = none → Memory.wf s.blk.scratch →
    let r := k.req
    r.opc = 0 → r.sloc = true → r.dloc = true → r.dlvl = 1 → r.obj = 0xFFFFFFFF → k.row < r.rowCount → k.pos < r.len →
    let src := r.src.toNat % 2 ^ 32 + k.row * r.sstr + k.pos
    let dst := r.dst.toNat % 2 ^ 32 + k.row * r.dstr + k.pos
    let n := min (r.len - k.pos) (min (64 - src % 64) (64 - dst % 64))
    src + n ≤ s.blk.localSize → dst + n ≤ s.blk.localSize → (∀ i, i < n → s.blk.poison.contains (lineOf (src + i)) = false) →
    ∃ t x, exec .copyLineTransfer s = .next t ∧
      (∀ i, i < n → t.blk.scratch.read (dst + i) = s.blk.scratch.read (src + i)) ∧
      (∀ a, a < dst ∨ dst + n ≤ a → t.blk.scratch.read a = s.blk.scratch.read a) ∧
      t.kick s.facts.core s.facts.num = some x ∧ x.err = 0 ∧
      (k.pos + n < r.len → x.row = k.row ∧ x.pos = k.pos + n) ∧ (k.pos + n = r.len → x.row = k.row + 1 ∧ x.pos = 0) ∧
      t.w = s.w ∧ t.gang = s.gang ∧ t.mem = s.mem

/-- 09/R275 to R278: the end of a request writes CKOUT and STAT with DONE, its range leaves the scoreboard, and the kick goes
unless a chained request follows. That CKOUT and STAT are written in a tagged slot too is the model's choice (log 96). -/
def Sys2Proof.Claims.CopyEnd : Prop :=
  ∀ (s : State) (k : Kick), s.kick s.facts.core s.facts.num = some k → s.w.key = k.owner → s.blk.key = k.owner.block →
    k.started = true → k.finished = false → k.held = none → k.barslot = none → Memory.wf s.blk.scratch →
    let r := k.req
    k.err ≠ 0 ∨ r.total = 0 ∨ r.rowCount ≤ k.row → r.obj = 0xFFFFFFFF → k.err < 256 →
    let ck : Word := if r.ckon = false ∨ (k.err ≠ 0 ∧ k.row = 0 ∧ k.pos = 0) then 0 else if r.crc then ~~~k.sum else k.sum
    let mm : Bool := r.cmp && !(k.err != 0 && k.row == 0 && k.pos == 0) && ck != r.expect
    ∃ t, exec .copyRequestEnd s = .next t ∧
      t.blk.scratch.value (k.off + 56) 4 = ck.toNat ∧
      t.blk.scratch.value (k.off + 60) 4 =
        2 ^ 31 + k.err * 256 + (if k.noobj then 4 else 0) + (if k.link then 2 else 0) + (if mm then 1 else 0) ∧
      (∀ a, a < k.off + 56 ∨ k.off + 64 ≤ a → t.blk.scratch.read a = s.blk.scratch.read a) ∧
      (∀ x ∈ (t.core s.facts.core).ranges, x.isLoop = true ∨ x.owner ≠ k.id) ∧
      (k.err = 0 ∧ r.chain = true → ∃ x, t.kick s.facts.core s.facts.num = some x ∧ x.finished = true ∧ x.prevCk = ck) ∧
      (k.err ≠ 0 ∨ r.chain = false → t.kick s.facts.core s.facts.num = none) ∧ t.w.sregs = s.w.sregs ∧ t.w.life = s.w.life ∧
      (s.w.life = .ready → t.w = s.w) ∧ t.mem = s.mem

/-- 12/R332: LNCH commits at D, reads the record and checks it; a full queue clears SCC, else the record enters the ring, the
tail moves and SCC is set. A queue it may not feed, or a record that fails, raises LAUNCHERR. -/
def Sys2Proof.Claims.LaunchQueues : Prop :=
  ∀ (s u v x y : State) (sa sb : SReg) (a b : List Byte), sa.toNat % 2 = 0 →
    let p := s.spair sa
    let n := (s.sreg sb).toNat
    let q := s.queue (BitVec.ofNat 8 n)
    let feeds : Prop := n ≤ 255 ∧ q.src = true ∧ q.ctx.toNat = s.w.ctx.toNat ∧ q.en = true
    let rejected (z : State) : Prop := ∃ t, exec (.lnch sa sb) s = .next t ∧ t.cx.lrej = true ∧
      (Claims.CanHandle z → t.w.tcause = 0x15 ∧ t.w.taddr = p ∧ t.w.pc = z.w.tvec ∧ t.hm = true)
    (p.extractLsb' 0 6 ≠ 0#6 → exec (.lnch sa sb) s = .next (s.trapEntry { cause := .align, taddr := p } s.w.pc)) ∧
    (p.extractLsb' 0 6 = 0#6 → ¬ feeds → rejected s) ∧
    (p.extractLsb' 0 6 = 0#6 → feeds → commitTo 3 s = .ok ((), u) → u.leftRegion u.w.ctx p p = false →
      (∃ e, u.regionCheck u.w.ctx { r := true } p 128 = .ok e) → lnchLine p u = .ok (a, v) → lnchLine (p + 64) v = .ok (b, x) →
      let why := (Rec.ofBytes (a ++ b)).reason u.cx u.dev.gbres
      (why ≠ 0 → rejected x) ∧
      (why = 0 → q.qsize ≤ (q.tail - q.head).toNat → Claims.Does (.lnch sa sb) 4 s (x.setScc false)) ∧
      (why = 0 → (q.tail - q.head).toNat < q.qsize → lnchWrite q (a ++ b) x = .ok ((), y) → ∃ t, exec (.lnch sa sb) s = .next t ∧
        t.scc = true ∧ (t.queue (BitVec.ofNat 8 n)).tail = (y.queue (BitVec.ofNat 8 n)).tail + 1 ∧ t.w.pc = y.w.pc + 4 ∧
        t.mem = y.mem ∧ t.w.sregs = y.w.sregs ∧ t.w.vregs = y.w.vregs))

/-- 14/R388: SNAP makes a snapshot of a range that is one run of coherent pages of this device, nested at most 4 deep under the
deepest snapshot that contains it; its handle is the serial and the slot. A length of 0, or a range of another kind, gives
handle 0 and SCC = 0. A line of the tables that must be recalled or restored first comes first (07/R222, 08/R245). -/
def Sys2Proof.Claims.SnapshotTaken : Prop :=
  ∀ (s : State) (sd sa sb : SReg) (lit : DWord), lit.hi = 0 → sa.toNat % 2 = 0 →
    let p := s.spair sa
    let mine := s.snaps.filter fun x => x.ctx == s.w.ctx
    let form (i : Instr) (len n : Nat) : Prop :=
      (n = 0 → Claims.Does i len s ((s.setS sd 0).setScc false)) ∧
      (∀ x, n ≠ 0 → n % 64 = 0 → s.leftRegion s.w.ctx p p = false → s.xtHeld p = some x → exec i s = .next ((s.halted (.recall x.1 x.2)).holds i)) ∧
      (∀ (va : Nat) (l : Leaf),
        let f := l.pa va
        let covering := mine.filter fun x => x.contains f n
        n ≠ 0 → n % 64 = 0 → s.leftRegion s.w.ctx p p = false → s.leftRegion s.w.ctx p (p + BitVec.ofNat 64 (n - 1)) = false →
        s.xtHeld p = none → s.regionCheck s.w.ctx { r := true, w := true } p n = .ok va → s.translate s.w.ctx va = .leaf l →
        (∀ r ∈ s.restores, ¬ (r.lo < f + n ∧ f < r.lo + r.len)) →
        let oneRun : Prop := (∃ x, s.runAt s.w.ctx p = some x ∧ n ≤ x.2.2.2) ∧ l.coh = true ∧ l.dev = s.dev.devnum
        (¬ oneRun → Claims.Does i len s ((s.setS sd 0).setScc false)) ∧
        (oneRun → s.cx.poolsize ≠ 0 → (∃ k, ∀ x ∈ mine, x.slot ≠ k) → (∀ x ∈ mine, x.shares f n = true → x.contains f n = true) →
          (∀ x ∈ covering, x.depth < 4) →
          ∃ t z, Claims.Does i len s t ∧ t.snaps = s.snaps ++ [z] ∧ z.ctx = s.w.ctx ∧ z.base = p ∧ z.lo = f ∧ z.len = n ∧
            z.serial = s.cx.serial ∧ z.shadow = [] ∧ z.rejecting = false ∧ (∀ x ∈ mine, x.slot ≠ z.slot) ∧
            (covering = [] → z.parent = none ∧ z.depth = 1) ∧
            (covering ≠ [] → ∃ x ∈ covering, z.parent = some x.slot ∧ z.depth = x.depth + 1 ∧ ∀ y ∈ covering, y.depth ≤ x.depth) ∧
            t.sreg sd = z.serial ++ z.slot ∧ t.scc = true ∧
            t.cx.serial = (if s.cx.serial = BitVec.allOnes 28 then 1 else s.cx.serial + 1) ∧ t.mem = s.mem))
    p.extractLsb' 0 6 = 0#6 → form (.snap sd sa sb) 4 (s.sreg sb).toNat ∧ form (.snapLiteral sd sa lit) 12 lit.lo.toNat

/-- 14/R389, R393: SACC ends a snapshot with its descendants, memory as it is, its lines passing to a parent that holds none of
them; SQRY answers the shadow lines and the free lines of the pool; a handle that names nothing gives SCC = 0. -/
def Sys2Proof.Claims.SnapshotAccept : Prop :=
  ∀ (s : State) (sd sa : SReg) (h : Snap), Claims.Calm s →
    let free : Word := BitVec.ofNat 32 (s.poolFree s.w.ctx)
    (s.snapOf s.w.ctx (s.sreg sa) = none → Claims.Does (.sacc sa) 4 s (s.setScc false) ∧
      (sd.toNat % 2 = 0 → Claims.Does (.sqry sd sa) 4 s (((s.setS sd 0).setS (sd + 1) free).setScc false)) ∧
      ((∀ r ∈ s.restores, r.wave ≠ s.w.key) → Claims.Does (.srej sa) 4 s (s.setScc false))) ∧
    (s.snapOf s.w.ctx (s.sreg sa) = some h →
      (∃ t, Claims.Does (.sacc sa) 4 s t ∧ t.scc = true ∧ t.mem = s.mem ∧ t.w.sregs = s.w.sregs ∧
        (∀ q ∈ t.snaps, q.ctx = h.ctx → ∀ p ∈ s.subtree h, q.slot ≠ p.slot) ∧
        (∀ q ∈ s.snaps, q.ctx ≠ h.ctx → q ∈ t.snaps) ∧
        (s.subtree h = [h] → (∀ q ∈ s.snaps, q.ctx = h.ctx → q.slot = h.slot → q = h) →
          ∀ q ∈ t.snaps, q.ctx = h.ctx → h.parent = some q.slot → ∀ l ∈ h.shadow, ∃ k ∈ q.shadow, k.1 = l.1)) ∧
      (sd.toNat % 2 = 0 → Claims.Does (.sqry sd sa) 4 s
        (((s.setS sd (BitVec.ofNat 32 ((s.subtree h).map fun p => p.shadow.length).sum)).setS (sd + 1) free).setScc true)))

/-- 14/R390, R392: SREJ begins a restore of the range, with the oldest line that the snapshot or its descendants hold, and
SNAPSHOT_RESTORE_COMPLETE ends it: the lines hold their old bytes, the snapshots end, SREJ retires with SCC = 1. SNAPERR while a
place of the wave holds bytes of the range. -/
def Sys2Proof.Claims.SnapshotRejected : Prop :=
  ∀ (s : State) (sa : SReg) (h : Snap),
    let held : Bool := s.w.wbuf.inRange s.dev.devnum h.lo h.len || s.blk.place.inRange s.dev.devnum h.lo h.len ||
      s.gang.place.inRange s.dev.devnum h.lo h.len
    ((∀ r ∈ s.restores, r.wave ≠ s.w.key) → s.snapOf s.w.ctx (s.sreg sa) = some h →
      (held = true → exec (.srej sa) s = .next (s.trapEntry { cause := .snaperr, taddr := h.base } s.w.pc)) ∧
      (held = false → s.parts = [] → ∃ t r, exec (.srej sa) s = .next t ∧ t.restores = s.restores ++ [r] ∧ r.ctx = s.w.ctx ∧
        r.lo = h.lo ∧ r.len = h.len ∧ r.wave = s.w.key ∧ r.slots = (s.subtree h).map (·.slot) ∧
        r.lines = restoreLines (s.subtree h) ∧ t.w.life = .waiting .memdep ∧ t.w.pc = s.w.pc ∧ t.mem = s.mem ∧
        ∀ q ∈ t.snaps, q.ctx = h.ctx → q.slot ∈ r.slots → q.rejecting = true)) ∧
    (∀ (r : Restore) (line : Nat) (bs : List Byte) (bad : Bool), s.restores.find? (fun x => x.ctx = s.facts.ctx) = some r →
      r.lines = [(line, bs, bad)] → bs.length = 64 → s.parts = [] → (∀ p ∈ s.snaps, p.ctx = r.ctx) →
      s.vaultFenced (64 * line) = false → Memory.wf s.mem → (∀ w ∈ s.allWaves, w.key = r.wave → injArm w.errinj = false) →
      ∃ t, exec .snapshotRestoreComplete s = .next t ∧ (∀ i, i < 64 → some (t.mem.read (64 * line + i)) = bs[i]?) ∧
        (∀ a, lineOf a ≠ line → t.mem.read a = s.mem.read a) ∧ (∀ x ∈ t.restores, ¬ (x.wave = r.wave ∧ x.ctx = r.ctx)) ∧
        (∀ p ∈ t.snaps, p ∈ s.snaps ∧ ¬ (p.ctx = r.ctx ∧ p.rejecting = true ∧ p.slot ∈ r.slots)) ∧
        (s.w.key = r.wave → s.w.life ≠ .ended → t.w = { s.w.retired (s.w.pc + 4) with status := s.w.status ||| 1 }))

/-- 14/R385, R387, R394: the longest-waiting writer of a pool has its turn once a line is free or no snapshot is left, and one that
has not asked for a line again has left the pool's line of writers after it, a copy request held up no more; POOLSIZE takes no value below
the lines in use. -/
def Sys2Proof.Claims.ShadowPool : Prop :=
  ∀ (s : State) (e : CtxId × Turn),
    (s.poolWait.find? (fun e => e.1 = s.facts.ctx) = some e → s.retry = none → (s.poolFree s.facts.ctx ≠ 0 ∨ ∀ p ∈ s.snaps, p.ctx ≠ s.facts.ctx) →
      ∃ t, exec .poolWriterProceed s = .next t ∧ t.poolWait = s.poolWait ∧ t.retry = some e ∧ t.agenda = e.2 :: .retried :: s.agenda ∧
        t.w = s.w ∧ t.mem = s.mem) ∧
    (s.retry = some e →
      let t := s.plain .retried
      t.poolWait = s.poolWait.erase e ∧ t.retry = none ∧ t.w = s.w ∧ t.mem = s.mem ∧ (∀ (f : Facts) (k : Kick), e.2 = .event .copyLineTransfer f → k ∈ (s.core f.core).kicks → k.id = f.num →
          ∃ x ∈ (t.core f.core).kicks, x.id = k.id ∧ ∀ p, x.held = some p → p.pool ≠ some e.1)) ∧
    (s.poolFree s.facts.ctx = 0 → (∃ p ∈ s.snaps, p.ctx = s.facts.ctx) → exec .poolWriterProceed s = .next s) ∧
    (let n := s.facts.val.toNat % 2 ^ 32
     (n < s.poolUsed s.facts.ctx → exec .poolsizeWrite s = .next s) ∧
     (s.poolUsed s.facts.ctx ≤ n → n ≤ 2 ^ 28 → ∃ t, exec .poolsizeWrite s = .next t ∧ (t.ctxOf s.facts.ctx).poolsize = n ∧
       (∀ c, c ≠ s.facts.ctx → t.ctxOf c = s.ctxOf c) ∧ t.mem = s.mem ∧ t.w = s.w))

/-- 12/R332: LNCH of a record on coherent or software-managed pages of this device, in a wave whose places hold no line, completes:
with a full queue SCC is 0; else the record that the two lines of 64 bytes hold at D enters the ring, the tail moves and SCC is 1: its 128 bytes
stand in the ring's slot where that can be written, and a slot that cannot be written takes nothing while the tail moves all the same (log 34).
No table of the ring's slot lies at a peer that does not answer. -/
def Sys2Proof.Claims.LaunchEnters : Prop :=
  ∀ (s : State) (sa sb : SReg) (l m : Loc), sa.toNat % 2 = 0 → Claims.NoLines s → Claims.Clear s →
    let p := s.spair sa
    let n := (s.sreg sb).toNat
    let qi : QueueId := BitVec.ofNat 8 n
    let q := s.queue qi
    p.extractLsb' 0 6 = 0#6 → n ≤ 255 → q.src = true → q.ctx.toNat = s.w.ctx.toNat → q.en = true →
    s.leftRegion s.w.ctx p p = false → (∃ e, s.regionCheck s.w.ctx { r := true } p 128 = .ok e) →
    s.findLane s.w.ctx none { r := true } 64 p = .at_ l → s.findLane s.w.ctx none { r := true } 64 (p + 64) = .at_ m →
    l.dev = s.dev.devnum → m.dev = s.dev.devnum →
    let u := Claims.emptied s
    let a := u.readAt 3 false l 64
    let v := u.afterRead 3 false l 64
    let b := v.readAt 3 false m 64
    let slot := q.qbase + BitVec.ofNat 64 (128 * (q.tail.toNat % q.qsize))
    a.2 = false → b.2 = false → (Rec.ofBytes (a.1 ++ b.1)).reason s.cx s.dev.gbres = 0 →
    s.ctxWaits s.w.ctx { w := true } slot 128 ≠ some none →
    (q.qsize ≤ (q.tail - q.head).toNat → Claims.Does (.lnch sa sb) 4 s ((v.afterRead 3 false m 64).setScc false)) ∧
    ((q.tail - q.head).toNat < q.qsize → ∃ t, exec (.lnch sa sb) s = .next t ∧ t.scc = true ∧ t.w.pc = s.w.pc + 4 ∧
      t.queue qi = { q with tail := q.tail + 1, lnch := (q.tail, p) :: q.lnch } ∧ t.w.sregs = s.w.sregs ∧ t.w.vregs = s.w.vregs ∧
      (s.ctxPlace s.w.ctx { w := true } slot 128 = none → t.mem = s.mem) ∧
      (∀ pa, s.ctxPlace s.w.ctx { w := true } slot 128 = some pa → pa % 64 = 0 → s.vaultFenced pa = false → s.vaultFenced (pa + 64) = false →
        Memory.wf s.mem → Claims.NoDirty s →
        (∀ i, i < 128 → some (t.mem.read (pa + i)) = (a.1 ++ b.1)[i]?) ∧ ∀ x, x < pa ∨ pa + 128 ≤ x → t.mem.read x = s.mem.read x))

/-! ### Tile array (10/R284 to R313) -/

namespace Sys2Proof.Claims

/-- The flags of a slot pass to STATUS and are cleared in the slot (10/R292). -/
def flagsTaken (s : State) (i : BitVec 4) : State := (s.setSlot i { s.slot i with flags := 0 }).raise (s.slot i).flags

/-- A slot on which the wave need not wait and which has not failed (10/R297). -/
def Idle (s : State) (i : BitVec 4) : Prop := s.co.slotBusy i = false ∧ (s.slot i).failed = false

/-- A format and a plane count that the array takes (10/R287). -/
def planesOk (x : Nat × Nat) : Prop := ∃ n lo hi, tileFmt x.1 = some (n, lo, hi) ∧ lo ≤ x.2 ∧ x.2 ≤ hi

/-- Every step of an operand lies in the local area (10/R304). -/
def stepsInside (s : State) (isA : Bool) (base inc : Nat) (x : Nat × Nat) (steps : Nat) : Prop :=
  ∀ k, k < steps → base + 16 * inc * k + operandBytes isA x.1 x.2 ≤ s.blk.localSize

/-- The range of an operand over all steps, rounded outward to lines (09/R281). -/
def operandRange (isA : Bool) (base inc : Nat) (x : Nat × Nat) (steps : Nat) (b : BlockKey) (id : Nat) : Range :=
  ⟨base / 64 * 64, (base + 16 * inc * (steps - 1) + operandBytes isA x.1 x.2 + 63) / 64 * 64, b, id, true⟩

end Sys2Proof.Claims

/-- 10/R289 to R291: integer steps are exact sums of products; accumulation wraps modulo 2^32 or saturates with SAT; a zero
sum leaves a float element as it is, and a NaN sum gives the canonical NaN. -/
def Sys2Proof.Claims.TileArithmetic : Prop :=
  ∀ (as bs : List Int) (x : Word), as.length = bs.length →
    let e (v : Int) : Num := Num.ofInt v 0
    let n := (List.zipWith (· * ·) as bs).sum
    let sum := stepSum (as.map e) (bs.map e)
    sum = .fin (n * 2 ^ 48) ∧ accumulate 1 x sum = (BitVec.ofInt 32 (x.toInt + n), 0) ∧
    (-(2 ^ 31) ≤ x.toInt + n → x.toInt + n < 2 ^ 31 → accumulate 2 x sum = (BitVec.ofInt 32 (x.toInt + n), 0)) ∧
    (x.toInt + n < -(2 ^ 31) → accumulate 2 x sum = (0x80000000, fSAT)) ∧
    (2 ^ 31 ≤ x.toInt + n → accumulate 2 x sum = (0x7FFFFFFF, fSAT)) ∧
    ((FloatFmt.f32.read x.toNat).isNaN = false → accumulate 0 x (.fin 0) = (x, 0)) ∧
    (accumulate 0 x (.nan false)).1 = 0x7FC00000

/-- 10/R293 to R295: an accumulator keeps its slot; an unbound one within its quota takes the lowest free slot, whose elements
are zero; beyond the quota ACCSLOT; with no free slot the wave waits. That of the free slots it is the lowest is the model's choice
(log 98). -/
def Sys2Proof.Claims.AccumulatorBinding : Prop :=
  ∀ (s : State) (acc : BitVec 4),
    let held := s.w.accs.toList.countP fun x => x.isSome
    (∀ i, s.boundSlot acc = some i → bind acc s = .ok (i, s)) ∧
    (s.boundSlot acc = none →
      (s.w.quota ≤ held → exec (.acz acc) s = .next (s.trapEntry { cause := .accslot, arg := acc.toNat } s.w.pc)) ∧
      (held < s.w.quota → (∀ i, (s.slot i).owner ≠ none) → exec (.acz acc) s = .next (s.await .accslot)) ∧
      (held < s.w.quota → (∃ i, (s.slot i).owner = none) → ∃ i u, bind acc s = .ok (i, u) ∧ (s.slot i).owner = none ∧
        (∀ j, j.toNat < i.toNat → (s.slot j).owner ≠ none) ∧ u.boundSlot acc = some i ∧ (u.slot i).owner = some s.w.key ∧
        (∀ r c, (u.slot i).elem r c = 0) ∧ (u.slot i).flags = 0 ∧ (∀ j, j ≠ i → u.slot j = s.slot j) ∧
        (∀ b, b ≠ acc → u.boundSlot b = s.boundSlot b) ∧ u.mem = s.mem ∧ u.blk = s.blk ∧ u.w.sregs = s.w.sregs))

/-- 10/R297, R307, R308: MWAIT waits for the slot's loops and takes its flags, or raises CKHARD when one failed; ACZ zeroes the
slot; ACREL frees it at once or when its loops end. -/
def Sys2Proof.Claims.AccumulatorControl : Prop :=
  ∀ (s u : State) (acc i : BitVec 4),
    (s.boundSlot acc = none → Claims.Does (.mwait acc) 4 s s ∧ Claims.Does (.acrel acc) 4 s s) ∧
    (s.boundSlot acc = some i →
      (s.co.slotBusy i = true → exec (.mwait acc) s = .next ((s.await (.mwait acc)).holds (.mwait acc)) ∧ exec (.acz acc) s = .next (s.await .mbusy)) ∧
      (s.co.slotBusy i = false → (s.slot i).failed = true →
        let t := s.setSlot i { s.slot i with failed := false }
        exec (.mwait acc) s = .next (t.trapEntry { cause := .ckhard } s.w.pc) ∧
        exec (.acz acc) s = .next (t.trapEntry { cause := .ckhard } s.w.pc)) ∧
      (Claims.Idle s i → Claims.Does (.mwait acc) 4 s (Claims.flagsTaken s i)) ∧
      (∃ t, Claims.Does (.acrel acc) 4 s t ∧ t.boundSlot acc = none ∧ (∀ b, b ≠ acc → t.boundSlot b = s.boundSlot b) ∧
        (s.co.slotBusy i = false → (t.slot i).owner = none) ∧
        (s.co.slotBusy i = true → t.slot i = { s.slot i with release := true }) ∧ (∀ j, j ≠ i → t.slot j = s.slot j) ∧
        t.w.status = s.w.status ∧ t.w.sregs = s.w.sregs ∧ t.mem = s.mem ∧ t.blk = s.blk)) ∧
    (bind acc s = .ok (i, u) → Claims.Idle u i → ∃ t, Claims.Does (.acz acc) 4 s t ∧ (∀ r c, (t.slot i).elem r c = 0) ∧
      (t.slot i).flags = 0 ∧ t.w.status = u.w.status ||| ((u.slot i).flags.setWidth 32 <<< 8) ∧ (∀ j, j ≠ i → t.slot j = u.slot j) ∧
      t.w.sregs = u.w.sregs ∧ t.w.vregs = u.w.vregs ∧ t.mem = u.mem ∧ t.blk = u.blk)

/-- 10/R309 to R311: ACLD loads a tile of 96 rows of 64 words from the local area, ACST stores one there; an unbound accumulator
stores zeros. A misaligned or outlying tile traps. -/
def Sys2Proof.Claims.AccumulatorTiles : Prop :=
  ∀ (s u : State) (acc i : BitVec 4) (sa : SReg),
    let o := (s.sreg sa).toNat
    let word (x : State) (r c : Nat) : Nat := x.blk.scratch.value (o + 256 * r + 4 * c) 4
    (o % 64 ≠ 0 → exec (.acld acc sa) s = .next (s.trapEntry { cause := .align, taddr := BitVec.ofNat 64 o } s.w.pc) ∧
      exec (.acst acc sa) s = .next (s.trapEntry { cause := .align, taddr := BitVec.ofNat 64 o } s.w.pc)) ∧
    (o % 64 = 0 → o + 24576 ≤ s.blk.localSize →
      (bind acc s = .ok (i, u) → Claims.Idle u i → u.rangeHeld false o 24576 = false →
        (∀ k, k < 384 → u.blk.poison.contains (lineOf o + k) = false) →
        ∃ t, Claims.Does (.acld acc sa) 4 s t ∧ (∀ r c, r < 96 → c < 64 → ((t.slot i).elem r c).toNat = word u r c) ∧
          (t.slot i).flags = 0 ∧ t.w.status = u.w.status ||| ((u.slot i).flags.setWidth 32 <<< 8) ∧ (∀ j, j ≠ i → t.slot j = u.slot j) ∧
          t.w.sregs = u.w.sregs ∧ t.mem = u.mem ∧ t.blk = u.blk) ∧
      (s.blk.taggedSlot o 24576 = none → s.rangeHeld true o 24576 = false → Memory.wf s.blk.scratch →
        (s.boundSlot acc = some i → Claims.Idle s i → Claims.Unbound s (s.slot i).bnd →
          ∃ t, Claims.Does (.acst acc sa) 4 s t ∧ (∀ r c, r < 96 → c < 64 → word t r c = ((s.slot i).elem r c).toNat) ∧
            (∀ a, a < o ∨ o + 24576 ≤ a → t.blk.scratch.read a = s.blk.scratch.read a) ∧ (t.slot i).flags = 0 ∧
            t.w.status = s.w.status ||| ((s.slot i).flags.setWidth 32 <<< 8) ∧ t.w.sregs = s.w.sregs ∧ t.mem = s.mem) ∧
        (s.boundSlot acc = none → Claims.Unbound s 0 →
          ∃ t, Claims.Does (.acst acc sa) 4 s t ∧ (∀ r c, r < 96 → c < 64 → word t r c = 0) ∧
            (∀ a, a < o ∨ o + 24576 ≤ a → t.blk.scratch.read a = s.blk.scratch.read a) ∧ t.w.status = s.w.status ∧
            t.w.sregs = s.w.sregs ∧ t.mem = s.mem)))

/-- 10/R312, R313: ACRD writes the active lanes of vd with a column of the accumulator, ACWR writes the active lanes of va into
one. -/
def Sys2Proof.Claims.AccumulatorColumns : Prop :=
  ∀ (s u : State) (x : VX) (i : BitVec 4), Claims.Calm s → Claims.Calm u →
    let col := (x.imm.extractLsb' 0 6).toNat
    ((Instr.acrd x).wellFormed = true → x.vd.toNat < s.w.valloc → Claims.Unbound s ((vxOp x).bnd s) → Claims.Spilled s u x.vd.toNat 1 →
      let out (f : Fmt) (val : Nat → Nat) : State := Claims.written s u x.vd.toNat false (some (f, (vxOp x).bnd s)) val
      (s.boundSlot x.f = none → Claims.Does (.acrd x) 12 s (out .f32 fun _ => 0)) ∧
      (s.boundSlot x.f = some i → Claims.Idle s i → Claims.Does (.acrd x) 12 s
        (Claims.flagsTaken (out (if (s.slot i).isF32 then .f32 else .s32) fun l => ((s.slot i).elem l col).toNat) i))) ∧
    ((Instr.acwr x).wellFormed = true → x.va.toNat < s.w.valloc →
      let f := (s.vreg x.va.toNat).fmt
      (f ≠ .f32 → f ≠ .s32 → exec (.acwr x) s = .next (s.trapEntry { cause := .illfmt, lanes := s.exec3 } s.w.pc)) ∧
      (f = .f32 ∨ f = .s32 → bind x.f s = .ok (i, u) → Claims.Idle u i → ∃ t, Claims.Does (.acwr x) 12 s t ∧
        (∀ l, l < 96 → (t.slot i).elem l col = if l ∈ s.active then s.vlane x.va.toNat l else (u.slot i).elem l col) ∧
        (∀ l c, c ≠ col → (t.slot i).elem l c = (u.slot i).elem l c) ∧ (t.slot i).isF32 = decide (f = .f32) ∧
        (t.slot i).bnd = (if x.bov = 0 then (u.slot i).bnd else x.bov) ∧ (t.slot i).flags = 0 ∧
        (∀ j, j ≠ i → t.slot j = u.slot j) ∧ t.w.vregs = u.w.vregs ∧ t.w.sregs = u.w.sregs ∧ t.mem = u.mem ∧ t.blk = u.blk))

/-- 10/R296, R304, 09/R281: MLOOP, legal or not, waits while the sequencer is full; else it puts its loop behind the core's others, with both
operand ranges on the scoreboard, and goes on; a format the array does not take raises ILLFMT, an operand address that is not a multiple of 16
ALIGN. Of two misaligned offsets sa's is in TADDR, which is the model's choice (log 97). -/
def Sys2Proof.Claims.TileLoops : Prop :=
  ∀ (s u : State) (m : ML) (i : BitVec 4),
    (8 ≤ s.co.loops.length → exec (.mloop m) s = .next (s.await .mbusy)) ∧
    (m.ok = true → s.co.loops.length < 8 →
    let a0 := (s.sreg m.sa).toNat
    let b0 := (s.sreg m.sb).toNat
    let steps := m.steps1.toNat + 1
    let taken : Prop := Claims.planesOk (mlA m) ∧ Claims.planesOk (mlB m) ∧
      (mlAcc m ≠ 0 → tileInt m.fmtA.toNat = true ∧ tileInt m.fmtB.toNat = true)
    (¬ taken → exec (.mloop m) s = .next (s.trapEntry { cause := .illfmt } s.w.pc)) ∧
    (taken → a0 % 16 ≠ 0 → exec (.mloop m) s = .next (s.trapEntry { cause := .align, taddr := BitVec.ofNat 64 a0 } s.w.pc)) ∧
    (taken → a0 % 16 = 0 → b0 % 16 ≠ 0 → exec (.mloop m) s = .next (s.trapEntry { cause := .align, taddr := BitVec.ofNat 64 b0 } s.w.pc)) ∧
    (taken → a0 % 16 = 0 → b0 % 16 = 0 → Claims.stepsInside s true a0 m.incA.toNat (mlA m) steps →
      Claims.stepsInside s false b0 m.incB.toNat (mlB m) steps →
      (s.co.ranges.length + 2 ≤ 32 → bind m.acc s = .ok (i, u) → (u.slot i).failed = false →
        ∃ t l, Claims.Does (.mloop m) 12 s t ∧ t.co.loops = s.co.loops ++ [l] ∧ l.m = m ∧ l.slot = i ∧ l.owner = s.w.key ∧
          l.pc = s.w.pc ∧ l.a0 = a0 ∧ l.b0 = b0 ∧ l.formed = 0 ∧ l.done = 0 ∧ l.buf = [] ∧ l.running = false ∧ l.failed = false ∧
          t.co.ranges = s.co.ranges ++ [Claims.operandRange true a0 m.incA.toNat (mlA m) steps s.w.key.block l.id,
            Claims.operandRange false b0 m.incB.toNat (mlB m) steps s.w.key.block l.id] ∧
          (t.slot i).isF32 = decide (mlAcc m = 0) ∧ t.boundSlot m.acc = some i ∧ t.w.sregs = s.w.sregs ∧ t.w.status = s.w.status ∧
          t.mem = s.mem ∧ t.blk = s.blk)))

/-- 10/R296 to R302, R305: the sequencer starts the loop in front, forms its next step from the scratchpad, and accumulates a
step whose array sums are exact; a disagreeing step is formed again once, then handed to the checker, and the array is charged. -/
def Sys2Proof.Claims.TileSequencer : Prop :=
  ∀ (s : State) (l : Loop) (rest : List Loop), (s.core s.facts.core).loops = l :: rest → s.dev.powered = true →
    let c := s.facts.core
    let kept (t : State) : Prop := t.mem = s.mem ∧ t.w.sregs = s.w.sregs ∧ t.w.life = s.w.life ∧ (s.w.life = .ready → t.w = s.w)
    let added (t : State) (sums : List (List StepSum)) : Prop :=
      let old := pick (s.core c).slots l.slot
      let new := pick (t.core c).slots l.slot
      (∀ r k, r < 96 → k < 64 → new.elem r k =
        (accumulate (mlAcc l.m) (if l.done = 0 ∧ mlZ l.m = true then 0 else old.elem r k) ((sums.getD r []).getD k (.fin 0))).1) ∧
      (t.core c).loops = { l with buf := l.buf.tail, done := l.done + 1, disagreed := 0 } :: rest ∧ kept t
    (∃ t, exec .loopStart s = .next t ∧ (t.core c).loops = { l with running := true } :: rest ∧ t.mem = s.mem ∧ t.w = s.w) ∧
    (∀ b, l.running = true → l.failed = false → l.again = false → l.formed < mlSteps l.m → l.buf.length < 2 →
      l.blocked (s.core c) l.formed = false → s.findBlock l.owner.block = some b →
      (∀ w, s.findWave l.owner = some w → injArm w.errinj = false) → s.facts.flip = none →
      let x := l.sums b.scratch l.formed
      ∃ t, exec .kStep s = .next t ∧ (t.core c).stepCtr = (s.core c).stepCtr + 1 ∧ t.mem = s.mem ∧ t.w = s.w ∧
        (t.core c).loops = { l with buf := l.buf ++ [⟨x.1, x.1, x.2, (s.core c).stepCtr % 96⟩], formed := l.formed + 1 } :: rest) ∧
    (∀ f fs, l.buf = f :: fs → l.running = true → l.failed = false → l.again = false →
      (l.disagreed < 2 → f.arr = f.exact → f.rho < 96 → s.facts.flip = none → ∃ t, exec .rowCheckVerdict s = .next t ∧ added t f.arr) ∧
      (l.disagreed = 0 → f.agrees = false → ∃ t, exec .rowCheckVerdict s = .next t ∧ (t.core c).reexec = (s.core c).reexec + 1 ∧
        (t.core c).loops = { l with buf := fs, disagreed := 1, again := true } :: rest ∧ t.mem = s.mem ∧ t.w = s.w ∧
        (t.core c).slots = (s.core c).slots) ∧
      (l.disagreed = 1 → f.agrees = false → ∃ t, exec .rowCheckVerdict s = .next t ∧
        (t.core c).mcnt[12] = min 65535 ((s.core c).mcnt[12] + 1) ∧ (t.core c).loops = { l with disagreed := 2 } :: rest ∧
        t.w = s.w ∧ (t.core c).slots = (s.core c).slots) ∧
      (l.disagreed = 2 → s.facts.ok = true → ∃ t, exec .checkerOnlyStep s = .next t ∧ added t f.exact) ∧
      (l.disagreed = 2 → s.facts.ok = false → ∃ t, exec .checkerOnlyStep s = .next t ∧ (pick (t.core c).slots l.slot).failed = true ∧
        (t.core c).loops = { l with failed := true } :: rest ∧ (t.core c).retest = .present ∧ t.w = s.w)) ∧
    (l.running = true → (l.failed = true ∨ l.done = mlSteps l.m) → ∃ t, exec .loopEnd s = .next t ∧ (t.core c).loops = rest ∧
      (∀ r, r ∈ (t.core c).ranges ↔ r ∈ (s.core c).ranges ∧ ¬ (r.isLoop = true ∧ r.owner = l.id)) ∧ kept t ∧
      ((pick (s.core c).slots l.slot).release = true → (∀ x ∈ rest, x.slot ≠ l.slot) →
        (pick (t.core c).slots l.slot).owner = none))

/-- 10/R294, R304 to R313: an accumulator that is bound to a slot with no loop on it and no failure: ACZ, ACLD of a clean tile, ACST,
ACRD and ACWR complete; MLOOP completes on a bound accumulator when the sequencer and the scoreboard have room. -/
def Sys2Proof.Claims.TilesComplete : Prop :=
  ∀ (s : State) (acc i : BitVec 4) (sa : SReg) (x : VX) (m : ML),
    let o := (s.sreg sa).toNat
    (s.boundSlot acc = some i → Claims.Idle s i → Claims.Completes (.acz acc) 4 s ∧
      (o % 64 = 0 → o + 24576 ≤ s.blk.localSize →
        (s.rangeHeld false o 24576 = false → (∀ k, k < 384 → s.blk.poison.contains (lineOf o + k) = false) →
          Claims.Completes (.acld acc sa) 4 s) ∧
        (s.rangeHeld true o 24576 = false → s.blk.taggedSlot o 24576 = none → Claims.Unbound s (s.slot i).bnd →
          Claims.Completes (.acst acc sa) 4 s))) ∧
    (s.boundSlot x.f = some i → Claims.Idle s i →
      ((Instr.acrd x).wellFormed = true → Claims.Calm s → x.vd.toNat < s.w.valloc → (s.vreg x.vd.toNat).pend = false →
        Claims.Unbound s ((vxOp x).bnd s) → Claims.Completes (.acrd x) 12 s) ∧
      ((Instr.acwr x).wellFormed = true → x.va.toNat < s.w.valloc →
        (s.vreg x.va.toNat).fmt = .f32 ∨ (s.vreg x.va.toNat).fmt = .s32 → Claims.Completes (.acwr x) 12 s)) ∧
    (m.ok = true → s.boundSlot m.acc = some i → (s.slot i).failed = false → s.co.loops.length < 8 → s.co.ranges.length + 2 ≤ 32 →
      Claims.planesOk (mlA m) → Claims.planesOk (mlB m) → (mlAcc m ≠ 0 → tileInt m.fmtA.toNat = true ∧ tileInt m.fmtB.toNat = true) →
      (s.sreg m.sa).toNat % 16 = 0 → (s.sreg m.sb).toNat % 16 = 0 →
      Claims.stepsInside s true (s.sreg m.sa).toNat m.incA.toNat (mlA m) (m.steps1.toNat + 1) →
      Claims.stepsInside s false (s.sreg m.sb).toNat m.incB.toNat (mlB m) (m.steps1.toNat + 1) → Claims.Completes (.mloop m) 12 s)

/-! ### Events of the device (01, 06, 12 to 18) -/

namespace Sys2Proof.Claims

/-- No combining of a line waits for a pool (14/R387). -/
def NoCombining (s : State) : Prop := ∀ e ∈ s.poolWait, ∀ l, e.2 ≠ .combine l

/-- A line that the device itself may write now, or read for another agent: nothing stands between it and memory. -/
def Open (s : State) : Prop := Clear s ∧ NoCombining s

/-- The rows that a core, its checker, its engine, its walkers or its sequencer performs. -/
def coreActs : List Instr :=
  [.yieldResume, .waveStarved, .watchdog, .barrierRelease, .mbWaitTimeout, .flush, .copyRequestFetch, .copyLineTransfer,
    .copyRequestEnd, .walkerLine, .loopStart, .kStep, .rowCheckVerdict, .checkerOnlyStep, .loopEnd, .blockRetirement, .gangSave, .traceSync,
    .waveSample]

end Sys2Proof.Claims

/-- 03/R108, 06/R187, 13/R353: of a wave that fetches, the first word that fails, be it word 0 or one of those that word 0 asks for, literal
words included, stops the fetch. One that lies outside the region of the pc, that no region grants, whose page is poisoned in its tables or is
not readable and executable, or whose line is poisoned, raises FETCH with that word's address; an absent page, or a home that does not answer,
parks the wave; a line that must be recalled or restored comes first. A wave that has issued the instruction in which it waits fetches nothing. -/
def Sys2Proof.Claims.FetchFails : Prop :=
  ∀ (s : State), s.runnable = true →
    (s.heldInstr ≠ none → exec .instructionFetchFailure s = .next s) ∧
    (s.heldInstr = none → ∀ k p, p = s.w.pc + BitVec.ofNat 64 (4 * k) →
      (k = 0 ∨ ∃ w0, s.codeWord s.w.pc = .ok w0 ∧ k ≤ wordsAsked w0) →
      (∀ j, j < k → ∃ x, s.codeWord (s.w.pc + BitVec.ofNat 64 (4 * j)) = .ok x) →
      let becomes (t : State) : Prop := exec .instructionFetchFailure s = .next t
      let fails : Prop := becomes (s.trapEntry { cause := .fetch, taddr := p } s.w.pc)
      (s.leftRegion s.w.ctx s.w.pc p = true ∨ (∃ e, s.regionCheck s.w.ctx { r := true } p 4 = .error (.prot e)) → fails) ∧
      (∀ dev line, s.leftRegion s.w.ctx s.w.pc p = false → s.regionCheck s.w.ctx { r := true } p 4 = .error (.held dev line) →
        becomes (s.halted (.recall dev line))) ∧
      (∀ a, s.leftRegion s.w.ctx s.w.pc p = false → s.regionCheck s.w.ctx { r := true } p 4 = .ok a →
        (s.translate s.w.ctx a = .poison ∨ (∃ l, s.translate s.w.ctx a = .leaf l ∧ (l.r && l.x) = false) → fails) ∧
        (∀ m, s.translate s.w.ctx a = .absent m → becomes (s.park { cause := .page, addr := p, access := 4, malf := m })) ∧
        (s.translate s.w.ctx a = .away → becomes (s.park { cause := .page, addr := p, access := 4, link := true })) ∧
        (∀ dev line, s.translate s.w.ctx a = .held dev line → becomes (s.halted (.recall dev line))) ∧
        (∀ l, s.translate s.w.ctx a = .leaf l → l.r = true → l.x = true → s.w.decoded = [] → s.w.fetched = [] → s.co.icache = [] →
          let away : Prop := l.dev ≠ s.dev.devnum ∧ s.reachable l.dev = false
          (away → becomes (s.park { cause := .page, addr := p, access := 4, link := true })) ∧
          (¬ away → s.heldLine l.dev (lineOf (l.pa a)) = true → becomes (s.halted (.recall l.dev (lineOf (l.pa a))))) ∧
          (¬ away → s.heldLine l.dev (lineOf (l.pa a)) = false → s.homePoison l.dev (l.pa a) = true → fails))))

/-- 04/R139, 12/R342: YIELD_RESUME makes a yielding wave Ready once its set is done or 64 cycles have passed; WAVE_STARVED
marks a Ready wave, in handler mode too. A wave of the set is done when it has issued or left Ready since; a device that is halted or whose rails are off does neither. -/
def Sys2Proof.Claims.YieldAndStarve : Prop :=
  ∀ (s : State) (w : Wave), s.findWave s.facts.wave = some w → w.saved = false →
    (s.dev.halt = true ∨ s.dev.powered = false → exec .yieldResume s = .next s ∧ exec .waveStarved s = .next s) ∧
    (∀ since set, w.life = .waiting (.yield since set) → s.dev.halt = false → s.dev.powered = true →
      let done : Prop := ∀ x ∈ set, ∀ v, s.findWave x.1 = some v → v.issues + v.left ≠ x.2 ∨ v.saved = true ∨ s.isReady v = false
      (since + 64 ≤ (s.core w.core).cycle ∨ done → ∃ t, exec .yieldResume s = .next t ∧
        t.findWave w.key = some { w with life := .ready } ∧ t.mem = s.mem ∧ t.blk = s.blk) ∧
      ((s.core w.core).cycle < since + 64 → ¬ done → exec .yieldResume s = .next s)) ∧
    (s.isReady w = true → s.dev.halt = false → s.dev.powered = true → ∃ t, exec .waveStarved s = .next t ∧
      t.findWave w.key = some { w with starved := true } ∧ t.mem = s.mem)

/-- 06/R186, R195, 10/R296: the watchdog writes one record for each whole period that a wave has waited, and starts the next; it never ends
a wait. Nothing for a wait that ends by itself, for one whose condition holds, or for an interlock of a wave that is Ready, such as an MLOOP
that finds the sequencer full, or a CPSEAL whose number is in use (log 83), and nothing while the device is halted or its rails are off. -/
def Sys2Proof.Claims.Watchdog : Prop :=
  ∀ (s : State) (w : Wave) (x : Wait), s.findWave s.facts.wave = some w → w.life = .waiting x → w.saved = false →
    let period := 2 ^ (s.ctxOf w.ctx).wdogk
    (x.watched = true → s.waitOver w x = false → s.dev.halt = false → s.dev.powered = true →
      w.waitFrom + period ≤ (s.core w.core).cycle →
      ∃ t, exec .watchdog s = .next t ∧ t.findWave w.key = some { w with waitFrom := w.waitFrom + period } ∧
        t.dev.seq = (s.dev.seq + 1) % 2 ^ 48) ∧
    ((s.core w.core).cycle < w.waitFrom + period → exec .watchdog s = .next s) ∧
    (x.watched = false ∨ s.waitOver w x = true ∨ s.dev.halt = true ∨ s.dev.powered = false → exec .watchdog s = .next s) ∧
    (∀ i, Wait.watched (.mwait i) = true ∧ Wait.watched (.cpwait i) = true ∧ Wait.watched .mbusy = false ∧ Wait.watched (.cpseal i) = false) ∧
    (∀ o r p d e since set, Wait.watched (.mbwait o r p (some d) e) = false ∧ Wait.watched (.yield since set) = false ∧
      Wait.watched .memdep = false ∧ Wait.watched .range = false ∧ Wait.watched (.mbwait o r p none e) = true)

/-- 06/R190: the oldest bytes of a stack cache go to memory at D and leave the cache; bytes that are homed here do so at once where
nothing stands between them and memory. -/
def Sys2Proof.Claims.StackCacheWriteback : Prop :=
  ∀ (s u : State), s.facts.wave = s.w.key → s.dev.powered = true →
    (stkWriteBack (s.w.stk.take s.facts.num) s = .ok ((), u) →
      ∃ t, exec .stackCacheWriteback s = .next t ∧ t.w.stk = u.w.stk.drop s.facts.num ∧ t.mem = u.mem ∧ t.w.sregs = u.w.sregs ∧
        t.w.vregs = u.w.vregs ∧ t.w.life = u.w.life ∧ t.w.pc = u.w.pc) ∧
    (Claims.Clear s → (∀ b ∈ s.w.stk.take s.facts.num, b.dev = s.dev.devnum) →
      ∃ t, exec .stackCacheWriteback s = .next t ∧ t.w.stk = s.w.stk.drop s.facts.num ∧ t.w.sregs = s.w.sregs ∧
        t.w.vregs = s.w.vregs ∧ t.w.life = s.w.life ∧ t.w.pc = s.w.pc)

/-- 01/R28, R29, R36, R40, R45 to R48, 17/R432: a value mismatch flushes the wave and drops the clean private copies of the lines, a result
mismatch charges the unit that claims the result of the wave's next instruction, and there is none for an instruction that makes no claim; three in a row hand the load, or the wave, to the checker. In checker-only mode
agreement executes the instruction and disagreement raises CKHARD, as an operand that cannot be corrected does in either mode. Which
instructions make no claim, MWAIT, CPKICK and WEND among them, and that a load and a store claim on the pipe of their opcode, is log 45; the two
runs are counted apart (log 59). -/
def Sys2Proof.Claims.CheckerVerdicts : Prop :=
  ∀ (s : State) (w : Wave), s.findWave s.facts.wave = some w → s.mayIssue w = true →
    (w.byChecker = false → w.ckOnly = false →
      (∀ lines, s.facts.flush = .value lines → ∃ t, exec .flush s = .next t ∧ t.mem = s.mem ∧
        t.findWave w.key = some { w with
          flushes := w.flushes + 1, valMis := w.valMis + 1
          byChecker := ((s.nextOf w.key).any fun x => x.2.any loads) && decide (3 ≤ w.valMis + 1) } ∧
        (t.core w.core).ckc = (s.core w.core).ckc ∧
        ∀ x ∈ (t.core w.core).cache, x.line ∈ lines → ∀ b ∈ x.bytes, x.dirty.contains b.off = true) ∧
      (∀ w0 i u, s.nextOf w.key = some (w0, some i) → resultUnit i = some u → u ≤ 2 → s.facts.flush = .result → ∃ t, exec .flush s = .next t ∧
        t.findWave w.key = some { w with flushes := w.flushes + 1, resMis := w.resMis + 1, ckOnly := decide (3 ≤ w.resMis + 1) } ∧
        (t.core w.core).mcnt.toList.getD (4 * u + w.sched.toNat) 0 =
          min 65535 ((s.core w.core).mcnt.toList.getD (4 * u + w.sched.toNat) 0 + 1)) ∧
      ((∀ w0 i, s.nextOf w.key = some (w0, some i) → resultUnit i = none) → s.facts.flush = .result → exec .flush s = .next s)) ∧
    (∀ a b c r q m, resultUnit (.vadd a b c) = some 0 ∧ resultUnit (.vcmp a b c) = some 0 ∧ resultUnit (.sadd r q m) = some 1 ∧
      resultUnit (.vrcp a b) = some 2 ∧ resultUnit (.mwait 0) = none ∧ resultUnit (.cpkick r) = none ∧ resultUnit (.wend) = none) ∧
    (∀ (x : MX) (y : MS), (rankOf x.lvl.toNat ≠ 4 → resultUnit (.vld x) = some 0) ∧ (rankOf y.lvl.toNat ≠ 4 → resultUnit (.sldMs y) = some 1) ∧
      resultUnit (.vst x) = some 0 ∧ resultUnit (.sstMs y) = some 1) ∧
    (w.byChecker = true ∨ w.ckOnly = true → exec .flush s = .next s) ∧
    (w.ckOnly = true → s.facts.ok = true → s.facts.bad = none →
      exec .checkerOnlyMode s = .next { s with agenda := .focus w.key :: .wave :: .focus s.w.key :: s.agenda }) ∧
    ((w.ckOnly = true ∧ s.facts.ok = false ∧ s.facts.bad = none) ∨ s.facts.bad.isSome = true →
      s.facts.wave = s.w.key → Claims.CanHandle s → ∃ t, exec .checkerOnlyMode s = .next t ∧
        t.w.tcause = 0x14 ∧ t.w.pc = s.w.tvec ∧ t.w.tpc = s.w.pc ∧ t.hm = true ∧ t.w.ckOnly = false ∧ t.w.resMis = 0 ∧
        (s.facts.bad = none ∨ s.facts.bad = some 0 → (t.core s.w.core).retest = .present))

/-- 12/R340, 18/R437, R450: the throttle takes one step of k at a time, down under heat, the power averaged over a second or current, else up
to 16, and PKGPWR takes the power of the last millisecond; at 110 °C the rails go off, and from then on no core, checker, engine, walker or sequencer
acts. -/
def Sys2Proof.Claims.ThrottleAndHeat : Prop :=
  ∀ (s : State),
    let tj := s.facts.addr
    let watts := s.facts.size
    (∃ t, exec .throttleChange s = .next t ∧ t.dev.pkgpwr = s.facts.pwr ∧ t.dev.tj = tj ∧
      (100 ≤ tj ∨ 4500 < watts ∨ s.facts.ok = false → t.dev.pwrk = max 1 (s.dev.pwrk - 1)) ∧
      (tj < 100 → watts ≤ 4500 → s.facts.ok = true → t.dev.pwrk = min 16 (s.dev.pwrk + 1)) ∧
      (s.dev.powered = true → t.dev.pwrk ≠ s.dev.pwrk → t.dev.seq = (s.dev.seq + 1) % 2 ^ 48) ∧ t.w = s.w) ∧
    (110 ≤ tj → ∃ t, exec .thermalShutdown s = .next t ∧ t.dev.powered = false ∧ t.runnable = false ∧ t.mem = s.mem) ∧
    (s.dev.powered = false → ∀ i ∈ Claims.coreActs, exec i s = .next s) ∧
    (tj < 110 → exec .thermalShutdown s = .next s)

/-- 12/R324 to R331, R333: LAUNCH_ACCEPT reads the record at the head of an enabled queue, once the lines that it and the tables lie in
are recalled and restored (07/R222, 08/R245); a record that cannot be read stops the queue with 0x0D, one that fails its check with its reason
code; else the device holds the launch: it is Waiting, or, with its dependences met, Ready or with its tags in Placing. That the recall comes
first is log 14, and that tables out of reach are waited for until RTW is over is log 86. -/
def Sys2Proof.Claims.LaunchAccepted : Prop :=
  ∀ (s : State),
    let qi := s.facts.queue
    let q := s.queue qi
    let cx : CtxId := q.ctx.setWidth 12
    let p := q.qbase + BitVec.ofNat 64 (128 * (q.head.toNat % q.qsize))
    q.en = true → q.qsize ≠ 0 → q.head ≠ q.tail → q.state ≠ 2 → q.pend = none → q.ctx.toNat < 4096 → (s.ctxOf cx).en = true →
    s.heldLaunches < 64 →
    let waits := s.ctxWaits cx { r := true } p 128
    (∀ x, waits = some (some x) → exec .launchAccept s = .next (s.lookAgain x.1 x.2)) ∧
    (waits = some none → s.facts.ok = true → exec .launchAccept s = .next s) ∧
    (waits = none → s.ctxPlace cx { r := true } p 128 = none → ∃ t, exec .launchAccept s = .next t ∧
      t.queue qi = { q with state := 2, err := 0x0D } ∧ t.mem = s.mem) ∧
    (∀ pa, waits = none → s.ctxPlace cx { r := true } p 128 = some pa →
      (let r := Rec.ofBytes (s.homeBytes pa 128)
      let why := r.reason (s.ctxOf cx) s.dev.gbres
      (q.src = false → why ≠ 0 → ∃ t, exec .launchAccept s = .next t ∧
        t.queue qi = { q with state := 2, err := BitVec.ofNat 8 why } ∧ t.mem = s.mem) ∧
      ((q.src = true ∨ why = 0) → (∀ x ∈ s.allLaunches, x.id ≠ s.dev.nextLaunch) →
        ∃ t l, exec .launchAccept s = .next t ∧ t.findLaunch s.dev.nextLaunch = some l ∧ l.record = r ∧ l.ctx = cx ∧ l.queue = qi ∧
          l.count = q.head.toNat ∧ (l.state = .waiting ∨ l.state = .ready ∨ l.state = .placing) ∧
          (l.state ≠ .waiting ↔ l.depsMet.all id = true) ∧ l.tagsHeld = (if l.state = .placing then r.gongLvl.countP (· != 0) else 0) ∧
          l.depsMet.length = r.deps.length ∧ t.dev.nextLaunch = s.dev.nextLaunch + 1 ∧ t.mem = s.mem)))

/-- 12/R325, R333, 09/R259: a launch whose dependences are all met enters Placing at once when it declares no Gong tag, or when its tags are
free and no Ready launch of its priority or a higher one stands before it; else it becomes Ready. Its record leaves the queue then: that QHEAD
stays while a launch is Waiting and advances when it leaves Waiting is log 33. The Ready launch that comes first takes its tags and enters
Placing. -/
def Sys2Proof.Claims.LaunchStates : Prop :=
  ∀ (s : State) (l : Launch), s.findLaunch s.facts.launch = some l → l.id ≠ 0 →
    let m := s.evaluate l
    let q := s.queue l.queue
    (l.state = .waiting →
      (∀ k, l.depsMet.getD k false = true → k < l.record.deps.length → m.depsMet.getD k false = true) ∧
      (m.depsMet.all id = true →
        let n := l.record.gongLvl.countP (· != 0)
        let first : Prop := ∀ k ∈ s.allLaunches, k.id ≠ 0 → k.state = .ready → k.record.prio < l.record.prio
        let goes (st : LaunchState) (tags : Nat) : Prop := ∃ t, exec .dependenceEvaluation s = .next t ∧
          t.findLaunch l.id = some { m with state := st, tagsHeld := tags, waitFrom := s.dev.ticket } ∧
          (t.queue l.queue).head = q.head + 1 ∧ (t.queue l.queue).pend = none ∧ t.mem = s.mem
        (n = 0 ∨ (n ≤ s.freeTags ∧ first) → goes .placing n) ∧ (n ≠ 0 → ¬ (n ≤ s.freeTags ∧ first) → goes .ready 0)) ∧
      (m.depsMet.all id = false → (∀ x, s.depWaits l ≠ some (some x)) → ∃ t, exec .dependenceEvaluation s = .next t ∧ t.findLaunch l.id = some m ∧
        (t.queue l.queue).state = 3 ∧ (t.queue l.queue).head = q.head ∧ t.mem = s.mem)) ∧
    (l.state = .ready → s.firstReady l = true →
      let n := l.record.gongLvl.countP (· != 0)
      (n ≤ s.freeTags → ∃ t, exec .gongTagGrant s = .next t ∧
        t.findLaunch l.id = some { l with state := .placing, tagsHeld := n, waitFrom := s.dev.ticket } ∧ t.mem = s.mem) ∧
      (s.freeTags < n → exec .gongTagGrant s = .next s))

/-- 12/R326, R333: the end of a launch adds one to its completion word at D and frees its tags; under a kill of its context it does
not end so. That the recall of a line of its tables comes first is log 14, and that tables out of reach are waited for until RTW is over is log
86. -/
def Sys2Proof.Claims.LaunchCompletes : Prop :=
  ∀ (s : State) (l : Launch), s.findLaunch s.facts.launch = some l → l.id ≠ 0 → l.state = .running →
    l.record.gangs ≤ l.retired →
    ((s.ctxOf l.ctx).killing = true → exec .launchCompletion s = .next s) ∧
    ((s.ctxOf l.ctx).killing = false → (s.queue l.queue).notify = false →
    let p := (s.ctxOf l.ctx).evbase + BitVec.ofNat 64 (4 * l.record.doneIdx)
    let ended (t : State) : Prop := t.findLaunch l.id = some { l with state := .complete, tagsHeld := 0 }
    (l.record.doneIdx = 0xFFFF → ∃ t, exec .launchCompletion s = .next t ∧ ended t ∧ t.mem = s.mem) ∧
    let waits := s.ctxWaits l.ctx ⟨true, true, true⟩ p 4
    (∀ x, l.record.doneIdx ≠ 0xFFFF → waits = some (some x) → exec .launchCompletion s = .next (s.lookAgain x.1 x.2)) ∧
    (l.record.doneIdx ≠ 0xFFFF → waits = some none → s.facts.ok = true → exec .launchCompletion s = .next s) ∧
    (∀ pa, l.record.doneIdx ≠ 0xFFFF → waits = none → s.ctxPlace l.ctx ⟨true, true, true⟩ p 4 = some pa → Claims.Open s →
      s.vaultFenced (64 * lineOf pa) = false → Memory.wf s.mem → ∃ t, exec .launchCompletion s = .next t ∧ ended t ∧
        t.mem.value pa 4 = (s.mem.value pa 4 + 1) % 2 ^ 32 ∧ (∀ a, a < pa ∨ pa + 4 ≤ a → t.mem.read a = s.mem.read a)) ∧
    (l.record.doneIdx ≠ 0xFFFF → waits = none → s.ctxPlace l.ctx ⟨true, true, true⟩ p 4 = none → ∃ t, exec .launchCompletion s = .next t ∧ ended t ∧
      t.mem = s.mem))

/-- 12/R334 to R337: the next candidate starts a gang that reserves its quad; a block goes to the core chosen for it with its
waves, their pc at the record's CODE; a candidate that waited AGE is aged; an estimate replaces the class's use. -/
def Sys2Proof.Claims.PlacementSteps : Prop :=
  ∀ (s : State),
    (∀ l q, s.nextStart false s.candidates = some (.fresh l, q) → ∃ t g, exec .gangStart s = .next t ∧ t.gangs = s.gangs ++ [g] ∧
      g.key.launch = l.id ∧ g.quad = q ∧ g.state = .placing ∧ g.placed = 0 ∧ g.blocks = l.record.blocks ∧
      g.gcap = 16 * l.record.gbuf ∧ g.place = Place.empty ∧ t.mem = s.mem) ∧
    (∀ g l c o ps spad, s.reserving s.facts.quad = some g →
      s.findLaunch g.key.launch = some l → (s.ctxOf l.ctx).switchedOut = false →
      l.record.waves.length ≤ (s.freeSlices l.ctx).length → pickCore l.record (s.quadOcc s.facts.quad) = some (c, o, ps, spad) →
      (s.budgetOk l.record c = false → exec .blockDispatch s = .next s) ∧
      (s.budgetOk l.record c = true → ∃ t, exec .blockDispatch s = .next t ∧
        (∃ b ∈ t.blocks, b.key = ⟨l.id, g.key.gang, g.placed⟩ ∧ b.core = c ∧ b.scratch = [] ∧ b.localSize = l.record.localBytes ∧
          b.waves = l.record.waves.length) ∧
        (∀ k, k < l.record.waves.length → k < ps.length → ∃ w ∈ t.waves, w.key = ⟨l.id, g.key.gang, g.placed, k⟩ ∧ w.core = c ∧
          w.pc = l.record.code ∧ w.tvec = l.record.tvec ∧ (w.life = .created ∨ w.life = .ready)) ∧
        (t.core c).start = (s.core c).start + BitVec.ofNat 2 l.record.waves.length ∧ t.mem = s.mem)) ∧
    (∀ g, s.findGang s.facts.gangKey = some g → g.key.launch ≠ 0 → g.state = .saved → ∃ t, exec .candidateAged s = .next t ∧
      t.findGang g.key = some { g with aged := true } ∧ t.mem = s.mem) ∧
    (∀ l, s.findGang s.facts.gangKey = none → s.findLaunch s.facts.launch = some l → l.id ≠ 0 → l.state = .placing →
      l.unplaced = true → ∃ t, exec .candidateAged s = .next t ∧ t.findLaunch l.id = some { l with aged := true } ∧ t.mem = s.mem) ∧
    (∃ t, exec .powerEstimate s = .next t ∧ (pick t.dev.budgets s.facts.id).usedBw = s.facts.size ∧
      (pick t.dev.budgets s.facts.id).usedPwr = s.facts.num ∧ t.mem = s.mem ∧ t.w = s.w)

/-- 06/R188, 07/R215, 12/R343 to R346: a block whose waves have ended gives up its local area; a save ends in the save slot; the
next saved candidate is resident again on its quad. Pre-emption, where its feature is on and no replacement of firmware is under way, saves the
youngest gangs of priority 0 to 3 on the quad, as many as let the first aged candidate of priority 7 that cannot start fit there, and none when
even all of them do not. -/
def Sys2Proof.Claims.GangsMoveOn : Prop :=
  ∀ (s : State), s.dev.powered = true →
    (∀ b g, s.findBlock s.facts.block = some b → s.findGang b.key.gangKey = some g → b.key.launch ≠ 0 → g.state = .resident →
      b.retired = false → (∀ w ∈ s.allWaves, w.key.block = b.key → w.life = .ended) → (s.busyWork fun k => k.block == b.key) = false →
      g.killed = true → g.placed ≠ g.blocks → ∃ t, exec .blockRetirement s = .next t ∧
        t.findBlock b.key = some { b with retired := true, scratch := [], poison := [], tags := [], place := Place.empty } ∧
        t.mem = s.mem ∧ t.w = s.w) ∧
    (∀ g u, s.findGang s.facts.gangKey = some g → g.key.launch ≠ 0 → g.state = .saving → s.gangRestoring g.key = false →
      (s.busyWork fun k => k.gangKey == g.key) = false → s.saveMoves g = (none, u) → (∃ x, u.findGang g.key = some x) →
      ∃ t x, exec .gangSave s = .next t ∧ t.findGang g.key = some x ∧ x.state = .saved ∧ x.waitFrom = u.dev.ticket ∧ t.mem = u.mem) ∧
    (∀ l g q, s.nextStart false s.candidates = some (.saved l g, q) → (∃ x, s.findGang g.key = some x) →
      ∃ t x, exec .gangRestore s = .next t ∧ t.findGang g.key = some x ∧ x.state = .resident ∧ x.quad = q ∧ t.mem = s.mem) ∧
    (let aged := s.candidates.find? fun c => c.aged && c.launch.record.prio == 7 && (s.placeOf c).isNone
     let low := s.residentGangs.filter fun g => g.quad == s.facts.quad && decide ((s.recordOf g.key.launch).prio ≤ 3)
     (aged = none ∨ s.dev.featack[0].getLsbD 2 = false ∨ s.fwHolds = true → exec .priorityPreemption s = .next s) ∧
     (∀ (c : Cand) (gs : List Gang) (k : Nat), aged = some c → s.dev.featack[0].getLsbD 2 = true → s.fwHolds = false →
       gs.Perm low → gs.Pairwise (fun x y => y.started < x.started) →
       let after (j : Nat) : State := (gs.take j).foldl State.requestSave s
       (k ≤ gs.length → (∀ j, j < k → (after j).fitsAfter c s.facts.quad = false) → (after k).fitsAfter c s.facts.quad = true →
         exec .priorityPreemption s = .next (after k) ∧ (after k).mem = s.mem ∧
         ((∀ g ∈ low, g.state = .resident) → (∀ x ∈ s.allGangs, ∀ y ∈ s.allGangs, x.key = y.key → x = y) →
           ∀ g ∈ s.residentGangs, (after k).findGang g.key = some (if g ∈ gs.take k then { g with state := .saving } else g))) ∧
       ((∀ j, j ≤ gs.length → (after j).fitsAfter c s.facts.quad = false) → exec .priorityPreemption s = .next s)))

/-- 13/R362: PKRES makes the parked wave Ready, or lets the held request go on; with the kill bit the wave's gang is killed, or
the request ends with ERR 0x04. -/
def Sys2Proof.Claims.ParksResolve : Prop :=
  ∀ (s : State),
    let h := s.facts.val.lo
    (∀ w p, s.parkedAs s.facts.ctx h = some (w, p) → ∃ t v, exec .parkResume s = .next t ∧ t.findWave w.key = some v ∧
      v.life = .ready ∧ v.pc = w.pc ∧ t.mem = s.mem) ∧
    (∀ c k, s.dev.powered = true → s.parkedAs s.facts.ctx h = none → s.heldAs s.facts.ctx h = some (c, k) →
      (∃ t, exec .parkResume s = .next t ∧ t.kick c k.id = some { k with held := none } ∧ t.mem = s.mem) ∧
      (∃ t, exec .parkKill s = .next t ∧ t.kick c k.id = some { k with held := none, err := 4 } ∧ t.mem = s.mem)) ∧
    (∀ p, s.parkedAs s.facts.ctx h = some (s.w, p) → s.gangWaves s.w.key.gangKey = [s.w] → s.gang.key = s.w.key.gangKey →
      s.gang.state = .resident → ∃ t, exec .parkKill s = .next t ∧ t.w.life = .ended ∧ t.w.killed = true ∧ t.gang.killed = true ∧
        t.gang.place = Place.empty ∧ t.cx.wkill = true ∧ t.cx.kills = min 65535 (s.cx.kills + 1))

/-- 13/R358 to R361, R375: a shootdown removes the cached translations of its range, and the translation registers that hit it
lose VALID, judged by the address each was translated from; KIND 2 removes the bounds entries, and that it makes every translation register of the context not valid, and no translation
leaves, is log 50; a device flush does the same after the caches. GO is clear at the end, and stays set while an access to another home
is under way. -/
def Sys2Proof.Claims.Shootdowns : Prop :=
  ∀ (s : State),
    let cx := s.facts.ctx
    let c := s.ctxOf cx
    let removed (lo hi : Nat) (t : State) : Prop := (t.ctxOf cx).shgo = false ∧
      (∀ e ∈ (t.ctxOf cx).tlb, e ∈ c.tlb ∧ meets lo hi e.2.1 e.2.2.size = false) ∧
      (s.w.ctx = cx → ∀ i, meets lo hi (s.xt i).virt (max (s.xt i).limit 1) = true →
        (t.xt i).valid = false) ∧ t.mem = s.mem ∧ t.w.sregs = s.w.sregs
    let lo := if c.shlen = 0 then 0 else c.shbase.toNat
    let hi := if c.shlen = 0 then 2 ^ 57 else c.shbase.toNat + c.shlen.toNat
    let waits (i : Instr) : Prop := ∃ t, exec i s = .next t ∧ (t.ctxOf cx).shgo = true ∧ (t.ctxOf cx).tlb = c.tlb ∧
      (t.ctxOf cx).rbt = c.rbt ∧ t.mem = s.mem ∧ t.w = s.w
    (s.underWay cx = true → (s.restores = [] ∧ s.parts = [] ∨ c.shmap ≠ none ∨ c.shrecall = false ∧ c.flctl = false) →
      waits .shootdownRange ∧ waits .shootdownContext ∧ waits .shootdownRbt ∧
      (c.flctl = true → waits .deviceFlush)) ∧
    (c.flctl = false → exec .deviceFlush s = .next s) ∧
    (s.underWay cx = false → s.restores = [] → (∀ w ∈ s.allWaves, w.stk = []) → (c.shrecall = true → s.parts = []) →
      (c.flctl = false → ∃ t, exec .shootdownRange s = .next t ∧ removed lo hi t) ∧
      (∃ t, exec .shootdownContext s = .next t ∧ removed 0 (2 ^ 57) t) ∧
      (∃ t, exec .shootdownRbt s = .next t ∧ (t.ctxOf cx).rbt = [] ∧ (t.ctxOf cx).tlb = c.tlb ∧ (t.ctxOf cx).shgo = false ∧
        (s.w.ctx = cx → ∀ i, (t.xt i).valid = false) ∧ t.mem = s.mem) ∧
      (c.flctl = true → s.parts = [] → (∀ k, (s.core k).cache = [] ∧ (s.core k).ckc = []) →
        (∃ t, exec .shootdownRange s = .next t ∧ removed lo hi t) ∧ ∃ t, exec .deviceFlush s = .next t ∧ removed lo hi t))

/-- 18/R439, 12/R343, 14/R394: a context comes into being with the configuration written to it; switched out, none of its gangs
stays resident; switched in, its gangs are candidates again; killed, every wave of it has ended, and it is gone once its
restores and engine work have ended. -/
def Sys2Proof.Claims.ContextLife : Prop :=
  ∀ (s : State),
    let cx := s.facts.ctx
    let c := s.ctxOf cx
    let v := s.facts.val.lo
    (c.en = false → v.getLsbD 31 = true → s.dev.powered = true → s.dev.fwState ≠ .recovery →
      (v.getLsbD 30 = true → s.dev.featack[0].getLsbD 0 = true) → ∃ t, exec .contextCreate s = .next t ∧ (t.ctxOf cx).en = true ∧
        (t.ctxOf cx).wcomp = v.getLsbD 30 ∧ (t.ctxOf cx).diag = v.getLsbD 29 ∧ (t.ctxOf cx).bclmask = v.extractLsb' 0 16 ∧
        (t.ctxOf cx).kills = 0 ∧ (∀ k, k ≠ cx → t.ctxOf k = s.ctxOf k) ∧ t.mem = s.mem) ∧
    (c.en = true → exec .contextCreate s = .next s) ∧
    (c.en = true → c.killing = false → s.fwHolds = true → ∃ t, exec .contextSwitchOut s = .next t ∧
      (t.ctxOf cx).switchedOut = c.switchedOut ∧ t.cmdGoing cx = true ∧ t.mem = s.mem ∧ t.allGangs = s.allGangs) ∧
    (c.en = true → c.killing = false → s.fwHolds = false →
      (∃ t, exec .contextSwitchOut s = .next t ∧ (t.ctxOf cx).switchedOut = true ∧ t.mem = s.mem ∧
        ∀ g ∈ t.allGangs, g.key.launch ≠ 0 → g.ctx = cx → g.state ≠ .resident) ∧
      ((∀ g ∈ s.residentGangs, g.ctx = cx → g.state ≠ .saving) → ∃ t, exec .contextSwitchIn s = .next t ∧
        (t.ctxOf cx).switchedOut = false ∧ t.mem = s.mem)) ∧
    (c.en = true → c.killing = false → (s.fwHolds = true ∨ ∃ g ∈ s.residentGangs, g.ctx = cx ∧ g.state = .saving) →
      ∃ t, exec .contextSwitchIn s = .next t ∧ (t.ctxOf cx).switchedOut = c.switchedOut ∧ t.cmdGoing cx = true ∧ t.mem = s.mem ∧
        t.allGangs = s.allGangs) ∧
    (c.en = true → c.killing = false → ∃ t, exec .contextKill s = .next t ∧
      (∀ w ∈ t.allWaves, w.key.launch ≠ 0 → w.ctx = cx → w.life = .ended) ∧ ((t.ctxOf cx).en = false ∨ (t.ctxOf cx).killing = true)) ∧
    (c.en = true → c.killing = true → (∀ r ∈ s.restores, r.ctx ≠ cx) →
      s.busyWork (fun k => s.allWaves.any fun w => w.key == k && w.ctx == cx) = false → ∃ t, exec .contextKill s = .next t ∧
        (t.ctxOf cx).en = false ∧ (∀ p ∈ t.snaps, p.ctx ≠ cx) ∧ (∀ e ∈ t.poolWait, e.1 ≠ cx) ∧ t.mem = s.mem)

/-- 12/R330, R331, 15/R396, 18/R448, R449: the host's writes of queue tails, queue states and ring heads and sizes, the sync packet
and the sample of a wave slot. -/
def Sys2Proof.Claims.QueuesAndRings : Prop :=
  ∀ (s : State),
    let qi := s.facts.queue
    let q := s.queue qi
    let n : Word := s.facts.val.setWidth 32
    let becomes (i : Instr) (x : LQueue) : Prop := ∃ t, exec i s = .next t ∧ t.queue qi = x ∧ (∀ k, k ≠ qi → t.queue k = s.queue k) ∧
      t.mem = s.mem ∧ t.w = s.w
    (q.src = true → exec .qtailWrite s = .next s) ∧
    (q.src = false → (n - q.head).toNat ≤ q.qsize → becomes .qtailWrite { q with tail := n }) ∧
    (q.src = false → q.qsize < (n - q.head).toNat → becomes .qtailWrite { q with err := 0x0C }) ∧
    (q.state = 2 → q.head + 1 ≠ q.tail → becomes .qstatSkip { q with err := 0, head := q.head + 1, state := 1 } ∧
      becomes .qstatRetry { q with err := 0, state := 1 }) ∧
    (q.state = 2 → q.head + 1 = q.tail → becomes .qstatSkip { q with err := 0, head := q.head + 1, state := 0 }) ∧
    (q.state ≠ 2 → becomes .qstatSkip { q with err := 0 } ∧ becomes .qstatRetry { q with err := 0 }) ∧
    (s.dev.heldRecs = [] →
      (∃ t, exec .erheadWrite s = .next t ∧ t.dev.ring = { s.dev.ring with head := n } ∧ t.mem = s.mem) ∧
      ((n.toNat = 0 ∨ ∃ k, k ≤ 10 ∧ n.toNat = 64 * 2 ^ k) → ∃ t, exec .ersizeWrite s = .next t ∧
        t.dev.ring = { s.dev.ring with size := n.toNat } ∧ t.mem = s.mem)) ∧
    (s.dev.traceLost = 0 → ∃ t, exec .trheadWrite s = .next t ∧ t.dev.trace = { s.dev.trace with head := n } ∧ t.mem = s.mem) ∧
    (let g := s.dev.trace
     let c := s.facts.core
     (Claims.Clear s → g.size ≠ 0 → g.pending < g.size → s.clocked c = true →
       ((s.core c).cycle % 2 ^ 16 = 0 → ∃ t, exec .traceSync s = .next t ∧ t.dev.trace = { g with tail := g.tail + 1 } ∧ t.w = s.w) ∧
       (s.dev.smpEn = true → ∃ t, exec .waveSample s = .next t ∧
         t.dev.trace = { g with tail := g.tail + 1 } ∧ (pick (t.core c).sample s.facts.sched).toNat =
           ((pick (s.core c).sample s.facts.sched).toNat % 12 + 1) % 12 ∧ t.w = { s.w with sampled := t.w.sampled })) ∧
     (g.size ≠ 0 → g.size ≤ g.pending → s.clocked c = true → (s.core c).cycle % 2 ^ 16 = 0 → ∃ t, exec .traceSync s = .next t ∧
       t.dev.trace = { g with lost := satInc g.lost } ∧ t.mem = s.mem ∧ t.w = s.w) ∧
     (g.size ≤ g.pending → s.clocked c = true → s.dev.smpEn = true → ∃ t, exec .waveSample s = .next t ∧
       t.dev.trace = { g with lost := satInc g.lost } ∧ t.mem = s.mem ∧ t.w = { s.w with sampled := t.w.sampled }) ∧
     ((s.core c).cycle % 2 ^ 16 ≠ 0 ∨ s.clocked c = false ∨ g.size = 0 → exec .traceSync s = .next s) ∧
     (s.dev.smpEn = false ∨ s.clocked c = false → exec .waveSample s = .next s) ∧
     (s.clocked c = true ↔ (s.core c).bin ≠ 3 ∧ s.dev.powered = true))

/-- 15/R400, R408, R409, 17/R430: replays are counted, a port with 16 of them retrains, and comes back or goes down; a route
returns; a device is lost when the host says so or its routes have been down for 20 ms: the lines that await it are discarded, and
so are the writes held for it behind one that is missing. -/
def Sys2Proof.Claims.LinksAndLoss : Prop :=
  ∀ (s : State),
    let i := s.facts.port
    let x := s.ports[i]
    (x.up = true → x.retraining = false → ∃ t, exec .linkReplay s = .next t ∧
      t.ports[i] = { x with replays := if s.facts.ok then 0 else x.replays + 1 } ∧ t.mem = s.mem ∧ t.w = s.w) ∧
    (x.up = true → x.retraining = false → 16 ≤ x.replays → (s.links[i]).retrains ≠ 3 → ∃ t, exec .portRetrain s = .next t ∧
      t.ports[i] = { x with retraining := true } ∧ (t.links[i]).retrains = (s.links[i]).retrains + 1 ∧ t.w = s.w) ∧
    (x.up = true → x.retraining = true →
      (s.facts.ok = true → ∃ t, exec .retrainingComplete s = .next t ∧ t.ports[i] = { x with retraining := false, replays := 0 } ∧
        t.mem = s.mem) ∧
      (s.facts.ok = false → ∃ t, exec .retrainingComplete s = .next t ∧ t.ports[i] = { x with up := false, retraining := false } ∧
        t.w = s.w)) ∧
    (∀ p, s.peer s.facts.dev = some p → p.dev = s.facts.dev →
      (s.fwHolds = true → exec .routeReturn s = .next s) ∧
      (s.fwHolds = false → ∃ t, exec .routeReturn s = .next t ∧ t.peer p.dev = some { p with route := .up } ∧ t.mem = s.mem) ∧
      (p.route = .down → p.downFrom + 20000000 ≤ s.dev.ftime → ∃ t y, exec .routesDownTimeout s = .next t ∧ t.peer p.dev = some y ∧
        y.lost = true ∧ t.w.sregs = s.w.sregs ∧ t.w.pc = s.w.pc) ∧
      (p.route ≠ .down → exec .routesDownTimeout s = .next s)) ∧
    (∀ p, s.peer s.facts.val.lo.toNat = some p → p.lost = false → ∃ t y, exec .lostsetWrite s = .next t ∧ t.peer p.dev = some y ∧
      y.lost = true ∧ (∀ q ∈ t.parts, q.peer ≠ some p.dev) ∧ (∀ h ∈ y.held, h ∈ p.held) ∧
      (readyRun p.held p.held.length p.performed [] = none → y.held = []) ∧
      (∀ b ∈ t.w.wbuf.lines, b.awaits p.dev = false) ∧ (∀ b ∈ t.blk.place.lines, b.awaits p.dev = false) ∧
      (∀ b ∈ t.gang.place.lines, b.awaits p.dev = false) ∧ (s.dev.ring.size = 0 → ∀ l ∈ s.peerLines p.dev, l ∈ t.poison) ∧
      t.w.sregs = s.w.sregs ∧ t.w.pc = s.w.pc)

/-- 15/R399, R401, R404: as a home the device answers a read with its bytes, performs a write in its order and acknowledges it,
and performs an atomic once for its tag. An address without memory is a fault. -/
def Sys2Proof.Claims.RemoteArrivals : Prop :=
  ∀ (s : State) (p : Peer),
    let f := s.facts
    let a := f.addr
    let q : Word := BitVec.ofNat 32 f.num
    s.peer f.dev = some p → p.dev = f.dev → p.lost = false → Claims.Open s → Memory.wf s.mem →
    s.vaultFenced (64 * lineOf a) = false →
    (inMemory a f.size = true → exec .remoteReadArrival s =
      .next { s with sent := s.sent ++ [.readReply f.dev a ((List.range f.size).map fun i => s.mem.read (a + i)) (s.poisoned a)] }) ∧
    (inMemory a f.size = false → exec .remoteReadArrival s = .fault (.noMemory a)) ∧
    (inMemory a f.data.length = false → exec .remoteWriteArrival s = .fault (.noMemory a)) ∧
    (inMemory a f.data.length = true → a % 64 + f.data.length ≤ 64 → f.data ≠ [] →
      (notAfter q p.performed = true → ∃ t, exec .remoteWriteArrival s = .next t ∧ t.sent = s.sent ++ [.writeAck f.dev q] ∧ t.mem = s.mem) ∧
      (q = p.performed + 1 → p.held = [] → f.ok = true → f.id.toNat < 2 → f.bad = none → ∃ t y, exec .remoteWriteArrival s = .next t ∧
        (∀ i, i < f.data.length → some (t.mem.read (a + i)) = f.data[i]?) ∧
        (∀ b, b < a ∨ a + f.data.length ≤ b → t.mem.read b = s.mem.read b) ∧ t.sent = s.sent ++ [.writeAck f.dev q] ∧
        t.peer f.dev = some y ∧ y.performed = q)) ∧
    (inMemory a f.op.bytes = true → s.poisoned a = false →
      (∀ e, p.table.find? (fun e => e.held (max s.dev.ftime (if s.dev.ftime ≤ f.ftime then f.ftime + 1 else 0)) f.core f.tag) = some e →
        ∃ t, exec .remoteAtomicArrival s = .next t ∧ t.sent = s.sent ++ [.atomicReply f.dev f.core f.tag e.result false] ∧
          t.mem = s.mem) ∧
      (p.table = [] → ∃ t y, exec .remoteAtomicArrival s = .next t ∧ t.peer f.dev = some y ∧ y.table.length = 1 ∧
        t.mem.value a f.op.bytes = f.op.apply (s.mem.value a f.op.bytes) % 2 ^ (8 * f.op.bytes) ∧
        (∀ b, b < a ∨ a + f.op.bytes ≤ b → t.mem.read b = s.mem.read b) ∧
        t.sent = s.sent ++ [.atomicReply f.dev f.core f.tag (BitVec.ofNat 64 (s.mem.value a f.op.bytes)) false])) ∧
    (∃ t y, exec .responseAckArrival s = .next t ∧ t.peer f.dev = some y ∧ (∀ e ∈ y.table, ¬ (e.core = f.core ∧ e.tag = f.tag)) ∧
      t.mem = s.mem) ∧
    (∃ t y, exec .atomicTableExpiry s = .next t ∧ t.peer f.dev = some y ∧
      (∀ e, e ∈ y.table ↔ e ∈ p.table ∧ ¬ (e.core = f.core ∧ e.tag = f.tag ∧ e.at_ + 10000000 ≤ s.dev.ftime)) ∧ t.mem = s.mem)

/-- 08/R244, R245, 15/R410: a core of a peer gathers an update-only partial of a line that is homed here; a read of the line recalls it, and its
value comes in first. That the read waits for a peer which does not answer is log 87. -/
def Sys2Proof.Claims.PeerPartials : Prop :=
  ∀ (s : State) (dev : Nat) (core : CoreId) (coh : Bool) (a : Nat) (op : AtomicOp) (x : DWord),
    updateOnly op.aop = true → a % op.bytes = 0 → hasMemory a = true →
    let held (v : DWord) : Partial := ⟨some dev, core, s.dev.devnum, coh, a, op.aop, op.wide, v, [], false⟩
    (∀ ts, s.agenda = .peerPartial dev core coh a op :: ts →
      let u : State := { s with agenda := ts, turn := s.turn + 1 }
      (s.reachable dev = true → s.restoring s.dev.devnum a = false → s.parts = [] → step s = .next { u with parts := [held op.x] }) ∧
      (s.reachable dev = false → step s = .next u)) ∧
    (s.parts = [held x] → s.snaps = [] → s.restores = [] → Claims.NoCombining s → Memory.wf s.mem →
      s.facts.addr = a → s.facts.size = op.bytes → inMemory a op.bytes = true →
      (s.reachable dev = false → exec .hostCoherentRead s = .next s) ∧
      (s.reachable dev = true → s.poisoned a = false → ∃ t, exec .hostCoherentRead s = .next t ∧ t.parts = [] ∧
        t.mem.value a op.bytes = Machine.atomicValue op.aop (8 * op.bytes) (s.mem.value a op.bytes) x.toNat 0 % 2 ^ (8 * op.bytes) ∧
        (∀ b, b < a ∨ a + op.bytes ≤ b → t.mem.read b = s.mem.read b) ∧
        t.dev.hostRead = (List.range op.bytes).map fun i => t.mem.read (a + i)))

/-- 15/R401, R404 to R406: as a requester the device takes acknowledgements and responses, sends again what has none, drops a
home's entry at the acknowledgement of its response, and parks a wave whose retry window expires, but for one at WEND, of which a
record tells. That a peer whose route is up performs and answers a resend in the same step is log 39; the serial order of PSEQ is log 76. -/
def Sys2Proof.Claims.RemoteAnswers : Prop :=
  ∀ (s : State) (p : Peer),
    let f := s.facts
    let n : Word := BitVec.ofNat 32 f.num
    (s.peer f.dev = some p → p.lost = false → notAfter n p.outPerformed = true → ∃ t, exec .remoteWriteAck s = .next t ∧ t.mem = s.mem ∧
      (∀ g ∈ t.allGangs, ∀ b ∈ g.place.lines, ¬ (b.dev = f.dev ∧ b.sent.any (·.pseq == n) = true))) ∧
    (s.peer f.dev = some p → p.lost = false → notAfter n p.outPerformed = false → exec .remoteWriteAck s = .next s) ∧
    (∀ q bs, s.unacked f.dev n = some (q, bs) → s.peer f.dev = some p → p.dev = f.dev → p.lost = false → p.route = .up →
      s.parts = [] → n = p.outPerformed + 1 → q.pseq = n → p.outHeld = [] → q.last = true → q.red = none → ∃ t y, exec .writeResend s = .next t ∧ t.peer f.dev = some y ∧
        y.outPerformed = n ∧ y.mem = p.mem.writeAll bs ∧ t.mem = s.mem ∧
        (∀ g ∈ t.allGangs, ∀ b ∈ g.place.lines, ¬ (b.dev = f.dev ∧ b.sent.any (·.pseq == n) = true))) ∧
    (∀ o, s.waiting f.core f.tag = some o →
      (∃ t x, exec .remoteAtomicResponse s = .next t ∧ x ∈ (t.core f.core).atomics ∧ x.tag = f.tag ∧ x.answer = some f.val ∧
        t.mem = s.mem) ∧
      (s.peer o.dev = some p → p.lost = false → p.route = .up → p.outTable = [] → ∃ t x, exec .atomicResend s = .next t ∧
        x ∈ (t.core f.core).atomics ∧ x.tag = f.tag ∧ x.answer = some (BitVec.ofNat 64 ((p.mem.writeAll o.own).value o.pa o.op.bytes)) ∧
        t.mem = s.mem)) ∧
    ((∀ o ∈ (s.core f.core).atomics, o.tag = f.tag → o.answer ≠ none) →
      s.peers.find? (fun p => p.outTable.any fun e => e.core == f.core && e.tag == f.tag) = some p →
      ∃ t, exec .responseAckDeadline s = .next t ∧ t.sent = s.sent ++ [.ack p.dev f.core f.tag] ∧ t.mem = s.mem) ∧
    (f.wave = s.w.key → s.w.key.launch ≠ 0 → s.w.saved = false → s.dev.halt = false → s.gang.key = s.w.key.gangKey →
      s.gang.state = .resident →
      let parks (lanes : Vector Word 3) : Prop := ∃ t, exec .retryWindowExpiry s = .next t ∧ t.w.tmask = lanes ∧ t.w.pc = s.w.pc ∧
        t.w.life = .parked ⟨.page, s.dev.nextHandle, true, none⟩
      let tells : Prop := ∃ t, exec .retryWindowExpiry s = .next t ∧ t.w = s.w ∧ t.dev.nextHandle = s.dev.nextHandle + 1
      (∀ lanes addr access, s.w.life = .waiting (.remote lanes addr access) →
        (access ≠ 5 ∨ s.atWend s.w.key = false → parks lanes) ∧ (access = 5 → s.atWend s.w.key = true → tells)) ∧
      (∀ addr, s.w.life = .waiting (.wbfull addr) → (s.atWend s.w.key = false → parks noLanes) ∧ (s.atWend s.w.key = true → tells)))

/-- 18/R440 to R444: staging, abandoning, handing over, probation and fallback of an image, and attestation. That an
entry counts in MLTAIL with no log (mlsize 0), and in which order the causes of ERR are tried, is log 51; that partials and restores of what is
read come first (spanFirst) is log 14. -/
def Sys2Proof.Claims.FirmwareReplacement : Prop :=
  ∀ (s : State) (i : Image),
    let d := s.dev
    let found := checkImage (s.homeBytes d.fwsrc d.fwlen) d.fwlen d.fwRole d.fwDie d.running[runningIndex d.fwRole d.fwDie]
    (d.fwState = .idle → d.fwRole ≠ 3 →
      (d.featack[0].getLsbD 3 = false → ∃ t, exec .firmwareStage s = .next t ∧ t.dev = { d with fwErr := 4, fwgo := false } ∧ t.mem = s.mem) ∧
      (d.featack[0].getLsbD 3 = true → ∀ u, s.spanFirst d.fwsrc d.fwlen = some u → ∃ t, exec .firmwareStage s = .next t ∧
        t.dev.fwgo = true ∧ t.dev.fwState = .idle ∧ t.dev.images = d.images) ∧
      (d.featack[0].getLsbD 3 = true → s.spanFirst d.fwsrc d.fwlen = none →
        (∀ why, found = .inr why → ∃ t, exec .firmwareStage s = .next t ∧ t.dev = { d with fwErr := BitVec.ofNat 8 why, fwgo := false } ∧ t.mem = s.mem) ∧
        (found = .inl i → ∃ t, exec .firmwareStage s = .next t ∧ t.dev.fwState = .staged ∧ t.dev.staged = some i ∧
          t.dev.running = d.running ∧ t.mem = s.mem))) ∧
    (d.fwState = .staged → d.staged = some i →
      (∃ t, exec .firmwareSwap s = .next t ∧ t.dev.fwState = .handover ∧ t.dev.staged = some i ∧ t.dev.previous = none) ∧
      (∃ t, exec .firmwareAbandon s = .next t ∧ t.dev.fwState = .idle ∧ t.dev.staged = none)) ∧
    (d.fwState = .idle → (∃ t, exec .firmwareSwap s = .next t ∧ t.dev = { d with fwErr := 5, fwgo := false }) ∧
      ∃ t, exec .firmwareAbandon s = .next t ∧ t.dev = { d with fwErr := 5, fwgo := false }) ∧
    (let k := runningIndex i.role i.die
     d.fwState = .handover → d.staged = some i → d.previous = none →
      (i.role = 0 → s.safePoint i = true → ∀ c, (s.core c).retest = .no ∧ (s.core c).moving = none) ∧
      (s.safePoint i = false → exec .handoverSafePoint s = .next s) ∧
      (s.safePoint i = true → ∃ t, exec .handoverSafePoint s = .next t ∧ t.dev.previous = some (k.val, d.running[k]) ∧
        t.dev.running[k] = (if d.active[k] then d.images[k].1 else d.images[k].2))) ∧
    (∀ k, k < 6 → ∀ old, d.previous = some (k, old) → d.mlsize = 0 ∨ Claims.Clear s →
      (d.fwState = .handover → ∃ t, exec .firmwareHeartbeat s = .next t ∧ t.dev.fwState = .probation ∧ t.dev.fwFrom = d.ftime ∧
        t.dev.mltail = d.mltail + 1) ∧
      (d.fwState = .fallback → ∃ t, exec .firmwareHeartbeat s = .next t ∧ t.dev.fwState = .idle ∧ t.dev.staged = none) ∧
      (d.fwState = .probation → d.fwBeat + 1000000 ≤ d.ftime →
        (d.fwMissed + 1 < 3 → ∃ t, exec .heartbeatMissed s = .next t ∧ t.dev.fwMissed = d.fwMissed + 1 ∧ t.dev.fwState = .probation) ∧
        (3 ≤ d.fwMissed + 1 → ∃ t, exec .heartbeatMissed s = .next t ∧ t.dev.fwState = .fallback ∧
          t.dev.running.toList.getD k Running.reset = old ∧ t.dev.mltail = d.mltail + 1)) ∧
      (d.fwState = .probation → d.fwFrom + 10000000000 ≤ d.ftime → d.fwMissed < 3 → ∃ t, exec .probationEnd s = .next t ∧
        t.dev.fwState = .idle ∧ t.dev.staged = none ∧ t.dev.previous = none ∧ t.dev.active[s.stagedRole] = !(d.active[s.stagedRole]))) ∧
    (let msg := s.homeBytes d.attsrc 32 ++ d.mlhash ++ leBytes 8 d.mltail
     let going := s.onDev fun d => { d with attgo := true }
     (∀ u, going.spanFirst d.attsrc 32 = some u → exec .attestation s = .next u ∧ u.dev.attgo = true) ∧
     (Claims.Clear s → ∃ u, going.deviceWrite d.attdst (msg ++ Config.attest msg) = .ok u ∧
       exec .attestation s = .next (u.onDev fun d => { d with attgo := false }) ∧ u.w = s.w))

/-- 17/R426 to R433, 13/R372, R378: the host's unit commands, bins, self-tests, readmission, the hourly halving, scrubbing, refresh
and the recovery of a directory entry, on a core or a memory region. That the halving sets a region's corrected count to 0 is log 48;
what waits during a replacement of firmware is log 74. -/
def Sys2Proof.Claims.UnitsAndRepair : Prop :=
  ∀ (s : State) (u : UnitId) (c : CoreId), unitRef u = .core c →
    let k := s.core c
    (s.commanded = u →
      (k.bin ≠ 3 → k.retest = .no → ∃ t, exec .unitcmdRetest s = .next t ∧ t.core c = { k with retest := .present } ∧ t.mem = s.mem) ∧
      (s.fwHolds = true → exec .unitcmdReadmit s = .next s) ∧
      (k.bin = 3 → k.retest = .no → s.fwHolds = false → ∃ t, exec .unitcmdReadmit s = .next t ∧ t.core c = { k with retest := .readmit } ∧ t.mem = s.mem) ∧
      (k.bin ≠ 3 → ∃ t, exec .unitcmdFence s = .next t ∧ t.core c = { k with closed := true, goal := .fence } ∧ t.mem = s.mem) ∧
      (unitKind u = 9 → unitScope u = 0 →
        (∃ t, exec .unitcmdStrongCode s = .next t ∧ (pick t.spads c).strong = true) ∧
        (∃ t, exec .unitcmdSecded s = .next t ∧ (pick t.spads c).strong = false))) ∧
    (s.facts.unit = u →
      (k.closed = true → k.goal = .up → k.retest = .no → k.bin.toNat < 3 → s.coreEmpty c = true → s.fwHolds = false →
        ∃ t, exec .binChange s = .next t ∧ (t.core c).bin = k.bin + 1 ∧ ((t.core c).closed = true ↔ k.bin + 1 ≠ 3)) ∧
      (s.fwHolds = true → k.moving = none → exec .binChange s = .next s) ∧
      (k.retest = .up → k.goal = .up → s.coreEmpty c = true → s.dev.unitgo = none →
        (s.facts.val = 0 → ∃ t, exec .bistComplete s = .next t ∧ (t.core c).retest = .no ∧ (t.core c).closed = false ∧
          (∀ x ∈ (t.core c).mcnt.toList, x = 0) ∧ (t.core c).bin = k.bin) ∧
        (s.facts.val ≠ 0 → ∃ t, exec .bistComplete s = .next t ∧ (t.core c).retest = .no ∧ (t.core c).closed = true)) ∧
      (72 ≤ hoursSince s.dev.ftime k.cleanFrom → k.bin ≠ 0 → k.bin ≠ 3 → k.retest = .no → k.closed = false → s.fwHolds = false →
        ∃ t, exec .readmission s = .next t ∧ (t.core c).closed = true ∧ (t.core c).goal = .down ∧
          (s.coreEmpty c = true → (t.core c).retest = .down) ∧ t.mem = s.mem) ∧
      (unitKind u = 9 → unitScope u = 0 → s.facts.bad = none → s.dev.ring.size = 0 → ∃ t, exec .scrubSweep s = .next t ∧
        (pick t.spads c).corrected = (pick s.spads c).corrected + s.facts.num ∧
        ((pick s.spads c).corrected < 16 → 16 ≤ (pick s.spads c).corrected + s.facts.num → (pick t.spads c).strong = true) ∧
        t.mem = s.mem)) ∧
    (∃ t, exec .hourlyHalving s = .next t ∧ (∀ i : Fin 13, (t.core c).mcnt[i] = k.mcnt[i] / 2) ∧ (pick t.spads c).corrected = 0 ∧
      (pick t.spads c).strong = (pick s.spads c).strong ∧ t.mem = s.mem) ∧
    exec .mmsRefresh s = .next s ∧
    (let line := s.facts.addr / 64
     s.parts = [] → Claims.NoCombining s → s.dev.ring.size = 0 → ∃ t, exec .directoryRecovery s = .next t ∧
      (∀ e ∈ t.reg, e.1 / 16 ≠ line) ∧ (∀ e ∈ t.dirs, e.line ≠ line) ∧
      (∀ l ∈ (t.core c).cache ++ (t.core c).ckc, ¬ (l.dev = s.dev.devnum ∧ l.line = line ∧ l.coh = true)) ∧ t.mem = s.mem)

/-- 15/R395, R412, 18/R436, R437: the host writes and reads lines at D as a coherent agent, writes registers whole, and halts and
resumes every wave. -/
def Sys2Proof.Claims.HostAccesses : Prop :=
  ∀ (s : State),
    let f := s.facts
    let n := f.data.length
    (inMemory f.addr n = false → exec .hostCoherentWrite s = .fault (.noMemory f.addr)) ∧
    (inMemory f.addr f.size = false → exec .hostCoherentRead s = .fault (.noMemory f.addr)) ∧
    (Claims.Open s → inMemory f.addr n = true → f.data ≠ [] → f.addr % 64 + n ≤ 64 →
      s.vaultFenced (64 * lineOf f.addr) = false → Memory.wf s.mem → ∃ t, exec .hostCoherentWrite s = .next t ∧
        (∀ i, i < n → some (t.mem.read (f.addr + i)) = f.data[i]? ∧ t.registrant (f.addr + i) = some 512) ∧
        (∀ b, b < f.addr ∨ f.addr + n ≤ b → t.mem.read b = s.mem.read b) ∧ t.w = s.w ∧ t.blk = s.blk ∧ t.gang = s.gang) ∧
    (Claims.Open s → inMemory f.addr f.size = true → (∀ i, i < f.size → s.poisoned (f.addr + i) = false) →
      exec .hostCoherentRead s =
        .next { s with dev := { s.dev with hostRead := (List.range f.size).map fun i => s.mem.read (f.addr + i) } }) ∧
    (let v := f.val.lo.toNat
     (f.addr = 0x5C → f.size = 4 →
        (256 ≤ v → v ≤ 2 ^ 20 → exec .registerWrite s = .next { s with dev := { s.dev with age := v } }) ∧
        (v < 256 → exec .registerWrite s = .next s)) ∧
     (f.addr = 0x00 → f.size = 4 → exec .registerWrite s = .next s) ∧
     (f.addr = 0x88 → f.size = 8 →
        (hasMemory f.val.toNat = true → ∃ t, exec .registerWrite s = .next t ∧ t.readWindow 0x88 = f.val.toNat ∧ t.mem = s.mem) ∧
        (hasMemory f.val.toNat = false → exec .registerWrite s = .next s)) ∧
     (f.addr = 0x40 → f.size = 4 → ∃ t, exec .registerWrite s = .next t ∧
        t.readWindow 0x40 = (f.val.lo &&& ~~~(1#32 <<< 18)).toNat ∧ t.mem = s.mem)) ∧
    (s.dev.halt = false → s.dev.featack[0].getLsbD 4 = false → exec .debugHalt s = .next s) ∧
    (s.dev.halt = false → s.dev.featack[0].getLsbD 4 = true → ∃ t, exec .debugHalt s = .next t ∧ t.dev.halt = true ∧
      t.dev.haltFrom = s.dev.ftime ∧ t.runnable = false ∧ t.w = s.w) ∧
    (s.dev.halt = true → ∃ t, exec .debugResume s = .next t ∧ t.dev.halt = false ∧ t.w.waitFrom =
      s.w.waitFrom + (if s.w.saved then 0 else (s.core s.w.core).cycle - max (s.core s.w.core).haltCycle s.w.waitFrom) ∧
      t.w.life = s.w.life)

/-! ### When gangs and blocks, and the self-tests of a core, move on -/

/-- 06/R188, 07/R214, R215, 12/R344: a block of which nothing is left in B retires, and the gang with its last block when nothing is
left in G, or it was killed; a gang whose waves, blocks and own place hold nothing enters its save slot. -/
def Sys2Proof.Claims.GangsComplete : Prop :=
  ∀ (s : State) (g : Gang), s.dev.powered = true → g.key.launch ≠ 0 → s.findGang g.key = some g → (∀ x ∈ s.allGangs, x.key = g.key → x = g) →
    (∀ b, s.facts.block = b.key → s.findBlock b.key = some b → (∀ x ∈ s.allBlocks, x.key = b.key → x = b) → b.key.gangKey = g.key →
      g.state = .resident → b.retired = false → (∀ w ∈ s.allWaves, w.key.block = b.key → w.life = .ended) →
      (s.busyWork fun k => k.block == b.key) = false → (g.killed = true ∨ (b.place.lines = [] ∧ g.place.lines = [])) →
      ∃ t x, exec .blockRetirement s = .next t ∧ t.mem = s.mem ∧ t.findGang g.key = some x ∧
        t.findBlock b.key = some { b with retired := true, scratch := [], poison := [], tags := [], place := Place.empty } ∧
        (g.placed ≠ g.blocks → x.state = .resident) ∧
        (g.placed = g.blocks → (∀ y ∈ s.allBlocks, y.key.launch ≠ 0 → y.key.gangKey = g.key → y.key ≠ b.key → y.retired = true) →
          x.state = .retired ∧ x.place = Place.empty)) ∧
    (s.facts.gangKey = g.key → g.state = .saving → s.gangRestoring g.key = false → (s.busyWork fun k => k.gangKey == g.key) = false →
      (∀ w ∈ s.gangWaves g.key, w.stk = [] ∧ w.wbuf.lines = []) →
      (∀ b ∈ s.allBlocks, b.key.gangKey = g.key → b.place.lines = []) → g.place.lines = [] → Claims.Open s →
      ∃ t x, exec .gangSave s = .next t ∧ t.findGang g.key = some x ∧ x.state = .saved ∧ x.waitFrom = s.dev.ticket)

/-- 17/R428, R429, R431: what the end of a core's self-test does while no command is in hand: after a move up the core opens with its
counters zero or waits CLOSED; at the present bin nothing, or the fence; one bin down for a readmission; bin 2 out of the fence. That a
test at the present bin which fails during a replacement of firmware waits to be fenced, while one of a move ends with its bin, is log 74. -/
def Sys2Proof.Claims.SelfTests : Prop :=
  ∀ (s : State) (c : CoreId), unitRef s.facts.unit = .core c → s.coreEmpty c = true → s.dev.unitgo = none →
    let k := s.core c
    let pass (p : Core → Prop) : Prop := s.facts.val = 0 → ∃ t, exec .bistComplete s = .next t ∧ p (t.core c)
    let fail (p : Core → Prop) : Prop := s.facts.val ≠ 0 → ∃ t, exec .bistComplete s = .next t ∧ p (t.core c)
    (k.retest = .no → exec .bistComplete s = .next s) ∧
    (k.retest = .present → (pass fun x => x = { k with retest := .no }) ∧
      (s.fwHolds = false → fail fun x => x.bin = 3 ∧ x.retest = .no ∧ x.closed = false) ∧
      (s.fwHolds = true → fail fun x => x.bin = k.bin ∧ x.retest = .no ∧ x.closed = true ∧ x.goal = .fence)) ∧
    (k.retest = .down → (pass fun x => x.bin = k.bin - 1 ∧ x.retest = .no ∧ (k.goal ≠ .fence → x.closed = false)) ∧
      fail fun x => x.bin = k.bin ∧ x.retest = .no ∧ x.cleanFrom = s.dev.ftime ∧ (k.goal ≠ .fence → x.closed = false)) ∧
    (k.retest = .readmit → (pass fun x => x.bin = 2 ∧ x.retest = .no) ∧ fail fun x => x.bin = k.bin ∧ x.retest = .no)

/-! ### Reset and the whole machine -/

namespace Sys2Proof.Claims

/-- Memory, every scratchpad and every peer's memory are in canonical form. -/
def Canonical (s : State) : Prop :=
  Memory.wf s.mem ∧ (∀ b ∈ s.allBlocks, Memory.wf b.scratch) ∧ ∀ p ∈ s.peers, Memory.wf p.mem

/-- The rows of host and peer accesses to an address of this device. -/
def outsideAccess : List Instr :=
  [.hostCoherentWrite, .hostCoherentRead, .remoteReadArrival, .remoteWriteArrival, .remoteAtomicArrival]

end Sys2Proof.Claims

/-- 00/R18, 15/R396, R402, R415, 18/R437 to R442: after a cold reset SEQ is 1, no feature is acknowledged, no context exists, no
queue is enabled, no throttle record, halt, staged image or command is pending, and every unit is in bin 0. ERSIZE, TRSIZE and DBGCTL, which
the manual gives no reset value, are 0 by log 8. -/
def Sys2Proof.Claims.ResetValues : Prop :=
  let s := State.reset
  s.dev.seq = 1 ∧ (∀ i : Fin 4, s.dev.featack[i] = 0) ∧ s.dev.halt = false ∧ s.dev.fwState = .idle ∧ s.dev.staged = none ∧
    s.dev.ring.size = 0 ∧ s.dev.trace.size = 0 ∧ s.dev.heldRecs = [] ∧
    (∀ c, (s.ctxOf c).en = false ∧ (s.ctxOf c).shgo = false ∧ (s.ctxOf c).kills = 0) ∧
    (∀ q, (s.queue q).en = false ∧ (s.queue q).err = 0) ∧
    (∀ c, (s.core c).bin = 0 ∧ (s.core c).closed = false ∧ ∀ i : Fin 13, (s.core c).mcnt[i] = 0) ∧
    s.waves = [] ∧ s.blocks = [] ∧ s.gangs = [] ∧ s.launches = [] ∧ s.snaps = [] ∧ s.restores = [] ∧ s.parts = [] ∧ s.runnable = false

/-- 15/R402, R414, 18/R441, R445: a cold reset in which every unit passes restarts SEQ and the contexts and boots the active
slots, or the recovery image under its strap; a warm reset keeps memory, SEQ, the acknowledged features and every core's bin. -/
def Sys2Proof.Claims.ResetRows : Prop :=
  ∀ (s : State),
    (s.facts.units = [] → ∃ t, exec .coldReset s = .next t ∧ t.dev.seq = 1 ∧ t.dev.featack[0] = 0 ∧ (∀ c, (t.ctxOf c).en = false) ∧
      (∀ q, (t.queue q).en = false) ∧ (∀ c, (t.core c).bin = 0) ∧ t.waves = [] ∧ t.dev.devnum = s.dev.devnum ∧
      t.dev.images = s.dev.images ∧ t.dev.active = s.dev.active ∧ t.agenda = s.agenda ∧
      (s.dev.strap = true → s.dev.bootSlot = false → t.dev.fwState = .recovery) ∧ t.dev.bootSlot = false ∧
      (s.dev.strap = false ∨ s.dev.bootSlot = true → s.facts.size = 0 → t.dev.fwState = .idle ∧ ∀ i : Fin 6,
        t.dev.running[i] = if s.dev.active[i] then s.dev.images[i].2 else s.dev.images[i].1)) ∧
    (∀ u c code at_, s.facts.units = [(u, code, at_)] → unitRef u = .core c → ∃ t, exec .coldReset s = .next t ∧ (t.core c).bin = 3 ∧
      t.openCore c = false ∧ (∃ r ∈ t.dev.heldRecs, r.kind = 4) ∧
      (u, BitVec.ofNat 32 (code % 2 ^ 8 * 2 ^ 24 + at_ % 2 ^ 24)) ∈ t.dev.bists) ∧
    (∃ t, exec .warmReset s = .next t ∧ t.mem = s.mem ∧ t.poison = s.poison ∧ t.dev.seq = s.dev.seq ∧
      t.dev.featack = s.dev.featack ∧ t.dev.devnum = s.dev.devnum ∧ (∀ c, (t.ctxOf c).en = false) ∧
      (∀ c, (t.core c).bin = (s.core c).bin ∧ (t.core c).mcnt = (s.core c).mcnt) ∧ t.waves = [] ∧ t.runnable = false)

/-- The memories are canonical after reset. -/
def Sys2Proof.Claims.ResetCanonical : Prop := Claims.Canonical State.reset

/-- Every step keeps the memories canonical. -/
def Sys2Proof.Claims.StepKeepsCanonical : Prop :=
  ∀ (s t : State), Claims.Canonical s → step s = .next t → Claims.Canonical t

/-- No step is refused, and only an access of the host or of a peer to an address without memory faults (13/R376). -/
def Sys2Proof.Claims.StepAnswers : Prop :=
  ∀ (s : State), SafeStep s ∨
    ∃ i f ts, s.agenda = .event i f :: ts ∧ i ∈ Claims.outsideAccess ∧ step s = .fault (.noMemory f.addr)

/-- A wave that is not Ready, or whose wait may not look again, issues nothing; neither does any wave of a device that is halted or
shut down by heat (06/R186, 15/R412, 18/R450). -/
def Sys2Proof.Claims.IdleStep : Prop :=
  ∀ (s : State), s.agenda = [] →
    (s.dev.halt = true ∨ s.dev.powered = false ∨ s.w.saved = true ∨ s.w.life = .created ∨ s.w.life = .ended ∨
      (∃ p, s.w.life = .parked p) ∨ s.gang.state ≠ .resident) → step s = .next { s with turn := s.turn + 1 }

/-! ### The obligations -/

/-- Decoding an encoded instruction gives it back (R90, R91, R92, R93, R94, R95, R96, R99, R101, R104, R105, R106). -/
def Obligations.DecodeOfEncode : Prop :=
  Sys2Proof.Claims.DecodeOfEncode

/-- What decodes is well-formed and encodes to its words (R90, R91, R92, R93, R94, R95, R103, R106, R108). -/
def Obligations.EncodeOfDecode : Prop :=
  Sys2Proof.Claims.EncodeOfDecode

/-- The worked encodings decode to their instructions (R129, R131, R132, R135, R136, R141, R151, R152, R279, R332,
R388). -/
def Obligations.WorkedEncodings : Prop :=
  Sys2Proof.Claims.WorkedEncodings

/-- A step runs the decoded instruction, or the event at hand (R90, R108, R186, R187, R296, R412, R450). -/
def Obligations.StepRunsDecoded : Prop :=
  Sys2Proof.Claims.StepRunsDecoded ∧
  Sys2Proof.Claims.StepRunsAgenda ∧
  Sys2Proof.Claims.IdleStep

/-- 32-bit sums, products, logic, shifts, minima and maxima (R123, R95, R120). -/
def Obligations.ScalarArithmetic : Prop :=
  Sys2Proof.Claims.ScalarArithmetic ∧
  Sys2Proof.Claims.AddWithCarry

/-- Division and remainder, division by zero included (R124). -/
def Obligations.ScalarDivision : Prop :=
  Sys2Proof.Claims.ScalarDivision

/-- Bit-field extract and insert, counts and reversal (R125, R126). -/
def Obligations.ScalarBitFields : Prop :=
  Sys2Proof.Claims.BitFields ∧
  Sys2Proof.Claims.BitCounts

/-- Compares set SCC, SSEL selects, moves and immediates (R127). -/
def Obligations.ComparesAndMoves : Prop :=
  Sys2Proof.Claims.ComparesAndSelect ∧
  Sys2Proof.Claims.MovesAndImmediates

/-- 64-bit pair instructions (R129, R95, R103). -/
def Obligations.PairArithmetic : Prop :=
  Sys2Proof.Claims.PairArithmetic

/-- Mask instructions on EXEC and CMASK (R130). -/
def Obligations.MaskInstructions : Prop :=
  Sys2Proof.Claims.MaskInstructions

/-- Branches and jumps, and the targets that trap (R132, R133, R147). -/
def Obligations.Branches : Prop :=
  Sys2Proof.Claims.BranchesTransfer ∧
  Sys2Proof.Claims.MisalignedTransfers

/-- Calls slide the window and link (R134, R135, R136, R451). -/
def Obligations.Calls : Prop :=
  Sys2Proof.Claims.CallsSlide ∧
  Sys2Proof.Claims.PlainCalls

/-- The checks of a call, and RET (R135, R136, R137). -/
def Obligations.Returns : Prop :=
  Sys2Proof.Claims.CallChecks ∧
  Sys2Proof.Claims.ReturnSlidesBack ∧
  Sys2Proof.Claims.PlainReturn ∧
  Sys2Proof.Claims.RefillRestores

/-- NOP, FBAR, YIELD and the end of a wave (R139, R140, R253). -/
def Obligations.NopYieldFbarWend : Prop :=
  Sys2Proof.Claims.NopYieldFbar ∧
  Sys2Proof.Claims.WendEnds

/-- SRD and SWR of every state register (R141, R142, R145, R150, R152, R89). -/
def Obligations.StateRegisters : Prop :=
  Sys2Proof.Claims.ReadStateRegister ∧
  Sys2Proof.Claims.WriteStateRegister ∧
  Sys2Proof.Claims.BoundVisibility ∧
  Sys2Proof.Claims.ForbiddenAccess

/-- TRAP, BRK, TRET and a second trap (R147, R149, R150, R151, R152). -/
def Obligations.TrapEntry : Prop :=
  Sys2Proof.Claims.SoftwareTraps ∧
  Sys2Proof.Claims.TrapsThatKill ∧
  Sys2Proof.Claims.TretReturns

/-- Unassigned, ill-formed and unfetchable instructions (R107, R108, R94, R146, R353). -/
def Obligations.IllegalInstructions : Prop :=
  Sys2Proof.Claims.UnassignedOpcodeTraps ∧
  Sys2Proof.Claims.IllFormedTraps ∧
  Sys2Proof.Claims.FetchFails

/-- What the scalar instructions leave alone (R121, R122, R130). -/
def Obligations.ScalarFrame : Prop :=
  Sys2Proof.Claims.ScalarFrame

/-- Vector bits, moves, select and exchange (R156, R162, R163, R170, R171, R172). -/
def Obligations.VectorBits : Prop :=
  Sys2Proof.Claims.VectorBits ∧
  Sys2Proof.Claims.VectorSelectAndExchange ∧
  Sys2Proof.Claims.NoSpillPending ∧
  Sys2Proof.Claims.VectorBitsComplete

/-- VMOVS, VLANE, VTAG, VGETL and VSETL (R164, R167, R173). -/
def Obligations.LaneMoves : Prop :=
  Sys2Proof.Claims.LaneMoves ∧
  Sys2Proof.Claims.LaneMovesComplete

/-- Vector arithmetic on every format (R157, R158, R159, R160). -/
def Obligations.VectorNumeric : Prop :=
  Sys2Proof.Claims.VectorNumeric ∧
  Sys2Proof.Claims.VectorNumericComplete

/-- The values of float elements, sums and dot products (R62, R64, R65, R66, R67, R68, R69, R70, R80, R159, R160, R168).
-/
def Obligations.FloatElements : Prop :=
  Sys2Proof.Claims.FloatReads ∧
  Sys2Proof.Claims.FloatRounding ∧
  Sys2Proof.Claims.FloatArithmetic ∧
  Sys2Proof.Claims.FloatSelection ∧
  Sys2Proof.Claims.SumsOnce

/-- Element placement, integer elements and conversions (R56, R58, R75, R76, R77, R78, R159). -/
def Obligations.IntegerElements : Prop :=
  Sys2Proof.Claims.IntegerElements ∧
  Sys2Proof.Claims.ElementPlacement ∧
  Sys2Proof.Claims.PackedIntegers ∧
  Sys2Proof.Claims.IntegerConversions

/-- Tapered codes, their rounding, and compares (R71, R72, R74, R161). -/
def Obligations.TaperedAndCompare : Prop :=
  Sys2Proof.Claims.TaperedReads ∧
  Sys2Proof.Claims.TaperedRounding ∧
  Sys2Proof.Claims.ElementCompare

/-- VCMP writes CMASK (R161). -/
def Obligations.VectorCompare : Prop :=
  Sys2Proof.Claims.VectorCompare

/-- Conversion, reduction, dot product, special functions (R81, R166, R168, R169, R174). -/
def Obligations.VectorConvertDotReduce : Prop :=
  Sys2Proof.Claims.VectorConvertDotReduce ∧
  Sys2Proof.Claims.SpecialFunctions ∧
  Sys2Proof.Claims.ConversionsComplete

/-- ILLFMT, the window check and bound actions (R86, R87, R88, R103, R158, R161, R165, R166, R167, R168, R169, R174). -/
def Obligations.FormatTraps : Prop :=
  Sys2Proof.Claims.FormatTraps ∧
  Sys2Proof.Claims.BoundActions

/-- What the vector bit and exchange instructions leave alone (R154, R156). -/
def Obligations.VectorFrame : Prop :=
  Sys2Proof.Claims.VectorFrame

/-- XLD and XINV (R222, R226, R227, R228, R245). -/
def Obligations.TranslationRegisters : Prop :=
  Sys2Proof.Claims.TranslationRegisters

/-- Scalar and vector loads (R229, R230, R231, R236, R238). -/
def Obligations.Loads : Prop :=
  Sys2Proof.Claims.ScalarLoads ∧
  Sys2Proof.Claims.VectorLoads

/-- Stores, and local stores in the scratchpad (R199, R231, R232, R237, R238). -/
def Obligations.Stores : Prop :=
  Sys2Proof.Claims.StoresComplete ∧
  Sys2Proof.Claims.LocalStores ∧
  Sys2Proof.Claims.AccessesComplete

/-- Stores at W, B and G, and at D (R197, R199, R200, R201, R237, R367). -/
def Obligations.StoresByLevel : Prop :=
  Sys2Proof.Claims.StoresAtW ∧
  Sys2Proof.Claims.StoresAtD ∧
  Sys2Proof.Claims.StoresInPlaces ∧
  Sys2Proof.Claims.StoresAtHome

/-- Atomics (R219, R232, R241, R242). -/
def Obligations.Atomics : Prop :=
  Sys2Proof.Claims.AtomicsComplete ∧
  Sys2Proof.Claims.LocalAtomics ∧
  Sys2Proof.Claims.AtomicsAtHome ∧
  Sys2Proof.Claims.AtomicOperations

/-- The checks of an access in their order (R232, R263, R353). -/
def Obligations.AccessChecks : Prop :=
  Sys2Proof.Claims.AccessChecks

/-- COMMIT, FENCE, validated commits, ABORT, MARK and ACQ (R205, R207, R208, R209, R210, R211, R220, R246). -/
def Obligations.Commits : Prop :=
  Sys2Proof.Claims.AbortMarkAcquire ∧
  Sys2Proof.Claims.CommitsComplete ∧
  Sys2Proof.Claims.CommitAndFence ∧
  Sys2Proof.Claims.EmptyMove ∧
  Sys2Proof.Claims.ValidatedCommit

/-- Cache walkers (R249, R250, R251, R252). -/
def Obligations.Walkers : Prop :=
  Sys2Proof.Claims.WalkersAccept ∧
  Sys2Proof.Claims.WalkerLines

/-- Named barriers (R140, R150, R256, R257, R258, R261, R266, R270). -/
def Obligations.NamedBarriers : Prop :=
  Sys2Proof.Claims.NamedBarriers ∧
  Sys2Proof.Claims.ArrivalsComplete ∧
  Sys2Proof.Claims.SyncTraps ∧
  Sys2Proof.Claims.BarrierRelease

/-- Gong arrivals, waits and release (R259, R260, R261). -/
def Obligations.Gongs : Prop :=
  Sys2Proof.Claims.GongArriveWait ∧
  Sys2Proof.Claims.GongRelease

/-- Barrier objects, their waits and timeouts (R264, R265, R266, R267). -/
def Obligations.BarrierObjects : Prop :=
  Sys2Proof.Claims.BarrierObjects ∧
  Sys2Proof.Claims.ObjectDecrement ∧
  Sys2Proof.Claims.BarrierObjectWaits ∧
  Sys2Proof.Claims.BarrierObjectTimeout

/-- Queues between stages (R268, R269, R270). -/
def Obligations.Queues : Prop :=
  Sys2Proof.Claims.Queues

/-- CPKICK, CPSEAL, CPWAIT and CPTEST (R278, R279, R280). -/
def Obligations.CopyKickSealWait : Prop :=
  Sys2Proof.Claims.CopyKick ∧
  Sys2Proof.Claims.CopySeal ∧
  Sys2Proof.Claims.CopyWait

/-- The copy engine's requests (R273, R275, R276, R277, R278, R281). -/
def Obligations.CopyRequests : Prop :=
  Sys2Proof.Claims.CopyFetch ∧
  Sys2Proof.Claims.CopyLine ∧
  Sys2Proof.Claims.CopyEnd

/-- LNCH (R332). -/
def Obligations.LaunchQueues : Prop :=
  Sys2Proof.Claims.LaunchEnters ∧
  Sys2Proof.Claims.LaunchQueues

/-- SNAP, SACC and SQRY (R388, R389, R393). -/
def Obligations.SnapshotsTaken : Prop :=
  Sys2Proof.Claims.SnapshotTaken ∧
  Sys2Proof.Claims.SnapshotAccept

/-- SREJ, restores and the shadow pool (R385, R387, R390, R392, R394). -/
def Obligations.SnapshotsRejected : Prop :=
  Sys2Proof.Claims.SnapshotRejected ∧
  Sys2Proof.Claims.ShadowPool

/-- Tile array sums and accumulation (R289, R290, R291). -/
def Obligations.TileArithmetic : Prop :=
  Sys2Proof.Claims.TileArithmetic

/-- Accumulator slots, MWAIT, ACZ and ACREL (R293, R294, R295, R297, R307, R308). -/
def Obligations.AccumulatorControl : Prop :=
  Sys2Proof.Claims.AccumulatorBinding ∧
  Sys2Proof.Claims.AccumulatorControl

/-- ACLD, ACST, ACRD and ACWR (R309, R310, R311, R312, R313). -/
def Obligations.AccumulatorMoves : Prop :=
  Sys2Proof.Claims.TilesComplete ∧
  Sys2Proof.Claims.AccumulatorTiles ∧
  Sys2Proof.Claims.AccumulatorColumns

/-- MLOOP and the sequencer (R296, R298, R299, R300, R301, R302, R304, R305). -/
def Obligations.TileLoops : Prop :=
  Sys2Proof.Claims.TileLoops ∧
  Sys2Proof.Claims.TileSequencer

/-- Yield, starvation, watchdog, stack cache, checker, throttle (R40, R45, R46, R47, R48, R139, R190, R195, R340, R342,
R450). -/
def Obligations.WaveEvents : Prop :=
  Sys2Proof.Claims.YieldAndStarve ∧
  Sys2Proof.Claims.Watchdog ∧
  Sys2Proof.Claims.StackCacheWriteback ∧
  Sys2Proof.Claims.CheckerVerdicts ∧
  Sys2Proof.Claims.ThrottleAndHeat

/-- Launches are accepted, made ready and completed (R324, R325, R326, R329, R331, R333, R259). -/
def Obligations.LaunchLife : Prop :=
  Sys2Proof.Claims.LaunchAccepted ∧
  Sys2Proof.Claims.LaunchStates ∧
  Sys2Proof.Claims.LaunchCompletes

/-- Placement, retirement, save and restore of gangs (R188, R215, R334, R335, R336, R337, R343, R344, R345, R346). -/
def Obligations.Placement : Prop :=
  Sys2Proof.Claims.PlacementSteps ∧
  Sys2Proof.Claims.GangsMoveOn ∧
  Sys2Proof.Claims.GangsComplete

/-- Parked waves and shootdowns (R358, R359, R360, R361, R362, R375). -/
def Obligations.ParksAndShootdowns : Prop :=
  Sys2Proof.Claims.ParksResolve ∧
  Sys2Proof.Claims.Shootdowns

/-- Contexts, host queues and rings (R330, R331, R343, R394, R396, R439, R448, R449). -/
def Obligations.ContextsAndQueues : Prop :=
  Sys2Proof.Claims.ContextLife ∧
  Sys2Proof.Claims.QueuesAndRings

/-- Links, loss, and remote accesses (R245, R399, R400, R401, R404, R405, R406, R408, R409, R430). -/
def Obligations.Fabric : Prop :=
  Sys2Proof.Claims.LinksAndLoss ∧
  Sys2Proof.Claims.RemoteArrivals ∧
  Sys2Proof.Claims.RemoteAnswers ∧
  Sys2Proof.Claims.PeerPartials

/-- Firmware images, unit commands, repair (R372, R378, R426, R427, R428, R429, R433, R440, R441, R442, R443, R444). -/
def Obligations.FirmwareAndUnits : Prop :=
  Sys2Proof.Claims.FirmwareReplacement ∧
  Sys2Proof.Claims.UnitsAndRepair ∧
  Sys2Proof.Claims.SelfTests

/-- The host's coherent accesses and registers (R376, R395, R412, R436, R437). -/
def Obligations.HostAccesses : Prop :=
  Sys2Proof.Claims.HostAccesses

/-- What reset leaves (R18, R396, R402, R414, R415, R437, R438, R439, R441, R442, R445). -/
def Obligations.Reset : Prop :=
  Sys2Proof.Claims.ResetValues ∧
  Sys2Proof.Claims.ResetRows ∧
  Sys2Proof.Claims.ResetCanonical

/-- Every step keeps the memories canonical (00_scope.md, 13_translation_and_coherence.md). -/
def Obligations.StepKeepsCanonical : Prop :=
  Sys2Proof.Claims.StepKeepsCanonical

/-- No step is refused; only outside accesses fault (R376, R108, R147). -/
def Obligations.StepAnswers : Prop :=
  Sys2Proof.Claims.StepAnswers
end

