-- ==== Sys2Proof/Laws/Memory.lean ====
section
/-! SUPPORT. Laws of memory: reading what was written, and the canonical form kept by every memory operation. -/

namespace Sys2Proof.Machine

/-- The canonical form, split at the first entry. -/
theorem Memory.wf_cons {k : Nat} {b : Byte} {m : Memory} (h : Memory.wf ((k, b) :: m)) :
    b ≠ 0 ∧ Memory.wf m ∧ ∀ x ∈ m, k < x.1 := by
  obtain ⟨h0, h1⟩ := h
  rw [List.pairwise_cons] at h1
  exact ⟨h0 (k, b) List.mem_cons_self, ⟨fun c hc => h0 c (List.mem_cons_of_mem _ hc), h1.2⟩, h1.1⟩

/-- The canonical form, put together. -/
theorem Memory.wf_of_cons {k : Nat} {b : Byte} {m : Memory} (hb : b ≠ 0) (hm : Memory.wf m) (hk : ∀ x ∈ m, k < x.1) :
    Memory.wf ((k, b) :: m) := by
  refine ⟨fun c hc => ?_, List.pairwise_cons.mpr ⟨hk, hm.2⟩⟩
  rcases List.mem_cons.mp hc with rfl | h
  · exact hb
  · exact hm.1 c h

@[simp] theorem Memory.wf_nil : Memory.wf [] := ⟨by simp, by simp⟩

/-- Below every listed address memory reads 0. -/
theorem Memory.read_below {m : Memory} {a : Nat} (h : ∀ x ∈ m, a < x.1) : m.read a = 0 := by
  cases m with
  | nil => rfl
  | cons c m =>
    have := h c List.mem_cons_self
    simp only [Memory.read]
    split
    · omega
    · simp

/-- An address that a write adds is the address written. -/
theorem Memory.mem_write {m : Memory} {a : Nat} {b : Byte} {x : Nat × Byte} (h : x ∈ m.write a b) : x ∈ m ∨ x.1 = a := by
  induction m with
  | nil =>
    simp only [Memory.write] at h
    split at h <;> simp_all
  | cons c m ih =>
    simp only [Memory.write] at h
    split at h
    · split at h
      · exact .inl h
      · rcases List.mem_cons.mp h with rfl | h
        · exact .inr rfl
        · exact .inl h
    · split at h
      · split at h
        · exact .inl (List.mem_cons_of_mem _ h)
        · rcases List.mem_cons.mp h with rfl | h
          · exact .inr rfl
          · exact .inl (List.mem_cons_of_mem _ h)
      · rcases List.mem_cons.mp h with rfl | h
        · exact .inl List.mem_cons_self
        · exact (ih h).imp_left (List.mem_cons_of_mem _)

/-- A write keeps the canonical form. -/
theorem Memory.wf_write {m : Memory} (h : Memory.wf m) (a : Nat) (b : Byte) : Memory.wf (m.write a b) := by
  induction m with
  | nil =>
    simp only [Memory.write]
    split
    · exact Memory.wf_nil
    · exact Memory.wf_of_cons ‹_› Memory.wf_nil (by simp)
  | cons c m ih =>
    obtain ⟨hc, hm, hk⟩ := Memory.wf_cons h
    simp only [Memory.write]
    split
    · split
      · exact h
      · refine Memory.wf_of_cons ‹_› h fun x hx => ?_
        rcases List.mem_cons.mp hx with rfl | hx
        · assumption
        · have := hk x hx; omega
    · split
      · split
        · exact hm
        · exact Memory.wf_of_cons ‹_› hm fun x hx => by have := hk x hx; omega
      · refine Memory.wf_of_cons hc (ih hm) fun x hx => ?_
        rcases Memory.mem_write hx with hx | hx
        · exact hk x hx
        · omega

/-- A read at the address written gives the byte. -/
theorem Memory.read_write_same {m : Memory} (h : Memory.wf m) (a : Nat) (b : Byte) : (m.write a b).read a = b := by
  induction m with
  | nil =>
    simp only [Memory.write]
    split <;> simp_all [Memory.read]
  | cons c m ih =>
    obtain ⟨-, hm, hk⟩ := Memory.wf_cons h
    simp only [Memory.write]
    split
    · split
      · rename_i h1 h2
        simp only [Memory.read]
        rw [if_neg (by omega), if_pos h1, h2]
      · simp [Memory.read]
    · split
      · split
        · rename_i h1 h2
          rw [Memory.read_below fun x hx => by have := hk x hx; omega, h2]
        · simp [Memory.read]
      · simp only [Memory.read]
        rw [if_neg (by omega), if_neg (by omega)]
        exact ih hm

/-- A write leaves every other address alone. -/
theorem Memory.read_write_other {m : Memory} (h : Memory.wf m) {a c : Nat} (b : Byte) (hac : c ≠ a) :
    (m.write a b).read c = m.read c := by
  induction m with
  | nil =>
    simp only [Memory.write]
    split <;> simp [Memory.read, Ne.symm hac]
  | cons d m ih =>
    obtain ⟨-, hm, hk⟩ := Memory.wf_cons h
    simp only [Memory.write]
    split
    · split
      · rfl
      · rename_i h1 _
        simp only [Memory.read]
        rw [if_neg (Ne.symm hac)]
        split
        · rw [if_neg (by omega), if_pos (by omega)]
        · rfl
    · split
      · rename_i h1 h2
        subst h2
        have e : Memory.read ((d.1, d.2) :: m) c = if c < d.1 then 0 else Memory.read m c := by
          simp only [Memory.read]; rw [if_neg (Ne.symm hac)]
        split
        · rw [e]
          split
          · exact Memory.read_below fun x hx => by have := hk x hx; omega
          · rfl
        · rw [e]; simp only [Memory.read]; rw [if_neg (Ne.symm hac)]
      · simp only [Memory.read]
        split
        · rfl
        · split
          · rfl
          · exact ih hm

/-- Writing many bytes keeps the canonical form. -/
theorem Memory.wf_writeAll {m : Memory} (h : Memory.wf m) (bs : List (Nat × Byte)) : Memory.wf (m.writeAll bs) := by
  induction bs generalizing m with
  | nil => exact h
  | cons b bs ih => exact ih (Memory.wf_write h b.1 b.2)

/-- Addresses that are not among the bytes written read as before. -/
theorem Memory.read_writeAll_other {m : Memory} (h : Memory.wf m) (bs : List (Nat × Byte)) {a : Nat} (ha : ∀ b ∈ bs, b.1 ≠ a) :
    (m.writeAll bs).read a = m.read a := by
  induction bs generalizing m with
  | nil => rfl
  | cons b bs ih =>
    have := ih (Memory.wf_write h b.1 b.2) fun x hx => ha x (List.mem_cons_of_mem _ hx)
    exact this.trans (Memory.read_write_other h b.2 (Ne.symm (ha b List.mem_cons_self)))

/-- Applying a partial to its bytes keeps the canonical form. -/
theorem Memory.wf_combine {m : Memory} (h : Memory.wf m) (p : Partial) : Memory.wf (m.combine p) := Memory.wf_writeAll h _

/-- The bytes of a list stand at the addresses they are placed at. -/
theorem mem_placed {a : Nat} {bs : List Byte} {x : Nat × Byte} (h : x ∈ placed a bs) :
    a ≤ x.1 ∧ x.1 < a + bs.length := by
  simp only [placed, List.mem_map] at h
  obtain ⟨b, hb, rfl⟩ := h
  have := List.snd_lt_of_mem_zipIdx hb
  simp only [Nat.add_zero] at this
  exact ⟨by simp, by simpa using this⟩

/-- A run of bytes written from `a` on leaves what lies outside it alone. -/
theorem Memory.read_placed_other {m : Memory} (h : Memory.wf m) (a : Nat) (bs : List Byte) {c : Nat}
    (hc : c < a ∨ a + bs.length ≤ c) : (m.writeAll (placed a bs)).read c = m.read c :=
  Memory.read_writeAll_other h _ fun x hx => by have := mem_placed hx; omega

/-- A run of bytes written from `a` on is read back. -/
theorem Memory.read_placed {m : Memory} (h : Memory.wf m) (a : Nat) (bs : List Byte) {k : Nat} (hk : k < bs.length) :
    some ((m.writeAll (placed a bs)).read (a + k)) = bs[k]? := by
  induction bs generalizing m a k with
  | nil => simp at hk
  | cons b bs ih =>
    have e : placed a (b :: bs) = (a, b) :: placed (a + 1) bs := by
      simp only [placed, List.zipIdx_cons, List.map_cons, Nat.add_zero, Nat.zero_add, List.cons.injEq, true_and]
      rw [List.zipIdx_succ, List.map_map]
      congr 1
      funext x
      simp; omega
    rw [e]
    show some ((Memory.writeAll (m.write a b) (placed (a + 1) bs)).read (a + k)) = _
    cases k with
    | zero =>
      have e := Memory.read_placed_other (Memory.wf_write h a b) (a + 1) bs (c := a + 0) (.inl (by omega))
      rw [e, Nat.add_zero, Memory.read_write_same h]
      rfl
    | succ k =>
      have := ih (Memory.wf_write h a b) (a + 1) (k := k) (by simpa using hk)
      rw [show a + (k + 1) = a + 1 + k by omega]
      simpa using this

/-- A note of bytes performed at B changes no block. -/
theorem State.noteB_blk (s : State) (loc : Bool) (dev line : Nat) : (s.noteB loc dev line).blk = s.blk := rfl

/-- The scratchpad's write is a write of the bytes of the block in focus. -/
theorem State.putScratch_scratch (s : State) (bs : List (Nat × Byte)) :
    (s.putScratch bs).blk.scratch = s.blk.scratch.writeAll bs := by
  have h : ∀ (gs : List (Nat × List (Nat × Byte))) (t : State), (gs.foldl (fun s g => s.noteB true 0 g.1) t).blk = t.blk := by
    intro gs
    induction gs with
    | nil => intro t; rfl
    | cons g gs ih => intro t; exact (ih _).trans rfl
  simp only [State.putScratch, h]

end Sys2Proof.Machine
end

