-- ==== Sys2Proof/Laws/PerInstr.lean ====
section
/-! SUPPORT. One lemma per instruction: its first word asks for exactly the words that the encoder lays out after it. -/

namespace Sys2Proof.Laws

/-- A well-formed instruction's first word asks for as many further words as its encoding has (03/R90, R108). -/
def Length.Statement (i : Instr) : Prop :=
  i.wellFormed = true → ∀ (w : Word) (ws : List Word), encode i = w :: ws → Machine.wordsAsked w = ws.length

/-- The fields that every first word has. -/
theorem firstWord_fields (x : BitVec 21) (op : BitVec 8) (p : BitVec 1) (l : BitVec 2) :
    wordLen (x ++ op ++ p ++ l : BitVec 32) = l.toNat ∧ wordP (x ++ op ++ p ++ l : BitVec 32) = p.toNat ∧
      wordOp (x ++ op ++ p ++ l : BitVec 32) = op.toNat := by
  have bit (j : Nat) : (x ++ op ++ p ++ l : BitVec 32).getLsbD j =
      if j < 2 then l.getLsbD j else if j - 2 < 1 then p.getLsbD (j - 2) else if j - 2 - 1 < 8 then op.getLsbD (j - 2 - 1)
        else x.getLsbD (j - 2 - 1 - 8) := by
    have h1 := BitVec.getLsbD_append (x := x ++ op ++ p) (y := l) (i := j)
    have h2 := BitVec.getLsbD_append (x := x ++ op) (y := p) (i := j - 2)
    have h3 := BitVec.getLsbD_append (x := x) (y := op) (i := j - 2 - 1)
    rw [h3] at h2
    rw [h2] at h1
    simpa using h1
  refine ⟨?_, ?_, ?_⟩
  · refine congrArg BitVec.toNat (BitVec.eq_of_getLsbD_eq fun k hk => ?_)
    rw [BitVec.getLsbD_extractLsb', bit]
    simp [hk]
  · refine congrArg BitVec.toNat (BitVec.eq_of_getLsbD_eq fun k hk => ?_)
    rw [BitVec.getLsbD_extractLsb', bit, if_neg (by omega), if_pos (by omega), show 2 + k - 2 = k by omega]
    simp [hk]
  · refine congrArg BitVec.toNat (BitVec.eq_of_getLsbD_eq fun k hk => ?_)
    rw [BitVec.getLsbD_extractLsb', bit, if_neg (by omega), if_neg (by omega), show 3 + k - 2 - 1 = k by omega]
    simp [hk]

/-- The statement from the shape of the encoding. -/
theorem length_of {i : Instr} {x : BitVec 21} {op : BitVec 8} {p : BitVec 1} {l : BitVec 2} {us : List Word}
    (h : encode i = (x ++ op ++ p ++ l : BitVec 32) :: us) (hl : lenListed p.toNat op.toNat l.toNat = true)
    (hn : lenWords l.toNat - 1 = us.length) : Length.Statement i := by
  intro _ w ws e
  rw [h] at e
  obtain ⟨rfl, rfl⟩ := List.cons.inj e
  obtain ⟨h1, h2, h3⟩ := firstWord_fields x op p l
  simp only [Machine.wordsAsked, h1, h2, h3, hl, if_true, hn]

/-- An event has no words. -/
theorem length_event {i : Instr} (h : encode i = []) : Length.Statement i := by
  intro _ w ws e
  rw [h] at e
  cases e

/-- An opcode that is not assigned has one word. -/
theorem Length.unassignedOpcode (w : Word) : Length.Statement (.unassignedOpcode w) := by
  intro hw v vs e
  obtain ⟨rfl, rfl⟩ := List.cons.inj e
  simp only [Instr.wellFormed, Bool.not_eq_true'] at hw
  simp [Machine.wordsAsked, hw]

theorem Length.sadd (sd : SReg) (sa : SReg) (sb : SReg) : Length.Statement (.sadd sd sa sb) := length_of rfl rfl rfl
theorem Length.saddLiteral (sd : SReg) (sa : SReg) (lit : DWord) : Length.Statement (.saddLiteral sd sa lit) := length_of rfl rfl rfl
theorem Length.ssub (sd : SReg) (sa : SReg) (sb : SReg) : Length.Statement (.ssub sd sa sb) := length_of rfl rfl rfl
theorem Length.ssubLiteral (sd : SReg) (sa : SReg) (lit : DWord) : Length.Statement (.ssubLiteral sd sa lit) := length_of rfl rfl rfl
theorem Length.smul (sd : SReg) (sa : SReg) (sb : SReg) : Length.Statement (.smul sd sa sb) := length_of rfl rfl rfl
theorem Length.smulLiteral (sd : SReg) (sa : SReg) (lit : DWord) : Length.Statement (.smulLiteral sd sa lit) := length_of rfl rfl rfl
theorem Length.smulhi (sd : SReg) (sa : SReg) (sb : SReg) : Length.Statement (.smulhi sd sa sb) := length_of rfl rfl rfl
theorem Length.smulhiLiteral (sd : SReg) (sa : SReg) (lit : DWord) : Length.Statement (.smulhiLiteral sd sa lit) := length_of rfl rfl rfl
theorem Length.smulhu (sd : SReg) (sa : SReg) (sb : SReg) : Length.Statement (.smulhu sd sa sb) := length_of rfl rfl rfl
theorem Length.smulhuLiteral (sd : SReg) (sa : SReg) (lit : DWord) : Length.Statement (.smulhuLiteral sd sa lit) := length_of rfl rfl rfl
theorem Length.sdiv (sd : SReg) (sa : SReg) (sb : SReg) : Length.Statement (.sdiv sd sa sb) := length_of rfl rfl rfl
theorem Length.sdivLiteral (sd : SReg) (sa : SReg) (lit : DWord) : Length.Statement (.sdivLiteral sd sa lit) := length_of rfl rfl rfl
theorem Length.sdivu (sd : SReg) (sa : SReg) (sb : SReg) : Length.Statement (.sdivu sd sa sb) := length_of rfl rfl rfl
theorem Length.sdivuLiteral (sd : SReg) (sa : SReg) (lit : DWord) : Length.Statement (.sdivuLiteral sd sa lit) := length_of rfl rfl rfl
theorem Length.srem (sd : SReg) (sa : SReg) (sb : SReg) : Length.Statement (.srem sd sa sb) := length_of rfl rfl rfl
theorem Length.sremLiteral (sd : SReg) (sa : SReg) (lit : DWord) : Length.Statement (.sremLiteral sd sa lit) := length_of rfl rfl rfl
theorem Length.sremu (sd : SReg) (sa : SReg) (sb : SReg) : Length.Statement (.sremu sd sa sb) := length_of rfl rfl rfl
theorem Length.sremuLiteral (sd : SReg) (sa : SReg) (lit : DWord) : Length.Statement (.sremuLiteral sd sa lit) := length_of rfl rfl rfl
theorem Length.sand (sd : SReg) (sa : SReg) (sb : SReg) : Length.Statement (.sand sd sa sb) := length_of rfl rfl rfl
theorem Length.sandLiteral (sd : SReg) (sa : SReg) (lit : DWord) : Length.Statement (.sandLiteral sd sa lit) := length_of rfl rfl rfl
theorem Length.sor (sd : SReg) (sa : SReg) (sb : SReg) : Length.Statement (.sor sd sa sb) := length_of rfl rfl rfl
theorem Length.sorLiteral (sd : SReg) (sa : SReg) (lit : DWord) : Length.Statement (.sorLiteral sd sa lit) := length_of rfl rfl rfl
theorem Length.sxor (sd : SReg) (sa : SReg) (sb : SReg) : Length.Statement (.sxor sd sa sb) := length_of rfl rfl rfl
theorem Length.sxorLiteral (sd : SReg) (sa : SReg) (lit : DWord) : Length.Statement (.sxorLiteral sd sa lit) := length_of rfl rfl rfl
theorem Length.sandn (sd : SReg) (sa : SReg) (sb : SReg) : Length.Statement (.sandn sd sa sb) := length_of rfl rfl rfl
theorem Length.sandnLiteral (sd : SReg) (sa : SReg) (lit : DWord) : Length.Statement (.sandnLiteral sd sa lit) := length_of rfl rfl rfl
theorem Length.sshl (sd : SReg) (sa : SReg) (sb : SReg) : Length.Statement (.sshl sd sa sb) := length_of rfl rfl rfl
theorem Length.sshlLiteral (sd : SReg) (sa : SReg) (lit : DWord) : Length.Statement (.sshlLiteral sd sa lit) := length_of rfl rfl rfl
theorem Length.sshr (sd : SReg) (sa : SReg) (sb : SReg) : Length.Statement (.sshr sd sa sb) := length_of rfl rfl rfl
theorem Length.sshrLiteral (sd : SReg) (sa : SReg) (lit : DWord) : Length.Statement (.sshrLiteral sd sa lit) := length_of rfl rfl rfl
theorem Length.ssar (sd : SReg) (sa : SReg) (sb : SReg) : Length.Statement (.ssar sd sa sb) := length_of rfl rfl rfl
theorem Length.ssarLiteral (sd : SReg) (sa : SReg) (lit : DWord) : Length.Statement (.ssarLiteral sd sa lit) := length_of rfl rfl rfl
theorem Length.srol (sd : SReg) (sa : SReg) (sb : SReg) : Length.Statement (.srol sd sa sb) := length_of rfl rfl rfl
theorem Length.srolLiteral (sd : SReg) (sa : SReg) (lit : DWord) : Length.Statement (.srolLiteral sd sa lit) := length_of rfl rfl rfl
theorem Length.smin (sd : SReg) (sa : SReg) (sb : SReg) : Length.Statement (.smin sd sa sb) := length_of rfl rfl rfl
theorem Length.sminLiteral (sd : SReg) (sa : SReg) (lit : DWord) : Length.Statement (.sminLiteral sd sa lit) := length_of rfl rfl rfl
theorem Length.smax (sd : SReg) (sa : SReg) (sb : SReg) : Length.Statement (.smax sd sa sb) := length_of rfl rfl rfl
theorem Length.smaxLiteral (sd : SReg) (sa : SReg) (lit : DWord) : Length.Statement (.smaxLiteral sd sa lit) := length_of rfl rfl rfl
theorem Length.sminu (sd : SReg) (sa : SReg) (sb : SReg) : Length.Statement (.sminu sd sa sb) := length_of rfl rfl rfl
theorem Length.sminuLiteral (sd : SReg) (sa : SReg) (lit : DWord) : Length.Statement (.sminuLiteral sd sa lit) := length_of rfl rfl rfl
theorem Length.smaxu (sd : SReg) (sa : SReg) (sb : SReg) : Length.Statement (.smaxu sd sa sb) := length_of rfl rfl rfl
theorem Length.smaxuLiteral (sd : SReg) (sa : SReg) (lit : DWord) : Length.Statement (.smaxuLiteral sd sa lit) := length_of rfl rfl rfl
theorem Length.saddc (sd : SReg) (sa : SReg) (sb : SReg) : Length.Statement (.saddc sd sa sb) := length_of rfl rfl rfl
theorem Length.saddcLiteral (sd : SReg) (sa : SReg) (lit : DWord) : Length.Statement (.saddcLiteral sd sa lit) := length_of rfl rfl rfl
theorem Length.scmp (c : BitVec 3) (sa : SReg) (sb : SReg) : Length.Statement (.scmp c sa sb) := length_of rfl rfl rfl
theorem Length.scmpLiteral (c : BitVec 3) (sa : SReg) (lit : DWord) : Length.Statement (.scmpLiteral c sa lit) := length_of rfl rfl rfl
theorem Length.scmpn (c : BitVec 3) (sa : SReg) (sb : SReg) : Length.Statement (.scmpn c sa sb) := length_of rfl rfl rfl
theorem Length.scmpnLiteral (c : BitVec 3) (sa : SReg) (lit : DWord) : Length.Statement (.scmpnLiteral c sa lit) := length_of rfl rfl rfl
theorem Length.ssel (sd : SReg) (sa : SReg) (sb : SReg) : Length.Statement (.ssel sd sa sb) := length_of rfl rfl rfl
theorem Length.sselLiteral (sd : SReg) (sa : SReg) (lit : DWord) : Length.Statement (.sselLiteral sd sa lit) := length_of rfl rfl rfl
theorem Length.smov (sd : SReg) (sa : SReg) : Length.Statement (.smov sd sa) := length_of rfl rfl rfl
theorem Length.sli (sd : SReg) (imm : BitVec 9) : Length.Statement (.sli sd imm) := length_of rfl rfl rfl
theorem Length.sliLiteral (sd : SReg) (lit : DWord) : Length.Statement (.sliLiteral sd lit) := length_of rfl rfl rfl
theorem Length.slid (sd : SReg) (lit : DWord) : Length.Statement (.slid sd lit) := length_of rfl rfl rfl
theorem Length.saddi (sd : SReg) (sa : SReg) (imm : BitVec 9) : Length.Statement (.saddi sd sa imm) := length_of rfl rfl rfl
theorem Length.sbfe (sd : SReg) (sa : SReg) (sb : SReg) : Length.Statement (.sbfe sd sa sb) := length_of rfl rfl rfl
theorem Length.sbfeLiteral (sd : SReg) (sa : SReg) (lit : DWord) : Length.Statement (.sbfeLiteral sd sa lit) := length_of rfl rfl rfl
theorem Length.sbfi (sd : SReg) (sa : SReg) (sb : SReg) : Length.Statement (.sbfi sd sa sb) := length_of rfl rfl rfl
theorem Length.sbfiLiteral (sd : SReg) (sa : SReg) (lit : DWord) : Length.Statement (.sbfiLiteral sd sa lit) := length_of rfl rfl rfl
theorem Length.spop (sd : SReg) (sa : SReg) : Length.Statement (.spop sd sa) := length_of rfl rfl rfl
theorem Length.sclz (sd : SReg) (sa : SReg) : Length.Statement (.sclz sd sa) := length_of rfl rfl rfl
theorem Length.sctz (sd : SReg) (sa : SReg) : Length.Statement (.sctz sd sa) := length_of rfl rfl rfl
theorem Length.sbrev (sd : SReg) (sa : SReg) : Length.Statement (.sbrev sd sa) := length_of rfl rfl rfl
theorem Length.saddd (sd : SReg) (sa : SReg) (sb : SReg) : Length.Statement (.saddd sd sa sb) := length_of rfl rfl rfl
theorem Length.sadddLiteral (sd : SReg) (sa : SReg) (lit : DWord) : Length.Statement (.sadddLiteral sd sa lit) := length_of rfl rfl rfl
theorem Length.ssubd (sd : SReg) (sa : SReg) (sb : SReg) : Length.Statement (.ssubd sd sa sb) := length_of rfl rfl rfl
theorem Length.ssubdLiteral (sd : SReg) (sa : SReg) (lit : DWord) : Length.Statement (.ssubdLiteral sd sa lit) := length_of rfl rfl rfl
theorem Length.smuld (sd : SReg) (sa : SReg) (sb : SReg) : Length.Statement (.smuld sd sa sb) := length_of rfl rfl rfl
theorem Length.smuldLiteral (sd : SReg) (sa : SReg) (lit : DWord) : Length.Statement (.smuldLiteral sd sa lit) := length_of rfl rfl rfl
theorem Length.sshld (sd : SReg) (sa : SReg) (sb : SReg) : Length.Statement (.sshld sd sa sb) := length_of rfl rfl rfl
theorem Length.sshldLiteral (sd : SReg) (sa : SReg) (lit : DWord) : Length.Statement (.sshldLiteral sd sa lit) := length_of rfl rfl rfl
theorem Length.sshrd (sd : SReg) (sa : SReg) (sb : SReg) : Length.Statement (.sshrd sd sa sb) := length_of rfl rfl rfl
theorem Length.sshrdLiteral (sd : SReg) (sa : SReg) (lit : DWord) : Length.Statement (.sshrdLiteral sd sa lit) := length_of rfl rfl rfl
theorem Length.scmpd (c : BitVec 3) (sa : SReg) (sb : SReg) : Length.Statement (.scmpd c sa sb) := length_of rfl rfl rfl
theorem Length.scmpdLiteral (c : BitVec 3) (sa : SReg) (lit : DWord) : Length.Statement (.scmpdLiteral c sa lit) := length_of rfl rfl rfl
theorem Length.br (disp : BitVec 21) : Length.Statement (.br disp) := length_of rfl rfl rfl
theorem Length.bsc (disp : BitVec 21) : Length.Statement (.bsc disp) := length_of rfl rfl rfl
theorem Length.bsnc (disp : BitVec 21) : Length.Statement (.bsnc disp) := length_of rfl rfl rfl
theorem Length.bez (sa : SReg) (disp : BitVec 15) : Length.Statement (.bez sa disp) := length_of rfl rfl rfl
theorem Length.bnz (sa : SReg) (disp : BitVec 15) : Length.Statement (.bnz sa disp) := length_of rfl rfl rfl
theorem Length.bexz (disp : BitVec 21) : Length.Statement (.bexz disp) := length_of rfl rfl rfl
theorem Length.bexnz (disp : BitVec 21) : Length.Statement (.bexnz disp) := length_of rfl rfl rfl
theorem Length.bcmz (disp : BitVec 21) : Length.Statement (.bcmz disp) := length_of rfl rfl rfl
theorem Length.bcmnz (disp : BitVec 21) : Length.Statement (.bcmnz disp) := length_of rfl rfl rfl
theorem Length.jmpr (sa : SReg) : Length.Statement (.jmpr sa) := length_of rfl rfl rfl
theorem Length.call (la : BitVec 4) (f : BitVec 8) (disp : Word) : Length.Statement (.call la f disp) := length_of rfl rfl rfl
theorem Length.callr (sa : SReg) (imm : BitVec 9) : Length.Statement (.callr sa imm) := length_of rfl rfl rfl
theorem Length.ret (imm : BitVec 9) : Length.Statement (.ret imm) := length_of rfl rfl rfl
theorem Length.trap (imm : BitVec 9) : Length.Statement (.trap imm) := length_of rfl rfl rfl
theorem Length.srd (sd : SReg) (imm : BitVec 9) : Length.Statement (.srd sd imm) := length_of rfl rfl rfl
theorem Length.swr (sa : SReg) (imm : BitVec 9) : Length.Statement (.swr sa imm) := length_of rfl rfl rfl
theorem Length.mand (sd : SReg) : Length.Statement (.mand sd) := length_of rfl rfl rfl
theorem Length.mandn (sd : SReg) : Length.Statement (.mandn sd) := length_of rfl rfl rfl
theorem Length.melse (sa : SReg) : Length.Statement (.melse sa) := length_of rfl rfl rfl
theorem Length.mrest (sa : SReg) : Length.Statement (.mrest sa) := length_of rfl rfl rfl
theorem Length.mcnt (sd : SReg) : Length.Statement (.mcnt sd) := length_of rfl rfl rfl
theorem Length.mfirst (sd : SReg) : Length.Statement (.mfirst sd) := length_of rfl rfl rfl
theorem Length.sld (sd : SReg) (sa : SReg) (imm : BitVec 9) : Length.Statement (.sld sd sa imm) := length_of rfl rfl rfl
theorem Length.sldMs (m : MS) : Length.Statement (.sldMs m) := length_of rfl rfl rfl
theorem Length.sldOffset64 (m : MS) (lit : DWord) : Length.Statement (.sldOffset64 m lit) := length_of rfl rfl rfl
theorem Length.sst (sd : SReg) (sa : SReg) (imm : BitVec 9) : Length.Statement (.sst sd sa imm) := length_of rfl rfl rfl
theorem Length.sstMs (m : MS) : Length.Statement (.sstMs m) := length_of rfl rfl rfl
theorem Length.sstOffset64 (m : MS) (lit : DWord) : Length.Statement (.sstOffset64 m lit) := length_of rfl rfl rfl
theorem Length.satom (m : MS) : Length.Statement (.satom m) := length_of rfl rfl rfl
theorem Length.satomOffset64 (m : MS) (lit : DWord) : Length.Statement (.satomOffset64 m lit) := length_of rfl rfl rfl
theorem Length.xld (xt : BitVec 3) (sa : SReg) : Length.Statement (.xld xt sa) := length_of rfl rfl rfl
theorem Length.xinv (xt : BitVec 3) : Length.Statement (.xinv xt) := length_of rfl rfl rfl
theorem Length.commit (lvl : BitVec 3) : Length.Statement (.commit lvl) := length_of rfl rfl rfl
theorem Length.abort (lvl : BitVec 3) : Length.Statement (.abort lvl) := length_of rfl rfl rfl
theorem Length.mark (lvl : BitVec 3) : Length.Statement (.mark lvl) := length_of rfl rfl rfl
theorem Length.acq (lvl : BitVec 3) : Length.Statement (.acq lvl) := length_of rfl rfl rfl
theorem Length.fence (lvl : BitVec 3) : Length.Statement (.fence lvl) := length_of rfl rfl rfl
theorem Length.cfl (sd : SReg) (sa : SReg) (sb : SReg) : Length.Statement (.cfl sd sa sb) := length_of rfl rfl rfl
theorem Length.civ (sd : SReg) (sa : SReg) (sb : SReg) : Length.Statement (.civ sd sa sb) := length_of rfl rfl rfl
theorem Length.cwb (sd : SReg) (sa : SReg) (sb : SReg) : Length.Statement (.cwb sd sa sb) := length_of rfl rfl rfl
theorem Length.ici (sd : SReg) (sa : SReg) (sb : SReg) : Length.Statement (.ici sd sa sb) := length_of rfl rfl rfl
theorem Length.barSync (c : BitVec 1) (n : BitVec 5) (id : BitVec 4) : Length.Statement (.barSync c n id) := length_of rfl rfl rfl
theorem Length.barArrive (n : BitVec 5) (id : BitVec 4) : Length.Statement (.barArrive n id) := length_of rfl rfl rfl
theorem Length.gongArrive (tag : BitVec 3) : Length.Statement (.gongArrive tag) := length_of rfl rfl rfl
theorem Length.gongWait (tag : BitVec 3) : Length.Statement (.gongWait tag) := length_of rfl rfl rfl
theorem Length.mbInit (sa : SReg) (sb : SReg) : Length.Statement (.mbInit sa sb) := length_of rfl rfl rfl
theorem Length.mbInitLiteral (sa : SReg) (lit : DWord) : Length.Statement (.mbInitLiteral sa lit) := length_of rfl rfl rfl
theorem Length.mbArrive (sa : SReg) (sb : SReg) : Length.Statement (.mbArrive sa sb) := length_of rfl rfl rfl
theorem Length.mbArriveLiteral (sa : SReg) (lit : DWord) : Length.Statement (.mbArriveLiteral sa lit) := length_of rfl rfl rfl
theorem Length.mbWait (sd : SReg) (sa : SReg) (sb : SReg) : Length.Statement (.mbWait sd sa sb) := length_of rfl rfl rfl
theorem Length.mbWaitLiteral (sd : SReg) (sa : SReg) (lit : DWord) : Length.Statement (.mbWaitLiteral sd sa lit) := length_of rfl rfl rfl
theorem Length.mbTest (sd : SReg) (sa : SReg) : Length.Statement (.mbTest sd sa) := length_of rfl rfl rfl
theorem Length.qpush (q : BitVec 3) (sa : SReg) : Length.Statement (.qpush q sa) := length_of rfl rfl rfl
theorem Length.qpop (q : BitVec 3) (sd : SReg) : Length.Statement (.qpop q sd) := length_of rfl rfl rfl
theorem Length.qtry (q : BitVec 3) (sd : SReg) : Length.Statement (.qtry q sd) := length_of rfl rfl rfl
theorem Length.cpkick (sa : SReg) : Length.Statement (.cpkick sa) := length_of rfl rfl rfl
theorem Length.cpseal (sd : SReg) : Length.Statement (.cpseal sd) := length_of rfl rfl rfl
theorem Length.cpwait (sb : SReg) : Length.Statement (.cpwait sb) := length_of rfl rfl rfl
theorem Length.cpwaitLiteral (lit : DWord) : Length.Statement (.cpwaitLiteral lit) := length_of rfl rfl rfl
theorem Length.cptest (sb : SReg) : Length.Statement (.cptest sb) := length_of rfl rfl rfl
theorem Length.cptestLiteral (lit : DWord) : Length.Statement (.cptestLiteral lit) := length_of rfl rfl rfl
theorem Length.lnch (sa : SReg) (sb : SReg) : Length.Statement (.lnch sa sb) := length_of rfl rfl rfl
theorem Length.snap (sd : SReg) (sa : SReg) (sb : SReg) : Length.Statement (.snap sd sa sb) := length_of rfl rfl rfl
theorem Length.snapLiteral (sd : SReg) (sa : SReg) (lit : DWord) : Length.Statement (.snapLiteral sd sa lit) := length_of rfl rfl rfl
theorem Length.sacc (sa : SReg) : Length.Statement (.sacc sa) := length_of rfl rfl rfl
theorem Length.srej (sa : SReg) : Length.Statement (.srej sa) := length_of rfl rfl rfl
theorem Length.sqry (sd : SReg) (sa : SReg) : Length.Statement (.sqry sd sa) := length_of rfl rfl rfl
theorem Length.mloop (m : ML) : Length.Statement (.mloop m) := length_of rfl rfl rfl
theorem Length.mwait (acc : BitVec 4) : Length.Statement (.mwait acc) := length_of rfl rfl rfl
theorem Length.acz (acc : BitVec 4) : Length.Statement (.acz acc) := length_of rfl rfl rfl
theorem Length.acrel (acc : BitVec 4) : Length.Statement (.acrel acc) := length_of rfl rfl rfl
theorem Length.acld (acc : BitVec 4) (sa : SReg) : Length.Statement (.acld acc sa) := length_of rfl rfl rfl
theorem Length.acst (acc : BitVec 4) (sa : SReg) : Length.Statement (.acst acc sa) := length_of rfl rfl rfl
theorem Length.acrd (x : VX) : Length.Statement (.acrd x) := length_of rfl rfl rfl
theorem Length.acwr (x : VX) : Length.Statement (.acwr x) := length_of rfl rfl rfl
theorem Length.vadd (vd : BitVec 7) (va : BitVec 7) (vb : BitVec 7) : Length.Statement (.vadd vd va vb) := length_of rfl rfl rfl
theorem Length.vaddVx (x : VX) : Length.Statement (.vaddVx x) := length_of rfl rfl rfl
theorem Length.vsub (vd : BitVec 7) (va : BitVec 7) (vb : BitVec 7) : Length.Statement (.vsub vd va vb) := length_of rfl rfl rfl
theorem Length.vsubVx (x : VX) : Length.Statement (.vsubVx x) := length_of rfl rfl rfl
theorem Length.vmul (vd : BitVec 7) (va : BitVec 7) (vb : BitVec 7) : Length.Statement (.vmul vd va vb) := length_of rfl rfl rfl
theorem Length.vmulVx (x : VX) : Length.Statement (.vmulVx x) := length_of rfl rfl rfl
theorem Length.vfma (vd : BitVec 7) (va : BitVec 7) (vb : BitVec 7) : Length.Statement (.vfma vd va vb) := length_of rfl rfl rfl
theorem Length.vfmaVx (x : VX) : Length.Statement (.vfmaVx x) := length_of rfl rfl rfl
theorem Length.vmad (vd : BitVec 7) (va : BitVec 7) (vb : BitVec 7) : Length.Statement (.vmad vd va vb) := length_of rfl rfl rfl
theorem Length.vmadVx (x : VX) : Length.Statement (.vmadVx x) := length_of rfl rfl rfl
theorem Length.vmulhi (vd : BitVec 7) (va : BitVec 7) (vb : BitVec 7) : Length.Statement (.vmulhi vd va vb) := length_of rfl rfl rfl
theorem Length.vmulhiVx (x : VX) : Length.Statement (.vmulhiVx x) := length_of rfl rfl rfl
theorem Length.vmin (vd : BitVec 7) (va : BitVec 7) (vb : BitVec 7) : Length.Statement (.vmin vd va vb) := length_of rfl rfl rfl
theorem Length.vminVx (x : VX) : Length.Statement (.vminVx x) := length_of rfl rfl rfl
theorem Length.vmax (vd : BitVec 7) (va : BitVec 7) (vb : BitVec 7) : Length.Statement (.vmax vd va vb) := length_of rfl rfl rfl
theorem Length.vmaxVx (x : VX) : Length.Statement (.vmaxVx x) := length_of rfl rfl rfl
theorem Length.vabs (vd : BitVec 7) (va : BitVec 7) : Length.Statement (.vabs vd va) := length_of rfl rfl rfl
theorem Length.vabsVx (x : VX) : Length.Statement (.vabsVx x) := length_of rfl rfl rfl
theorem Length.vneg (vd : BitVec 7) (va : BitVec 7) : Length.Statement (.vneg vd va) := length_of rfl rfl rfl
theorem Length.vnegVx (x : VX) : Length.Statement (.vnegVx x) := length_of rfl rfl rfl
theorem Length.vcmp (c : BitVec 7) (va : BitVec 7) (vb : BitVec 7) : Length.Statement (.vcmp c va vb) := length_of rfl rfl rfl
theorem Length.vcmpVx (x : VX) : Length.Statement (.vcmpVx x) := length_of rfl rfl rfl
theorem Length.vsel (vd : BitVec 7) (va : BitVec 7) (vb : BitVec 7) : Length.Statement (.vsel vd va vb) := length_of rfl rfl rfl
theorem Length.vselVx (x : VX) : Length.Statement (.vselVx x) := length_of rfl rfl rfl
theorem Length.vmov (vd : BitVec 7) (va : BitVec 7) : Length.Statement (.vmov vd va) := length_of rfl rfl rfl
theorem Length.vmovVx (x : VX) : Length.Statement (.vmovVx x) := length_of rfl rfl rfl
theorem Length.vand (vd : BitVec 7) (va : BitVec 7) (vb : BitVec 7) : Length.Statement (.vand vd va vb) := length_of rfl rfl rfl
theorem Length.vandVx (x : VX) : Length.Statement (.vandVx x) := length_of rfl rfl rfl
theorem Length.vor (vd : BitVec 7) (va : BitVec 7) (vb : BitVec 7) : Length.Statement (.vor vd va vb) := length_of rfl rfl rfl
theorem Length.vorVx (x : VX) : Length.Statement (.vorVx x) := length_of rfl rfl rfl
theorem Length.vxor (vd : BitVec 7) (va : BitVec 7) (vb : BitVec 7) : Length.Statement (.vxor vd va vb) := length_of rfl rfl rfl
theorem Length.vxorVx (x : VX) : Length.Statement (.vxorVx x) := length_of rfl rfl rfl
theorem Length.vandn (vd : BitVec 7) (va : BitVec 7) (vb : BitVec 7) : Length.Statement (.vandn vd va vb) := length_of rfl rfl rfl
theorem Length.vandnVx (x : VX) : Length.Statement (.vandnVx x) := length_of rfl rfl rfl
theorem Length.vshl (vd : BitVec 7) (va : BitVec 7) (vb : BitVec 7) : Length.Statement (.vshl vd va vb) := length_of rfl rfl rfl
theorem Length.vshlVx (x : VX) : Length.Statement (.vshlVx x) := length_of rfl rfl rfl
theorem Length.vshr (vd : BitVec 7) (va : BitVec 7) (vb : BitVec 7) : Length.Statement (.vshr vd va vb) := length_of rfl rfl rfl
theorem Length.vshrVx (x : VX) : Length.Statement (.vshrVx x) := length_of rfl rfl rfl
theorem Length.vsar (vd : BitVec 7) (va : BitVec 7) (vb : BitVec 7) : Length.Statement (.vsar vd va vb) := length_of rfl rfl rfl
theorem Length.vsarVx (x : VX) : Length.Statement (.vsarVx x) := length_of rfl rfl rfl
theorem Length.vpop (vd : BitVec 7) (va : BitVec 7) : Length.Statement (.vpop vd va) := length_of rfl rfl rfl
theorem Length.vpopVx (x : VX) : Length.Statement (.vpopVx x) := length_of rfl rfl rfl
theorem Length.vclz (vd : BitVec 7) (va : BitVec 7) : Length.Statement (.vclz vd va) := length_of rfl rfl rfl
theorem Length.vclzVx (x : VX) : Length.Statement (.vclzVx x) := length_of rfl rfl rfl
theorem Length.vbfe (x : VX) : Length.Statement (.vbfe x) := length_of rfl rfl rfl
theorem Length.vbfi (x : VX) : Length.Statement (.vbfi x) := length_of rfl rfl rfl
theorem Length.vmovs (vd : BitVec 7) (sb : SReg) : Length.Statement (.vmovs vd sb) := length_of rfl rfl rfl
theorem Length.vmovsLiteral (vd : BitVec 7) (lit : DWord) : Length.Statement (.vmovsLiteral vd lit) := length_of rfl rfl rfl
theorem Length.vlane (vd : BitVec 7) : Length.Statement (.vlane vd) := length_of rfl rfl rfl
theorem Length.vcvt (x : VX) : Length.Statement (.vcvt x) := length_of rfl rfl rfl
theorem Length.vtag (x : VX) : Length.Statement (.vtag x) := length_of rfl rfl rfl
theorem Length.vdot (x : VX) : Length.Statement (.vdot x) := length_of rfl rfl rfl
theorem Length.vred (x : VX) : Length.Statement (.vred x) := length_of rfl rfl rfl
theorem Length.vshfl (x : VX) : Length.Statement (.vshfl x) := length_of rfl rfl rfl
theorem Length.vbcast (x : VX) : Length.Statement (.vbcast x) := length_of rfl rfl rfl
theorem Length.vgetl (sd : SReg) (va : BitVec 7) (sb : SReg) : Length.Statement (.vgetl sd va sb) := length_of rfl rfl rfl
theorem Length.vgetlLiteral (sd : SReg) (va : BitVec 7) (lit : DWord) : Length.Statement (.vgetlLiteral sd va lit) := length_of rfl rfl rfl
theorem Length.vsetl (vd : BitVec 7) (sa : SReg) (sb : SReg) : Length.Statement (.vsetl vd sa sb) := length_of rfl rfl rfl
theorem Length.vsetlLiteral (vd : BitVec 7) (sa : SReg) (lit : DWord) : Length.Statement (.vsetlLiteral vd sa lit) := length_of rfl rfl rfl
theorem Length.vrcp (vd : BitVec 7) (va : BitVec 7) : Length.Statement (.vrcp vd va) := length_of rfl rfl rfl
theorem Length.vrcpVx (x : VX) : Length.Statement (.vrcpVx x) := length_of rfl rfl rfl
theorem Length.vrsq (vd : BitVec 7) (va : BitVec 7) : Length.Statement (.vrsq vd va) := length_of rfl rfl rfl
theorem Length.vrsqVx (x : VX) : Length.Statement (.vrsqVx x) := length_of rfl rfl rfl
theorem Length.vsqrt (vd : BitVec 7) (va : BitVec 7) : Length.Statement (.vsqrt vd va) := length_of rfl rfl rfl
theorem Length.vsqrtVx (x : VX) : Length.Statement (.vsqrtVx x) := length_of rfl rfl rfl
theorem Length.vexp2 (vd : BitVec 7) (va : BitVec 7) : Length.Statement (.vexp2 vd va) := length_of rfl rfl rfl
theorem Length.vexp2Vx (x : VX) : Length.Statement (.vexp2Vx x) := length_of rfl rfl rfl
theorem Length.vlog2 (vd : BitVec 7) (va : BitVec 7) : Length.Statement (.vlog2 vd va) := length_of rfl rfl rfl
theorem Length.vlog2Vx (x : VX) : Length.Statement (.vlog2Vx x) := length_of rfl rfl rfl
theorem Length.vsinpi (vd : BitVec 7) (va : BitVec 7) : Length.Statement (.vsinpi vd va) := length_of rfl rfl rfl
theorem Length.vsinpiVx (x : VX) : Length.Statement (.vsinpiVx x) := length_of rfl rfl rfl
theorem Length.vcospi (vd : BitVec 7) (va : BitVec 7) : Length.Statement (.vcospi vd va) := length_of rfl rfl rfl
theorem Length.vcospiVx (x : VX) : Length.Statement (.vcospiVx x) := length_of rfl rfl rfl
theorem Length.vtanh (vd : BitVec 7) (va : BitVec 7) : Length.Statement (.vtanh vd va) := length_of rfl rfl rfl
theorem Length.vtanhVx (x : VX) : Length.Statement (.vtanhVx x) := length_of rfl rfl rfl
theorem Length.vld (m : MX) : Length.Statement (.vld m) := length_of rfl rfl rfl
theorem Length.vldOffset64 (m : MX) (lit : DWord) : Length.Statement (.vldOffset64 m lit) := length_of rfl rfl rfl
theorem Length.vst (m : MX) : Length.Statement (.vst m) := length_of rfl rfl rfl
theorem Length.vstOffset64 (m : MX) (lit : DWord) : Length.Statement (.vstOffset64 m lit) := length_of rfl rfl rfl
theorem Length.vatom (m : MX) : Length.Statement (.vatom m) := length_of rfl rfl rfl
theorem Length.vatomOffset64 (m : MX) (lit : DWord) : Length.Statement (.vatomOffset64 m lit) := length_of rfl rfl rfl
theorem Length.brk : Length.Statement .brk := length_of rfl rfl rfl
theorem Length.tret : Length.Statement .tret := length_of rfl rfl rfl
theorem Length.nop : Length.Statement .nop := length_of rfl rfl rfl
theorem Length.wend : Length.Statement .wend := length_of rfl rfl rfl
theorem Length.yield : Length.Statement .yield := length_of rfl rfl rfl
theorem Length.fbar : Length.Statement .fbar := length_of rfl rfl rfl
theorem Length.mcmc : Length.Statement .mcmc := length_of rfl rfl rfl
theorem Length.msetall : Length.Statement .msetall := length_of rfl rfl rfl
theorem Length.commitBV : Length.Statement .commitBV := length_of rfl rfl rfl
theorem Length.yieldResume : Length.Statement .yieldResume := length_event rfl
theorem Length.walkerLine : Length.Statement .walkerLine := length_event rfl
theorem Length.barrierRelease : Length.Statement .barrierRelease := length_event rfl
theorem Length.gongRelease : Length.Statement .gongRelease := length_event rfl
theorem Length.mbWaitTimeout : Length.Statement .mbWaitTimeout := length_event rfl
theorem Length.copyRequestFetch : Length.Statement .copyRequestFetch := length_event rfl
theorem Length.copyLineTransfer : Length.Statement .copyLineTransfer := length_event rfl
theorem Length.copyRequestEnd : Length.Statement .copyRequestEnd := length_event rfl
theorem Length.snapshotRestoreComplete : Length.Statement .snapshotRestoreComplete := length_event rfl
theorem Length.poolWriterProceed : Length.Statement .poolWriterProceed := length_event rfl
theorem Length.loopStart : Length.Statement .loopStart := length_event rfl
theorem Length.kStep : Length.Statement .kStep := length_event rfl
theorem Length.rowCheckVerdict : Length.Statement .rowCheckVerdict := length_event rfl
theorem Length.checkerOnlyStep : Length.Statement .checkerOnlyStep := length_event rfl
theorem Length.loopEnd : Length.Statement .loopEnd := length_event rfl
theorem Length.flush : Length.Statement .flush := length_event rfl
theorem Length.checkerOnlyMode : Length.Statement .checkerOnlyMode := length_event rfl
theorem Length.watchdog : Length.Statement .watchdog := length_event rfl
theorem Length.waveStarved : Length.Statement .waveStarved := length_event rfl
theorem Length.stackCacheWriteback : Length.Statement .stackCacheWriteback := length_event rfl
theorem Length.blockDispatch : Length.Statement .blockDispatch := length_event rfl
theorem Length.gangStart : Length.Statement .gangStart := length_event rfl
theorem Length.blockRetirement : Length.Statement .blockRetirement := length_event rfl
theorem Length.launchCompletion : Length.Statement .launchCompletion := length_event rfl
theorem Length.launchAccept : Length.Statement .launchAccept := length_event rfl
theorem Length.dependenceEvaluation : Length.Statement .dependenceEvaluation := length_event rfl
theorem Length.gongTagGrant : Length.Statement .gongTagGrant := length_event rfl
theorem Length.candidateAged : Length.Statement .candidateAged := length_event rfl
theorem Length.priorityPreemption : Length.Statement .priorityPreemption := length_event rfl
theorem Length.gangSave : Length.Statement .gangSave := length_event rfl
theorem Length.gangRestore : Length.Statement .gangRestore := length_event rfl
theorem Length.powerEstimate : Length.Statement .powerEstimate := length_event rfl
theorem Length.throttleChange : Length.Statement .throttleChange := length_event rfl
theorem Length.thermalShutdown : Length.Statement .thermalShutdown := length_event rfl
theorem Length.parkResume : Length.Statement .parkResume := length_event rfl
theorem Length.parkKill : Length.Statement .parkKill := length_event rfl
theorem Length.shootdownRange : Length.Statement .shootdownRange := length_event rfl
theorem Length.shootdownContext : Length.Statement .shootdownContext := length_event rfl
theorem Length.shootdownRbt : Length.Statement .shootdownRbt := length_event rfl
theorem Length.deviceFlush : Length.Statement .deviceFlush := length_event rfl
theorem Length.directoryRecovery : Length.Statement .directoryRecovery := length_event rfl
theorem Length.poolsizeWrite : Length.Statement .poolsizeWrite := length_event rfl
theorem Length.contextCreate : Length.Statement .contextCreate := length_event rfl
theorem Length.contextSwitchOut : Length.Statement .contextSwitchOut := length_event rfl
theorem Length.contextSwitchIn : Length.Statement .contextSwitchIn := length_event rfl
theorem Length.contextKill : Length.Statement .contextKill := length_event rfl
theorem Length.qtailWrite : Length.Statement .qtailWrite := length_event rfl
theorem Length.qstatSkip : Length.Statement .qstatSkip := length_event rfl
theorem Length.qstatRetry : Length.Statement .qstatRetry := length_event rfl
theorem Length.erheadWrite : Length.Statement .erheadWrite := length_event rfl
theorem Length.ersizeWrite : Length.Statement .ersizeWrite := length_event rfl
theorem Length.trheadWrite : Length.Statement .trheadWrite := length_event rfl
theorem Length.traceSync : Length.Statement .traceSync := length_event rfl
theorem Length.waveSample : Length.Statement .waveSample := length_event rfl
theorem Length.linkReplay : Length.Statement .linkReplay := length_event rfl
theorem Length.portRetrain : Length.Statement .portRetrain := length_event rfl
theorem Length.remoteWriteArrival : Length.Statement .remoteWriteArrival := length_event rfl
theorem Length.remoteWriteAck : Length.Statement .remoteWriteAck := length_event rfl
theorem Length.remoteAtomicArrival : Length.Statement .remoteAtomicArrival := length_event rfl
theorem Length.remoteAtomicResponse : Length.Statement .remoteAtomicResponse := length_event rfl
theorem Length.atomicResend : Length.Statement .atomicResend := length_event rfl
theorem Length.atomicTableExpiry : Length.Statement .atomicTableExpiry := length_event rfl
theorem Length.retryWindowExpiry : Length.Statement .retryWindowExpiry := length_event rfl
theorem Length.routesDownTimeout : Length.Statement .routesDownTimeout := length_event rfl
theorem Length.lostsetWrite : Length.Statement .lostsetWrite := length_event rfl
theorem Length.debugHalt : Length.Statement .debugHalt := length_event rfl
theorem Length.debugResume : Length.Statement .debugResume := length_event rfl
theorem Length.firmwareStage : Length.Statement .firmwareStage := length_event rfl
theorem Length.firmwareSwap : Length.Statement .firmwareSwap := length_event rfl
theorem Length.firmwareAbandon : Length.Statement .firmwareAbandon := length_event rfl
theorem Length.handoverSafePoint : Length.Statement .handoverSafePoint := length_event rfl
theorem Length.firmwareHeartbeat : Length.Statement .firmwareHeartbeat := length_event rfl
theorem Length.heartbeatMissed : Length.Statement .heartbeatMissed := length_event rfl
theorem Length.probationEnd : Length.Statement .probationEnd := length_event rfl
theorem Length.coldReset : Length.Statement .coldReset := length_event rfl
theorem Length.warmReset : Length.Statement .warmReset := length_event rfl
theorem Length.attestation : Length.Statement .attestation := length_event rfl
theorem Length.unitcmdRetest : Length.Statement .unitcmdRetest := length_event rfl
theorem Length.unitcmdReadmit : Length.Statement .unitcmdReadmit := length_event rfl
theorem Length.unitcmdFence : Length.Statement .unitcmdFence := length_event rfl
theorem Length.unitcmdStrongCode : Length.Statement .unitcmdStrongCode := length_event rfl
theorem Length.unitcmdSecded : Length.Statement .unitcmdSecded := length_event rfl
theorem Length.hourlyHalving : Length.Statement .hourlyHalving := length_event rfl
theorem Length.binChange : Length.Statement .binChange := length_event rfl
theorem Length.bistComplete : Length.Statement .bistComplete := length_event rfl
theorem Length.readmission : Length.Statement .readmission := length_event rfl
theorem Length.scrubSweep : Length.Statement .scrubSweep := length_event rfl
theorem Length.mmsRefresh : Length.Statement .mmsRefresh := length_event rfl
theorem Length.hostCoherentWrite : Length.Statement .hostCoherentWrite := length_event rfl
theorem Length.hostCoherentRead : Length.Statement .hostCoherentRead := length_event rfl
theorem Length.registerWrite : Length.Statement .registerWrite := length_event rfl
theorem Length.instructionFetchFailure : Length.Statement .instructionFetchFailure := length_event rfl
theorem Length.remoteReadArrival : Length.Statement .remoteReadArrival := length_event rfl
theorem Length.responseAckArrival : Length.Statement .responseAckArrival := length_event rfl
theorem Length.responseAckDeadline : Length.Statement .responseAckDeadline := length_event rfl
theorem Length.writeResend : Length.Statement .writeResend := length_event rfl
theorem Length.retrainingComplete : Length.Statement .retrainingComplete := length_event rfl
theorem Length.routeReturn : Length.Statement .routeReturn := length_event rfl

end Sys2Proof.Laws
end

