-- ==== Sys2Proof/Laws/State.lean ====
section
/-! SUPPORT. What each plain update of the state leaves alone, field by field, and what it writes. -/

namespace Sys2Proof.Machine

@[simp] theorem State.setS_agenda (s : State) (r : SReg) (x : Word) : (s.setS r x).agenda = s.agenda := rfl
@[simp] theorem State.setS_facts (s : State) (r : SReg) (x : Word) : (s.setS r x).facts = s.facts := rfl
@[simp] theorem State.setS_turn (s : State) (r : SReg) (x : Word) : (s.setS r x).turn = s.turn := rfl
@[simp] theorem State.setS_blk (s : State) (r : SReg) (x : Word) : (s.setS r x).blk = s.blk := rfl
@[simp] theorem State.setS_gang (s : State) (r : SReg) (x : Word) : (s.setS r x).gang = s.gang := rfl
@[simp] theorem State.setS_launch (s : State) (r : SReg) (x : Word) : (s.setS r x).launch = s.launch := rfl
@[simp] theorem State.setS_waves (s : State) (r : SReg) (x : Word) : (s.setS r x).waves = s.waves := rfl
@[simp] theorem State.setS_blocks (s : State) (r : SReg) (x : Word) : (s.setS r x).blocks = s.blocks := rfl
@[simp] theorem State.setS_gangs (s : State) (r : SReg) (x : Word) : (s.setS r x).gangs = s.gangs := rfl
@[simp] theorem State.setS_launches (s : State) (r : SReg) (x : Word) : (s.setS r x).launches = s.launches := rfl
@[simp] theorem State.setS_cores (s : State) (r : SReg) (x : Word) : (s.setS r x).cores = s.cores := rfl
@[simp] theorem State.setS_ctxs (s : State) (r : SReg) (x : Word) : (s.setS r x).ctxs = s.ctxs := rfl
@[simp] theorem State.setS_queues (s : State) (r : SReg) (x : Word) : (s.setS r x).queues = s.queues := rfl
@[simp] theorem State.setS_mem (s : State) (r : SReg) (x : Word) : (s.setS r x).mem = s.mem := rfl
@[simp] theorem State.setS_poison (s : State) (r : SReg) (x : Word) : (s.setS r x).poison = s.poison := rfl
@[simp] theorem State.setS_reg (s : State) (r : SReg) (x : Word) : (s.setS r x).reg = s.reg := rfl
@[simp] theorem State.setS_sigs (s : State) (r : SReg) (x : Word) : (s.setS r x).sigs = s.sigs := rfl
@[simp] theorem State.setS_invals (s : State) (r : SReg) (x : Word) : (s.setS r x).invals = s.invals := rfl
@[simp] theorem State.setS_dirs (s : State) (r : SReg) (x : Word) : (s.setS r x).dirs = s.dirs := rfl
@[simp] theorem State.setS_parts (s : State) (r : SReg) (x : Word) : (s.setS r x).parts = s.parts := rfl
@[simp] theorem State.setS_snaps (s : State) (r : SReg) (x : Word) : (s.setS r x).snaps = s.snaps := rfl
@[simp] theorem State.setS_restores (s : State) (r : SReg) (x : Word) : (s.setS r x).restores = s.restores := rfl
@[simp] theorem State.setS_slices (s : State) (r : SReg) (x : Word) : (s.setS r x).slices = s.slices := rfl
@[simp] theorem State.setS_vaults (s : State) (r : SReg) (x : Word) : (s.setS r x).vaults = s.vaults := rfl
@[simp] theorem State.setS_links (s : State) (r : SReg) (x : Word) : (s.setS r x).links = s.links := rfl
@[simp] theorem State.setS_channels (s : State) (r : SReg) (x : Word) : (s.setS r x).channels = s.channels := rfl
@[simp] theorem State.setS_spads (s : State) (r : SReg) (x : Word) : (s.setS r x).spads = s.spads := rfl
@[simp] theorem State.setS_ports (s : State) (r : SReg) (x : Word) : (s.setS r x).ports = s.ports := rfl
@[simp] theorem State.setS_peers (s : State) (r : SReg) (x : Word) : (s.setS r x).peers = s.peers := rfl
@[simp] theorem State.setS_sent (s : State) (r : SReg) (x : Word) : (s.setS r x).sent = s.sent := rfl
@[simp] theorem State.setS_poolWait (s : State) (r : SReg) (x : Word) : (s.setS r x).poolWait = s.poolWait := rfl
@[simp] theorem State.setS_retry (s : State) (r : SReg) (x : Word) : (s.setS r x).retry = s.retry := rfl
@[simp] theorem State.setS_dev (s : State) (r : SReg) (x : Word) : (s.setS r x).dev = s.dev := rfl
@[simp] theorem State.setS_w_key (s : State) (r : SReg) (x : Word) : (s.setS r x).w.key = s.w.key := rfl
@[simp] theorem State.setS_w_ctx (s : State) (r : SReg) (x : Word) : (s.setS r x).w.ctx = s.w.ctx := rfl
@[simp] theorem State.setS_w_gx (s : State) (r : SReg) (x : Word) : (s.setS r x).w.gx = s.w.gx := rfl
@[simp] theorem State.setS_w_gy (s : State) (r : SReg) (x : Word) : (s.setS r x).w.gy = s.w.gy := rfl
@[simp] theorem State.setS_w_gz (s : State) (r : SReg) (x : Word) : (s.setS r x).w.gz = s.w.gz := rfl
@[simp] theorem State.setS_w_stage (s : State) (r : SReg) (x : Word) : (s.setS r x).w.stage = s.w.stage := rfl
@[simp] theorem State.setS_w_core (s : State) (r : SReg) (x : Word) : (s.setS r x).w.core = s.w.core := rfl
@[simp] theorem State.setS_w_sched (s : State) (r : SReg) (x : Word) : (s.setS r x).w.sched = s.w.sched := rfl
@[simp] theorem State.setS_w_slot (s : State) (r : SReg) (x : Word) : (s.setS r x).w.slot = s.w.slot := rfl
@[simp] theorem State.setS_w_stamp (s : State) (r : SReg) (x : Word) : (s.setS r x).w.stamp = s.w.stamp := rfl
@[simp] theorem State.setS_w_prio (s : State) (r : SReg) (x : Word) : (s.setS r x).w.prio = s.w.prio := rfl
@[simp] theorem State.setS_w_wbase (s : State) (r : SReg) (x : Word) : (s.setS r x).w.wbase = s.w.wbase := rfl
@[simp] theorem State.setS_w_valloc (s : State) (r : SReg) (x : Word) : (s.setS r x).w.valloc = s.w.valloc := rfl
@[simp] theorem State.setS_w_quota (s : State) (r : SReg) (x : Word) : (s.setS r x).w.quota = s.w.quota := rfl
@[simp] theorem State.setS_w_rot (s : State) (r : SReg) (x : Word) : (s.setS r x).w.rot = s.w.rot := rfl
@[simp] theorem State.setS_w_pc (s : State) (r : SReg) (x : Word) : (s.setS r x).w.pc = s.w.pc := rfl
@[simp] theorem State.setS_w_vregs (s : State) (r : SReg) (x : Word) : (s.setS r x).w.vregs = s.w.vregs := rfl
@[simp] theorem State.setS_w_status (s : State) (r : SReg) (x : Word) : (s.setS r x).w.status = s.w.status := rfl
@[simp] theorem State.setS_w_bndst (s : State) (r : SReg) (x : Word) : (s.setS r x).w.bndst = s.w.bndst := rfl
@[simp] theorem State.setS_w_abtn (s : State) (r : SReg) (x : Word) : (s.setS r x).w.abtn = s.w.abtn := rfl
@[simp] theorem State.setS_w_tcause (s : State) (r : SReg) (x : Word) : (s.setS r x).w.tcause = s.w.tcause := rfl
@[simp] theorem State.setS_w_tpc (s : State) (r : SReg) (x : Word) : (s.setS r x).w.tpc = s.w.tpc := rfl
@[simp] theorem State.setS_w_taddr (s : State) (r : SReg) (x : Word) : (s.setS r x).w.taddr = s.w.taddr := rfl
@[simp] theorem State.setS_w_tmask (s : State) (r : SReg) (x : Word) : (s.setS r x).w.tmask = s.w.tmask := rfl
@[simp] theorem State.setS_w_tvec (s : State) (r : SReg) (x : Word) : (s.setS r x).w.tvec = s.w.tvec := rfl
@[simp] theorem State.setS_w_slimit (s : State) (r : SReg) (x : Word) : (s.setS r x).w.slimit = s.w.slimit := rfl
@[simp] theorem State.setS_w_sliceIdx (s : State) (r : SReg) (x : Word) : (s.setS r x).w.sliceIdx = s.w.sliceIdx := rfl
@[simp] theorem State.setS_w_seqno (s : State) (r : SReg) (x : Word) : (s.setS r x).w.seqno = s.w.seqno := rfl
@[simp] theorem State.setS_w_errinj (s : State) (r : SReg) (x : Word) : (s.setS r x).w.errinj = s.w.errinj := rfl
@[simp] theorem State.setS_w_injCount (s : State) (r : SReg) (x : Word) : (s.setS r x).w.injCount = s.w.injCount := rfl
@[simp] theorem State.setS_w_xts (s : State) (r : SReg) (x : Word) : (s.setS r x).w.xts = s.w.xts := rfl
@[simp] theorem State.setS_w_accs (s : State) (r : SReg) (x : Word) : (s.setS r x).w.accs = s.w.accs := rfl
@[simp] theorem State.setS_w_savedAccs (s : State) (r : SReg) (x : Word) : (s.setS r x).w.savedAccs = s.w.savedAccs := rfl
@[simp] theorem State.setS_w_wbuf (s : State) (r : SReg) (x : Word) : (s.setS r x).w.wbuf = s.w.wbuf := rfl
@[simp] theorem State.setS_w_sig (s : State) (r : SReg) (x : Word) : (s.setS r x).w.sig = s.w.sig := rfl
@[simp] theorem State.setS_w_conflict (s : State) (r : SReg) (x : Word) : (s.setS r x).w.conflict = s.w.conflict := rfl
@[simp] theorem State.setS_w_unsealed (s : State) (r : SReg) (x : Word) : (s.setS r x).w.unsealed = s.w.unsealed := rfl
@[simp] theorem State.setS_w_nextBatch (s : State) (r : SReg) (x : Word) : (s.setS r x).w.nextBatch = s.w.nextBatch := rfl
@[simp] theorem State.setS_w_batchKicks (s : State) (r : SReg) (x : Word) : (s.setS r x).w.batchKicks = s.w.batchKicks := rfl
@[simp] theorem State.setS_w_reports (s : State) (r : SReg) (x : Word) : (s.setS r x).w.reports = s.w.reports := rfl
@[simp] theorem State.setS_w_gong (s : State) (r : SReg) (x : Word) : (s.setS r x).w.gong = s.w.gong := rfl
@[simp] theorem State.setS_w_life (s : State) (r : SReg) (x : Word) : (s.setS r x).w.life = s.w.life := rfl
@[simp] theorem State.setS_w_killed (s : State) (r : SReg) (x : Word) : (s.setS r x).w.killed = s.w.killed := rfl
@[simp] theorem State.setS_w_saved (s : State) (r : SReg) (x : Word) : (s.setS r x).w.saved = s.w.saved := rfl
@[simp] theorem State.setS_w_todo (s : State) (r : SReg) (x : Word) : (s.setS r x).w.todo = s.w.todo := rfl
@[simp] theorem State.setS_w_released (s : State) (r : SReg) (x : Word) : (s.setS r x).w.released = s.w.released := rfl
@[simp] theorem State.setS_w_stamped (s : State) (r : SReg) (x : Word) : (s.setS r x).w.stamped = s.w.stamped := rfl
@[simp] theorem State.setS_w_stk (s : State) (r : SReg) (x : Word) : (s.setS r x).w.stk = s.w.stk := rfl
@[simp] theorem State.setS_w_flushes (s : State) (r : SReg) (x : Word) : (s.setS r x).w.flushes = s.w.flushes := rfl
@[simp] theorem State.setS_w_valMis (s : State) (r : SReg) (x : Word) : (s.setS r x).w.valMis = s.w.valMis := rfl
@[simp] theorem State.setS_w_resMis (s : State) (r : SReg) (x : Word) : (s.setS r x).w.resMis = s.w.resMis := rfl
@[simp] theorem State.setS_w_ckOnly (s : State) (r : SReg) (x : Word) : (s.setS r x).w.ckOnly = s.w.ckOnly := rfl
@[simp] theorem State.setS_w_byChecker (s : State) (r : SReg) (x : Word) : (s.setS r x).w.byChecker = s.w.byChecker := rfl
@[simp] theorem State.setS_w_starved (s : State) (r : SReg) (x : Word) : (s.setS r x).w.starved = s.w.starved := rfl
@[simp] theorem State.setS_w_issued (s : State) (r : SReg) (x : Word) : (s.setS r x).w.issued = s.w.issued := rfl
@[simp] theorem State.setS_w_issues (s : State) (r : SReg) (x : Word) : (s.setS r x).w.issues = s.w.issues := rfl
@[simp] theorem State.setS_w_left (s : State) (r : SReg) (x : Word) : (s.setS r x).w.left = s.w.left := rfl
@[simp] theorem State.setS_w_sampled (s : State) (r : SReg) (x : Word) : (s.setS r x).w.sampled = s.w.sampled := rfl
@[simp] theorem State.setS_w_waitFrom (s : State) (r : SReg) (x : Word) : (s.setS r x).w.waitFrom = s.w.waitFrom := rfl
@[simp] theorem State.setS_w_fetched (s : State) (r : SReg) (x : Word) : (s.setS r x).w.fetched = s.w.fetched := rfl
@[simp] theorem State.setS_w_decoded (s : State) (r : SReg) (x : Word) : (s.setS r x).w.decoded = s.w.decoded := rfl
@[simp] theorem State.setS_w_oldBounds (s : State) (r : SReg) (x : Word) : (s.setS r x).w.oldBounds = s.w.oldBounds := rfl
@[simp] theorem State.setS_w_wrote (s : State) (r : SReg) (x : Word) : (s.setS r x).w.wrote = s.w.wrote := rfl
@[simp] theorem State.setS_w_floors (s : State) (r : SReg) (x : Word) : (s.setS r x).w.floors = s.w.floors := rfl

@[simp] theorem State.setPair_agenda (s : State) (r : SReg) (x : DWord) : (s.setPair r x).agenda = s.agenda := rfl
@[simp] theorem State.setPair_facts (s : State) (r : SReg) (x : DWord) : (s.setPair r x).facts = s.facts := rfl
@[simp] theorem State.setPair_turn (s : State) (r : SReg) (x : DWord) : (s.setPair r x).turn = s.turn := rfl
@[simp] theorem State.setPair_blk (s : State) (r : SReg) (x : DWord) : (s.setPair r x).blk = s.blk := rfl
@[simp] theorem State.setPair_gang (s : State) (r : SReg) (x : DWord) : (s.setPair r x).gang = s.gang := rfl
@[simp] theorem State.setPair_launch (s : State) (r : SReg) (x : DWord) : (s.setPair r x).launch = s.launch := rfl
@[simp] theorem State.setPair_waves (s : State) (r : SReg) (x : DWord) : (s.setPair r x).waves = s.waves := rfl
@[simp] theorem State.setPair_blocks (s : State) (r : SReg) (x : DWord) : (s.setPair r x).blocks = s.blocks := rfl
@[simp] theorem State.setPair_gangs (s : State) (r : SReg) (x : DWord) : (s.setPair r x).gangs = s.gangs := rfl
@[simp] theorem State.setPair_launches (s : State) (r : SReg) (x : DWord) : (s.setPair r x).launches = s.launches := rfl
@[simp] theorem State.setPair_cores (s : State) (r : SReg) (x : DWord) : (s.setPair r x).cores = s.cores := rfl
@[simp] theorem State.setPair_ctxs (s : State) (r : SReg) (x : DWord) : (s.setPair r x).ctxs = s.ctxs := rfl
@[simp] theorem State.setPair_queues (s : State) (r : SReg) (x : DWord) : (s.setPair r x).queues = s.queues := rfl
@[simp] theorem State.setPair_mem (s : State) (r : SReg) (x : DWord) : (s.setPair r x).mem = s.mem := rfl
@[simp] theorem State.setPair_poison (s : State) (r : SReg) (x : DWord) : (s.setPair r x).poison = s.poison := rfl
@[simp] theorem State.setPair_reg (s : State) (r : SReg) (x : DWord) : (s.setPair r x).reg = s.reg := rfl
@[simp] theorem State.setPair_sigs (s : State) (r : SReg) (x : DWord) : (s.setPair r x).sigs = s.sigs := rfl
@[simp] theorem State.setPair_invals (s : State) (r : SReg) (x : DWord) : (s.setPair r x).invals = s.invals := rfl
@[simp] theorem State.setPair_dirs (s : State) (r : SReg) (x : DWord) : (s.setPair r x).dirs = s.dirs := rfl
@[simp] theorem State.setPair_parts (s : State) (r : SReg) (x : DWord) : (s.setPair r x).parts = s.parts := rfl
@[simp] theorem State.setPair_snaps (s : State) (r : SReg) (x : DWord) : (s.setPair r x).snaps = s.snaps := rfl
@[simp] theorem State.setPair_restores (s : State) (r : SReg) (x : DWord) : (s.setPair r x).restores = s.restores := rfl
@[simp] theorem State.setPair_slices (s : State) (r : SReg) (x : DWord) : (s.setPair r x).slices = s.slices := rfl
@[simp] theorem State.setPair_vaults (s : State) (r : SReg) (x : DWord) : (s.setPair r x).vaults = s.vaults := rfl
@[simp] theorem State.setPair_links (s : State) (r : SReg) (x : DWord) : (s.setPair r x).links = s.links := rfl
@[simp] theorem State.setPair_channels (s : State) (r : SReg) (x : DWord) : (s.setPair r x).channels = s.channels := rfl
@[simp] theorem State.setPair_spads (s : State) (r : SReg) (x : DWord) : (s.setPair r x).spads = s.spads := rfl
@[simp] theorem State.setPair_ports (s : State) (r : SReg) (x : DWord) : (s.setPair r x).ports = s.ports := rfl
@[simp] theorem State.setPair_peers (s : State) (r : SReg) (x : DWord) : (s.setPair r x).peers = s.peers := rfl
@[simp] theorem State.setPair_sent (s : State) (r : SReg) (x : DWord) : (s.setPair r x).sent = s.sent := rfl
@[simp] theorem State.setPair_poolWait (s : State) (r : SReg) (x : DWord) : (s.setPair r x).poolWait = s.poolWait := rfl
@[simp] theorem State.setPair_retry (s : State) (r : SReg) (x : DWord) : (s.setPair r x).retry = s.retry := rfl
@[simp] theorem State.setPair_dev (s : State) (r : SReg) (x : DWord) : (s.setPair r x).dev = s.dev := rfl
@[simp] theorem State.setPair_w_key (s : State) (r : SReg) (x : DWord) : (s.setPair r x).w.key = s.w.key := rfl
@[simp] theorem State.setPair_w_ctx (s : State) (r : SReg) (x : DWord) : (s.setPair r x).w.ctx = s.w.ctx := rfl
@[simp] theorem State.setPair_w_gx (s : State) (r : SReg) (x : DWord) : (s.setPair r x).w.gx = s.w.gx := rfl
@[simp] theorem State.setPair_w_gy (s : State) (r : SReg) (x : DWord) : (s.setPair r x).w.gy = s.w.gy := rfl
@[simp] theorem State.setPair_w_gz (s : State) (r : SReg) (x : DWord) : (s.setPair r x).w.gz = s.w.gz := rfl
@[simp] theorem State.setPair_w_stage (s : State) (r : SReg) (x : DWord) : (s.setPair r x).w.stage = s.w.stage := rfl
@[simp] theorem State.setPair_w_core (s : State) (r : SReg) (x : DWord) : (s.setPair r x).w.core = s.w.core := rfl
@[simp] theorem State.setPair_w_sched (s : State) (r : SReg) (x : DWord) : (s.setPair r x).w.sched = s.w.sched := rfl
@[simp] theorem State.setPair_w_slot (s : State) (r : SReg) (x : DWord) : (s.setPair r x).w.slot = s.w.slot := rfl
@[simp] theorem State.setPair_w_stamp (s : State) (r : SReg) (x : DWord) : (s.setPair r x).w.stamp = s.w.stamp := rfl
@[simp] theorem State.setPair_w_prio (s : State) (r : SReg) (x : DWord) : (s.setPair r x).w.prio = s.w.prio := rfl
@[simp] theorem State.setPair_w_wbase (s : State) (r : SReg) (x : DWord) : (s.setPair r x).w.wbase = s.w.wbase := rfl
@[simp] theorem State.setPair_w_valloc (s : State) (r : SReg) (x : DWord) : (s.setPair r x).w.valloc = s.w.valloc := rfl
@[simp] theorem State.setPair_w_quota (s : State) (r : SReg) (x : DWord) : (s.setPair r x).w.quota = s.w.quota := rfl
@[simp] theorem State.setPair_w_rot (s : State) (r : SReg) (x : DWord) : (s.setPair r x).w.rot = s.w.rot := rfl
@[simp] theorem State.setPair_w_pc (s : State) (r : SReg) (x : DWord) : (s.setPair r x).w.pc = s.w.pc := rfl
@[simp] theorem State.setPair_w_vregs (s : State) (r : SReg) (x : DWord) : (s.setPair r x).w.vregs = s.w.vregs := rfl
@[simp] theorem State.setPair_w_status (s : State) (r : SReg) (x : DWord) : (s.setPair r x).w.status = s.w.status := rfl
@[simp] theorem State.setPair_w_bndst (s : State) (r : SReg) (x : DWord) : (s.setPair r x).w.bndst = s.w.bndst := rfl
@[simp] theorem State.setPair_w_abtn (s : State) (r : SReg) (x : DWord) : (s.setPair r x).w.abtn = s.w.abtn := rfl
@[simp] theorem State.setPair_w_tcause (s : State) (r : SReg) (x : DWord) : (s.setPair r x).w.tcause = s.w.tcause := rfl
@[simp] theorem State.setPair_w_tpc (s : State) (r : SReg) (x : DWord) : (s.setPair r x).w.tpc = s.w.tpc := rfl
@[simp] theorem State.setPair_w_taddr (s : State) (r : SReg) (x : DWord) : (s.setPair r x).w.taddr = s.w.taddr := rfl
@[simp] theorem State.setPair_w_tmask (s : State) (r : SReg) (x : DWord) : (s.setPair r x).w.tmask = s.w.tmask := rfl
@[simp] theorem State.setPair_w_tvec (s : State) (r : SReg) (x : DWord) : (s.setPair r x).w.tvec = s.w.tvec := rfl
@[simp] theorem State.setPair_w_slimit (s : State) (r : SReg) (x : DWord) : (s.setPair r x).w.slimit = s.w.slimit := rfl
@[simp] theorem State.setPair_w_sliceIdx (s : State) (r : SReg) (x : DWord) : (s.setPair r x).w.sliceIdx = s.w.sliceIdx := rfl
@[simp] theorem State.setPair_w_seqno (s : State) (r : SReg) (x : DWord) : (s.setPair r x).w.seqno = s.w.seqno := rfl
@[simp] theorem State.setPair_w_errinj (s : State) (r : SReg) (x : DWord) : (s.setPair r x).w.errinj = s.w.errinj := rfl
@[simp] theorem State.setPair_w_injCount (s : State) (r : SReg) (x : DWord) : (s.setPair r x).w.injCount = s.w.injCount := rfl
@[simp] theorem State.setPair_w_xts (s : State) (r : SReg) (x : DWord) : (s.setPair r x).w.xts = s.w.xts := rfl
@[simp] theorem State.setPair_w_accs (s : State) (r : SReg) (x : DWord) : (s.setPair r x).w.accs = s.w.accs := rfl
@[simp] theorem State.setPair_w_savedAccs (s : State) (r : SReg) (x : DWord) : (s.setPair r x).w.savedAccs = s.w.savedAccs := rfl
@[simp] theorem State.setPair_w_wbuf (s : State) (r : SReg) (x : DWord) : (s.setPair r x).w.wbuf = s.w.wbuf := rfl
@[simp] theorem State.setPair_w_sig (s : State) (r : SReg) (x : DWord) : (s.setPair r x).w.sig = s.w.sig := rfl
@[simp] theorem State.setPair_w_conflict (s : State) (r : SReg) (x : DWord) : (s.setPair r x).w.conflict = s.w.conflict := rfl
@[simp] theorem State.setPair_w_unsealed (s : State) (r : SReg) (x : DWord) : (s.setPair r x).w.unsealed = s.w.unsealed := rfl
@[simp] theorem State.setPair_w_nextBatch (s : State) (r : SReg) (x : DWord) : (s.setPair r x).w.nextBatch = s.w.nextBatch := rfl
@[simp] theorem State.setPair_w_batchKicks (s : State) (r : SReg) (x : DWord) : (s.setPair r x).w.batchKicks = s.w.batchKicks := rfl
@[simp] theorem State.setPair_w_reports (s : State) (r : SReg) (x : DWord) : (s.setPair r x).w.reports = s.w.reports := rfl
@[simp] theorem State.setPair_w_gong (s : State) (r : SReg) (x : DWord) : (s.setPair r x).w.gong = s.w.gong := rfl
@[simp] theorem State.setPair_w_life (s : State) (r : SReg) (x : DWord) : (s.setPair r x).w.life = s.w.life := rfl
@[simp] theorem State.setPair_w_killed (s : State) (r : SReg) (x : DWord) : (s.setPair r x).w.killed = s.w.killed := rfl
@[simp] theorem State.setPair_w_saved (s : State) (r : SReg) (x : DWord) : (s.setPair r x).w.saved = s.w.saved := rfl
@[simp] theorem State.setPair_w_todo (s : State) (r : SReg) (x : DWord) : (s.setPair r x).w.todo = s.w.todo := rfl
@[simp] theorem State.setPair_w_released (s : State) (r : SReg) (x : DWord) : (s.setPair r x).w.released = s.w.released := rfl
@[simp] theorem State.setPair_w_stamped (s : State) (r : SReg) (x : DWord) : (s.setPair r x).w.stamped = s.w.stamped := rfl
@[simp] theorem State.setPair_w_stk (s : State) (r : SReg) (x : DWord) : (s.setPair r x).w.stk = s.w.stk := rfl
@[simp] theorem State.setPair_w_flushes (s : State) (r : SReg) (x : DWord) : (s.setPair r x).w.flushes = s.w.flushes := rfl
@[simp] theorem State.setPair_w_valMis (s : State) (r : SReg) (x : DWord) : (s.setPair r x).w.valMis = s.w.valMis := rfl
@[simp] theorem State.setPair_w_resMis (s : State) (r : SReg) (x : DWord) : (s.setPair r x).w.resMis = s.w.resMis := rfl
@[simp] theorem State.setPair_w_ckOnly (s : State) (r : SReg) (x : DWord) : (s.setPair r x).w.ckOnly = s.w.ckOnly := rfl
@[simp] theorem State.setPair_w_byChecker (s : State) (r : SReg) (x : DWord) : (s.setPair r x).w.byChecker = s.w.byChecker := rfl
@[simp] theorem State.setPair_w_starved (s : State) (r : SReg) (x : DWord) : (s.setPair r x).w.starved = s.w.starved := rfl
@[simp] theorem State.setPair_w_issued (s : State) (r : SReg) (x : DWord) : (s.setPair r x).w.issued = s.w.issued := rfl
@[simp] theorem State.setPair_w_issues (s : State) (r : SReg) (x : DWord) : (s.setPair r x).w.issues = s.w.issues := rfl
@[simp] theorem State.setPair_w_left (s : State) (r : SReg) (x : DWord) : (s.setPair r x).w.left = s.w.left := rfl
@[simp] theorem State.setPair_w_sampled (s : State) (r : SReg) (x : DWord) : (s.setPair r x).w.sampled = s.w.sampled := rfl
@[simp] theorem State.setPair_w_waitFrom (s : State) (r : SReg) (x : DWord) : (s.setPair r x).w.waitFrom = s.w.waitFrom := rfl
@[simp] theorem State.setPair_w_fetched (s : State) (r : SReg) (x : DWord) : (s.setPair r x).w.fetched = s.w.fetched := rfl
@[simp] theorem State.setPair_w_decoded (s : State) (r : SReg) (x : DWord) : (s.setPair r x).w.decoded = s.w.decoded := rfl
@[simp] theorem State.setPair_w_oldBounds (s : State) (r : SReg) (x : DWord) : (s.setPair r x).w.oldBounds = s.w.oldBounds := rfl
@[simp] theorem State.setPair_w_wrote (s : State) (r : SReg) (x : DWord) : (s.setPair r x).w.wrote = s.w.wrote := rfl
@[simp] theorem State.setPair_w_floors (s : State) (r : SReg) (x : DWord) : (s.setPair r x).w.floors = s.w.floors := rfl

@[simp] theorem State.setTriple_agenda (s : State) (r : SReg) (m : Vector Word 3) : (s.setTriple r m).agenda = s.agenda := rfl
@[simp] theorem State.setTriple_facts (s : State) (r : SReg) (m : Vector Word 3) : (s.setTriple r m).facts = s.facts := rfl
@[simp] theorem State.setTriple_turn (s : State) (r : SReg) (m : Vector Word 3) : (s.setTriple r m).turn = s.turn := rfl
@[simp] theorem State.setTriple_blk (s : State) (r : SReg) (m : Vector Word 3) : (s.setTriple r m).blk = s.blk := rfl
@[simp] theorem State.setTriple_gang (s : State) (r : SReg) (m : Vector Word 3) : (s.setTriple r m).gang = s.gang := rfl
@[simp] theorem State.setTriple_launch (s : State) (r : SReg) (m : Vector Word 3) : (s.setTriple r m).launch = s.launch := rfl
@[simp] theorem State.setTriple_waves (s : State) (r : SReg) (m : Vector Word 3) : (s.setTriple r m).waves = s.waves := rfl
@[simp] theorem State.setTriple_blocks (s : State) (r : SReg) (m : Vector Word 3) : (s.setTriple r m).blocks = s.blocks := rfl
@[simp] theorem State.setTriple_gangs (s : State) (r : SReg) (m : Vector Word 3) : (s.setTriple r m).gangs = s.gangs := rfl
@[simp] theorem State.setTriple_launches (s : State) (r : SReg) (m : Vector Word 3) : (s.setTriple r m).launches = s.launches := rfl
@[simp] theorem State.setTriple_cores (s : State) (r : SReg) (m : Vector Word 3) : (s.setTriple r m).cores = s.cores := rfl
@[simp] theorem State.setTriple_ctxs (s : State) (r : SReg) (m : Vector Word 3) : (s.setTriple r m).ctxs = s.ctxs := rfl
@[simp] theorem State.setTriple_queues (s : State) (r : SReg) (m : Vector Word 3) : (s.setTriple r m).queues = s.queues := rfl
@[simp] theorem State.setTriple_mem (s : State) (r : SReg) (m : Vector Word 3) : (s.setTriple r m).mem = s.mem := rfl
@[simp] theorem State.setTriple_poison (s : State) (r : SReg) (m : Vector Word 3) : (s.setTriple r m).poison = s.poison := rfl
@[simp] theorem State.setTriple_reg (s : State) (r : SReg) (m : Vector Word 3) : (s.setTriple r m).reg = s.reg := rfl
@[simp] theorem State.setTriple_sigs (s : State) (r : SReg) (m : Vector Word 3) : (s.setTriple r m).sigs = s.sigs := rfl
@[simp] theorem State.setTriple_invals (s : State) (r : SReg) (m : Vector Word 3) : (s.setTriple r m).invals = s.invals := rfl
@[simp] theorem State.setTriple_dirs (s : State) (r : SReg) (m : Vector Word 3) : (s.setTriple r m).dirs = s.dirs := rfl
@[simp] theorem State.setTriple_parts (s : State) (r : SReg) (m : Vector Word 3) : (s.setTriple r m).parts = s.parts := rfl
@[simp] theorem State.setTriple_snaps (s : State) (r : SReg) (m : Vector Word 3) : (s.setTriple r m).snaps = s.snaps := rfl
@[simp] theorem State.setTriple_restores (s : State) (r : SReg) (m : Vector Word 3) : (s.setTriple r m).restores = s.restores := rfl
@[simp] theorem State.setTriple_slices (s : State) (r : SReg) (m : Vector Word 3) : (s.setTriple r m).slices = s.slices := rfl
@[simp] theorem State.setTriple_vaults (s : State) (r : SReg) (m : Vector Word 3) : (s.setTriple r m).vaults = s.vaults := rfl
@[simp] theorem State.setTriple_links (s : State) (r : SReg) (m : Vector Word 3) : (s.setTriple r m).links = s.links := rfl
@[simp] theorem State.setTriple_channels (s : State) (r : SReg) (m : Vector Word 3) : (s.setTriple r m).channels = s.channels := rfl
@[simp] theorem State.setTriple_spads (s : State) (r : SReg) (m : Vector Word 3) : (s.setTriple r m).spads = s.spads := rfl
@[simp] theorem State.setTriple_ports (s : State) (r : SReg) (m : Vector Word 3) : (s.setTriple r m).ports = s.ports := rfl
@[simp] theorem State.setTriple_peers (s : State) (r : SReg) (m : Vector Word 3) : (s.setTriple r m).peers = s.peers := rfl
@[simp] theorem State.setTriple_sent (s : State) (r : SReg) (m : Vector Word 3) : (s.setTriple r m).sent = s.sent := rfl
@[simp] theorem State.setTriple_poolWait (s : State) (r : SReg) (m : Vector Word 3) : (s.setTriple r m).poolWait = s.poolWait := rfl
@[simp] theorem State.setTriple_retry (s : State) (r : SReg) (m : Vector Word 3) : (s.setTriple r m).retry = s.retry := rfl
@[simp] theorem State.setTriple_dev (s : State) (r : SReg) (m : Vector Word 3) : (s.setTriple r m).dev = s.dev := rfl
@[simp] theorem State.setTriple_w_key (s : State) (r : SReg) (m : Vector Word 3) : (s.setTriple r m).w.key = s.w.key := rfl
@[simp] theorem State.setTriple_w_ctx (s : State) (r : SReg) (m : Vector Word 3) : (s.setTriple r m).w.ctx = s.w.ctx := rfl
@[simp] theorem State.setTriple_w_gx (s : State) (r : SReg) (m : Vector Word 3) : (s.setTriple r m).w.gx = s.w.gx := rfl
@[simp] theorem State.setTriple_w_gy (s : State) (r : SReg) (m : Vector Word 3) : (s.setTriple r m).w.gy = s.w.gy := rfl
@[simp] theorem State.setTriple_w_gz (s : State) (r : SReg) (m : Vector Word 3) : (s.setTriple r m).w.gz = s.w.gz := rfl
@[simp] theorem State.setTriple_w_stage (s : State) (r : SReg) (m : Vector Word 3) : (s.setTriple r m).w.stage = s.w.stage := rfl
@[simp] theorem State.setTriple_w_core (s : State) (r : SReg) (m : Vector Word 3) : (s.setTriple r m).w.core = s.w.core := rfl
@[simp] theorem State.setTriple_w_sched (s : State) (r : SReg) (m : Vector Word 3) : (s.setTriple r m).w.sched = s.w.sched := rfl
@[simp] theorem State.setTriple_w_slot (s : State) (r : SReg) (m : Vector Word 3) : (s.setTriple r m).w.slot = s.w.slot := rfl
@[simp] theorem State.setTriple_w_stamp (s : State) (r : SReg) (m : Vector Word 3) : (s.setTriple r m).w.stamp = s.w.stamp := rfl
@[simp] theorem State.setTriple_w_prio (s : State) (r : SReg) (m : Vector Word 3) : (s.setTriple r m).w.prio = s.w.prio := rfl
@[simp] theorem State.setTriple_w_wbase (s : State) (r : SReg) (m : Vector Word 3) : (s.setTriple r m).w.wbase = s.w.wbase := rfl
@[simp] theorem State.setTriple_w_valloc (s : State) (r : SReg) (m : Vector Word 3) : (s.setTriple r m).w.valloc = s.w.valloc := rfl
@[simp] theorem State.setTriple_w_quota (s : State) (r : SReg) (m : Vector Word 3) : (s.setTriple r m).w.quota = s.w.quota := rfl
@[simp] theorem State.setTriple_w_rot (s : State) (r : SReg) (m : Vector Word 3) : (s.setTriple r m).w.rot = s.w.rot := rfl
@[simp] theorem State.setTriple_w_pc (s : State) (r : SReg) (m : Vector Word 3) : (s.setTriple r m).w.pc = s.w.pc := rfl
@[simp] theorem State.setTriple_w_vregs (s : State) (r : SReg) (m : Vector Word 3) : (s.setTriple r m).w.vregs = s.w.vregs := rfl
@[simp] theorem State.setTriple_w_status (s : State) (r : SReg) (m : Vector Word 3) : (s.setTriple r m).w.status = s.w.status := rfl
@[simp] theorem State.setTriple_w_bndst (s : State) (r : SReg) (m : Vector Word 3) : (s.setTriple r m).w.bndst = s.w.bndst := rfl
@[simp] theorem State.setTriple_w_abtn (s : State) (r : SReg) (m : Vector Word 3) : (s.setTriple r m).w.abtn = s.w.abtn := rfl
@[simp] theorem State.setTriple_w_tcause (s : State) (r : SReg) (m : Vector Word 3) : (s.setTriple r m).w.tcause = s.w.tcause := rfl
@[simp] theorem State.setTriple_w_tpc (s : State) (r : SReg) (m : Vector Word 3) : (s.setTriple r m).w.tpc = s.w.tpc := rfl
@[simp] theorem State.setTriple_w_taddr (s : State) (r : SReg) (m : Vector Word 3) : (s.setTriple r m).w.taddr = s.w.taddr := rfl
@[simp] theorem State.setTriple_w_tmask (s : State) (r : SReg) (m : Vector Word 3) : (s.setTriple r m).w.tmask = s.w.tmask := rfl
@[simp] theorem State.setTriple_w_tvec (s : State) (r : SReg) (m : Vector Word 3) : (s.setTriple r m).w.tvec = s.w.tvec := rfl
@[simp] theorem State.setTriple_w_slimit (s : State) (r : SReg) (m : Vector Word 3) : (s.setTriple r m).w.slimit = s.w.slimit := rfl
@[simp] theorem State.setTriple_w_sliceIdx (s : State) (r : SReg) (m : Vector Word 3) : (s.setTriple r m).w.sliceIdx = s.w.sliceIdx := rfl
@[simp] theorem State.setTriple_w_seqno (s : State) (r : SReg) (m : Vector Word 3) : (s.setTriple r m).w.seqno = s.w.seqno := rfl
@[simp] theorem State.setTriple_w_errinj (s : State) (r : SReg) (m : Vector Word 3) : (s.setTriple r m).w.errinj = s.w.errinj := rfl
@[simp] theorem State.setTriple_w_injCount (s : State) (r : SReg) (m : Vector Word 3) : (s.setTriple r m).w.injCount = s.w.injCount := rfl
@[simp] theorem State.setTriple_w_xts (s : State) (r : SReg) (m : Vector Word 3) : (s.setTriple r m).w.xts = s.w.xts := rfl
@[simp] theorem State.setTriple_w_accs (s : State) (r : SReg) (m : Vector Word 3) : (s.setTriple r m).w.accs = s.w.accs := rfl
@[simp] theorem State.setTriple_w_savedAccs (s : State) (r : SReg) (m : Vector Word 3) : (s.setTriple r m).w.savedAccs = s.w.savedAccs := rfl
@[simp] theorem State.setTriple_w_wbuf (s : State) (r : SReg) (m : Vector Word 3) : (s.setTriple r m).w.wbuf = s.w.wbuf := rfl
@[simp] theorem State.setTriple_w_sig (s : State) (r : SReg) (m : Vector Word 3) : (s.setTriple r m).w.sig = s.w.sig := rfl
@[simp] theorem State.setTriple_w_conflict (s : State) (r : SReg) (m : Vector Word 3) : (s.setTriple r m).w.conflict = s.w.conflict := rfl
@[simp] theorem State.setTriple_w_unsealed (s : State) (r : SReg) (m : Vector Word 3) : (s.setTriple r m).w.unsealed = s.w.unsealed := rfl
@[simp] theorem State.setTriple_w_nextBatch (s : State) (r : SReg) (m : Vector Word 3) : (s.setTriple r m).w.nextBatch = s.w.nextBatch := rfl
@[simp] theorem State.setTriple_w_batchKicks (s : State) (r : SReg) (m : Vector Word 3) : (s.setTriple r m).w.batchKicks = s.w.batchKicks := rfl
@[simp] theorem State.setTriple_w_reports (s : State) (r : SReg) (m : Vector Word 3) : (s.setTriple r m).w.reports = s.w.reports := rfl
@[simp] theorem State.setTriple_w_gong (s : State) (r : SReg) (m : Vector Word 3) : (s.setTriple r m).w.gong = s.w.gong := rfl
@[simp] theorem State.setTriple_w_life (s : State) (r : SReg) (m : Vector Word 3) : (s.setTriple r m).w.life = s.w.life := rfl
@[simp] theorem State.setTriple_w_killed (s : State) (r : SReg) (m : Vector Word 3) : (s.setTriple r m).w.killed = s.w.killed := rfl
@[simp] theorem State.setTriple_w_saved (s : State) (r : SReg) (m : Vector Word 3) : (s.setTriple r m).w.saved = s.w.saved := rfl
@[simp] theorem State.setTriple_w_todo (s : State) (r : SReg) (m : Vector Word 3) : (s.setTriple r m).w.todo = s.w.todo := rfl
@[simp] theorem State.setTriple_w_released (s : State) (r : SReg) (m : Vector Word 3) : (s.setTriple r m).w.released = s.w.released := rfl
@[simp] theorem State.setTriple_w_stamped (s : State) (r : SReg) (m : Vector Word 3) : (s.setTriple r m).w.stamped = s.w.stamped := rfl
@[simp] theorem State.setTriple_w_stk (s : State) (r : SReg) (m : Vector Word 3) : (s.setTriple r m).w.stk = s.w.stk := rfl
@[simp] theorem State.setTriple_w_flushes (s : State) (r : SReg) (m : Vector Word 3) : (s.setTriple r m).w.flushes = s.w.flushes := rfl
@[simp] theorem State.setTriple_w_valMis (s : State) (r : SReg) (m : Vector Word 3) : (s.setTriple r m).w.valMis = s.w.valMis := rfl
@[simp] theorem State.setTriple_w_resMis (s : State) (r : SReg) (m : Vector Word 3) : (s.setTriple r m).w.resMis = s.w.resMis := rfl
@[simp] theorem State.setTriple_w_ckOnly (s : State) (r : SReg) (m : Vector Word 3) : (s.setTriple r m).w.ckOnly = s.w.ckOnly := rfl
@[simp] theorem State.setTriple_w_byChecker (s : State) (r : SReg) (m : Vector Word 3) : (s.setTriple r m).w.byChecker = s.w.byChecker := rfl
@[simp] theorem State.setTriple_w_starved (s : State) (r : SReg) (m : Vector Word 3) : (s.setTriple r m).w.starved = s.w.starved := rfl
@[simp] theorem State.setTriple_w_issued (s : State) (r : SReg) (m : Vector Word 3) : (s.setTriple r m).w.issued = s.w.issued := rfl
@[simp] theorem State.setTriple_w_issues (s : State) (r : SReg) (m : Vector Word 3) : (s.setTriple r m).w.issues = s.w.issues := rfl
@[simp] theorem State.setTriple_w_left (s : State) (r : SReg) (m : Vector Word 3) : (s.setTriple r m).w.left = s.w.left := rfl
@[simp] theorem State.setTriple_w_sampled (s : State) (r : SReg) (m : Vector Word 3) : (s.setTriple r m).w.sampled = s.w.sampled := rfl
@[simp] theorem State.setTriple_w_waitFrom (s : State) (r : SReg) (m : Vector Word 3) : (s.setTriple r m).w.waitFrom = s.w.waitFrom := rfl
@[simp] theorem State.setTriple_w_fetched (s : State) (r : SReg) (m : Vector Word 3) : (s.setTriple r m).w.fetched = s.w.fetched := rfl
@[simp] theorem State.setTriple_w_decoded (s : State) (r : SReg) (m : Vector Word 3) : (s.setTriple r m).w.decoded = s.w.decoded := rfl
@[simp] theorem State.setTriple_w_oldBounds (s : State) (r : SReg) (m : Vector Word 3) : (s.setTriple r m).w.oldBounds = s.w.oldBounds := rfl
@[simp] theorem State.setTriple_w_wrote (s : State) (r : SReg) (m : Vector Word 3) : (s.setTriple r m).w.wrote = s.w.wrote := rfl
@[simp] theorem State.setTriple_w_floors (s : State) (r : SReg) (m : Vector Word 3) : (s.setTriple r m).w.floors = s.w.floors := rfl

@[simp] theorem State.setStatus_agenda (s : State) (x : Word) : (s.setStatus x).agenda = s.agenda := rfl
@[simp] theorem State.setStatus_facts (s : State) (x : Word) : (s.setStatus x).facts = s.facts := rfl
@[simp] theorem State.setStatus_turn (s : State) (x : Word) : (s.setStatus x).turn = s.turn := rfl
@[simp] theorem State.setStatus_blk (s : State) (x : Word) : (s.setStatus x).blk = s.blk := rfl
@[simp] theorem State.setStatus_gang (s : State) (x : Word) : (s.setStatus x).gang = s.gang := rfl
@[simp] theorem State.setStatus_launch (s : State) (x : Word) : (s.setStatus x).launch = s.launch := rfl
@[simp] theorem State.setStatus_waves (s : State) (x : Word) : (s.setStatus x).waves = s.waves := rfl
@[simp] theorem State.setStatus_blocks (s : State) (x : Word) : (s.setStatus x).blocks = s.blocks := rfl
@[simp] theorem State.setStatus_gangs (s : State) (x : Word) : (s.setStatus x).gangs = s.gangs := rfl
@[simp] theorem State.setStatus_launches (s : State) (x : Word) : (s.setStatus x).launches = s.launches := rfl
@[simp] theorem State.setStatus_cores (s : State) (x : Word) : (s.setStatus x).cores = s.cores := rfl
@[simp] theorem State.setStatus_ctxs (s : State) (x : Word) : (s.setStatus x).ctxs = s.ctxs := rfl
@[simp] theorem State.setStatus_queues (s : State) (x : Word) : (s.setStatus x).queues = s.queues := rfl
@[simp] theorem State.setStatus_mem (s : State) (x : Word) : (s.setStatus x).mem = s.mem := rfl
@[simp] theorem State.setStatus_poison (s : State) (x : Word) : (s.setStatus x).poison = s.poison := rfl
@[simp] theorem State.setStatus_reg (s : State) (x : Word) : (s.setStatus x).reg = s.reg := rfl
@[simp] theorem State.setStatus_sigs (s : State) (x : Word) : (s.setStatus x).sigs = s.sigs := rfl
@[simp] theorem State.setStatus_invals (s : State) (x : Word) : (s.setStatus x).invals = s.invals := rfl
@[simp] theorem State.setStatus_dirs (s : State) (x : Word) : (s.setStatus x).dirs = s.dirs := rfl
@[simp] theorem State.setStatus_parts (s : State) (x : Word) : (s.setStatus x).parts = s.parts := rfl
@[simp] theorem State.setStatus_snaps (s : State) (x : Word) : (s.setStatus x).snaps = s.snaps := rfl
@[simp] theorem State.setStatus_restores (s : State) (x : Word) : (s.setStatus x).restores = s.restores := rfl
@[simp] theorem State.setStatus_slices (s : State) (x : Word) : (s.setStatus x).slices = s.slices := rfl
@[simp] theorem State.setStatus_vaults (s : State) (x : Word) : (s.setStatus x).vaults = s.vaults := rfl
@[simp] theorem State.setStatus_links (s : State) (x : Word) : (s.setStatus x).links = s.links := rfl
@[simp] theorem State.setStatus_channels (s : State) (x : Word) : (s.setStatus x).channels = s.channels := rfl
@[simp] theorem State.setStatus_spads (s : State) (x : Word) : (s.setStatus x).spads = s.spads := rfl
@[simp] theorem State.setStatus_ports (s : State) (x : Word) : (s.setStatus x).ports = s.ports := rfl
@[simp] theorem State.setStatus_peers (s : State) (x : Word) : (s.setStatus x).peers = s.peers := rfl
@[simp] theorem State.setStatus_sent (s : State) (x : Word) : (s.setStatus x).sent = s.sent := rfl
@[simp] theorem State.setStatus_poolWait (s : State) (x : Word) : (s.setStatus x).poolWait = s.poolWait := rfl
@[simp] theorem State.setStatus_retry (s : State) (x : Word) : (s.setStatus x).retry = s.retry := rfl
@[simp] theorem State.setStatus_dev (s : State) (x : Word) : (s.setStatus x).dev = s.dev := rfl
@[simp] theorem State.setStatus_w_key (s : State) (x : Word) : (s.setStatus x).w.key = s.w.key := rfl
@[simp] theorem State.setStatus_w_ctx (s : State) (x : Word) : (s.setStatus x).w.ctx = s.w.ctx := rfl
@[simp] theorem State.setStatus_w_gx (s : State) (x : Word) : (s.setStatus x).w.gx = s.w.gx := rfl
@[simp] theorem State.setStatus_w_gy (s : State) (x : Word) : (s.setStatus x).w.gy = s.w.gy := rfl
@[simp] theorem State.setStatus_w_gz (s : State) (x : Word) : (s.setStatus x).w.gz = s.w.gz := rfl
@[simp] theorem State.setStatus_w_stage (s : State) (x : Word) : (s.setStatus x).w.stage = s.w.stage := rfl
@[simp] theorem State.setStatus_w_core (s : State) (x : Word) : (s.setStatus x).w.core = s.w.core := rfl
@[simp] theorem State.setStatus_w_sched (s : State) (x : Word) : (s.setStatus x).w.sched = s.w.sched := rfl
@[simp] theorem State.setStatus_w_slot (s : State) (x : Word) : (s.setStatus x).w.slot = s.w.slot := rfl
@[simp] theorem State.setStatus_w_stamp (s : State) (x : Word) : (s.setStatus x).w.stamp = s.w.stamp := rfl
@[simp] theorem State.setStatus_w_prio (s : State) (x : Word) : (s.setStatus x).w.prio = s.w.prio := rfl
@[simp] theorem State.setStatus_w_wbase (s : State) (x : Word) : (s.setStatus x).w.wbase = s.w.wbase := rfl
@[simp] theorem State.setStatus_w_valloc (s : State) (x : Word) : (s.setStatus x).w.valloc = s.w.valloc := rfl
@[simp] theorem State.setStatus_w_quota (s : State) (x : Word) : (s.setStatus x).w.quota = s.w.quota := rfl
@[simp] theorem State.setStatus_w_rot (s : State) (x : Word) : (s.setStatus x).w.rot = s.w.rot := rfl
@[simp] theorem State.setStatus_w_pc (s : State) (x : Word) : (s.setStatus x).w.pc = s.w.pc := rfl
@[simp] theorem State.setStatus_w_sregs (s : State) (x : Word) : (s.setStatus x).w.sregs = s.w.sregs := rfl
@[simp] theorem State.setStatus_w_vregs (s : State) (x : Word) : (s.setStatus x).w.vregs = s.w.vregs := rfl
@[simp] theorem State.setStatus_w_bndst (s : State) (x : Word) : (s.setStatus x).w.bndst = s.w.bndst := rfl
@[simp] theorem State.setStatus_w_abtn (s : State) (x : Word) : (s.setStatus x).w.abtn = s.w.abtn := rfl
@[simp] theorem State.setStatus_w_tcause (s : State) (x : Word) : (s.setStatus x).w.tcause = s.w.tcause := rfl
@[simp] theorem State.setStatus_w_tpc (s : State) (x : Word) : (s.setStatus x).w.tpc = s.w.tpc := rfl
@[simp] theorem State.setStatus_w_taddr (s : State) (x : Word) : (s.setStatus x).w.taddr = s.w.taddr := rfl
@[simp] theorem State.setStatus_w_tmask (s : State) (x : Word) : (s.setStatus x).w.tmask = s.w.tmask := rfl
@[simp] theorem State.setStatus_w_tvec (s : State) (x : Word) : (s.setStatus x).w.tvec = s.w.tvec := rfl
@[simp] theorem State.setStatus_w_slimit (s : State) (x : Word) : (s.setStatus x).w.slimit = s.w.slimit := rfl
@[simp] theorem State.setStatus_w_sliceIdx (s : State) (x : Word) : (s.setStatus x).w.sliceIdx = s.w.sliceIdx := rfl
@[simp] theorem State.setStatus_w_seqno (s : State) (x : Word) : (s.setStatus x).w.seqno = s.w.seqno := rfl
@[simp] theorem State.setStatus_w_errinj (s : State) (x : Word) : (s.setStatus x).w.errinj = s.w.errinj := rfl
@[simp] theorem State.setStatus_w_injCount (s : State) (x : Word) : (s.setStatus x).w.injCount = s.w.injCount := rfl
@[simp] theorem State.setStatus_w_xts (s : State) (x : Word) : (s.setStatus x).w.xts = s.w.xts := rfl
@[simp] theorem State.setStatus_w_accs (s : State) (x : Word) : (s.setStatus x).w.accs = s.w.accs := rfl
@[simp] theorem State.setStatus_w_savedAccs (s : State) (x : Word) : (s.setStatus x).w.savedAccs = s.w.savedAccs := rfl
@[simp] theorem State.setStatus_w_wbuf (s : State) (x : Word) : (s.setStatus x).w.wbuf = s.w.wbuf := rfl
@[simp] theorem State.setStatus_w_sig (s : State) (x : Word) : (s.setStatus x).w.sig = s.w.sig := rfl
@[simp] theorem State.setStatus_w_conflict (s : State) (x : Word) : (s.setStatus x).w.conflict = s.w.conflict := rfl
@[simp] theorem State.setStatus_w_unsealed (s : State) (x : Word) : (s.setStatus x).w.unsealed = s.w.unsealed := rfl
@[simp] theorem State.setStatus_w_nextBatch (s : State) (x : Word) : (s.setStatus x).w.nextBatch = s.w.nextBatch := rfl
@[simp] theorem State.setStatus_w_batchKicks (s : State) (x : Word) : (s.setStatus x).w.batchKicks = s.w.batchKicks := rfl
@[simp] theorem State.setStatus_w_reports (s : State) (x : Word) : (s.setStatus x).w.reports = s.w.reports := rfl
@[simp] theorem State.setStatus_w_gong (s : State) (x : Word) : (s.setStatus x).w.gong = s.w.gong := rfl
@[simp] theorem State.setStatus_w_life (s : State) (x : Word) : (s.setStatus x).w.life = s.w.life := rfl
@[simp] theorem State.setStatus_w_killed (s : State) (x : Word) : (s.setStatus x).w.killed = s.w.killed := rfl
@[simp] theorem State.setStatus_w_saved (s : State) (x : Word) : (s.setStatus x).w.saved = s.w.saved := rfl
@[simp] theorem State.setStatus_w_todo (s : State) (x : Word) : (s.setStatus x).w.todo = s.w.todo := rfl
@[simp] theorem State.setStatus_w_released (s : State) (x : Word) : (s.setStatus x).w.released = s.w.released := rfl
@[simp] theorem State.setStatus_w_stamped (s : State) (x : Word) : (s.setStatus x).w.stamped = s.w.stamped := rfl
@[simp] theorem State.setStatus_w_stk (s : State) (x : Word) : (s.setStatus x).w.stk = s.w.stk := rfl
@[simp] theorem State.setStatus_w_flushes (s : State) (x : Word) : (s.setStatus x).w.flushes = s.w.flushes := rfl
@[simp] theorem State.setStatus_w_valMis (s : State) (x : Word) : (s.setStatus x).w.valMis = s.w.valMis := rfl
@[simp] theorem State.setStatus_w_resMis (s : State) (x : Word) : (s.setStatus x).w.resMis = s.w.resMis := rfl
@[simp] theorem State.setStatus_w_ckOnly (s : State) (x : Word) : (s.setStatus x).w.ckOnly = s.w.ckOnly := rfl
@[simp] theorem State.setStatus_w_byChecker (s : State) (x : Word) : (s.setStatus x).w.byChecker = s.w.byChecker := rfl
@[simp] theorem State.setStatus_w_starved (s : State) (x : Word) : (s.setStatus x).w.starved = s.w.starved := rfl
@[simp] theorem State.setStatus_w_issued (s : State) (x : Word) : (s.setStatus x).w.issued = s.w.issued := rfl
@[simp] theorem State.setStatus_w_issues (s : State) (x : Word) : (s.setStatus x).w.issues = s.w.issues := rfl
@[simp] theorem State.setStatus_w_left (s : State) (x : Word) : (s.setStatus x).w.left = s.w.left := rfl
@[simp] theorem State.setStatus_w_sampled (s : State) (x : Word) : (s.setStatus x).w.sampled = s.w.sampled := rfl
@[simp] theorem State.setStatus_w_waitFrom (s : State) (x : Word) : (s.setStatus x).w.waitFrom = s.w.waitFrom := rfl
@[simp] theorem State.setStatus_w_fetched (s : State) (x : Word) : (s.setStatus x).w.fetched = s.w.fetched := rfl
@[simp] theorem State.setStatus_w_decoded (s : State) (x : Word) : (s.setStatus x).w.decoded = s.w.decoded := rfl
@[simp] theorem State.setStatus_w_oldBounds (s : State) (x : Word) : (s.setStatus x).w.oldBounds = s.w.oldBounds := rfl
@[simp] theorem State.setStatus_w_wrote (s : State) (x : Word) : (s.setStatus x).w.wrote = s.w.wrote := rfl
@[simp] theorem State.setStatus_w_floors (s : State) (x : Word) : (s.setStatus x).w.floors = s.w.floors := rfl

@[simp] theorem State.setScc_agenda (s : State) (b : Bool) : (s.setScc b).agenda = s.agenda := rfl
@[simp] theorem State.setScc_facts (s : State) (b : Bool) : (s.setScc b).facts = s.facts := rfl
@[simp] theorem State.setScc_turn (s : State) (b : Bool) : (s.setScc b).turn = s.turn := rfl
@[simp] theorem State.setScc_blk (s : State) (b : Bool) : (s.setScc b).blk = s.blk := rfl
@[simp] theorem State.setScc_gang (s : State) (b : Bool) : (s.setScc b).gang = s.gang := rfl
@[simp] theorem State.setScc_launch (s : State) (b : Bool) : (s.setScc b).launch = s.launch := rfl
@[simp] theorem State.setScc_waves (s : State) (b : Bool) : (s.setScc b).waves = s.waves := rfl
@[simp] theorem State.setScc_blocks (s : State) (b : Bool) : (s.setScc b).blocks = s.blocks := rfl
@[simp] theorem State.setScc_gangs (s : State) (b : Bool) : (s.setScc b).gangs = s.gangs := rfl
@[simp] theorem State.setScc_launches (s : State) (b : Bool) : (s.setScc b).launches = s.launches := rfl
@[simp] theorem State.setScc_cores (s : State) (b : Bool) : (s.setScc b).cores = s.cores := rfl
@[simp] theorem State.setScc_ctxs (s : State) (b : Bool) : (s.setScc b).ctxs = s.ctxs := rfl
@[simp] theorem State.setScc_queues (s : State) (b : Bool) : (s.setScc b).queues = s.queues := rfl
@[simp] theorem State.setScc_mem (s : State) (b : Bool) : (s.setScc b).mem = s.mem := rfl
@[simp] theorem State.setScc_poison (s : State) (b : Bool) : (s.setScc b).poison = s.poison := rfl
@[simp] theorem State.setScc_reg (s : State) (b : Bool) : (s.setScc b).reg = s.reg := rfl
@[simp] theorem State.setScc_sigs (s : State) (b : Bool) : (s.setScc b).sigs = s.sigs := rfl
@[simp] theorem State.setScc_invals (s : State) (b : Bool) : (s.setScc b).invals = s.invals := rfl
@[simp] theorem State.setScc_dirs (s : State) (b : Bool) : (s.setScc b).dirs = s.dirs := rfl
@[simp] theorem State.setScc_parts (s : State) (b : Bool) : (s.setScc b).parts = s.parts := rfl
@[simp] theorem State.setScc_snaps (s : State) (b : Bool) : (s.setScc b).snaps = s.snaps := rfl
@[simp] theorem State.setScc_restores (s : State) (b : Bool) : (s.setScc b).restores = s.restores := rfl
@[simp] theorem State.setScc_slices (s : State) (b : Bool) : (s.setScc b).slices = s.slices := rfl
@[simp] theorem State.setScc_vaults (s : State) (b : Bool) : (s.setScc b).vaults = s.vaults := rfl
@[simp] theorem State.setScc_links (s : State) (b : Bool) : (s.setScc b).links = s.links := rfl
@[simp] theorem State.setScc_channels (s : State) (b : Bool) : (s.setScc b).channels = s.channels := rfl
@[simp] theorem State.setScc_spads (s : State) (b : Bool) : (s.setScc b).spads = s.spads := rfl
@[simp] theorem State.setScc_ports (s : State) (b : Bool) : (s.setScc b).ports = s.ports := rfl
@[simp] theorem State.setScc_peers (s : State) (b : Bool) : (s.setScc b).peers = s.peers := rfl
@[simp] theorem State.setScc_sent (s : State) (b : Bool) : (s.setScc b).sent = s.sent := rfl
@[simp] theorem State.setScc_poolWait (s : State) (b : Bool) : (s.setScc b).poolWait = s.poolWait := rfl
@[simp] theorem State.setScc_retry (s : State) (b : Bool) : (s.setScc b).retry = s.retry := rfl
@[simp] theorem State.setScc_dev (s : State) (b : Bool) : (s.setScc b).dev = s.dev := rfl
@[simp] theorem State.setScc_w_key (s : State) (b : Bool) : (s.setScc b).w.key = s.w.key := rfl
@[simp] theorem State.setScc_w_ctx (s : State) (b : Bool) : (s.setScc b).w.ctx = s.w.ctx := rfl
@[simp] theorem State.setScc_w_gx (s : State) (b : Bool) : (s.setScc b).w.gx = s.w.gx := rfl
@[simp] theorem State.setScc_w_gy (s : State) (b : Bool) : (s.setScc b).w.gy = s.w.gy := rfl
@[simp] theorem State.setScc_w_gz (s : State) (b : Bool) : (s.setScc b).w.gz = s.w.gz := rfl
@[simp] theorem State.setScc_w_stage (s : State) (b : Bool) : (s.setScc b).w.stage = s.w.stage := rfl
@[simp] theorem State.setScc_w_core (s : State) (b : Bool) : (s.setScc b).w.core = s.w.core := rfl
@[simp] theorem State.setScc_w_sched (s : State) (b : Bool) : (s.setScc b).w.sched = s.w.sched := rfl
@[simp] theorem State.setScc_w_slot (s : State) (b : Bool) : (s.setScc b).w.slot = s.w.slot := rfl
@[simp] theorem State.setScc_w_stamp (s : State) (b : Bool) : (s.setScc b).w.stamp = s.w.stamp := rfl
@[simp] theorem State.setScc_w_prio (s : State) (b : Bool) : (s.setScc b).w.prio = s.w.prio := rfl
@[simp] theorem State.setScc_w_wbase (s : State) (b : Bool) : (s.setScc b).w.wbase = s.w.wbase := rfl
@[simp] theorem State.setScc_w_valloc (s : State) (b : Bool) : (s.setScc b).w.valloc = s.w.valloc := rfl
@[simp] theorem State.setScc_w_quota (s : State) (b : Bool) : (s.setScc b).w.quota = s.w.quota := rfl
@[simp] theorem State.setScc_w_rot (s : State) (b : Bool) : (s.setScc b).w.rot = s.w.rot := rfl
@[simp] theorem State.setScc_w_pc (s : State) (b : Bool) : (s.setScc b).w.pc = s.w.pc := rfl
@[simp] theorem State.setScc_w_sregs (s : State) (b : Bool) : (s.setScc b).w.sregs = s.w.sregs := rfl
@[simp] theorem State.setScc_w_vregs (s : State) (b : Bool) : (s.setScc b).w.vregs = s.w.vregs := rfl
@[simp] theorem State.setScc_w_bndst (s : State) (b : Bool) : (s.setScc b).w.bndst = s.w.bndst := rfl
@[simp] theorem State.setScc_w_abtn (s : State) (b : Bool) : (s.setScc b).w.abtn = s.w.abtn := rfl
@[simp] theorem State.setScc_w_tcause (s : State) (b : Bool) : (s.setScc b).w.tcause = s.w.tcause := rfl
@[simp] theorem State.setScc_w_tpc (s : State) (b : Bool) : (s.setScc b).w.tpc = s.w.tpc := rfl
@[simp] theorem State.setScc_w_taddr (s : State) (b : Bool) : (s.setScc b).w.taddr = s.w.taddr := rfl
@[simp] theorem State.setScc_w_tmask (s : State) (b : Bool) : (s.setScc b).w.tmask = s.w.tmask := rfl
@[simp] theorem State.setScc_w_tvec (s : State) (b : Bool) : (s.setScc b).w.tvec = s.w.tvec := rfl
@[simp] theorem State.setScc_w_slimit (s : State) (b : Bool) : (s.setScc b).w.slimit = s.w.slimit := rfl
@[simp] theorem State.setScc_w_sliceIdx (s : State) (b : Bool) : (s.setScc b).w.sliceIdx = s.w.sliceIdx := rfl
@[simp] theorem State.setScc_w_seqno (s : State) (b : Bool) : (s.setScc b).w.seqno = s.w.seqno := rfl
@[simp] theorem State.setScc_w_errinj (s : State) (b : Bool) : (s.setScc b).w.errinj = s.w.errinj := rfl
@[simp] theorem State.setScc_w_injCount (s : State) (b : Bool) : (s.setScc b).w.injCount = s.w.injCount := rfl
@[simp] theorem State.setScc_w_xts (s : State) (b : Bool) : (s.setScc b).w.xts = s.w.xts := rfl
@[simp] theorem State.setScc_w_accs (s : State) (b : Bool) : (s.setScc b).w.accs = s.w.accs := rfl
@[simp] theorem State.setScc_w_savedAccs (s : State) (b : Bool) : (s.setScc b).w.savedAccs = s.w.savedAccs := rfl
@[simp] theorem State.setScc_w_wbuf (s : State) (b : Bool) : (s.setScc b).w.wbuf = s.w.wbuf := rfl
@[simp] theorem State.setScc_w_sig (s : State) (b : Bool) : (s.setScc b).w.sig = s.w.sig := rfl
@[simp] theorem State.setScc_w_conflict (s : State) (b : Bool) : (s.setScc b).w.conflict = s.w.conflict := rfl
@[simp] theorem State.setScc_w_unsealed (s : State) (b : Bool) : (s.setScc b).w.unsealed = s.w.unsealed := rfl
@[simp] theorem State.setScc_w_nextBatch (s : State) (b : Bool) : (s.setScc b).w.nextBatch = s.w.nextBatch := rfl
@[simp] theorem State.setScc_w_batchKicks (s : State) (b : Bool) : (s.setScc b).w.batchKicks = s.w.batchKicks := rfl
@[simp] theorem State.setScc_w_reports (s : State) (b : Bool) : (s.setScc b).w.reports = s.w.reports := rfl
@[simp] theorem State.setScc_w_gong (s : State) (b : Bool) : (s.setScc b).w.gong = s.w.gong := rfl
@[simp] theorem State.setScc_w_life (s : State) (b : Bool) : (s.setScc b).w.life = s.w.life := rfl
@[simp] theorem State.setScc_w_killed (s : State) (b : Bool) : (s.setScc b).w.killed = s.w.killed := rfl
@[simp] theorem State.setScc_w_saved (s : State) (b : Bool) : (s.setScc b).w.saved = s.w.saved := rfl
@[simp] theorem State.setScc_w_todo (s : State) (b : Bool) : (s.setScc b).w.todo = s.w.todo := rfl
@[simp] theorem State.setScc_w_released (s : State) (b : Bool) : (s.setScc b).w.released = s.w.released := rfl
@[simp] theorem State.setScc_w_stamped (s : State) (b : Bool) : (s.setScc b).w.stamped = s.w.stamped := rfl
@[simp] theorem State.setScc_w_stk (s : State) (b : Bool) : (s.setScc b).w.stk = s.w.stk := rfl
@[simp] theorem State.setScc_w_flushes (s : State) (b : Bool) : (s.setScc b).w.flushes = s.w.flushes := rfl
@[simp] theorem State.setScc_w_valMis (s : State) (b : Bool) : (s.setScc b).w.valMis = s.w.valMis := rfl
@[simp] theorem State.setScc_w_resMis (s : State) (b : Bool) : (s.setScc b).w.resMis = s.w.resMis := rfl
@[simp] theorem State.setScc_w_ckOnly (s : State) (b : Bool) : (s.setScc b).w.ckOnly = s.w.ckOnly := rfl
@[simp] theorem State.setScc_w_byChecker (s : State) (b : Bool) : (s.setScc b).w.byChecker = s.w.byChecker := rfl
@[simp] theorem State.setScc_w_starved (s : State) (b : Bool) : (s.setScc b).w.starved = s.w.starved := rfl
@[simp] theorem State.setScc_w_issued (s : State) (b : Bool) : (s.setScc b).w.issued = s.w.issued := rfl
@[simp] theorem State.setScc_w_issues (s : State) (b : Bool) : (s.setScc b).w.issues = s.w.issues := rfl
@[simp] theorem State.setScc_w_left (s : State) (b : Bool) : (s.setScc b).w.left = s.w.left := rfl
@[simp] theorem State.setScc_w_sampled (s : State) (b : Bool) : (s.setScc b).w.sampled = s.w.sampled := rfl
@[simp] theorem State.setScc_w_waitFrom (s : State) (b : Bool) : (s.setScc b).w.waitFrom = s.w.waitFrom := rfl
@[simp] theorem State.setScc_w_fetched (s : State) (b : Bool) : (s.setScc b).w.fetched = s.w.fetched := rfl
@[simp] theorem State.setScc_w_decoded (s : State) (b : Bool) : (s.setScc b).w.decoded = s.w.decoded := rfl
@[simp] theorem State.setScc_w_oldBounds (s : State) (b : Bool) : (s.setScc b).w.oldBounds = s.w.oldBounds := rfl
@[simp] theorem State.setScc_w_wrote (s : State) (b : Bool) : (s.setScc b).w.wrote = s.w.wrote := rfl
@[simp] theorem State.setScc_w_floors (s : State) (b : Bool) : (s.setScc b).w.floors = s.w.floors := rfl

@[simp] theorem State.raise_agenda (s : State) (f : Flags) : (s.raise f).agenda = s.agenda := rfl
@[simp] theorem State.raise_facts (s : State) (f : Flags) : (s.raise f).facts = s.facts := rfl
@[simp] theorem State.raise_turn (s : State) (f : Flags) : (s.raise f).turn = s.turn := rfl
@[simp] theorem State.raise_blk (s : State) (f : Flags) : (s.raise f).blk = s.blk := rfl
@[simp] theorem State.raise_gang (s : State) (f : Flags) : (s.raise f).gang = s.gang := rfl
@[simp] theorem State.raise_launch (s : State) (f : Flags) : (s.raise f).launch = s.launch := rfl
@[simp] theorem State.raise_waves (s : State) (f : Flags) : (s.raise f).waves = s.waves := rfl
@[simp] theorem State.raise_blocks (s : State) (f : Flags) : (s.raise f).blocks = s.blocks := rfl
@[simp] theorem State.raise_gangs (s : State) (f : Flags) : (s.raise f).gangs = s.gangs := rfl
@[simp] theorem State.raise_launches (s : State) (f : Flags) : (s.raise f).launches = s.launches := rfl
@[simp] theorem State.raise_cores (s : State) (f : Flags) : (s.raise f).cores = s.cores := rfl
@[simp] theorem State.raise_ctxs (s : State) (f : Flags) : (s.raise f).ctxs = s.ctxs := rfl
@[simp] theorem State.raise_queues (s : State) (f : Flags) : (s.raise f).queues = s.queues := rfl
@[simp] theorem State.raise_mem (s : State) (f : Flags) : (s.raise f).mem = s.mem := rfl
@[simp] theorem State.raise_poison (s : State) (f : Flags) : (s.raise f).poison = s.poison := rfl
@[simp] theorem State.raise_reg (s : State) (f : Flags) : (s.raise f).reg = s.reg := rfl
@[simp] theorem State.raise_sigs (s : State) (f : Flags) : (s.raise f).sigs = s.sigs := rfl
@[simp] theorem State.raise_invals (s : State) (f : Flags) : (s.raise f).invals = s.invals := rfl
@[simp] theorem State.raise_dirs (s : State) (f : Flags) : (s.raise f).dirs = s.dirs := rfl
@[simp] theorem State.raise_parts (s : State) (f : Flags) : (s.raise f).parts = s.parts := rfl
@[simp] theorem State.raise_snaps (s : State) (f : Flags) : (s.raise f).snaps = s.snaps := rfl
@[simp] theorem State.raise_restores (s : State) (f : Flags) : (s.raise f).restores = s.restores := rfl
@[simp] theorem State.raise_slices (s : State) (f : Flags) : (s.raise f).slices = s.slices := rfl
@[simp] theorem State.raise_vaults (s : State) (f : Flags) : (s.raise f).vaults = s.vaults := rfl
@[simp] theorem State.raise_links (s : State) (f : Flags) : (s.raise f).links = s.links := rfl
@[simp] theorem State.raise_channels (s : State) (f : Flags) : (s.raise f).channels = s.channels := rfl
@[simp] theorem State.raise_spads (s : State) (f : Flags) : (s.raise f).spads = s.spads := rfl
@[simp] theorem State.raise_ports (s : State) (f : Flags) : (s.raise f).ports = s.ports := rfl
@[simp] theorem State.raise_peers (s : State) (f : Flags) : (s.raise f).peers = s.peers := rfl
@[simp] theorem State.raise_sent (s : State) (f : Flags) : (s.raise f).sent = s.sent := rfl
@[simp] theorem State.raise_poolWait (s : State) (f : Flags) : (s.raise f).poolWait = s.poolWait := rfl
@[simp] theorem State.raise_retry (s : State) (f : Flags) : (s.raise f).retry = s.retry := rfl
@[simp] theorem State.raise_dev (s : State) (f : Flags) : (s.raise f).dev = s.dev := rfl
@[simp] theorem State.raise_w_key (s : State) (f : Flags) : (s.raise f).w.key = s.w.key := rfl
@[simp] theorem State.raise_w_ctx (s : State) (f : Flags) : (s.raise f).w.ctx = s.w.ctx := rfl
@[simp] theorem State.raise_w_gx (s : State) (f : Flags) : (s.raise f).w.gx = s.w.gx := rfl
@[simp] theorem State.raise_w_gy (s : State) (f : Flags) : (s.raise f).w.gy = s.w.gy := rfl
@[simp] theorem State.raise_w_gz (s : State) (f : Flags) : (s.raise f).w.gz = s.w.gz := rfl
@[simp] theorem State.raise_w_stage (s : State) (f : Flags) : (s.raise f).w.stage = s.w.stage := rfl
@[simp] theorem State.raise_w_core (s : State) (f : Flags) : (s.raise f).w.core = s.w.core := rfl
@[simp] theorem State.raise_w_sched (s : State) (f : Flags) : (s.raise f).w.sched = s.w.sched := rfl
@[simp] theorem State.raise_w_slot (s : State) (f : Flags) : (s.raise f).w.slot = s.w.slot := rfl
@[simp] theorem State.raise_w_stamp (s : State) (f : Flags) : (s.raise f).w.stamp = s.w.stamp := rfl
@[simp] theorem State.raise_w_prio (s : State) (f : Flags) : (s.raise f).w.prio = s.w.prio := rfl
@[simp] theorem State.raise_w_wbase (s : State) (f : Flags) : (s.raise f).w.wbase = s.w.wbase := rfl
@[simp] theorem State.raise_w_valloc (s : State) (f : Flags) : (s.raise f).w.valloc = s.w.valloc := rfl
@[simp] theorem State.raise_w_quota (s : State) (f : Flags) : (s.raise f).w.quota = s.w.quota := rfl
@[simp] theorem State.raise_w_rot (s : State) (f : Flags) : (s.raise f).w.rot = s.w.rot := rfl
@[simp] theorem State.raise_w_pc (s : State) (f : Flags) : (s.raise f).w.pc = s.w.pc := rfl
@[simp] theorem State.raise_w_sregs (s : State) (f : Flags) : (s.raise f).w.sregs = s.w.sregs := rfl
@[simp] theorem State.raise_w_vregs (s : State) (f : Flags) : (s.raise f).w.vregs = s.w.vregs := rfl
@[simp] theorem State.raise_w_bndst (s : State) (f : Flags) : (s.raise f).w.bndst = s.w.bndst := rfl
@[simp] theorem State.raise_w_abtn (s : State) (f : Flags) : (s.raise f).w.abtn = s.w.abtn := rfl
@[simp] theorem State.raise_w_tcause (s : State) (f : Flags) : (s.raise f).w.tcause = s.w.tcause := rfl
@[simp] theorem State.raise_w_tpc (s : State) (f : Flags) : (s.raise f).w.tpc = s.w.tpc := rfl
@[simp] theorem State.raise_w_taddr (s : State) (f : Flags) : (s.raise f).w.taddr = s.w.taddr := rfl
@[simp] theorem State.raise_w_tmask (s : State) (f : Flags) : (s.raise f).w.tmask = s.w.tmask := rfl
@[simp] theorem State.raise_w_tvec (s : State) (f : Flags) : (s.raise f).w.tvec = s.w.tvec := rfl
@[simp] theorem State.raise_w_slimit (s : State) (f : Flags) : (s.raise f).w.slimit = s.w.slimit := rfl
@[simp] theorem State.raise_w_sliceIdx (s : State) (f : Flags) : (s.raise f).w.sliceIdx = s.w.sliceIdx := rfl
@[simp] theorem State.raise_w_seqno (s : State) (f : Flags) : (s.raise f).w.seqno = s.w.seqno := rfl
@[simp] theorem State.raise_w_errinj (s : State) (f : Flags) : (s.raise f).w.errinj = s.w.errinj := rfl
@[simp] theorem State.raise_w_injCount (s : State) (f : Flags) : (s.raise f).w.injCount = s.w.injCount := rfl
@[simp] theorem State.raise_w_xts (s : State) (f : Flags) : (s.raise f).w.xts = s.w.xts := rfl
@[simp] theorem State.raise_w_accs (s : State) (f : Flags) : (s.raise f).w.accs = s.w.accs := rfl
@[simp] theorem State.raise_w_savedAccs (s : State) (f : Flags) : (s.raise f).w.savedAccs = s.w.savedAccs := rfl
@[simp] theorem State.raise_w_wbuf (s : State) (f : Flags) : (s.raise f).w.wbuf = s.w.wbuf := rfl
@[simp] theorem State.raise_w_sig (s : State) (f : Flags) : (s.raise f).w.sig = s.w.sig := rfl
@[simp] theorem State.raise_w_conflict (s : State) (f : Flags) : (s.raise f).w.conflict = s.w.conflict := rfl
@[simp] theorem State.raise_w_unsealed (s : State) (f : Flags) : (s.raise f).w.unsealed = s.w.unsealed := rfl
@[simp] theorem State.raise_w_nextBatch (s : State) (f : Flags) : (s.raise f).w.nextBatch = s.w.nextBatch := rfl
@[simp] theorem State.raise_w_batchKicks (s : State) (f : Flags) : (s.raise f).w.batchKicks = s.w.batchKicks := rfl
@[simp] theorem State.raise_w_reports (s : State) (f : Flags) : (s.raise f).w.reports = s.w.reports := rfl
@[simp] theorem State.raise_w_gong (s : State) (f : Flags) : (s.raise f).w.gong = s.w.gong := rfl
@[simp] theorem State.raise_w_life (s : State) (f : Flags) : (s.raise f).w.life = s.w.life := rfl
@[simp] theorem State.raise_w_killed (s : State) (f : Flags) : (s.raise f).w.killed = s.w.killed := rfl
@[simp] theorem State.raise_w_saved (s : State) (f : Flags) : (s.raise f).w.saved = s.w.saved := rfl
@[simp] theorem State.raise_w_todo (s : State) (f : Flags) : (s.raise f).w.todo = s.w.todo := rfl
@[simp] theorem State.raise_w_released (s : State) (f : Flags) : (s.raise f).w.released = s.w.released := rfl
@[simp] theorem State.raise_w_stamped (s : State) (f : Flags) : (s.raise f).w.stamped = s.w.stamped := rfl
@[simp] theorem State.raise_w_stk (s : State) (f : Flags) : (s.raise f).w.stk = s.w.stk := rfl
@[simp] theorem State.raise_w_flushes (s : State) (f : Flags) : (s.raise f).w.flushes = s.w.flushes := rfl
@[simp] theorem State.raise_w_valMis (s : State) (f : Flags) : (s.raise f).w.valMis = s.w.valMis := rfl
@[simp] theorem State.raise_w_resMis (s : State) (f : Flags) : (s.raise f).w.resMis = s.w.resMis := rfl
@[simp] theorem State.raise_w_ckOnly (s : State) (f : Flags) : (s.raise f).w.ckOnly = s.w.ckOnly := rfl
@[simp] theorem State.raise_w_byChecker (s : State) (f : Flags) : (s.raise f).w.byChecker = s.w.byChecker := rfl
@[simp] theorem State.raise_w_starved (s : State) (f : Flags) : (s.raise f).w.starved = s.w.starved := rfl
@[simp] theorem State.raise_w_issued (s : State) (f : Flags) : (s.raise f).w.issued = s.w.issued := rfl
@[simp] theorem State.raise_w_issues (s : State) (f : Flags) : (s.raise f).w.issues = s.w.issues := rfl
@[simp] theorem State.raise_w_left (s : State) (f : Flags) : (s.raise f).w.left = s.w.left := rfl
@[simp] theorem State.raise_w_sampled (s : State) (f : Flags) : (s.raise f).w.sampled = s.w.sampled := rfl
@[simp] theorem State.raise_w_waitFrom (s : State) (f : Flags) : (s.raise f).w.waitFrom = s.w.waitFrom := rfl
@[simp] theorem State.raise_w_fetched (s : State) (f : Flags) : (s.raise f).w.fetched = s.w.fetched := rfl
@[simp] theorem State.raise_w_decoded (s : State) (f : Flags) : (s.raise f).w.decoded = s.w.decoded := rfl
@[simp] theorem State.raise_w_oldBounds (s : State) (f : Flags) : (s.raise f).w.oldBounds = s.w.oldBounds := rfl
@[simp] theorem State.raise_w_wrote (s : State) (f : Flags) : (s.raise f).w.wrote = s.w.wrote := rfl
@[simp] theorem State.raise_w_floors (s : State) (f : Flags) : (s.raise f).w.floors = s.w.floors := rfl

@[simp] theorem State.setVreg_agenda (s : State) (n : Nat) (r : VReg) : (s.setVreg n r).agenda = s.agenda := rfl
@[simp] theorem State.setVreg_facts (s : State) (n : Nat) (r : VReg) : (s.setVreg n r).facts = s.facts := rfl
@[simp] theorem State.setVreg_turn (s : State) (n : Nat) (r : VReg) : (s.setVreg n r).turn = s.turn := rfl
@[simp] theorem State.setVreg_blk (s : State) (n : Nat) (r : VReg) : (s.setVreg n r).blk = s.blk := rfl
@[simp] theorem State.setVreg_gang (s : State) (n : Nat) (r : VReg) : (s.setVreg n r).gang = s.gang := rfl
@[simp] theorem State.setVreg_launch (s : State) (n : Nat) (r : VReg) : (s.setVreg n r).launch = s.launch := rfl
@[simp] theorem State.setVreg_waves (s : State) (n : Nat) (r : VReg) : (s.setVreg n r).waves = s.waves := rfl
@[simp] theorem State.setVreg_blocks (s : State) (n : Nat) (r : VReg) : (s.setVreg n r).blocks = s.blocks := rfl
@[simp] theorem State.setVreg_gangs (s : State) (n : Nat) (r : VReg) : (s.setVreg n r).gangs = s.gangs := rfl
@[simp] theorem State.setVreg_launches (s : State) (n : Nat) (r : VReg) : (s.setVreg n r).launches = s.launches := rfl
@[simp] theorem State.setVreg_cores (s : State) (n : Nat) (r : VReg) : (s.setVreg n r).cores = s.cores := rfl
@[simp] theorem State.setVreg_ctxs (s : State) (n : Nat) (r : VReg) : (s.setVreg n r).ctxs = s.ctxs := rfl
@[simp] theorem State.setVreg_queues (s : State) (n : Nat) (r : VReg) : (s.setVreg n r).queues = s.queues := rfl
@[simp] theorem State.setVreg_mem (s : State) (n : Nat) (r : VReg) : (s.setVreg n r).mem = s.mem := rfl
@[simp] theorem State.setVreg_poison (s : State) (n : Nat) (r : VReg) : (s.setVreg n r).poison = s.poison := rfl
@[simp] theorem State.setVreg_reg (s : State) (n : Nat) (r : VReg) : (s.setVreg n r).reg = s.reg := rfl
@[simp] theorem State.setVreg_sigs (s : State) (n : Nat) (r : VReg) : (s.setVreg n r).sigs = s.sigs := rfl
@[simp] theorem State.setVreg_invals (s : State) (n : Nat) (r : VReg) : (s.setVreg n r).invals = s.invals := rfl
@[simp] theorem State.setVreg_dirs (s : State) (n : Nat) (r : VReg) : (s.setVreg n r).dirs = s.dirs := rfl
@[simp] theorem State.setVreg_parts (s : State) (n : Nat) (r : VReg) : (s.setVreg n r).parts = s.parts := rfl
@[simp] theorem State.setVreg_snaps (s : State) (n : Nat) (r : VReg) : (s.setVreg n r).snaps = s.snaps := rfl
@[simp] theorem State.setVreg_restores (s : State) (n : Nat) (r : VReg) : (s.setVreg n r).restores = s.restores := rfl
@[simp] theorem State.setVreg_slices (s : State) (n : Nat) (r : VReg) : (s.setVreg n r).slices = s.slices := rfl
@[simp] theorem State.setVreg_vaults (s : State) (n : Nat) (r : VReg) : (s.setVreg n r).vaults = s.vaults := rfl
@[simp] theorem State.setVreg_links (s : State) (n : Nat) (r : VReg) : (s.setVreg n r).links = s.links := rfl
@[simp] theorem State.setVreg_channels (s : State) (n : Nat) (r : VReg) : (s.setVreg n r).channels = s.channels := rfl
@[simp] theorem State.setVreg_spads (s : State) (n : Nat) (r : VReg) : (s.setVreg n r).spads = s.spads := rfl
@[simp] theorem State.setVreg_ports (s : State) (n : Nat) (r : VReg) : (s.setVreg n r).ports = s.ports := rfl
@[simp] theorem State.setVreg_peers (s : State) (n : Nat) (r : VReg) : (s.setVreg n r).peers = s.peers := rfl
@[simp] theorem State.setVreg_sent (s : State) (n : Nat) (r : VReg) : (s.setVreg n r).sent = s.sent := rfl
@[simp] theorem State.setVreg_poolWait (s : State) (n : Nat) (r : VReg) : (s.setVreg n r).poolWait = s.poolWait := rfl
@[simp] theorem State.setVreg_retry (s : State) (n : Nat) (r : VReg) : (s.setVreg n r).retry = s.retry := rfl
@[simp] theorem State.setVreg_dev (s : State) (n : Nat) (r : VReg) : (s.setVreg n r).dev = s.dev := rfl
@[simp] theorem State.setVreg_w_key (s : State) (n : Nat) (r : VReg) : (s.setVreg n r).w.key = s.w.key := rfl
@[simp] theorem State.setVreg_w_ctx (s : State) (n : Nat) (r : VReg) : (s.setVreg n r).w.ctx = s.w.ctx := rfl
@[simp] theorem State.setVreg_w_gx (s : State) (n : Nat) (r : VReg) : (s.setVreg n r).w.gx = s.w.gx := rfl
@[simp] theorem State.setVreg_w_gy (s : State) (n : Nat) (r : VReg) : (s.setVreg n r).w.gy = s.w.gy := rfl
@[simp] theorem State.setVreg_w_gz (s : State) (n : Nat) (r : VReg) : (s.setVreg n r).w.gz = s.w.gz := rfl
@[simp] theorem State.setVreg_w_stage (s : State) (n : Nat) (r : VReg) : (s.setVreg n r).w.stage = s.w.stage := rfl
@[simp] theorem State.setVreg_w_core (s : State) (n : Nat) (r : VReg) : (s.setVreg n r).w.core = s.w.core := rfl
@[simp] theorem State.setVreg_w_sched (s : State) (n : Nat) (r : VReg) : (s.setVreg n r).w.sched = s.w.sched := rfl
@[simp] theorem State.setVreg_w_slot (s : State) (n : Nat) (r : VReg) : (s.setVreg n r).w.slot = s.w.slot := rfl
@[simp] theorem State.setVreg_w_stamp (s : State) (n : Nat) (r : VReg) : (s.setVreg n r).w.stamp = s.w.stamp := rfl
@[simp] theorem State.setVreg_w_prio (s : State) (n : Nat) (r : VReg) : (s.setVreg n r).w.prio = s.w.prio := rfl
@[simp] theorem State.setVreg_w_wbase (s : State) (n : Nat) (r : VReg) : (s.setVreg n r).w.wbase = s.w.wbase := rfl
@[simp] theorem State.setVreg_w_valloc (s : State) (n : Nat) (r : VReg) : (s.setVreg n r).w.valloc = s.w.valloc := rfl
@[simp] theorem State.setVreg_w_quota (s : State) (n : Nat) (r : VReg) : (s.setVreg n r).w.quota = s.w.quota := rfl
@[simp] theorem State.setVreg_w_rot (s : State) (n : Nat) (r : VReg) : (s.setVreg n r).w.rot = s.w.rot := rfl
@[simp] theorem State.setVreg_w_pc (s : State) (n : Nat) (r : VReg) : (s.setVreg n r).w.pc = s.w.pc := rfl
@[simp] theorem State.setVreg_w_sregs (s : State) (n : Nat) (r : VReg) : (s.setVreg n r).w.sregs = s.w.sregs := rfl
@[simp] theorem State.setVreg_w_status (s : State) (n : Nat) (r : VReg) : (s.setVreg n r).w.status = s.w.status := rfl
@[simp] theorem State.setVreg_w_bndst (s : State) (n : Nat) (r : VReg) : (s.setVreg n r).w.bndst = s.w.bndst := rfl
@[simp] theorem State.setVreg_w_abtn (s : State) (n : Nat) (r : VReg) : (s.setVreg n r).w.abtn = s.w.abtn := rfl
@[simp] theorem State.setVreg_w_tcause (s : State) (n : Nat) (r : VReg) : (s.setVreg n r).w.tcause = s.w.tcause := rfl
@[simp] theorem State.setVreg_w_tpc (s : State) (n : Nat) (r : VReg) : (s.setVreg n r).w.tpc = s.w.tpc := rfl
@[simp] theorem State.setVreg_w_taddr (s : State) (n : Nat) (r : VReg) : (s.setVreg n r).w.taddr = s.w.taddr := rfl
@[simp] theorem State.setVreg_w_tmask (s : State) (n : Nat) (r : VReg) : (s.setVreg n r).w.tmask = s.w.tmask := rfl
@[simp] theorem State.setVreg_w_tvec (s : State) (n : Nat) (r : VReg) : (s.setVreg n r).w.tvec = s.w.tvec := rfl
@[simp] theorem State.setVreg_w_slimit (s : State) (n : Nat) (r : VReg) : (s.setVreg n r).w.slimit = s.w.slimit := rfl
@[simp] theorem State.setVreg_w_sliceIdx (s : State) (n : Nat) (r : VReg) : (s.setVreg n r).w.sliceIdx = s.w.sliceIdx := rfl
@[simp] theorem State.setVreg_w_seqno (s : State) (n : Nat) (r : VReg) : (s.setVreg n r).w.seqno = s.w.seqno := rfl
@[simp] theorem State.setVreg_w_errinj (s : State) (n : Nat) (r : VReg) : (s.setVreg n r).w.errinj = s.w.errinj := rfl
@[simp] theorem State.setVreg_w_injCount (s : State) (n : Nat) (r : VReg) : (s.setVreg n r).w.injCount = s.w.injCount := rfl
@[simp] theorem State.setVreg_w_xts (s : State) (n : Nat) (r : VReg) : (s.setVreg n r).w.xts = s.w.xts := rfl
@[simp] theorem State.setVreg_w_accs (s : State) (n : Nat) (r : VReg) : (s.setVreg n r).w.accs = s.w.accs := rfl
@[simp] theorem State.setVreg_w_savedAccs (s : State) (n : Nat) (r : VReg) : (s.setVreg n r).w.savedAccs = s.w.savedAccs := rfl
@[simp] theorem State.setVreg_w_wbuf (s : State) (n : Nat) (r : VReg) : (s.setVreg n r).w.wbuf = s.w.wbuf := rfl
@[simp] theorem State.setVreg_w_sig (s : State) (n : Nat) (r : VReg) : (s.setVreg n r).w.sig = s.w.sig := rfl
@[simp] theorem State.setVreg_w_conflict (s : State) (n : Nat) (r : VReg) : (s.setVreg n r).w.conflict = s.w.conflict := rfl
@[simp] theorem State.setVreg_w_unsealed (s : State) (n : Nat) (r : VReg) : (s.setVreg n r).w.unsealed = s.w.unsealed := rfl
@[simp] theorem State.setVreg_w_nextBatch (s : State) (n : Nat) (r : VReg) : (s.setVreg n r).w.nextBatch = s.w.nextBatch := rfl
@[simp] theorem State.setVreg_w_batchKicks (s : State) (n : Nat) (r : VReg) : (s.setVreg n r).w.batchKicks = s.w.batchKicks := rfl
@[simp] theorem State.setVreg_w_reports (s : State) (n : Nat) (r : VReg) : (s.setVreg n r).w.reports = s.w.reports := rfl
@[simp] theorem State.setVreg_w_gong (s : State) (n : Nat) (r : VReg) : (s.setVreg n r).w.gong = s.w.gong := rfl
@[simp] theorem State.setVreg_w_life (s : State) (n : Nat) (r : VReg) : (s.setVreg n r).w.life = s.w.life := rfl
@[simp] theorem State.setVreg_w_killed (s : State) (n : Nat) (r : VReg) : (s.setVreg n r).w.killed = s.w.killed := rfl
@[simp] theorem State.setVreg_w_saved (s : State) (n : Nat) (r : VReg) : (s.setVreg n r).w.saved = s.w.saved := rfl
@[simp] theorem State.setVreg_w_todo (s : State) (n : Nat) (r : VReg) : (s.setVreg n r).w.todo = s.w.todo := rfl
@[simp] theorem State.setVreg_w_released (s : State) (n : Nat) (r : VReg) : (s.setVreg n r).w.released = s.w.released := rfl
@[simp] theorem State.setVreg_w_stamped (s : State) (n : Nat) (r : VReg) : (s.setVreg n r).w.stamped = s.w.stamped := rfl
@[simp] theorem State.setVreg_w_stk (s : State) (n : Nat) (r : VReg) : (s.setVreg n r).w.stk = s.w.stk := rfl
@[simp] theorem State.setVreg_w_flushes (s : State) (n : Nat) (r : VReg) : (s.setVreg n r).w.flushes = s.w.flushes := rfl
@[simp] theorem State.setVreg_w_valMis (s : State) (n : Nat) (r : VReg) : (s.setVreg n r).w.valMis = s.w.valMis := rfl
@[simp] theorem State.setVreg_w_resMis (s : State) (n : Nat) (r : VReg) : (s.setVreg n r).w.resMis = s.w.resMis := rfl
@[simp] theorem State.setVreg_w_ckOnly (s : State) (n : Nat) (r : VReg) : (s.setVreg n r).w.ckOnly = s.w.ckOnly := rfl
@[simp] theorem State.setVreg_w_byChecker (s : State) (n : Nat) (r : VReg) : (s.setVreg n r).w.byChecker = s.w.byChecker := rfl
@[simp] theorem State.setVreg_w_starved (s : State) (n : Nat) (r : VReg) : (s.setVreg n r).w.starved = s.w.starved := rfl
@[simp] theorem State.setVreg_w_issued (s : State) (n : Nat) (r : VReg) : (s.setVreg n r).w.issued = s.w.issued := rfl
@[simp] theorem State.setVreg_w_issues (s : State) (n : Nat) (r : VReg) : (s.setVreg n r).w.issues = s.w.issues := rfl
@[simp] theorem State.setVreg_w_left (s : State) (n : Nat) (r : VReg) : (s.setVreg n r).w.left = s.w.left := rfl
@[simp] theorem State.setVreg_w_sampled (s : State) (n : Nat) (r : VReg) : (s.setVreg n r).w.sampled = s.w.sampled := rfl
@[simp] theorem State.setVreg_w_waitFrom (s : State) (n : Nat) (r : VReg) : (s.setVreg n r).w.waitFrom = s.w.waitFrom := rfl
@[simp] theorem State.setVreg_w_fetched (s : State) (n : Nat) (r : VReg) : (s.setVreg n r).w.fetched = s.w.fetched := rfl
@[simp] theorem State.setVreg_w_decoded (s : State) (n : Nat) (r : VReg) : (s.setVreg n r).w.decoded = s.w.decoded := rfl
@[simp] theorem State.setVreg_w_oldBounds (s : State) (n : Nat) (r : VReg) : (s.setVreg n r).w.oldBounds = s.w.oldBounds := rfl
@[simp] theorem State.setVreg_w_wrote (s : State) (n : Nat) (r : VReg) : (s.setVreg n r).w.wrote = s.w.wrote := rfl
@[simp] theorem State.setVreg_w_floors (s : State) (n : Nat) (r : VReg) : (s.setVreg n r).w.floors = s.w.floors := rfl

@[simp] theorem State.setXt_agenda (s : State) (i : BitVec 3) (x : XtReg) : (s.setXt i x).agenda = s.agenda := rfl
@[simp] theorem State.setXt_facts (s : State) (i : BitVec 3) (x : XtReg) : (s.setXt i x).facts = s.facts := rfl
@[simp] theorem State.setXt_turn (s : State) (i : BitVec 3) (x : XtReg) : (s.setXt i x).turn = s.turn := rfl
@[simp] theorem State.setXt_blk (s : State) (i : BitVec 3) (x : XtReg) : (s.setXt i x).blk = s.blk := rfl
@[simp] theorem State.setXt_gang (s : State) (i : BitVec 3) (x : XtReg) : (s.setXt i x).gang = s.gang := rfl
@[simp] theorem State.setXt_launch (s : State) (i : BitVec 3) (x : XtReg) : (s.setXt i x).launch = s.launch := rfl
@[simp] theorem State.setXt_waves (s : State) (i : BitVec 3) (x : XtReg) : (s.setXt i x).waves = s.waves := rfl
@[simp] theorem State.setXt_blocks (s : State) (i : BitVec 3) (x : XtReg) : (s.setXt i x).blocks = s.blocks := rfl
@[simp] theorem State.setXt_gangs (s : State) (i : BitVec 3) (x : XtReg) : (s.setXt i x).gangs = s.gangs := rfl
@[simp] theorem State.setXt_launches (s : State) (i : BitVec 3) (x : XtReg) : (s.setXt i x).launches = s.launches := rfl
@[simp] theorem State.setXt_cores (s : State) (i : BitVec 3) (x : XtReg) : (s.setXt i x).cores = s.cores := rfl
@[simp] theorem State.setXt_ctxs (s : State) (i : BitVec 3) (x : XtReg) : (s.setXt i x).ctxs = s.ctxs := rfl
@[simp] theorem State.setXt_queues (s : State) (i : BitVec 3) (x : XtReg) : (s.setXt i x).queues = s.queues := rfl
@[simp] theorem State.setXt_mem (s : State) (i : BitVec 3) (x : XtReg) : (s.setXt i x).mem = s.mem := rfl
@[simp] theorem State.setXt_poison (s : State) (i : BitVec 3) (x : XtReg) : (s.setXt i x).poison = s.poison := rfl
@[simp] theorem State.setXt_reg (s : State) (i : BitVec 3) (x : XtReg) : (s.setXt i x).reg = s.reg := rfl
@[simp] theorem State.setXt_sigs (s : State) (i : BitVec 3) (x : XtReg) : (s.setXt i x).sigs = s.sigs := rfl
@[simp] theorem State.setXt_invals (s : State) (i : BitVec 3) (x : XtReg) : (s.setXt i x).invals = s.invals := rfl
@[simp] theorem State.setXt_dirs (s : State) (i : BitVec 3) (x : XtReg) : (s.setXt i x).dirs = s.dirs := rfl
@[simp] theorem State.setXt_parts (s : State) (i : BitVec 3) (x : XtReg) : (s.setXt i x).parts = s.parts := rfl
@[simp] theorem State.setXt_snaps (s : State) (i : BitVec 3) (x : XtReg) : (s.setXt i x).snaps = s.snaps := rfl
@[simp] theorem State.setXt_restores (s : State) (i : BitVec 3) (x : XtReg) : (s.setXt i x).restores = s.restores := rfl
@[simp] theorem State.setXt_slices (s : State) (i : BitVec 3) (x : XtReg) : (s.setXt i x).slices = s.slices := rfl
@[simp] theorem State.setXt_vaults (s : State) (i : BitVec 3) (x : XtReg) : (s.setXt i x).vaults = s.vaults := rfl
@[simp] theorem State.setXt_links (s : State) (i : BitVec 3) (x : XtReg) : (s.setXt i x).links = s.links := rfl
@[simp] theorem State.setXt_channels (s : State) (i : BitVec 3) (x : XtReg) : (s.setXt i x).channels = s.channels := rfl
@[simp] theorem State.setXt_spads (s : State) (i : BitVec 3) (x : XtReg) : (s.setXt i x).spads = s.spads := rfl
@[simp] theorem State.setXt_ports (s : State) (i : BitVec 3) (x : XtReg) : (s.setXt i x).ports = s.ports := rfl
@[simp] theorem State.setXt_peers (s : State) (i : BitVec 3) (x : XtReg) : (s.setXt i x).peers = s.peers := rfl
@[simp] theorem State.setXt_sent (s : State) (i : BitVec 3) (x : XtReg) : (s.setXt i x).sent = s.sent := rfl
@[simp] theorem State.setXt_poolWait (s : State) (i : BitVec 3) (x : XtReg) : (s.setXt i x).poolWait = s.poolWait := rfl
@[simp] theorem State.setXt_retry (s : State) (i : BitVec 3) (x : XtReg) : (s.setXt i x).retry = s.retry := rfl
@[simp] theorem State.setXt_dev (s : State) (i : BitVec 3) (x : XtReg) : (s.setXt i x).dev = s.dev := rfl
@[simp] theorem State.setXt_w_key (s : State) (i : BitVec 3) (x : XtReg) : (s.setXt i x).w.key = s.w.key := rfl
@[simp] theorem State.setXt_w_ctx (s : State) (i : BitVec 3) (x : XtReg) : (s.setXt i x).w.ctx = s.w.ctx := rfl
@[simp] theorem State.setXt_w_gx (s : State) (i : BitVec 3) (x : XtReg) : (s.setXt i x).w.gx = s.w.gx := rfl
@[simp] theorem State.setXt_w_gy (s : State) (i : BitVec 3) (x : XtReg) : (s.setXt i x).w.gy = s.w.gy := rfl
@[simp] theorem State.setXt_w_gz (s : State) (i : BitVec 3) (x : XtReg) : (s.setXt i x).w.gz = s.w.gz := rfl
@[simp] theorem State.setXt_w_stage (s : State) (i : BitVec 3) (x : XtReg) : (s.setXt i x).w.stage = s.w.stage := rfl
@[simp] theorem State.setXt_w_core (s : State) (i : BitVec 3) (x : XtReg) : (s.setXt i x).w.core = s.w.core := rfl
@[simp] theorem State.setXt_w_sched (s : State) (i : BitVec 3) (x : XtReg) : (s.setXt i x).w.sched = s.w.sched := rfl
@[simp] theorem State.setXt_w_slot (s : State) (i : BitVec 3) (x : XtReg) : (s.setXt i x).w.slot = s.w.slot := rfl
@[simp] theorem State.setXt_w_stamp (s : State) (i : BitVec 3) (x : XtReg) : (s.setXt i x).w.stamp = s.w.stamp := rfl
@[simp] theorem State.setXt_w_prio (s : State) (i : BitVec 3) (x : XtReg) : (s.setXt i x).w.prio = s.w.prio := rfl
@[simp] theorem State.setXt_w_wbase (s : State) (i : BitVec 3) (x : XtReg) : (s.setXt i x).w.wbase = s.w.wbase := rfl
@[simp] theorem State.setXt_w_valloc (s : State) (i : BitVec 3) (x : XtReg) : (s.setXt i x).w.valloc = s.w.valloc := rfl
@[simp] theorem State.setXt_w_quota (s : State) (i : BitVec 3) (x : XtReg) : (s.setXt i x).w.quota = s.w.quota := rfl
@[simp] theorem State.setXt_w_rot (s : State) (i : BitVec 3) (x : XtReg) : (s.setXt i x).w.rot = s.w.rot := rfl
@[simp] theorem State.setXt_w_pc (s : State) (i : BitVec 3) (x : XtReg) : (s.setXt i x).w.pc = s.w.pc := rfl
@[simp] theorem State.setXt_w_sregs (s : State) (i : BitVec 3) (x : XtReg) : (s.setXt i x).w.sregs = s.w.sregs := rfl
@[simp] theorem State.setXt_w_vregs (s : State) (i : BitVec 3) (x : XtReg) : (s.setXt i x).w.vregs = s.w.vregs := rfl
@[simp] theorem State.setXt_w_status (s : State) (i : BitVec 3) (x : XtReg) : (s.setXt i x).w.status = s.w.status := rfl
@[simp] theorem State.setXt_w_bndst (s : State) (i : BitVec 3) (x : XtReg) : (s.setXt i x).w.bndst = s.w.bndst := rfl
@[simp] theorem State.setXt_w_abtn (s : State) (i : BitVec 3) (x : XtReg) : (s.setXt i x).w.abtn = s.w.abtn := rfl
@[simp] theorem State.setXt_w_tcause (s : State) (i : BitVec 3) (x : XtReg) : (s.setXt i x).w.tcause = s.w.tcause := rfl
@[simp] theorem State.setXt_w_tpc (s : State) (i : BitVec 3) (x : XtReg) : (s.setXt i x).w.tpc = s.w.tpc := rfl
@[simp] theorem State.setXt_w_taddr (s : State) (i : BitVec 3) (x : XtReg) : (s.setXt i x).w.taddr = s.w.taddr := rfl
@[simp] theorem State.setXt_w_tmask (s : State) (i : BitVec 3) (x : XtReg) : (s.setXt i x).w.tmask = s.w.tmask := rfl
@[simp] theorem State.setXt_w_tvec (s : State) (i : BitVec 3) (x : XtReg) : (s.setXt i x).w.tvec = s.w.tvec := rfl
@[simp] theorem State.setXt_w_slimit (s : State) (i : BitVec 3) (x : XtReg) : (s.setXt i x).w.slimit = s.w.slimit := rfl
@[simp] theorem State.setXt_w_sliceIdx (s : State) (i : BitVec 3) (x : XtReg) : (s.setXt i x).w.sliceIdx = s.w.sliceIdx := rfl
@[simp] theorem State.setXt_w_seqno (s : State) (i : BitVec 3) (x : XtReg) : (s.setXt i x).w.seqno = s.w.seqno := rfl
@[simp] theorem State.setXt_w_errinj (s : State) (i : BitVec 3) (x : XtReg) : (s.setXt i x).w.errinj = s.w.errinj := rfl
@[simp] theorem State.setXt_w_injCount (s : State) (i : BitVec 3) (x : XtReg) : (s.setXt i x).w.injCount = s.w.injCount := rfl
@[simp] theorem State.setXt_w_accs (s : State) (i : BitVec 3) (x : XtReg) : (s.setXt i x).w.accs = s.w.accs := rfl
@[simp] theorem State.setXt_w_savedAccs (s : State) (i : BitVec 3) (x : XtReg) : (s.setXt i x).w.savedAccs = s.w.savedAccs := rfl
@[simp] theorem State.setXt_w_wbuf (s : State) (i : BitVec 3) (x : XtReg) : (s.setXt i x).w.wbuf = s.w.wbuf := rfl
@[simp] theorem State.setXt_w_sig (s : State) (i : BitVec 3) (x : XtReg) : (s.setXt i x).w.sig = s.w.sig := rfl
@[simp] theorem State.setXt_w_conflict (s : State) (i : BitVec 3) (x : XtReg) : (s.setXt i x).w.conflict = s.w.conflict := rfl
@[simp] theorem State.setXt_w_unsealed (s : State) (i : BitVec 3) (x : XtReg) : (s.setXt i x).w.unsealed = s.w.unsealed := rfl
@[simp] theorem State.setXt_w_nextBatch (s : State) (i : BitVec 3) (x : XtReg) : (s.setXt i x).w.nextBatch = s.w.nextBatch := rfl
@[simp] theorem State.setXt_w_batchKicks (s : State) (i : BitVec 3) (x : XtReg) : (s.setXt i x).w.batchKicks = s.w.batchKicks := rfl
@[simp] theorem State.setXt_w_reports (s : State) (i : BitVec 3) (x : XtReg) : (s.setXt i x).w.reports = s.w.reports := rfl
@[simp] theorem State.setXt_w_gong (s : State) (i : BitVec 3) (x : XtReg) : (s.setXt i x).w.gong = s.w.gong := rfl
@[simp] theorem State.setXt_w_life (s : State) (i : BitVec 3) (x : XtReg) : (s.setXt i x).w.life = s.w.life := rfl
@[simp] theorem State.setXt_w_killed (s : State) (i : BitVec 3) (x : XtReg) : (s.setXt i x).w.killed = s.w.killed := rfl
@[simp] theorem State.setXt_w_saved (s : State) (i : BitVec 3) (x : XtReg) : (s.setXt i x).w.saved = s.w.saved := rfl
@[simp] theorem State.setXt_w_todo (s : State) (i : BitVec 3) (x : XtReg) : (s.setXt i x).w.todo = s.w.todo := rfl
@[simp] theorem State.setXt_w_released (s : State) (i : BitVec 3) (x : XtReg) : (s.setXt i x).w.released = s.w.released := rfl
@[simp] theorem State.setXt_w_stamped (s : State) (i : BitVec 3) (x : XtReg) : (s.setXt i x).w.stamped = s.w.stamped := rfl
@[simp] theorem State.setXt_w_stk (s : State) (i : BitVec 3) (x : XtReg) : (s.setXt i x).w.stk = s.w.stk := rfl
@[simp] theorem State.setXt_w_flushes (s : State) (i : BitVec 3) (x : XtReg) : (s.setXt i x).w.flushes = s.w.flushes := rfl
@[simp] theorem State.setXt_w_valMis (s : State) (i : BitVec 3) (x : XtReg) : (s.setXt i x).w.valMis = s.w.valMis := rfl
@[simp] theorem State.setXt_w_resMis (s : State) (i : BitVec 3) (x : XtReg) : (s.setXt i x).w.resMis = s.w.resMis := rfl
@[simp] theorem State.setXt_w_ckOnly (s : State) (i : BitVec 3) (x : XtReg) : (s.setXt i x).w.ckOnly = s.w.ckOnly := rfl
@[simp] theorem State.setXt_w_byChecker (s : State) (i : BitVec 3) (x : XtReg) : (s.setXt i x).w.byChecker = s.w.byChecker := rfl
@[simp] theorem State.setXt_w_starved (s : State) (i : BitVec 3) (x : XtReg) : (s.setXt i x).w.starved = s.w.starved := rfl
@[simp] theorem State.setXt_w_issued (s : State) (i : BitVec 3) (x : XtReg) : (s.setXt i x).w.issued = s.w.issued := rfl
@[simp] theorem State.setXt_w_issues (s : State) (i : BitVec 3) (x : XtReg) : (s.setXt i x).w.issues = s.w.issues := rfl
@[simp] theorem State.setXt_w_left (s : State) (i : BitVec 3) (x : XtReg) : (s.setXt i x).w.left = s.w.left := rfl
@[simp] theorem State.setXt_w_sampled (s : State) (i : BitVec 3) (x : XtReg) : (s.setXt i x).w.sampled = s.w.sampled := rfl
@[simp] theorem State.setXt_w_waitFrom (s : State) (i : BitVec 3) (x : XtReg) : (s.setXt i x).w.waitFrom = s.w.waitFrom := rfl
@[simp] theorem State.setXt_w_fetched (s : State) (i : BitVec 3) (x : XtReg) : (s.setXt i x).w.fetched = s.w.fetched := rfl
@[simp] theorem State.setXt_w_decoded (s : State) (i : BitVec 3) (x : XtReg) : (s.setXt i x).w.decoded = s.w.decoded := rfl
@[simp] theorem State.setXt_w_oldBounds (s : State) (i : BitVec 3) (x : XtReg) : (s.setXt i x).w.oldBounds = s.w.oldBounds := rfl
@[simp] theorem State.setXt_w_wrote (s : State) (i : BitVec 3) (x : XtReg) : (s.setXt i x).w.wrote = s.w.wrote := rfl
@[simp] theorem State.setXt_w_floors (s : State) (i : BitVec 3) (x : XtReg) : (s.setXt i x).w.floors = s.w.floors := rfl

@[simp] theorem State.setW_agenda (s : State) (p : Place) : (s.setW p).agenda = s.agenda := rfl
@[simp] theorem State.setW_facts (s : State) (p : Place) : (s.setW p).facts = s.facts := rfl
@[simp] theorem State.setW_turn (s : State) (p : Place) : (s.setW p).turn = s.turn := rfl
@[simp] theorem State.setW_blk (s : State) (p : Place) : (s.setW p).blk = s.blk := rfl
@[simp] theorem State.setW_gang (s : State) (p : Place) : (s.setW p).gang = s.gang := rfl
@[simp] theorem State.setW_launch (s : State) (p : Place) : (s.setW p).launch = s.launch := rfl
@[simp] theorem State.setW_waves (s : State) (p : Place) : (s.setW p).waves = s.waves := rfl
@[simp] theorem State.setW_blocks (s : State) (p : Place) : (s.setW p).blocks = s.blocks := rfl
@[simp] theorem State.setW_gangs (s : State) (p : Place) : (s.setW p).gangs = s.gangs := rfl
@[simp] theorem State.setW_launches (s : State) (p : Place) : (s.setW p).launches = s.launches := rfl
@[simp] theorem State.setW_cores (s : State) (p : Place) : (s.setW p).cores = s.cores := rfl
@[simp] theorem State.setW_ctxs (s : State) (p : Place) : (s.setW p).ctxs = s.ctxs := rfl
@[simp] theorem State.setW_queues (s : State) (p : Place) : (s.setW p).queues = s.queues := rfl
@[simp] theorem State.setW_mem (s : State) (p : Place) : (s.setW p).mem = s.mem := rfl
@[simp] theorem State.setW_poison (s : State) (p : Place) : (s.setW p).poison = s.poison := rfl
@[simp] theorem State.setW_reg (s : State) (p : Place) : (s.setW p).reg = s.reg := rfl
@[simp] theorem State.setW_sigs (s : State) (p : Place) : (s.setW p).sigs = s.sigs := rfl
@[simp] theorem State.setW_invals (s : State) (p : Place) : (s.setW p).invals = s.invals := rfl
@[simp] theorem State.setW_dirs (s : State) (p : Place) : (s.setW p).dirs = s.dirs := rfl
@[simp] theorem State.setW_parts (s : State) (p : Place) : (s.setW p).parts = s.parts := rfl
@[simp] theorem State.setW_snaps (s : State) (p : Place) : (s.setW p).snaps = s.snaps := rfl
@[simp] theorem State.setW_restores (s : State) (p : Place) : (s.setW p).restores = s.restores := rfl
@[simp] theorem State.setW_slices (s : State) (p : Place) : (s.setW p).slices = s.slices := rfl
@[simp] theorem State.setW_vaults (s : State) (p : Place) : (s.setW p).vaults = s.vaults := rfl
@[simp] theorem State.setW_links (s : State) (p : Place) : (s.setW p).links = s.links := rfl
@[simp] theorem State.setW_channels (s : State) (p : Place) : (s.setW p).channels = s.channels := rfl
@[simp] theorem State.setW_spads (s : State) (p : Place) : (s.setW p).spads = s.spads := rfl
@[simp] theorem State.setW_ports (s : State) (p : Place) : (s.setW p).ports = s.ports := rfl
@[simp] theorem State.setW_peers (s : State) (p : Place) : (s.setW p).peers = s.peers := rfl
@[simp] theorem State.setW_sent (s : State) (p : Place) : (s.setW p).sent = s.sent := rfl
@[simp] theorem State.setW_poolWait (s : State) (p : Place) : (s.setW p).poolWait = s.poolWait := rfl
@[simp] theorem State.setW_retry (s : State) (p : Place) : (s.setW p).retry = s.retry := rfl
@[simp] theorem State.setW_dev (s : State) (p : Place) : (s.setW p).dev = s.dev := rfl
@[simp] theorem State.setW_w_key (s : State) (p : Place) : (s.setW p).w.key = s.w.key := rfl
@[simp] theorem State.setW_w_ctx (s : State) (p : Place) : (s.setW p).w.ctx = s.w.ctx := rfl
@[simp] theorem State.setW_w_gx (s : State) (p : Place) : (s.setW p).w.gx = s.w.gx := rfl
@[simp] theorem State.setW_w_gy (s : State) (p : Place) : (s.setW p).w.gy = s.w.gy := rfl
@[simp] theorem State.setW_w_gz (s : State) (p : Place) : (s.setW p).w.gz = s.w.gz := rfl
@[simp] theorem State.setW_w_stage (s : State) (p : Place) : (s.setW p).w.stage = s.w.stage := rfl
@[simp] theorem State.setW_w_core (s : State) (p : Place) : (s.setW p).w.core = s.w.core := rfl
@[simp] theorem State.setW_w_sched (s : State) (p : Place) : (s.setW p).w.sched = s.w.sched := rfl
@[simp] theorem State.setW_w_slot (s : State) (p : Place) : (s.setW p).w.slot = s.w.slot := rfl
@[simp] theorem State.setW_w_stamp (s : State) (p : Place) : (s.setW p).w.stamp = s.w.stamp := rfl
@[simp] theorem State.setW_w_prio (s : State) (p : Place) : (s.setW p).w.prio = s.w.prio := rfl
@[simp] theorem State.setW_w_wbase (s : State) (p : Place) : (s.setW p).w.wbase = s.w.wbase := rfl
@[simp] theorem State.setW_w_valloc (s : State) (p : Place) : (s.setW p).w.valloc = s.w.valloc := rfl
@[simp] theorem State.setW_w_quota (s : State) (p : Place) : (s.setW p).w.quota = s.w.quota := rfl
@[simp] theorem State.setW_w_rot (s : State) (p : Place) : (s.setW p).w.rot = s.w.rot := rfl
@[simp] theorem State.setW_w_pc (s : State) (p : Place) : (s.setW p).w.pc = s.w.pc := rfl
@[simp] theorem State.setW_w_sregs (s : State) (p : Place) : (s.setW p).w.sregs = s.w.sregs := rfl
@[simp] theorem State.setW_w_vregs (s : State) (p : Place) : (s.setW p).w.vregs = s.w.vregs := rfl
@[simp] theorem State.setW_w_status (s : State) (p : Place) : (s.setW p).w.status = s.w.status := rfl
@[simp] theorem State.setW_w_bndst (s : State) (p : Place) : (s.setW p).w.bndst = s.w.bndst := rfl
@[simp] theorem State.setW_w_abtn (s : State) (p : Place) : (s.setW p).w.abtn = s.w.abtn := rfl
@[simp] theorem State.setW_w_tcause (s : State) (p : Place) : (s.setW p).w.tcause = s.w.tcause := rfl
@[simp] theorem State.setW_w_tpc (s : State) (p : Place) : (s.setW p).w.tpc = s.w.tpc := rfl
@[simp] theorem State.setW_w_taddr (s : State) (p : Place) : (s.setW p).w.taddr = s.w.taddr := rfl
@[simp] theorem State.setW_w_tmask (s : State) (p : Place) : (s.setW p).w.tmask = s.w.tmask := rfl
@[simp] theorem State.setW_w_tvec (s : State) (p : Place) : (s.setW p).w.tvec = s.w.tvec := rfl
@[simp] theorem State.setW_w_slimit (s : State) (p : Place) : (s.setW p).w.slimit = s.w.slimit := rfl
@[simp] theorem State.setW_w_sliceIdx (s : State) (p : Place) : (s.setW p).w.sliceIdx = s.w.sliceIdx := rfl
@[simp] theorem State.setW_w_seqno (s : State) (p : Place) : (s.setW p).w.seqno = s.w.seqno := rfl
@[simp] theorem State.setW_w_errinj (s : State) (p : Place) : (s.setW p).w.errinj = s.w.errinj := rfl
@[simp] theorem State.setW_w_injCount (s : State) (p : Place) : (s.setW p).w.injCount = s.w.injCount := rfl
@[simp] theorem State.setW_w_xts (s : State) (p : Place) : (s.setW p).w.xts = s.w.xts := rfl
@[simp] theorem State.setW_w_accs (s : State) (p : Place) : (s.setW p).w.accs = s.w.accs := rfl
@[simp] theorem State.setW_w_savedAccs (s : State) (p : Place) : (s.setW p).w.savedAccs = s.w.savedAccs := rfl
@[simp] theorem State.setW_w_sig (s : State) (p : Place) : (s.setW p).w.sig = s.w.sig := rfl
@[simp] theorem State.setW_w_conflict (s : State) (p : Place) : (s.setW p).w.conflict = s.w.conflict := rfl
@[simp] theorem State.setW_w_unsealed (s : State) (p : Place) : (s.setW p).w.unsealed = s.w.unsealed := rfl
@[simp] theorem State.setW_w_nextBatch (s : State) (p : Place) : (s.setW p).w.nextBatch = s.w.nextBatch := rfl
@[simp] theorem State.setW_w_batchKicks (s : State) (p : Place) : (s.setW p).w.batchKicks = s.w.batchKicks := rfl
@[simp] theorem State.setW_w_reports (s : State) (p : Place) : (s.setW p).w.reports = s.w.reports := rfl
@[simp] theorem State.setW_w_gong (s : State) (p : Place) : (s.setW p).w.gong = s.w.gong := rfl
@[simp] theorem State.setW_w_life (s : State) (p : Place) : (s.setW p).w.life = s.w.life := rfl
@[simp] theorem State.setW_w_killed (s : State) (p : Place) : (s.setW p).w.killed = s.w.killed := rfl
@[simp] theorem State.setW_w_saved (s : State) (p : Place) : (s.setW p).w.saved = s.w.saved := rfl
@[simp] theorem State.setW_w_todo (s : State) (p : Place) : (s.setW p).w.todo = s.w.todo := rfl
@[simp] theorem State.setW_w_released (s : State) (p : Place) : (s.setW p).w.released = s.w.released := rfl
@[simp] theorem State.setW_w_stamped (s : State) (p : Place) : (s.setW p).w.stamped = s.w.stamped := rfl
@[simp] theorem State.setW_w_stk (s : State) (p : Place) : (s.setW p).w.stk = s.w.stk := rfl
@[simp] theorem State.setW_w_flushes (s : State) (p : Place) : (s.setW p).w.flushes = s.w.flushes := rfl
@[simp] theorem State.setW_w_valMis (s : State) (p : Place) : (s.setW p).w.valMis = s.w.valMis := rfl
@[simp] theorem State.setW_w_resMis (s : State) (p : Place) : (s.setW p).w.resMis = s.w.resMis := rfl
@[simp] theorem State.setW_w_ckOnly (s : State) (p : Place) : (s.setW p).w.ckOnly = s.w.ckOnly := rfl
@[simp] theorem State.setW_w_byChecker (s : State) (p : Place) : (s.setW p).w.byChecker = s.w.byChecker := rfl
@[simp] theorem State.setW_w_starved (s : State) (p : Place) : (s.setW p).w.starved = s.w.starved := rfl
@[simp] theorem State.setW_w_issued (s : State) (p : Place) : (s.setW p).w.issued = s.w.issued := rfl
@[simp] theorem State.setW_w_issues (s : State) (p : Place) : (s.setW p).w.issues = s.w.issues := rfl
@[simp] theorem State.setW_w_left (s : State) (p : Place) : (s.setW p).w.left = s.w.left := rfl
@[simp] theorem State.setW_w_sampled (s : State) (p : Place) : (s.setW p).w.sampled = s.w.sampled := rfl
@[simp] theorem State.setW_w_waitFrom (s : State) (p : Place) : (s.setW p).w.waitFrom = s.w.waitFrom := rfl
@[simp] theorem State.setW_w_fetched (s : State) (p : Place) : (s.setW p).w.fetched = s.w.fetched := rfl
@[simp] theorem State.setW_w_decoded (s : State) (p : Place) : (s.setW p).w.decoded = s.w.decoded := rfl
@[simp] theorem State.setW_w_oldBounds (s : State) (p : Place) : (s.setW p).w.oldBounds = s.w.oldBounds := rfl
@[simp] theorem State.setW_w_wrote (s : State) (p : Place) : (s.setW p).w.wrote = s.w.wrote := rfl
@[simp] theorem State.setW_w_floors (s : State) (p : Place) : (s.setW p).w.floors = s.w.floors := rfl

@[simp] theorem State.retireTo_agenda (s : State) (pc : DWord) : (s.retireTo pc).agenda = s.agenda := rfl
@[simp] theorem State.retireTo_facts (s : State) (pc : DWord) : (s.retireTo pc).facts = s.facts := rfl
@[simp] theorem State.retireTo_turn (s : State) (pc : DWord) : (s.retireTo pc).turn = s.turn := rfl
@[simp] theorem State.retireTo_blk (s : State) (pc : DWord) : (s.retireTo pc).blk = s.blk := rfl
@[simp] theorem State.retireTo_gang (s : State) (pc : DWord) : (s.retireTo pc).gang = s.gang := rfl
@[simp] theorem State.retireTo_launch (s : State) (pc : DWord) : (s.retireTo pc).launch = s.launch := rfl
@[simp] theorem State.retireTo_waves (s : State) (pc : DWord) : (s.retireTo pc).waves = s.waves := rfl
@[simp] theorem State.retireTo_blocks (s : State) (pc : DWord) : (s.retireTo pc).blocks = s.blocks := rfl
@[simp] theorem State.retireTo_gangs (s : State) (pc : DWord) : (s.retireTo pc).gangs = s.gangs := rfl
@[simp] theorem State.retireTo_launches (s : State) (pc : DWord) : (s.retireTo pc).launches = s.launches := rfl
@[simp] theorem State.retireTo_cores (s : State) (pc : DWord) : (s.retireTo pc).cores = s.cores := rfl
@[simp] theorem State.retireTo_ctxs (s : State) (pc : DWord) : (s.retireTo pc).ctxs = s.ctxs := rfl
@[simp] theorem State.retireTo_queues (s : State) (pc : DWord) : (s.retireTo pc).queues = s.queues := rfl
@[simp] theorem State.retireTo_mem (s : State) (pc : DWord) : (s.retireTo pc).mem = s.mem := rfl
@[simp] theorem State.retireTo_poison (s : State) (pc : DWord) : (s.retireTo pc).poison = s.poison := rfl
@[simp] theorem State.retireTo_reg (s : State) (pc : DWord) : (s.retireTo pc).reg = s.reg := rfl
@[simp] theorem State.retireTo_sigs (s : State) (pc : DWord) : (s.retireTo pc).sigs = s.sigs := rfl
@[simp] theorem State.retireTo_invals (s : State) (pc : DWord) : (s.retireTo pc).invals = s.invals := rfl
@[simp] theorem State.retireTo_dirs (s : State) (pc : DWord) : (s.retireTo pc).dirs = s.dirs := rfl
@[simp] theorem State.retireTo_parts (s : State) (pc : DWord) : (s.retireTo pc).parts = s.parts := rfl
@[simp] theorem State.retireTo_snaps (s : State) (pc : DWord) : (s.retireTo pc).snaps = s.snaps := rfl
@[simp] theorem State.retireTo_restores (s : State) (pc : DWord) : (s.retireTo pc).restores = s.restores := rfl
@[simp] theorem State.retireTo_slices (s : State) (pc : DWord) : (s.retireTo pc).slices = s.slices := rfl
@[simp] theorem State.retireTo_vaults (s : State) (pc : DWord) : (s.retireTo pc).vaults = s.vaults := rfl
@[simp] theorem State.retireTo_links (s : State) (pc : DWord) : (s.retireTo pc).links = s.links := rfl
@[simp] theorem State.retireTo_channels (s : State) (pc : DWord) : (s.retireTo pc).channels = s.channels := rfl
@[simp] theorem State.retireTo_spads (s : State) (pc : DWord) : (s.retireTo pc).spads = s.spads := rfl
@[simp] theorem State.retireTo_ports (s : State) (pc : DWord) : (s.retireTo pc).ports = s.ports := rfl
@[simp] theorem State.retireTo_peers (s : State) (pc : DWord) : (s.retireTo pc).peers = s.peers := rfl
@[simp] theorem State.retireTo_sent (s : State) (pc : DWord) : (s.retireTo pc).sent = s.sent := rfl
@[simp] theorem State.retireTo_poolWait (s : State) (pc : DWord) : (s.retireTo pc).poolWait = s.poolWait := rfl
@[simp] theorem State.retireTo_retry (s : State) (pc : DWord) : (s.retireTo pc).retry = s.retry := rfl
@[simp] theorem State.retireTo_dev (s : State) (pc : DWord) : (s.retireTo pc).dev = s.dev := rfl
@[simp] theorem State.retireTo_w_key (s : State) (pc : DWord) : (s.retireTo pc).w.key = s.w.key := rfl
@[simp] theorem State.retireTo_w_ctx (s : State) (pc : DWord) : (s.retireTo pc).w.ctx = s.w.ctx := rfl
@[simp] theorem State.retireTo_w_gx (s : State) (pc : DWord) : (s.retireTo pc).w.gx = s.w.gx := rfl
@[simp] theorem State.retireTo_w_gy (s : State) (pc : DWord) : (s.retireTo pc).w.gy = s.w.gy := rfl
@[simp] theorem State.retireTo_w_gz (s : State) (pc : DWord) : (s.retireTo pc).w.gz = s.w.gz := rfl
@[simp] theorem State.retireTo_w_stage (s : State) (pc : DWord) : (s.retireTo pc).w.stage = s.w.stage := rfl
@[simp] theorem State.retireTo_w_core (s : State) (pc : DWord) : (s.retireTo pc).w.core = s.w.core := rfl
@[simp] theorem State.retireTo_w_sched (s : State) (pc : DWord) : (s.retireTo pc).w.sched = s.w.sched := rfl
@[simp] theorem State.retireTo_w_slot (s : State) (pc : DWord) : (s.retireTo pc).w.slot = s.w.slot := rfl
@[simp] theorem State.retireTo_w_stamp (s : State) (pc : DWord) : (s.retireTo pc).w.stamp = s.w.stamp := rfl
@[simp] theorem State.retireTo_w_prio (s : State) (pc : DWord) : (s.retireTo pc).w.prio = s.w.prio := rfl
@[simp] theorem State.retireTo_w_wbase (s : State) (pc : DWord) : (s.retireTo pc).w.wbase = s.w.wbase := rfl
@[simp] theorem State.retireTo_w_valloc (s : State) (pc : DWord) : (s.retireTo pc).w.valloc = s.w.valloc := rfl
@[simp] theorem State.retireTo_w_quota (s : State) (pc : DWord) : (s.retireTo pc).w.quota = s.w.quota := rfl
@[simp] theorem State.retireTo_w_rot (s : State) (pc : DWord) : (s.retireTo pc).w.rot = s.w.rot := rfl
@[simp] theorem State.retireTo_w_sregs (s : State) (pc : DWord) : (s.retireTo pc).w.sregs = s.w.sregs := rfl
@[simp] theorem State.retireTo_w_vregs (s : State) (pc : DWord) : (s.retireTo pc).w.vregs = s.w.vregs := rfl
@[simp] theorem State.retireTo_w_status (s : State) (pc : DWord) : (s.retireTo pc).w.status = s.w.status := rfl
@[simp] theorem State.retireTo_w_bndst (s : State) (pc : DWord) : (s.retireTo pc).w.bndst = s.w.bndst := rfl
@[simp] theorem State.retireTo_w_abtn (s : State) (pc : DWord) : (s.retireTo pc).w.abtn = s.w.abtn := rfl
@[simp] theorem State.retireTo_w_tcause (s : State) (pc : DWord) : (s.retireTo pc).w.tcause = s.w.tcause := rfl
@[simp] theorem State.retireTo_w_tpc (s : State) (pc : DWord) : (s.retireTo pc).w.tpc = s.w.tpc := rfl
@[simp] theorem State.retireTo_w_taddr (s : State) (pc : DWord) : (s.retireTo pc).w.taddr = s.w.taddr := rfl
@[simp] theorem State.retireTo_w_tmask (s : State) (pc : DWord) : (s.retireTo pc).w.tmask = s.w.tmask := rfl
@[simp] theorem State.retireTo_w_tvec (s : State) (pc : DWord) : (s.retireTo pc).w.tvec = s.w.tvec := rfl
@[simp] theorem State.retireTo_w_slimit (s : State) (pc : DWord) : (s.retireTo pc).w.slimit = s.w.slimit := rfl
@[simp] theorem State.retireTo_w_sliceIdx (s : State) (pc : DWord) : (s.retireTo pc).w.sliceIdx = s.w.sliceIdx := rfl
@[simp] theorem State.retireTo_w_errinj (s : State) (pc : DWord) : (s.retireTo pc).w.errinj = s.w.errinj := rfl
@[simp] theorem State.retireTo_w_injCount (s : State) (pc : DWord) : (s.retireTo pc).w.injCount = s.w.injCount := rfl
@[simp] theorem State.retireTo_w_xts (s : State) (pc : DWord) : (s.retireTo pc).w.xts = s.w.xts := rfl
@[simp] theorem State.retireTo_w_accs (s : State) (pc : DWord) : (s.retireTo pc).w.accs = s.w.accs := rfl
@[simp] theorem State.retireTo_w_savedAccs (s : State) (pc : DWord) : (s.retireTo pc).w.savedAccs = s.w.savedAccs := rfl
@[simp] theorem State.retireTo_w_wbuf (s : State) (pc : DWord) : (s.retireTo pc).w.wbuf = s.w.wbuf := rfl
@[simp] theorem State.retireTo_w_sig (s : State) (pc : DWord) : (s.retireTo pc).w.sig = s.w.sig := rfl
@[simp] theorem State.retireTo_w_conflict (s : State) (pc : DWord) : (s.retireTo pc).w.conflict = s.w.conflict := rfl
@[simp] theorem State.retireTo_w_unsealed (s : State) (pc : DWord) : (s.retireTo pc).w.unsealed = s.w.unsealed := rfl
@[simp] theorem State.retireTo_w_nextBatch (s : State) (pc : DWord) : (s.retireTo pc).w.nextBatch = s.w.nextBatch := rfl
@[simp] theorem State.retireTo_w_batchKicks (s : State) (pc : DWord) : (s.retireTo pc).w.batchKicks = s.w.batchKicks := rfl
@[simp] theorem State.retireTo_w_reports (s : State) (pc : DWord) : (s.retireTo pc).w.reports = s.w.reports := rfl
@[simp] theorem State.retireTo_w_gong (s : State) (pc : DWord) : (s.retireTo pc).w.gong = s.w.gong := rfl
@[simp] theorem State.retireTo_w_killed (s : State) (pc : DWord) : (s.retireTo pc).w.killed = s.w.killed := rfl
@[simp] theorem State.retireTo_w_saved (s : State) (pc : DWord) : (s.retireTo pc).w.saved = s.w.saved := rfl
@[simp] theorem State.retireTo_w_stk (s : State) (pc : DWord) : (s.retireTo pc).w.stk = s.w.stk := rfl
@[simp] theorem State.retireTo_w_flushes (s : State) (pc : DWord) : (s.retireTo pc).w.flushes = s.w.flushes := rfl
@[simp] theorem State.retireTo_w_left (s : State) (pc : DWord) : (s.retireTo pc).w.left = s.w.left := rfl
@[simp] theorem State.retireTo_w_sampled (s : State) (pc : DWord) : (s.retireTo pc).w.sampled = s.w.sampled := rfl
@[simp] theorem State.retireTo_w_waitFrom (s : State) (pc : DWord) : (s.retireTo pc).w.waitFrom = s.w.waitFrom := rfl
@[simp] theorem State.retireTo_w_fetched (s : State) (pc : DWord) : (s.retireTo pc).w.fetched = s.w.fetched := rfl
@[simp] theorem State.retireTo_w_decoded (s : State) (pc : DWord) : (s.retireTo pc).w.decoded = s.w.decoded := rfl
@[simp] theorem State.retireTo_w_oldBounds (s : State) (pc : DWord) : (s.retireTo pc).w.oldBounds = s.w.oldBounds := rfl
@[simp] theorem State.retireTo_w_wrote (s : State) (pc : DWord) : (s.retireTo pc).w.wrote = s.w.wrote := rfl
@[simp] theorem State.retireTo_w_floors (s : State) (pc : DWord) : (s.retireTo pc).w.floors = s.w.floors := rfl

@[simp] theorem State.retire_agenda (s : State) (n : Nat) : (s.retire n).agenda = s.agenda := rfl
@[simp] theorem State.retire_facts (s : State) (n : Nat) : (s.retire n).facts = s.facts := rfl
@[simp] theorem State.retire_turn (s : State) (n : Nat) : (s.retire n).turn = s.turn := rfl
@[simp] theorem State.retire_blk (s : State) (n : Nat) : (s.retire n).blk = s.blk := rfl
@[simp] theorem State.retire_gang (s : State) (n : Nat) : (s.retire n).gang = s.gang := rfl
@[simp] theorem State.retire_launch (s : State) (n : Nat) : (s.retire n).launch = s.launch := rfl
@[simp] theorem State.retire_waves (s : State) (n : Nat) : (s.retire n).waves = s.waves := rfl
@[simp] theorem State.retire_blocks (s : State) (n : Nat) : (s.retire n).blocks = s.blocks := rfl
@[simp] theorem State.retire_gangs (s : State) (n : Nat) : (s.retire n).gangs = s.gangs := rfl
@[simp] theorem State.retire_launches (s : State) (n : Nat) : (s.retire n).launches = s.launches := rfl
@[simp] theorem State.retire_cores (s : State) (n : Nat) : (s.retire n).cores = s.cores := rfl
@[simp] theorem State.retire_ctxs (s : State) (n : Nat) : (s.retire n).ctxs = s.ctxs := rfl
@[simp] theorem State.retire_queues (s : State) (n : Nat) : (s.retire n).queues = s.queues := rfl
@[simp] theorem State.retire_mem (s : State) (n : Nat) : (s.retire n).mem = s.mem := rfl
@[simp] theorem State.retire_poison (s : State) (n : Nat) : (s.retire n).poison = s.poison := rfl
@[simp] theorem State.retire_reg (s : State) (n : Nat) : (s.retire n).reg = s.reg := rfl
@[simp] theorem State.retire_sigs (s : State) (n : Nat) : (s.retire n).sigs = s.sigs := rfl
@[simp] theorem State.retire_invals (s : State) (n : Nat) : (s.retire n).invals = s.invals := rfl
@[simp] theorem State.retire_dirs (s : State) (n : Nat) : (s.retire n).dirs = s.dirs := rfl
@[simp] theorem State.retire_parts (s : State) (n : Nat) : (s.retire n).parts = s.parts := rfl
@[simp] theorem State.retire_snaps (s : State) (n : Nat) : (s.retire n).snaps = s.snaps := rfl
@[simp] theorem State.retire_restores (s : State) (n : Nat) : (s.retire n).restores = s.restores := rfl
@[simp] theorem State.retire_slices (s : State) (n : Nat) : (s.retire n).slices = s.slices := rfl
@[simp] theorem State.retire_vaults (s : State) (n : Nat) : (s.retire n).vaults = s.vaults := rfl
@[simp] theorem State.retire_links (s : State) (n : Nat) : (s.retire n).links = s.links := rfl
@[simp] theorem State.retire_channels (s : State) (n : Nat) : (s.retire n).channels = s.channels := rfl
@[simp] theorem State.retire_spads (s : State) (n : Nat) : (s.retire n).spads = s.spads := rfl
@[simp] theorem State.retire_ports (s : State) (n : Nat) : (s.retire n).ports = s.ports := rfl
@[simp] theorem State.retire_peers (s : State) (n : Nat) : (s.retire n).peers = s.peers := rfl
@[simp] theorem State.retire_sent (s : State) (n : Nat) : (s.retire n).sent = s.sent := rfl
@[simp] theorem State.retire_poolWait (s : State) (n : Nat) : (s.retire n).poolWait = s.poolWait := rfl
@[simp] theorem State.retire_retry (s : State) (n : Nat) : (s.retire n).retry = s.retry := rfl
@[simp] theorem State.retire_dev (s : State) (n : Nat) : (s.retire n).dev = s.dev := rfl
@[simp] theorem State.retire_w_key (s : State) (n : Nat) : (s.retire n).w.key = s.w.key := rfl
@[simp] theorem State.retire_w_ctx (s : State) (n : Nat) : (s.retire n).w.ctx = s.w.ctx := rfl
@[simp] theorem State.retire_w_gx (s : State) (n : Nat) : (s.retire n).w.gx = s.w.gx := rfl
@[simp] theorem State.retire_w_gy (s : State) (n : Nat) : (s.retire n).w.gy = s.w.gy := rfl
@[simp] theorem State.retire_w_gz (s : State) (n : Nat) : (s.retire n).w.gz = s.w.gz := rfl
@[simp] theorem State.retire_w_stage (s : State) (n : Nat) : (s.retire n).w.stage = s.w.stage := rfl
@[simp] theorem State.retire_w_core (s : State) (n : Nat) : (s.retire n).w.core = s.w.core := rfl
@[simp] theorem State.retire_w_sched (s : State) (n : Nat) : (s.retire n).w.sched = s.w.sched := rfl
@[simp] theorem State.retire_w_slot (s : State) (n : Nat) : (s.retire n).w.slot = s.w.slot := rfl
@[simp] theorem State.retire_w_stamp (s : State) (n : Nat) : (s.retire n).w.stamp = s.w.stamp := rfl
@[simp] theorem State.retire_w_prio (s : State) (n : Nat) : (s.retire n).w.prio = s.w.prio := rfl
@[simp] theorem State.retire_w_wbase (s : State) (n : Nat) : (s.retire n).w.wbase = s.w.wbase := rfl
@[simp] theorem State.retire_w_valloc (s : State) (n : Nat) : (s.retire n).w.valloc = s.w.valloc := rfl
@[simp] theorem State.retire_w_quota (s : State) (n : Nat) : (s.retire n).w.quota = s.w.quota := rfl
@[simp] theorem State.retire_w_rot (s : State) (n : Nat) : (s.retire n).w.rot = s.w.rot := rfl
@[simp] theorem State.retire_w_sregs (s : State) (n : Nat) : (s.retire n).w.sregs = s.w.sregs := rfl
@[simp] theorem State.retire_w_vregs (s : State) (n : Nat) : (s.retire n).w.vregs = s.w.vregs := rfl
@[simp] theorem State.retire_w_status (s : State) (n : Nat) : (s.retire n).w.status = s.w.status := rfl
@[simp] theorem State.retire_w_bndst (s : State) (n : Nat) : (s.retire n).w.bndst = s.w.bndst := rfl
@[simp] theorem State.retire_w_abtn (s : State) (n : Nat) : (s.retire n).w.abtn = s.w.abtn := rfl
@[simp] theorem State.retire_w_tcause (s : State) (n : Nat) : (s.retire n).w.tcause = s.w.tcause := rfl
@[simp] theorem State.retire_w_tpc (s : State) (n : Nat) : (s.retire n).w.tpc = s.w.tpc := rfl
@[simp] theorem State.retire_w_taddr (s : State) (n : Nat) : (s.retire n).w.taddr = s.w.taddr := rfl
@[simp] theorem State.retire_w_tmask (s : State) (n : Nat) : (s.retire n).w.tmask = s.w.tmask := rfl
@[simp] theorem State.retire_w_tvec (s : State) (n : Nat) : (s.retire n).w.tvec = s.w.tvec := rfl
@[simp] theorem State.retire_w_slimit (s : State) (n : Nat) : (s.retire n).w.slimit = s.w.slimit := rfl
@[simp] theorem State.retire_w_sliceIdx (s : State) (n : Nat) : (s.retire n).w.sliceIdx = s.w.sliceIdx := rfl
@[simp] theorem State.retire_w_errinj (s : State) (n : Nat) : (s.retire n).w.errinj = s.w.errinj := rfl
@[simp] theorem State.retire_w_injCount (s : State) (n : Nat) : (s.retire n).w.injCount = s.w.injCount := rfl
@[simp] theorem State.retire_w_xts (s : State) (n : Nat) : (s.retire n).w.xts = s.w.xts := rfl
@[simp] theorem State.retire_w_accs (s : State) (n : Nat) : (s.retire n).w.accs = s.w.accs := rfl
@[simp] theorem State.retire_w_savedAccs (s : State) (n : Nat) : (s.retire n).w.savedAccs = s.w.savedAccs := rfl
@[simp] theorem State.retire_w_wbuf (s : State) (n : Nat) : (s.retire n).w.wbuf = s.w.wbuf := rfl
@[simp] theorem State.retire_w_sig (s : State) (n : Nat) : (s.retire n).w.sig = s.w.sig := rfl
@[simp] theorem State.retire_w_conflict (s : State) (n : Nat) : (s.retire n).w.conflict = s.w.conflict := rfl
@[simp] theorem State.retire_w_unsealed (s : State) (n : Nat) : (s.retire n).w.unsealed = s.w.unsealed := rfl
@[simp] theorem State.retire_w_nextBatch (s : State) (n : Nat) : (s.retire n).w.nextBatch = s.w.nextBatch := rfl
@[simp] theorem State.retire_w_batchKicks (s : State) (n : Nat) : (s.retire n).w.batchKicks = s.w.batchKicks := rfl
@[simp] theorem State.retire_w_reports (s : State) (n : Nat) : (s.retire n).w.reports = s.w.reports := rfl
@[simp] theorem State.retire_w_gong (s : State) (n : Nat) : (s.retire n).w.gong = s.w.gong := rfl
@[simp] theorem State.retire_w_killed (s : State) (n : Nat) : (s.retire n).w.killed = s.w.killed := rfl
@[simp] theorem State.retire_w_saved (s : State) (n : Nat) : (s.retire n).w.saved = s.w.saved := rfl
@[simp] theorem State.retire_w_stk (s : State) (n : Nat) : (s.retire n).w.stk = s.w.stk := rfl
@[simp] theorem State.retire_w_flushes (s : State) (n : Nat) : (s.retire n).w.flushes = s.w.flushes := rfl
@[simp] theorem State.retire_w_left (s : State) (n : Nat) : (s.retire n).w.left = s.w.left := rfl
@[simp] theorem State.retire_w_sampled (s : State) (n : Nat) : (s.retire n).w.sampled = s.w.sampled := rfl
@[simp] theorem State.retire_w_waitFrom (s : State) (n : Nat) : (s.retire n).w.waitFrom = s.w.waitFrom := rfl
@[simp] theorem State.retire_w_fetched (s : State) (n : Nat) : (s.retire n).w.fetched = s.w.fetched := rfl
@[simp] theorem State.retire_w_decoded (s : State) (n : Nat) : (s.retire n).w.decoded = s.w.decoded := rfl
@[simp] theorem State.retire_w_oldBounds (s : State) (n : Nat) : (s.retire n).w.oldBounds = s.w.oldBounds := rfl
@[simp] theorem State.retire_w_wrote (s : State) (n : Nat) : (s.retire n).w.wrote = s.w.wrote := rfl
@[simp] theorem State.retire_w_floors (s : State) (n : Nat) : (s.retire n).w.floors = s.w.floors := rfl

@[simp] theorem State.setB_agenda (s : State) (p : Place) : (s.setB p).agenda = s.agenda := rfl
@[simp] theorem State.setB_facts (s : State) (p : Place) : (s.setB p).facts = s.facts := rfl
@[simp] theorem State.setB_turn (s : State) (p : Place) : (s.setB p).turn = s.turn := rfl
@[simp] theorem State.setB_w (s : State) (p : Place) : (s.setB p).w = s.w := rfl
@[simp] theorem State.setB_gang (s : State) (p : Place) : (s.setB p).gang = s.gang := rfl
@[simp] theorem State.setB_launch (s : State) (p : Place) : (s.setB p).launch = s.launch := rfl
@[simp] theorem State.setB_waves (s : State) (p : Place) : (s.setB p).waves = s.waves := rfl
@[simp] theorem State.setB_blocks (s : State) (p : Place) : (s.setB p).blocks = s.blocks := rfl
@[simp] theorem State.setB_gangs (s : State) (p : Place) : (s.setB p).gangs = s.gangs := rfl
@[simp] theorem State.setB_launches (s : State) (p : Place) : (s.setB p).launches = s.launches := rfl
@[simp] theorem State.setB_cores (s : State) (p : Place) : (s.setB p).cores = s.cores := rfl
@[simp] theorem State.setB_ctxs (s : State) (p : Place) : (s.setB p).ctxs = s.ctxs := rfl
@[simp] theorem State.setB_queues (s : State) (p : Place) : (s.setB p).queues = s.queues := rfl
@[simp] theorem State.setB_mem (s : State) (p : Place) : (s.setB p).mem = s.mem := rfl
@[simp] theorem State.setB_poison (s : State) (p : Place) : (s.setB p).poison = s.poison := rfl
@[simp] theorem State.setB_reg (s : State) (p : Place) : (s.setB p).reg = s.reg := rfl
@[simp] theorem State.setB_sigs (s : State) (p : Place) : (s.setB p).sigs = s.sigs := rfl
@[simp] theorem State.setB_invals (s : State) (p : Place) : (s.setB p).invals = s.invals := rfl
@[simp] theorem State.setB_dirs (s : State) (p : Place) : (s.setB p).dirs = s.dirs := rfl
@[simp] theorem State.setB_parts (s : State) (p : Place) : (s.setB p).parts = s.parts := rfl
@[simp] theorem State.setB_snaps (s : State) (p : Place) : (s.setB p).snaps = s.snaps := rfl
@[simp] theorem State.setB_restores (s : State) (p : Place) : (s.setB p).restores = s.restores := rfl
@[simp] theorem State.setB_slices (s : State) (p : Place) : (s.setB p).slices = s.slices := rfl
@[simp] theorem State.setB_vaults (s : State) (p : Place) : (s.setB p).vaults = s.vaults := rfl
@[simp] theorem State.setB_links (s : State) (p : Place) : (s.setB p).links = s.links := rfl
@[simp] theorem State.setB_channels (s : State) (p : Place) : (s.setB p).channels = s.channels := rfl
@[simp] theorem State.setB_spads (s : State) (p : Place) : (s.setB p).spads = s.spads := rfl
@[simp] theorem State.setB_ports (s : State) (p : Place) : (s.setB p).ports = s.ports := rfl
@[simp] theorem State.setB_peers (s : State) (p : Place) : (s.setB p).peers = s.peers := rfl
@[simp] theorem State.setB_sent (s : State) (p : Place) : (s.setB p).sent = s.sent := rfl
@[simp] theorem State.setB_poolWait (s : State) (p : Place) : (s.setB p).poolWait = s.poolWait := rfl
@[simp] theorem State.setB_retry (s : State) (p : Place) : (s.setB p).retry = s.retry := rfl
@[simp] theorem State.setB_dev (s : State) (p : Place) : (s.setB p).dev = s.dev := rfl

@[simp] theorem State.setG_agenda (s : State) (p : Place) : (s.setG p).agenda = s.agenda := rfl
@[simp] theorem State.setG_facts (s : State) (p : Place) : (s.setG p).facts = s.facts := rfl
@[simp] theorem State.setG_turn (s : State) (p : Place) : (s.setG p).turn = s.turn := rfl
@[simp] theorem State.setG_w (s : State) (p : Place) : (s.setG p).w = s.w := rfl
@[simp] theorem State.setG_blk (s : State) (p : Place) : (s.setG p).blk = s.blk := rfl
@[simp] theorem State.setG_launch (s : State) (p : Place) : (s.setG p).launch = s.launch := rfl
@[simp] theorem State.setG_waves (s : State) (p : Place) : (s.setG p).waves = s.waves := rfl
@[simp] theorem State.setG_blocks (s : State) (p : Place) : (s.setG p).blocks = s.blocks := rfl
@[simp] theorem State.setG_gangs (s : State) (p : Place) : (s.setG p).gangs = s.gangs := rfl
@[simp] theorem State.setG_launches (s : State) (p : Place) : (s.setG p).launches = s.launches := rfl
@[simp] theorem State.setG_cores (s : State) (p : Place) : (s.setG p).cores = s.cores := rfl
@[simp] theorem State.setG_ctxs (s : State) (p : Place) : (s.setG p).ctxs = s.ctxs := rfl
@[simp] theorem State.setG_queues (s : State) (p : Place) : (s.setG p).queues = s.queues := rfl
@[simp] theorem State.setG_mem (s : State) (p : Place) : (s.setG p).mem = s.mem := rfl
@[simp] theorem State.setG_poison (s : State) (p : Place) : (s.setG p).poison = s.poison := rfl
@[simp] theorem State.setG_reg (s : State) (p : Place) : (s.setG p).reg = s.reg := rfl
@[simp] theorem State.setG_sigs (s : State) (p : Place) : (s.setG p).sigs = s.sigs := rfl
@[simp] theorem State.setG_invals (s : State) (p : Place) : (s.setG p).invals = s.invals := rfl
@[simp] theorem State.setG_dirs (s : State) (p : Place) : (s.setG p).dirs = s.dirs := rfl
@[simp] theorem State.setG_parts (s : State) (p : Place) : (s.setG p).parts = s.parts := rfl
@[simp] theorem State.setG_snaps (s : State) (p : Place) : (s.setG p).snaps = s.snaps := rfl
@[simp] theorem State.setG_restores (s : State) (p : Place) : (s.setG p).restores = s.restores := rfl
@[simp] theorem State.setG_slices (s : State) (p : Place) : (s.setG p).slices = s.slices := rfl
@[simp] theorem State.setG_vaults (s : State) (p : Place) : (s.setG p).vaults = s.vaults := rfl
@[simp] theorem State.setG_links (s : State) (p : Place) : (s.setG p).links = s.links := rfl
@[simp] theorem State.setG_channels (s : State) (p : Place) : (s.setG p).channels = s.channels := rfl
@[simp] theorem State.setG_spads (s : State) (p : Place) : (s.setG p).spads = s.spads := rfl
@[simp] theorem State.setG_ports (s : State) (p : Place) : (s.setG p).ports = s.ports := rfl
@[simp] theorem State.setG_peers (s : State) (p : Place) : (s.setG p).peers = s.peers := rfl
@[simp] theorem State.setG_sent (s : State) (p : Place) : (s.setG p).sent = s.sent := rfl
@[simp] theorem State.setG_poolWait (s : State) (p : Place) : (s.setG p).poolWait = s.poolWait := rfl
@[simp] theorem State.setG_retry (s : State) (p : Place) : (s.setG p).retry = s.retry := rfl
@[simp] theorem State.setG_dev (s : State) (p : Place) : (s.setG p).dev = s.dev := rfl

@[simp] theorem State.setCore_agenda (s : State) (c : CoreId) (x : Core) : (s.setCore c x).agenda = s.agenda := rfl
@[simp] theorem State.setCore_facts (s : State) (c : CoreId) (x : Core) : (s.setCore c x).facts = s.facts := rfl
@[simp] theorem State.setCore_turn (s : State) (c : CoreId) (x : Core) : (s.setCore c x).turn = s.turn := rfl
@[simp] theorem State.setCore_w (s : State) (c : CoreId) (x : Core) : (s.setCore c x).w = s.w := rfl
@[simp] theorem State.setCore_blk (s : State) (c : CoreId) (x : Core) : (s.setCore c x).blk = s.blk := rfl
@[simp] theorem State.setCore_gang (s : State) (c : CoreId) (x : Core) : (s.setCore c x).gang = s.gang := rfl
@[simp] theorem State.setCore_launch (s : State) (c : CoreId) (x : Core) : (s.setCore c x).launch = s.launch := rfl
@[simp] theorem State.setCore_waves (s : State) (c : CoreId) (x : Core) : (s.setCore c x).waves = s.waves := rfl
@[simp] theorem State.setCore_blocks (s : State) (c : CoreId) (x : Core) : (s.setCore c x).blocks = s.blocks := rfl
@[simp] theorem State.setCore_gangs (s : State) (c : CoreId) (x : Core) : (s.setCore c x).gangs = s.gangs := rfl
@[simp] theorem State.setCore_launches (s : State) (c : CoreId) (x : Core) : (s.setCore c x).launches = s.launches := rfl
@[simp] theorem State.setCore_ctxs (s : State) (c : CoreId) (x : Core) : (s.setCore c x).ctxs = s.ctxs := rfl
@[simp] theorem State.setCore_queues (s : State) (c : CoreId) (x : Core) : (s.setCore c x).queues = s.queues := rfl
@[simp] theorem State.setCore_mem (s : State) (c : CoreId) (x : Core) : (s.setCore c x).mem = s.mem := rfl
@[simp] theorem State.setCore_poison (s : State) (c : CoreId) (x : Core) : (s.setCore c x).poison = s.poison := rfl
@[simp] theorem State.setCore_reg (s : State) (c : CoreId) (x : Core) : (s.setCore c x).reg = s.reg := rfl
@[simp] theorem State.setCore_sigs (s : State) (c : CoreId) (x : Core) : (s.setCore c x).sigs = s.sigs := rfl
@[simp] theorem State.setCore_invals (s : State) (c : CoreId) (x : Core) : (s.setCore c x).invals = s.invals := rfl
@[simp] theorem State.setCore_dirs (s : State) (c : CoreId) (x : Core) : (s.setCore c x).dirs = s.dirs := rfl
@[simp] theorem State.setCore_parts (s : State) (c : CoreId) (x : Core) : (s.setCore c x).parts = s.parts := rfl
@[simp] theorem State.setCore_snaps (s : State) (c : CoreId) (x : Core) : (s.setCore c x).snaps = s.snaps := rfl
@[simp] theorem State.setCore_restores (s : State) (c : CoreId) (x : Core) : (s.setCore c x).restores = s.restores := rfl
@[simp] theorem State.setCore_slices (s : State) (c : CoreId) (x : Core) : (s.setCore c x).slices = s.slices := rfl
@[simp] theorem State.setCore_vaults (s : State) (c : CoreId) (x : Core) : (s.setCore c x).vaults = s.vaults := rfl
@[simp] theorem State.setCore_links (s : State) (c : CoreId) (x : Core) : (s.setCore c x).links = s.links := rfl
@[simp] theorem State.setCore_channels (s : State) (c : CoreId) (x : Core) : (s.setCore c x).channels = s.channels := rfl
@[simp] theorem State.setCore_spads (s : State) (c : CoreId) (x : Core) : (s.setCore c x).spads = s.spads := rfl
@[simp] theorem State.setCore_ports (s : State) (c : CoreId) (x : Core) : (s.setCore c x).ports = s.ports := rfl
@[simp] theorem State.setCore_peers (s : State) (c : CoreId) (x : Core) : (s.setCore c x).peers = s.peers := rfl
@[simp] theorem State.setCore_sent (s : State) (c : CoreId) (x : Core) : (s.setCore c x).sent = s.sent := rfl
@[simp] theorem State.setCore_poolWait (s : State) (c : CoreId) (x : Core) : (s.setCore c x).poolWait = s.poolWait := rfl
@[simp] theorem State.setCore_retry (s : State) (c : CoreId) (x : Core) : (s.setCore c x).retry = s.retry := rfl
@[simp] theorem State.setCore_dev (s : State) (c : CoreId) (x : Core) : (s.setCore c x).dev = s.dev := rfl

@[simp] theorem State.setCtx_agenda (s : State) (c : CtxId) (x : Ctx) : (s.setCtx c x).agenda = s.agenda := rfl
@[simp] theorem State.setCtx_facts (s : State) (c : CtxId) (x : Ctx) : (s.setCtx c x).facts = s.facts := rfl
@[simp] theorem State.setCtx_turn (s : State) (c : CtxId) (x : Ctx) : (s.setCtx c x).turn = s.turn := rfl
@[simp] theorem State.setCtx_w (s : State) (c : CtxId) (x : Ctx) : (s.setCtx c x).w = s.w := rfl
@[simp] theorem State.setCtx_blk (s : State) (c : CtxId) (x : Ctx) : (s.setCtx c x).blk = s.blk := rfl
@[simp] theorem State.setCtx_gang (s : State) (c : CtxId) (x : Ctx) : (s.setCtx c x).gang = s.gang := rfl
@[simp] theorem State.setCtx_launch (s : State) (c : CtxId) (x : Ctx) : (s.setCtx c x).launch = s.launch := rfl
@[simp] theorem State.setCtx_waves (s : State) (c : CtxId) (x : Ctx) : (s.setCtx c x).waves = s.waves := rfl
@[simp] theorem State.setCtx_blocks (s : State) (c : CtxId) (x : Ctx) : (s.setCtx c x).blocks = s.blocks := rfl
@[simp] theorem State.setCtx_gangs (s : State) (c : CtxId) (x : Ctx) : (s.setCtx c x).gangs = s.gangs := rfl
@[simp] theorem State.setCtx_launches (s : State) (c : CtxId) (x : Ctx) : (s.setCtx c x).launches = s.launches := rfl
@[simp] theorem State.setCtx_cores (s : State) (c : CtxId) (x : Ctx) : (s.setCtx c x).cores = s.cores := rfl
@[simp] theorem State.setCtx_queues (s : State) (c : CtxId) (x : Ctx) : (s.setCtx c x).queues = s.queues := rfl
@[simp] theorem State.setCtx_mem (s : State) (c : CtxId) (x : Ctx) : (s.setCtx c x).mem = s.mem := rfl
@[simp] theorem State.setCtx_poison (s : State) (c : CtxId) (x : Ctx) : (s.setCtx c x).poison = s.poison := rfl
@[simp] theorem State.setCtx_reg (s : State) (c : CtxId) (x : Ctx) : (s.setCtx c x).reg = s.reg := rfl
@[simp] theorem State.setCtx_sigs (s : State) (c : CtxId) (x : Ctx) : (s.setCtx c x).sigs = s.sigs := rfl
@[simp] theorem State.setCtx_invals (s : State) (c : CtxId) (x : Ctx) : (s.setCtx c x).invals = s.invals := rfl
@[simp] theorem State.setCtx_dirs (s : State) (c : CtxId) (x : Ctx) : (s.setCtx c x).dirs = s.dirs := rfl
@[simp] theorem State.setCtx_parts (s : State) (c : CtxId) (x : Ctx) : (s.setCtx c x).parts = s.parts := rfl
@[simp] theorem State.setCtx_snaps (s : State) (c : CtxId) (x : Ctx) : (s.setCtx c x).snaps = s.snaps := rfl
@[simp] theorem State.setCtx_restores (s : State) (c : CtxId) (x : Ctx) : (s.setCtx c x).restores = s.restores := rfl
@[simp] theorem State.setCtx_slices (s : State) (c : CtxId) (x : Ctx) : (s.setCtx c x).slices = s.slices := rfl
@[simp] theorem State.setCtx_vaults (s : State) (c : CtxId) (x : Ctx) : (s.setCtx c x).vaults = s.vaults := rfl
@[simp] theorem State.setCtx_links (s : State) (c : CtxId) (x : Ctx) : (s.setCtx c x).links = s.links := rfl
@[simp] theorem State.setCtx_channels (s : State) (c : CtxId) (x : Ctx) : (s.setCtx c x).channels = s.channels := rfl
@[simp] theorem State.setCtx_spads (s : State) (c : CtxId) (x : Ctx) : (s.setCtx c x).spads = s.spads := rfl
@[simp] theorem State.setCtx_ports (s : State) (c : CtxId) (x : Ctx) : (s.setCtx c x).ports = s.ports := rfl
@[simp] theorem State.setCtx_peers (s : State) (c : CtxId) (x : Ctx) : (s.setCtx c x).peers = s.peers := rfl
@[simp] theorem State.setCtx_sent (s : State) (c : CtxId) (x : Ctx) : (s.setCtx c x).sent = s.sent := rfl
@[simp] theorem State.setCtx_poolWait (s : State) (c : CtxId) (x : Ctx) : (s.setCtx c x).poolWait = s.poolWait := rfl
@[simp] theorem State.setCtx_retry (s : State) (c : CtxId) (x : Ctx) : (s.setCtx c x).retry = s.retry := rfl
@[simp] theorem State.setCtx_dev (s : State) (c : CtxId) (x : Ctx) : (s.setCtx c x).dev = s.dev := rfl

@[simp] theorem State.setQueue_agenda (s : State) (q : QueueId) (x : LQueue) : (s.setQueue q x).agenda = s.agenda := rfl
@[simp] theorem State.setQueue_facts (s : State) (q : QueueId) (x : LQueue) : (s.setQueue q x).facts = s.facts := rfl
@[simp] theorem State.setQueue_turn (s : State) (q : QueueId) (x : LQueue) : (s.setQueue q x).turn = s.turn := rfl
@[simp] theorem State.setQueue_w (s : State) (q : QueueId) (x : LQueue) : (s.setQueue q x).w = s.w := rfl
@[simp] theorem State.setQueue_blk (s : State) (q : QueueId) (x : LQueue) : (s.setQueue q x).blk = s.blk := rfl
@[simp] theorem State.setQueue_gang (s : State) (q : QueueId) (x : LQueue) : (s.setQueue q x).gang = s.gang := rfl
@[simp] theorem State.setQueue_launch (s : State) (q : QueueId) (x : LQueue) : (s.setQueue q x).launch = s.launch := rfl
@[simp] theorem State.setQueue_waves (s : State) (q : QueueId) (x : LQueue) : (s.setQueue q x).waves = s.waves := rfl
@[simp] theorem State.setQueue_blocks (s : State) (q : QueueId) (x : LQueue) : (s.setQueue q x).blocks = s.blocks := rfl
@[simp] theorem State.setQueue_gangs (s : State) (q : QueueId) (x : LQueue) : (s.setQueue q x).gangs = s.gangs := rfl
@[simp] theorem State.setQueue_launches (s : State) (q : QueueId) (x : LQueue) : (s.setQueue q x).launches = s.launches := rfl
@[simp] theorem State.setQueue_cores (s : State) (q : QueueId) (x : LQueue) : (s.setQueue q x).cores = s.cores := rfl
@[simp] theorem State.setQueue_ctxs (s : State) (q : QueueId) (x : LQueue) : (s.setQueue q x).ctxs = s.ctxs := rfl
@[simp] theorem State.setQueue_mem (s : State) (q : QueueId) (x : LQueue) : (s.setQueue q x).mem = s.mem := rfl
@[simp] theorem State.setQueue_poison (s : State) (q : QueueId) (x : LQueue) : (s.setQueue q x).poison = s.poison := rfl
@[simp] theorem State.setQueue_reg (s : State) (q : QueueId) (x : LQueue) : (s.setQueue q x).reg = s.reg := rfl
@[simp] theorem State.setQueue_sigs (s : State) (q : QueueId) (x : LQueue) : (s.setQueue q x).sigs = s.sigs := rfl
@[simp] theorem State.setQueue_invals (s : State) (q : QueueId) (x : LQueue) : (s.setQueue q x).invals = s.invals := rfl
@[simp] theorem State.setQueue_dirs (s : State) (q : QueueId) (x : LQueue) : (s.setQueue q x).dirs = s.dirs := rfl
@[simp] theorem State.setQueue_parts (s : State) (q : QueueId) (x : LQueue) : (s.setQueue q x).parts = s.parts := rfl
@[simp] theorem State.setQueue_snaps (s : State) (q : QueueId) (x : LQueue) : (s.setQueue q x).snaps = s.snaps := rfl
@[simp] theorem State.setQueue_restores (s : State) (q : QueueId) (x : LQueue) : (s.setQueue q x).restores = s.restores := rfl
@[simp] theorem State.setQueue_slices (s : State) (q : QueueId) (x : LQueue) : (s.setQueue q x).slices = s.slices := rfl
@[simp] theorem State.setQueue_vaults (s : State) (q : QueueId) (x : LQueue) : (s.setQueue q x).vaults = s.vaults := rfl
@[simp] theorem State.setQueue_links (s : State) (q : QueueId) (x : LQueue) : (s.setQueue q x).links = s.links := rfl
@[simp] theorem State.setQueue_channels (s : State) (q : QueueId) (x : LQueue) : (s.setQueue q x).channels = s.channels := rfl
@[simp] theorem State.setQueue_spads (s : State) (q : QueueId) (x : LQueue) : (s.setQueue q x).spads = s.spads := rfl
@[simp] theorem State.setQueue_ports (s : State) (q : QueueId) (x : LQueue) : (s.setQueue q x).ports = s.ports := rfl
@[simp] theorem State.setQueue_peers (s : State) (q : QueueId) (x : LQueue) : (s.setQueue q x).peers = s.peers := rfl
@[simp] theorem State.setQueue_sent (s : State) (q : QueueId) (x : LQueue) : (s.setQueue q x).sent = s.sent := rfl
@[simp] theorem State.setQueue_poolWait (s : State) (q : QueueId) (x : LQueue) : (s.setQueue q x).poolWait = s.poolWait := rfl
@[simp] theorem State.setQueue_retry (s : State) (q : QueueId) (x : LQueue) : (s.setQueue q x).retry = s.retry := rfl
@[simp] theorem State.setQueue_dev (s : State) (q : QueueId) (x : LQueue) : (s.setQueue q x).dev = s.dev := rfl

@[simp] theorem State.setPeer_agenda (s : State) (p : Peer) : (s.setPeer p).agenda = s.agenda := rfl
@[simp] theorem State.setPeer_facts (s : State) (p : Peer) : (s.setPeer p).facts = s.facts := rfl
@[simp] theorem State.setPeer_turn (s : State) (p : Peer) : (s.setPeer p).turn = s.turn := rfl
@[simp] theorem State.setPeer_w (s : State) (p : Peer) : (s.setPeer p).w = s.w := rfl
@[simp] theorem State.setPeer_blk (s : State) (p : Peer) : (s.setPeer p).blk = s.blk := rfl
@[simp] theorem State.setPeer_gang (s : State) (p : Peer) : (s.setPeer p).gang = s.gang := rfl
@[simp] theorem State.setPeer_launch (s : State) (p : Peer) : (s.setPeer p).launch = s.launch := rfl
@[simp] theorem State.setPeer_waves (s : State) (p : Peer) : (s.setPeer p).waves = s.waves := rfl
@[simp] theorem State.setPeer_blocks (s : State) (p : Peer) : (s.setPeer p).blocks = s.blocks := rfl
@[simp] theorem State.setPeer_gangs (s : State) (p : Peer) : (s.setPeer p).gangs = s.gangs := rfl
@[simp] theorem State.setPeer_launches (s : State) (p : Peer) : (s.setPeer p).launches = s.launches := rfl
@[simp] theorem State.setPeer_cores (s : State) (p : Peer) : (s.setPeer p).cores = s.cores := rfl
@[simp] theorem State.setPeer_ctxs (s : State) (p : Peer) : (s.setPeer p).ctxs = s.ctxs := rfl
@[simp] theorem State.setPeer_queues (s : State) (p : Peer) : (s.setPeer p).queues = s.queues := rfl
@[simp] theorem State.setPeer_mem (s : State) (p : Peer) : (s.setPeer p).mem = s.mem := rfl
@[simp] theorem State.setPeer_poison (s : State) (p : Peer) : (s.setPeer p).poison = s.poison := rfl
@[simp] theorem State.setPeer_reg (s : State) (p : Peer) : (s.setPeer p).reg = s.reg := rfl
@[simp] theorem State.setPeer_sigs (s : State) (p : Peer) : (s.setPeer p).sigs = s.sigs := rfl
@[simp] theorem State.setPeer_invals (s : State) (p : Peer) : (s.setPeer p).invals = s.invals := rfl
@[simp] theorem State.setPeer_dirs (s : State) (p : Peer) : (s.setPeer p).dirs = s.dirs := rfl
@[simp] theorem State.setPeer_parts (s : State) (p : Peer) : (s.setPeer p).parts = s.parts := rfl
@[simp] theorem State.setPeer_snaps (s : State) (p : Peer) : (s.setPeer p).snaps = s.snaps := rfl
@[simp] theorem State.setPeer_restores (s : State) (p : Peer) : (s.setPeer p).restores = s.restores := rfl
@[simp] theorem State.setPeer_slices (s : State) (p : Peer) : (s.setPeer p).slices = s.slices := rfl
@[simp] theorem State.setPeer_vaults (s : State) (p : Peer) : (s.setPeer p).vaults = s.vaults := rfl
@[simp] theorem State.setPeer_links (s : State) (p : Peer) : (s.setPeer p).links = s.links := rfl
@[simp] theorem State.setPeer_channels (s : State) (p : Peer) : (s.setPeer p).channels = s.channels := rfl
@[simp] theorem State.setPeer_spads (s : State) (p : Peer) : (s.setPeer p).spads = s.spads := rfl
@[simp] theorem State.setPeer_ports (s : State) (p : Peer) : (s.setPeer p).ports = s.ports := rfl
@[simp] theorem State.setPeer_sent (s : State) (p : Peer) : (s.setPeer p).sent = s.sent := rfl
@[simp] theorem State.setPeer_poolWait (s : State) (p : Peer) : (s.setPeer p).poolWait = s.poolWait := rfl
@[simp] theorem State.setPeer_retry (s : State) (p : Peer) : (s.setPeer p).retry = s.retry := rfl
@[simp] theorem State.setPeer_dev (s : State) (p : Peer) : (s.setPeer p).dev = s.dev := rfl

/-! ### What is written -/

@[simp] theorem State.setS_sregs (s : State) (r : SReg) (x : Word) : (s.setS r x).w.sregs = put s.w.sregs r x := rfl
@[simp] theorem State.setStatus_status (s : State) (x : Word) : (s.setStatus x).w.status = x := rfl
@[simp] theorem State.raise_status (s : State) (f : Flags) : (s.raise f).w.status = s.w.status ||| (f.setWidth 32 <<< 8) := rfl
@[simp] theorem State.setVreg_vregs (s : State) (n : Nat) (r : VReg) : (s.setVreg n r).w.vregs = put s.w.vregs (s.vidx n) r := rfl
@[simp] theorem State.setXt_xts (s : State) (i : BitVec 3) (x : XtReg) : (s.setXt i x).w.xts = put s.w.xts i x := rfl
@[simp] theorem State.setW_wbuf (s : State) (p : Place) : (s.setW p).w.wbuf = p := rfl
@[simp] theorem State.retireTo_pc (s : State) (pc : DWord) : (s.retireTo pc).w.pc = pc := rfl
@[simp] theorem State.retire_pc (s : State) (n : Nat) : (s.retire n).w.pc = s.w.pc + BitVec.ofNat 64 n := rfl
@[simp] theorem State.retire_seqno (s : State) (n : Nat) : (s.retire n).w.seqno = s.w.seqno + 1 := rfl
@[simp] theorem State.retireTo_issued (s : State) (pc : DWord) : (s.retireTo pc).w.issued = none := rfl
@[simp] theorem State.retire_issued (s : State) (n : Nat) : (s.retire n).w.issued = none := rfl
@[simp] theorem State.setB_place (s : State) (p : Place) : (s.setB p).blk.place = p := rfl
@[simp] theorem State.setG_place (s : State) (p : Place) : (s.setG p).gang.place = p := rfl

/-! ### Vectors indexed by a field -/

@[simp] theorem pick_put_same {α : Type} {w n : Nat} (v : Vector α n) (i : BitVec w) (x : α) (h : 2 ^ w = n) :
    pick (put v i x h) i h = x := by simp [pick, put]

theorem pick_put_other {α : Type} {w n : Nat} (v : Vector α n) (i j : BitVec w) (x : α) (h : 2 ^ w = n) (hij : i ≠ j) :
    pick (put v i x h) j h = pick v j h := by
  simp only [pick, put]
  rw [Vector.getElem_set_ne]
  intro e
  exact hij (BitVec.eq_of_toNat_eq e)

theorem pick_put {α : Type} {w n : Nat} (v : Vector α n) (i j : BitVec w) (x : α) (h : 2 ^ w = n) :
    pick (put v i x h) j h = if i = j then x else pick v j h := by
  split
  · next e => subst e; simp
  · next e => exact pick_put_other v i j x h e

/-! ### Registers -/

@[simp] theorem State.sreg_setS_same (s : State) (r : SReg) (x : Word) : (s.setS r x).sreg r = x := pick_put_same _ _ _ _
theorem State.sreg_setS_other (s : State) (r q : SReg) (x : Word) (h : r ≠ q) : (s.setS r x).sreg q = s.sreg q :=
  pick_put_other _ _ _ _ _ h
theorem State.sreg_setS (s : State) (r q : SReg) (x : Word) : (s.setS r x).sreg q = if r = q then x else s.sreg q :=
  pick_put _ _ _ _ _
@[simp] theorem State.sreg_retire (s : State) (n : Nat) (r : SReg) : (s.retire n).sreg r = s.sreg r := rfl
@[simp] theorem State.sreg_setScc (s : State) (b : Bool) (r : SReg) : (s.setScc b).sreg r = s.sreg r := rfl
theorem State.setTriple_eq (s : State) (r : SReg) (m : Vector Word 3) :
    s.setTriple r m = ((s.setS r m[0]).setS (r + 1) m[1]).setS (r + 2) m[2] := rfl
@[simp] theorem State.vreg_setVreg_same (s : State) (n : Nat) (r : VReg) : (s.setVreg n r).vreg n = r := pick_put_same _ _ _ _
theorem State.vreg_setVreg_other (s : State) (n m : Nat) (r : VReg) (h : s.vidx n ≠ s.vidx m) :
    (s.setVreg n r).vreg m = s.vreg m := pick_put_other _ _ _ _ _ h
@[simp] theorem State.vidx_setVreg (s : State) (n m : Nat) (r : VReg) : (s.setVreg n r).vidx m = s.vidx m := rfl
@[simp] theorem State.vidx_setS (s : State) (q : SReg) (m : Nat) (x : Word) : (s.setS q x).vidx m = s.vidx m := rfl
@[simp] theorem State.xt_setXt_same (s : State) (i : BitVec 3) (x : XtReg) : (s.setXt i x).xt i = x := pick_put_same _ _ _ _

/-! ### Status bits -/

theorem stSCC_getLsbD (k : Nat) : stSCC.getLsbD k = decide (k = 0) := by
  cases k with
  | zero => rfl
  | succ k => simp [stSCC, BitVec.getLsbD, Nat.testBit_succ]

theorem State.setScc_status_getLsbD (s : State) (b : Bool) (k : Nat) :
    (s.setScc b).w.status.getLsbD k = if k = 0 then b else s.w.status.getLsbD k := by
  cases b
  · show (s.w.status &&& ~~~stSCC).getLsbD k = _
    rw [BitVec.getLsbD_and, BitVec.getLsbD_not, stSCC_getLsbD]
    by_cases h0 : k = 0 <;> by_cases hk : k < 32 <;> simp_all [BitVec.getLsbD_of_ge]
  · show (s.w.status ||| stSCC).getLsbD k = _
    rw [BitVec.getLsbD_or, stSCC_getLsbD]
    by_cases h0 : k = 0 <;> simp_all

@[simp] theorem State.scc_setScc (s : State) (b : Bool) : (s.setScc b).scc = b := by
  have h := s.setScc_status_getLsbD b 0
  simpa [State.scc] using h

end Sys2Proof.Machine
end

