-- ==== Sys2Proof/Laws/Shapes.lean ====
section
/-! SUPPORT. What each shape of a meaning answers: retirement, the plain acts, runs, transfers, branches, trap entry and
acts in the Act monad. -/

namespace Sys2Proof.Machine

/-! ### Claims and retirement -/

/-- With ERRINJ not armed a claim changes nothing. -/
theorem State.claim_calm (s : State) (c : Claim) (ls : List Nat) (h : injArm s.w.errinj = false) : s.claim c ls = s := by
  simp [State.claim, Claim.armed, h]

/-- A claim that no target of ERRINJ names changes nothing. -/
theorem State.claim_untargeted (s : State) (c : Claim) (ls : List Nat) (h : c.target = none) : s.claim c ls = s := by
  simp [State.claim, Claim.armed, h]

/-- A plain instruction completes with its change. -/
theorem simple_next (i : Instr) (f : State → State) (s : State) (hw : i.wellFormed = true)
    (hc : injArm (f s).w.errinj = false) : simple i f s = .next ((f s).retire i.size) := by
  simp [simple, hw, State.claim_calm _ _ _ hc]

/-- An ill-formed one raises ILLOP. -/
theorem simple_illop (i : Instr) (f : State → State) (s : State) (hw : i.wellFormed = false) :
    simple i f s = .next (s.illop false) := by simp [simple, hw]

/-- A run whose act answers completes. -/
theorem run_next (i : Instr) (c : Claim) (body : Act PUnit) (s t : State) (hw : i.wellFormed = true)
    (hb : body s = .ok ((), t)) (hc : injArm t.w.errinj = false) : run i c body s = .next (t.retire i.size) := by
  simp [run, hw, hb, State.claim_calm _ _ _ hc]

/-- A run whose act stops ends in the stop. -/
theorem run_halted (i : Instr) (c : Claim) (body : Act PUnit) (s t : State) (h : Halt) (hw : i.wellFormed = true)
    (hb : body s = .error (h, t)) : run i c body s = .next ((t.halted h).holds i) := by simp [run, hw, hb]

/-- An ill-formed one raises ILLOP. -/
theorem run_illop (i : Instr) (c : Claim) (body : Act PUnit) (s : State) (hw : i.wellFormed = false) :
    run i c body s = .next (s.illop c.isVector) := by simp [run, hw]

/-- Every run, plain act and branch answers a next state. -/
theorem run_answers (i : Instr) (c : Claim) (body : Act PUnit) (s : State) : ∃ t, run i c body s = .next t := by
  unfold run
  split
  · split <;> exact ⟨_, rfl⟩
  · exact ⟨_, rfl⟩

@[inherit_doc run_answers] theorem simple_answers (i : Instr) (f : State → State) (s : State) : ∃ t, simple i f s = .next t := by
  unfold simple
  split <;> exact ⟨_, rfl⟩

@[inherit_doc run_answers] theorem branch_answers {n : Nat} (i : Instr) (p : State → Bool) (d : BitVec n) (s : State) :
    ∃ t, branch i p d s = .next t := by
  unfold branch
  split
  · split <;> exact ⟨_, rfl⟩
  · exact ⟨_, rfl⟩

/-! ### Transfers (04/R132, R133) -/

/-- A transfer to a multiple of 4 goes there. -/
theorem State.transfer_aligned (s : State) (tgt : DWord) (f : State → State) (h : tgt.extractLsb' 0 2 = 0#2)
    (hc : injArm (f s).w.errinj = false) : s.transfer tgt f = (f s).retireTo tgt := by
  simp [State.transfer, h, State.claim_calm _ _ _ hc]

/-- Another target raises ALIGN. -/
theorem State.transfer_misaligned (s : State) (tgt : DWord) (f : State → State) (h : tgt.extractLsb' 0 2 ≠ 0#2) :
    s.transfer tgt f = s.trapEntry { cause := .align, taddr := tgt } s.w.pc := by simp [State.transfer, h]

/-- A branch that is not taken goes on. -/
theorem branch_not_taken {n : Nat} (i : Instr) (p : State → Bool) (d : BitVec n) (s : State) (hw : i.wellFormed = true)
    (hp : p s = false) (hc : injArm s.w.errinj = false) : branch i p d s = .next (s.retire i.size) := by
  simp [branch, hw, hp, State.claim_calm _ _ _ hc]

/-- A branch that is taken transfers. -/
theorem branch_taken {n : Nat} (i : Instr) (p : State → Bool) (d : BitVec n) (s : State) (hw : i.wellFormed = true)
    (hp : p s = true) : branch i p d s = .next (s.transfer (s.target d) id) := by simp [branch, hw, hp]

/-! ### Trap entry (04/R147) -/

/-- Handler mode, or no handler: the wave is killed. -/
theorem State.trapEntry_kill (s : State) (t : TrapInfo) (tpc : DWord) (h : s.hm = true ∨ s.w.tvec = 0#64) :
    s.trapEntry t tpc = s.killWave t.cause.code tpc := by
  rcases h with h | h <;> simp [State.trapEntry, h]

/-- A handler address that is no multiple of 4: the wave is killed with ALIGN. -/
theorem State.trapEntry_badVector (s : State) (t : TrapInfo) (tpc : DWord) (h : s.hm = false) (h0 : s.w.tvec ≠ 0#64)
    (h4 : s.w.tvec.extractLsb' 0 2 ≠ 0#2) : s.trapEntry t tpc = s.killWave Cause.align.code s.w.pc := by
  simp [State.trapEntry, h, h0, h4]

/-- Else the handler is entered, and the instruction in hand is given up. -/
theorem State.trapEntry_handler (s : State) (t : TrapInfo) (tpc : DWord) (h : s.hm = false) (h0 : s.w.tvec ≠ 0#64)
    (h4 : s.w.tvec.extractLsb' 0 2 = 0#2) :
    s.trapEntry t tpc = { s.abandon (· == s.w.key) with w := { s.w with
      issued := none, issues := s.w.issues + (if t.cause = .fetch ∨ s.w.life.blocked then 0 else 1)
      tcause := BitVec.ofNat 32 (t.arg * 256 + t.cause.code), tpc := tpc, taddr := t.taddr, tmask := t.lanes
      status := s.w.status ||| stHM, pc := s.w.tvec, todo := none, released := false, stamped := false, fetched := [], decoded := [],
      life := .ready, valMis := 0, resMis := 0, ckOnly := false, byChecker := false, starved := false } } := by
  simp [State.trapEntry, h, h0, h4]

/-- The wave in focus after a kill. -/
theorem State.killWave_life (s : State) (cause : Nat) (tpc : DWord) :
    (s.killWave cause tpc).w.life = .ended ∧ (s.killWave cause tpc).w.issued = none := by
  simp [State.killWave, State.setCx, State.setCtx, State.endWave, Wave.ending]

/-- After a trap the wave holds no instruction. -/
theorem State.trapEntry_idle (s : State) (t : TrapInfo) (tpc : DWord) :
    (s.trapEntry t tpc).w.life.blocked = false ∧ (s.trapEntry t tpc).w.issued = none := by
  unfold State.trapEntry
  split
  · simp [State.killWave_life, Life.blocked]
  · split
    · simp [State.killWave_life, Life.blocked]
    · simp [Life.blocked]

/-- A wave that is not in Waiting, and holds no instruction, is the same without one. -/
theorem State.holds_none (s : State) (i : Instr) (hl : s.w.life.blocked = false) (hi : s.w.issued = none) : s.holds i = s := by
  simp [State.holds, hl, ← hi]

/-- A trap is not held. -/
@[simp] theorem State.trapEntry_holds (s : State) (t : TrapInfo) (tpc : DWord) (i : Instr) :
    (s.trapEntry t tpc).holds i = s.trapEntry t tpc := (s.trapEntry t tpc).holds_none i (s.trapEntry_idle t tpc).1 (s.trapEntry_idle t tpc).2

/-- Nor is a park. -/
@[simp] theorem State.park_holds (s : State) (p : ParkInfo) (i : Instr) : (s.park p).holds i = s.park p := by
  refine State.holds_none _ i ?_ ?_ <;> simp [State.park, State.takeHandle, Life.blocked]

/-- Nor is an interlock of a wave that stays Ready. -/
theorem State.await_holds (s : State) (w : Wait) (i : Instr) (h : w.blocks = false) : (s.await w).holds i = s.await w := by
  refine State.holds_none _ i ?_ ?_ <;> simp [State.await, Life.blocked, h]

/-- A run whose act traps takes the trap. -/
theorem run_trap (i : Instr) (c : Claim) (body : Act PUnit) (s t : State) (x : TrapInfo) (hw : i.wellFormed = true)
    (hb : body s = .error (.trap x, t)) : run i c body s = .next (t.trapEntry x t.w.pc) := by simp [run, hw, hb, State.halted]

/-! ### Acts -/

@[simp] theorem Act.pure_run {α : Type} (a : α) (s : State) : (pure a : Act α) s = .ok (a, s) := rfl
@[simp] theorem Act.get_run (s : State) : (get : Act State) s = .ok (s, s) := rfl
@[simp] theorem Act.set_run (s t : State) : (set t : Act PUnit) s = .ok ((), t) := rfl
@[simp] theorem Act.modify_run (f : State → State) (s : State) : (modify f : Act PUnit) s = .ok ((), f s) := rfl
@[simp] theorem Act.stop_run {α : Type} (h : Halt) (s : State) : (stop h : Act α) s = .error (h, s) := rfl
@[simp] theorem Act.raiseTrap_run {α : Type} (c : Cause) (arg : Nat) (taddr : DWord) (ls : Vector Word 3) (s : State) :
    (raiseTrap c arg taddr ls : Act α) s = .error (.trap ⟨c, arg, taddr, ls⟩, s) := rfl

/-- What a sequence of two acts answers. -/
theorem Act.bind_run {α β : Type} (a : Act α) (f : α → Act β) (s : State) :
    (a >>= f) s = match a s with
      | .ok (x, t) => f x t
      | .error e => .error e := by
  show (StateT.bind a f) s = _
  unfold StateT.bind
  cases h : a s with
  | error e => rfl
  | ok r => rfl

/-- An act that follows one that answers. -/
theorem Act.bind_ok {α β : Type} (a : Act α) (f : α → Act β) (s t : State) (x : α) (h : a s = .ok (x, t)) :
    (a >>= f) s = f x t := by rw [Act.bind_run, h]

/-- A stop ends the sequence. -/
theorem Act.bind_error {α β : Type} (a : Act α) (f : α → Act β) (s : State) (e : Halt × State) (h : a s = .error e) :
    (a >>= f) s = .error e := by rw [Act.bind_run, h]

@[simp] theorem whole_ok {α : Type} (a : Act α) (s t : State) (x : α) (h : a s = .ok (x, t)) : whole a s = .ok (x, t) := by
  simp [whole, h]

/-- An act made whole leaves the state of a stop as it was. -/
theorem whole_error {α : Type} (a : Act α) (s t : State) (h : Halt) (e : a s = .error (h, t)) : whole a s = .error (h, s) := by
  simp [whole, e]

end Sys2Proof.Machine
end

