-- ==== Sys2Proof/Tests/Slice0.lean ====
section
/-! SUPPORT. Tests: decoding of words written out from the manual's encodings, the checks of well-formedness, single steps,
and for every obligation with hypotheses a state and operands that meet them. -/

namespace Sys2Proof.Tests

set_option Elab.async false

open Sys2Proof.Machine

/-! ### Decoding (03/R90 to R106): words laid out from the fixed bits and fields of each encoding -/

/-- VX, MX and MS operands in the order of their fields in words 0, 1 and 2. -/
def vx (f i va vd la bov sat rnd rfmt vc vb imm : Nat) : VX :=
  { f := .ofNat _ f, i := .ofNat _ i, va := .ofNat _ va, vd := .ofNat _ vd, la := .ofNat _ la, bov := .ofNat _ bov,
    sat := .ofNat _ sat, rnd := .ofNat _ rnd, rfmt := .ofNat _ rfmt, vc := .ofNat _ vc, vb := .ofNat _ vb, imm := .ofNat _ imm }
@[inherit_doc vx] def mx (as voff xt vt la v aop order sx lvl width off : Nat) : MX :=
  { as := .ofNat _ as, voff := .ofNat _ voff, xt := .ofNat _ xt, vt := .ofNat _ vt, la := .ofNat _ la, v := .ofNat _ v,
    aop := .ofNat _ aop, order := .ofNat _ order, sx := .ofNat _ sx, lvl := .ofNat _ lvl, width := .ofNat _ width, off := .ofNat _ off }
@[inherit_doc vx] def ms (as sb sa sd la v aop order sx lvl width off : Nat) : MS :=
  { as := .ofNat _ as, sb := .ofNat _ sb, sa := .ofNat _ sa, sd := .ofNat _ sd, la := .ofNat _ la, v := .ofNat _ v,
    aop := .ofNat _ aop, order := .ofNat _ order, sx := .ofNat _ sx, lvl := .ofNat _ lvl, width := .ofNat _ width, off := .ofNat _ off }

/-- Every row's words decode to its instruction. -/
def decodes (rows : List (List Word × Instr)) : Bool := rows.all fun r => decide (Claims.decodeList r.1 = .ok r.2)

theorem test_decodeScalar1 : decodes [
    ([0x15182000], .sadd 4 12 42),
    ([0x00182002, 0x89ABCDEF, 0x00000000], .saddLiteral 4 12 0x89abcdef),
    ([0x15182008], .ssub 4 12 42),
    ([0x0018200A, 0x89ABCDEF, 0x00000000], .ssubLiteral 4 12 0x89abcdef),
    ([0x15182010], .smul 4 12 42),
    ([0x00182012, 0x89ABCDEF, 0x00000000], .smulLiteral 4 12 0x89abcdef),
    ([0x15182018], .smulhi 4 12 42),
    ([0x0018201A, 0x89ABCDEF, 0x00000000], .smulhiLiteral 4 12 0x89abcdef),
    ([0x15182020], .smulhu 4 12 42),
    ([0x00182022, 0x89ABCDEF, 0x00000000], .smulhuLiteral 4 12 0x89abcdef),
    ([0x15182028], .sdiv 4 12 42),
    ([0x0018202A, 0x89ABCDEF, 0x00000000], .sdivLiteral 4 12 0x89abcdef),
    ([0x15182030], .sdivu 4 12 42),
    ([0x00182032, 0x89ABCDEF, 0x00000000], .sdivuLiteral 4 12 0x89abcdef),
    ([0x15182038], .srem 4 12 42),
    ([0x0018203A, 0x89ABCDEF, 0x00000000], .sremLiteral 4 12 0x89abcdef),
    ([0x15182040], .sremu 4 12 42),
    ([0x00182042, 0x89ABCDEF, 0x00000000], .sremuLiteral 4 12 0x89abcdef),
    ([0x15182048], .sand 4 12 42),
    ([0x0018204A, 0x89ABCDEF, 0x00000000], .sandLiteral 4 12 0x89abcdef),
    ([0x15182050], .sor 4 12 42),
    ([0x00182052, 0x89ABCDEF, 0x00000000], .sorLiteral 4 12 0x89abcdef),
    ([0x15182058], .sxor 4 12 42),
    ([0x0018205A, 0x89ABCDEF, 0x00000000], .sxorLiteral 4 12 0x89abcdef)] = true := by decide

theorem test_decodeScalar2 : decodes [
    ([0x15182060], .sandn 4 12 42),
    ([0x00182062, 0x89ABCDEF, 0x00000000], .sandnLiteral 4 12 0x89abcdef),
    ([0x15182068], .sshl 4 12 42),
    ([0x0018206A, 0x89ABCDEF, 0x00000000], .sshlLiteral 4 12 0x89abcdef),
    ([0x15182070], .sshr 4 12 42),
    ([0x00182072, 0x89ABCDEF, 0x00000000], .sshrLiteral 4 12 0x89abcdef),
    ([0x15182078], .ssar 4 12 42),
    ([0x0018207A, 0x89ABCDEF, 0x00000000], .ssarLiteral 4 12 0x89abcdef),
    ([0x15182080], .srol 4 12 42),
    ([0x00182082, 0x89ABCDEF, 0x00000000], .srolLiteral 4 12 0x89abcdef),
    ([0x15182088], .smin 4 12 42),
    ([0x0018208A, 0x89ABCDEF, 0x00000000], .sminLiteral 4 12 0x89abcdef),
    ([0x15182090], .smax 4 12 42),
    ([0x00182092, 0x89ABCDEF, 0x00000000], .smaxLiteral 4 12 0x89abcdef),
    ([0x15182098], .sminu 4 12 42),
    ([0x0018209A, 0x89ABCDEF, 0x00000000], .sminuLiteral 4 12 0x89abcdef),
    ([0x151820A0], .smaxu 4 12 42),
    ([0x001820A2, 0x89ABCDEF, 0x00000000], .smaxuLiteral 4 12 0x89abcdef),
    ([0x15182130], .saddc 4 12 42),
    ([0x00182132, 0x89ABCDEF, 0x00000000], .saddcLiteral 4 12 0x89abcdef),
    ([0x751800A8], .scmp 3 12 42),
    ([0x601800AA, 0x89ABCDEF, 0x00000000], .scmpLiteral 3 12 0x89abcdef),
    ([0x751800B0], .scmpn 3 12 42),
    ([0x601800B2, 0x89ABCDEF, 0x00000000], .scmpnLiteral 3 12 0x89abcdef)] = true := by decide

theorem test_decodeScalar3 : decodes [
    ([0x151820B8], .ssel 4 12 42),
    ([0x001820BA, 0x89ABCDEF, 0x00000000], .sselLiteral 4 12 0x89abcdef),
    ([0x001820C0], .smov 4 12),
    ([0xFD8020C8], .sli 4 507),
    ([0x000020CA, 0x89ABCDEF, 0x00000000], .sliLiteral 4 0x89abcdef),
    ([0x0000213A, 0x01234567, 0x89ABCDEF], .slid 4 0x89abcdef01234567),
    ([0xFD982140], .saddi 4 12 507),
    ([0x151820D0], .sbfe 4 12 42),
    ([0x001820D2, 0x89ABCDEF, 0x00000000], .sbfeLiteral 4 12 0x89abcdef),
    ([0x151820D8], .sbfi 4 12 42),
    ([0x001820DA, 0x89ABCDEF, 0x00000000], .sbfiLiteral 4 12 0x89abcdef),
    ([0x001820E0], .spop 4 12),
    ([0x001820E8], .sclz 4 12),
    ([0x001820F0], .sctz 4 12),
    ([0x001820F8], .sbrev 4 12),
    ([0x15182100], .saddd 4 12 42),
    ([0x00182102, 0x01234567, 0x89ABCDEF], .sadddLiteral 4 12 0x89abcdef01234567),
    ([0x15182108], .ssubd 4 12 42),
    ([0x0018210A, 0x01234567, 0x89ABCDEF], .ssubdLiteral 4 12 0x89abcdef01234567),
    ([0x15182128], .smuld 4 12 42),
    ([0x0018212A, 0x01234567, 0x89ABCDEF], .smuldLiteral 4 12 0x89abcdef01234567),
    ([0x15182110], .sshld 4 12 42),
    ([0x00182112, 0x89ABCDEF, 0x00000000], .sshldLiteral 4 12 0x89abcdef),
    ([0x15182118], .sshrd 4 12 42)] = true := by decide

theorem test_decodeScalar4 : decodes [
    ([0x0018211A, 0x89ABCDEF, 0x00000000], .sshrdLiteral 4 12 0x89abcdef),
    ([0x75180120], .scmpd 3 12 42),
    ([0x60180122, 0x01234567, 0x89ABCDEF], .scmpdLiteral 3 12 0x89abcdef01234567)] = true := by decide

theorem test_decodeControl1 : decodes [
    ([0xFFFFEA00], .br 2097149),
    ([0xFFFFEA08], .bsc 2097149),
    ([0xFFFFEA10], .bsnc 2097149),
    ([0xFFFA6218], .bez 12 32765),
    ([0xFFFA6220], .bnz 12 32765),
    ([0xFFFFEA28], .bexz 2097149),
    ([0xFFFFEA30], .bexnz 2097149),
    ([0xFFFFEA38], .bcmz 2097149),
    ([0xFFFFEA40], .bcmnz 2097149),
    ([0x00180260], .jmpr 12),
    ([0x00000249, 0x40000018, 0xFFFFFFF8], .call 4 24 0xFFFFFFF8),
    ([0x0F180250], .callr 12 30),
    ([0x0F000258], .ret 30),
    ([0x64000268], .trap 200),
    ([0x00000278], .brk),
    ([0x00000270], .tret),
    ([0x00000280], .nop),
    ([0x00000288], .wend),
    ([0x00000290], .yield),
    ([0x000002B8], .fbar),
    ([0x02802298], .srd 4 5),
    ([0x029802A0], .swr 12 5),
    ([0x00005300], .mand 10),
    ([0x00005308], .mandn 10)] = true := by decide

theorem test_decodeControl2 : decodes [
    ([0x00140310], .melse 10),
    ([0x00140318], .mrest 10),
    ([0x00002320], .mcnt 4),
    ([0x00002328], .mfirst 4),
    ([0x00000330], .mcmc),
    ([0x00000338], .msetall)] = true := by decide

theorem test_decodeMemory1 : decodes [
    ([0xFD982400], .sld 4 12 507),
    ([0x201A3C01, 0x700000D9, 0xFFFFFFF0], .sldMs (ms 1 0 13 7 7 0 0 1 1 3 1 0xfffffff0)),
    ([0x201A3C03, 0x700000D9, 0x00000000, 0x55667788, 0x11223344], .sldOffset64 (ms 1 0 13 7 7 0 0 1 1 3 1 0x0) 0x1122334455667788),
    ([0xFD982408], .sst 4 12 507),
    ([0x201A3C09, 0x7000011A, 0xFFFFFFF0], .sstMs (ms 1 0 13 7 7 0 0 2 0 3 2 0xfffffff0)),
    ([0x201A3C0B, 0x7000011A, 0x00000000, 0x55667788, 0x11223344], .sstOffset64 (ms 1 0 13 7 7 0 0 2 0 3 2 0x0) 0x1122334455667788),
    ([0x351A3C11, 0x7000A59A, 0xFFFFFFF0], .satom (ms 1 42 13 7 7 1 9 3 0 3 2 0xfffffff0)),
    ([0x351A3C13, 0x7000A59A, 0x00000000, 0x55667788, 0x11223344], .satomOffset64 (ms 1 42 13 7 7 1 9 3 0 3 2 0x0) 0x1122334455667788),
    ([0x00182C18], .xld 5 12),
    ([0x00002C20], .xinv 5),
    ([0x00001480], .commit 2),
    ([0x00004C80], .commitBV),
    ([0x00001488], .abort 2),
    ([0x00001490], .mark 2),
    ([0x00001498], .acq 2),
    ([0x000014A0], .fence 2),
    ([0x151824A8], .cfl 4 12 42),
    ([0x151824B0], .civ 4 12 42),
    ([0x151824B8], .cwb 4 12 42),
    ([0x151822B0], .ici 4 12 42),
    ([0x20AA1205, 0x700000D9, 0xFFFFFFF0], .vld (mx 0 130 5 66 7 0 0 1 1 3 1 0xfffffff0)),
    ([0x20AA1207, 0x700000D9, 0x00000000, 0x55667788, 0x11223344], .vldOffset64 (mx 0 130 5 66 7 0 0 1 1 3 1 0x0) 0x1122334455667788),
    ([0x20AA120D, 0x7000011A, 0xFFFFFFF0], .vst (mx 0 130 5 66 7 0 0 2 0 3 2 0xfffffff0)),
    ([0x20AA120F, 0x7000011A, 0x00000000, 0x55667788, 0x11223344], .vstOffset64 (mx 0 130 5 66 7 0 0 2 0 3 2 0x0) 0x1122334455667788)] = true := by decide

theorem test_decodeMemory2 : decodes [
    ([0x20AA1215, 0x7000A59A, 0xFFFFFFF0], .vatom (mx 0 130 5 66 7 1 9 3 0 3 2 0xfffffff0)),
    ([0x20AA1217, 0x7000A59A, 0x00000000, 0x55667788, 0x11223344], .vatomOffset64 (mx 0 130 5 66 7 1 9 3 0 3 2 0x0) 0x1122334455667788)] = true := by decide

theorem test_decodeSync1 : decodes [
    ([0x0013DCC0], .barSync 1 7 11),
    ([0x0003DCC8], .barArrive 7 11),
    ([0x00002CD0], .gongArrive 5),
    ([0x00002CD8], .gongWait 5),
    ([0x151804E0], .mbInit 12 42),
    ([0x001804E2, 0x89ABCDEF, 0x00000000], .mbInitLiteral 12 0x89abcdef),
    ([0x151804E8], .mbArrive 12 42),
    ([0x001804EA, 0x89ABCDEF, 0x00000000], .mbArriveLiteral 12 0x89abcdef),
    ([0x151824F0], .mbWait 4 12 42),
    ([0x001824F2, 0x89ABCDEF, 0x00000000], .mbWaitLiteral 4 12 0x89abcdef),
    ([0x001824F8], .mbTest 4 12),
    ([0xC0180500], .qpush 6 12),
    ([0xC0002508], .qpop 6 4),
    ([0xC0002510], .qtry 6 4),
    ([0x00180518], .cpkick 12),
    ([0x00002520], .cpseal 4),
    ([0x15000528], .cpwait 42),
    ([0x0000052A, 0x89ABCDEF, 0x00000000], .cpwaitLiteral 0x89abcdef),
    ([0x15000530], .cptest 42),
    ([0x00000532, 0x89ABCDEF, 0x00000000], .cptestLiteral 0x89abcdef),
    ([0x151802A8], .lnch 12 42),
    ([0x15182580], .snap 4 12 42),
    ([0x00182582, 0x89ABCDEF, 0x00000000], .snapLiteral 4 12 0x89abcdef),
    ([0x00180588], .sacc 12)] = true := by decide

theorem test_decodeSync2 : decodes [
    ([0x00180590], .srej 12),
    ([0x00182598], .sqry 4 12)] = true := by decide

theorem test_decodeTile1 : decodes [
    ([0x2D464E01, 0x30010A46, 0xAF12CFFE], .mloop { mode := 5, sb := 42, sa := 12, acc := 9, la := 3, pb := 4, fmtB := 5, pa := 2, fmtA := 6, incB := 700, incA := 300, steps1 := 0xFFE }),
    ([0x00004E08], .mwait 9),
    ([0x00004E20], .acz 9),
    ([0x00004E28], .acrel 9),
    ([0x00064E10], .acld 9 12),
    ([0x00064E18], .acst 9 12),
    ([0x60064285, 0x30000000, 0x0000003F], .acrd (vx 6 0 0 200 3 0 0 0 0 0 0 0x3f)),
    ([0x6050028D, 0x30000000, 0x00000011], .acwr (vx 6 0 10 0 3 0 0 0 0 0 0 0x11))] = true := by decide

theorem test_decodeVector1 : decodes [
    ([0x9B910804], .vadd 33 100 77),
    ([0x9B91080C], .vsub 33 100 77),
    ([0x9B910814], .vmul 33 100 77),
    ([0x9B91081C], .vfma 33 100 77),
    ([0x9B910824], .vmad 33 100 77),
    ([0x9B91082C], .vmulhi 33 100 77),
    ([0x9B910834], .vmin 33 100 77),
    ([0x9B91083C], .vmax 33 100 77),
    ([0x01910844], .vabs 33 100),
    ([0x0191084C], .vneg 33 100),
    ([0x9B902054], .vcmp 4 100 77),
    ([0x9B91085C], .vsel 33 100 77),
    ([0x01910864], .vmov 33 100),
    ([0x9B910874], .vand 33 100 77),
    ([0x9B91087C], .vor 33 100 77),
    ([0x9B910884], .vxor 33 100 77),
    ([0x9B91088C], .vandn 33 100 77),
    ([0x9B910894], .vshl 33 100 77),
    ([0x9B91089C], .vshr 33 100 77),
    ([0x9B9108A4], .vsar 33 100 77),
    ([0x019108BC], .vpop 33 100),
    ([0x019108C4], .vclz 33 100),
    ([0x5401086C], .vmovs 33 42),
    ([0x0001086E, 0x89ABCDEF, 0x00000000], .vmovsLiteral 33 0x89abcdef)] = true := by decide

theorem test_decodeVector2 : decodes [
    ([0x000108E4], .vlane 33),
    ([0x55902114], .vgetl 4 100 42),
    ([0x01902116, 0x89ABCDEF, 0x00000000], .vgetlLiteral 4 100 0x89abcdef),
    ([0x5431091C], .vsetl 33 12 42),
    ([0x0031091E, 0x89ABCDEF, 0x00000000], .vsetlLiteral 33 12 0x89abcdef),
    ([0x01910984], .vrcp 33 100),
    ([0x0191098C], .vrsq 33 100),
    ([0x01910994], .vsqrt 33 100),
    ([0x0191099C], .vexp2 33 100),
    ([0x019109A4], .vlog2 33 100),
    ([0x019109AC], .vsinpi 33 100),
    ([0x019109B4], .vcospi 33 100),
    ([0x019109BC], .vtanh 33 100)] = true := by decide

theorem test_decodeVectorLong1 : decodes [
    ([0x00564005, 0x36A0000B, 0x00000000], .vaddVx (vx 0 0 10 200 3 6 1 1 0 0 11 0x0)),
    ([0x0056400D, 0x36A0000B, 0x00000000], .vsubVx (vx 0 0 10 200 3 6 1 1 0 0 11 0x0)),
    ([0x00564015, 0x36A0000B, 0x00000000], .vmulVx (vx 0 0 10 200 3 6 1 1 0 0 11 0x0)),
    ([0x0056401D, 0x36A00C0B, 0x00000000], .vfmaVx (vx 0 0 10 200 3 6 1 1 0 12 11 0x0)),
    ([0x00564025, 0x30000C0B, 0x00000000], .vmadVx (vx 0 0 10 200 3 0 0 0 0 12 11 0x0)),
    ([0x0056402D, 0x3000000B, 0x00000000], .vmulhiVx (vx 0 0 10 200 3 0 0 0 0 0 11 0x0)),
    ([0x00564035, 0x3000000B, 0x00000000], .vminVx (vx 0 0 10 200 3 0 0 0 0 0 11 0x0)),
    ([0x0056403D, 0x3000000B, 0x00000000], .vmaxVx (vx 0 0 10 200 3 0 0 0 0 0 11 0x0)),
    ([0x00564045, 0x30000000, 0x00000000], .vabsVx (vx 0 0 10 200 3 0 0 0 0 0 0 0x0)),
    ([0x0056404D, 0x30000000, 0x00000000], .vnegVx (vx 0 0 10 200 3 0 0 0 0 0 0 0x0)),
    ([0x48500055, 0x30000000, 0xDEADBEEF], .vcmpVx (vx 4 1 10 0 3 0 0 0 0 0 0 0xdeadbeef)),
    ([0x0056405D, 0x3000000B, 0x00000000], .vselVx (vx 0 0 10 200 3 0 0 0 0 0 11 0x0)),
    ([0x00564065, 0x30000000, 0x00000000], .vmovVx (vx 0 0 10 200 3 0 0 0 0 0 0 0x0)),
    ([0x00564075, 0x3000000B, 0x00000000], .vandVx (vx 0 0 10 200 3 0 0 0 0 0 11 0x0)),
    ([0x0056407D, 0x3000000B, 0x00000000], .vorVx (vx 0 0 10 200 3 0 0 0 0 0 11 0x0)),
    ([0x00564085, 0x3000000B, 0x00000000], .vxorVx (vx 0 0 10 200 3 0 0 0 0 0 11 0x0)),
    ([0x0056408D, 0x3000000B, 0x00000000], .vandnVx (vx 0 0 10 200 3 0 0 0 0 0 11 0x0)),
    ([0x00564095, 0x3000000B, 0x00000000], .vshlVx (vx 0 0 10 200 3 0 0 0 0 0 11 0x0)),
    ([0x0056409D, 0x3000000B, 0x00000000], .vshrVx (vx 0 0 10 200 3 0 0 0 0 0 11 0x0)),
    ([0x005640A5, 0x3000000B, 0x00000000], .vsarVx (vx 0 0 10 200 3 0 0 0 0 0 11 0x0)),
    ([0x005640BD, 0x30000000, 0x00000000], .vpopVx (vx 0 0 10 200 3 0 0 0 0 0 0 0x0)),
    ([0x005640C5, 0x30000000, 0x00000000], .vclzVx (vx 0 0 10 200 3 0 0 0 0 0 0 0x0)),
    ([0x005640AD, 0x30000000, 0x00000503], .vbfe (vx 0 0 10 200 3 0 0 0 0 0 0 0x503)),
    ([0x005640B5, 0x30000000, 0x00000503], .vbfi (vx 0 0 10 200 3 0 0 0 0 0 0 0x503))] = true := by decide

theorem test_decodeVectorLong2 : decodes [
    ([0x005640CD, 0x39450C00, 0x00000000], .vcvt (vx 0 0 10 200 3 9 0 2 5 12 0 0x0)),
    ([0x000640D5, 0x30000000, 0x00000034], .vtag (vx 0 0 0 200 3 0 0 0 0 0 0 0x34)),
    ([0x005640DD, 0x30000C0B, 0x00000000], .vdot (vx 0 0 10 200 3 0 0 0 0 12 11 0x0)),
    ([0x305640ED, 0x30000000, 0x00000000], .vred (vx 3 0 10 200 3 0 0 0 0 0 0 0x0)),
    ([0x10564105, 0x30000000, 0x00000208], .vshfl (vx 1 0 10 200 3 0 0 0 0 0 0 0x208)),
    ([0x0056410D, 0x30000000, 0x00000308], .vbcast (vx 0 0 10 200 3 0 0 0 0 0 0 0x308)),
    ([0x00564185, 0x30000000, 0x00000000], .vrcpVx (vx 0 0 10 200 3 0 0 0 0 0 0 0x0)),
    ([0x0056418D, 0x30000000, 0x00000000], .vrsqVx (vx 0 0 10 200 3 0 0 0 0 0 0 0x0)),
    ([0x00564195, 0x30000000, 0x00000000], .vsqrtVx (vx 0 0 10 200 3 0 0 0 0 0 0 0x0)),
    ([0x0056419D, 0x30000000, 0x00000000], .vexp2Vx (vx 0 0 10 200 3 0 0 0 0 0 0 0x0)),
    ([0x005641A5, 0x30000000, 0x00000000], .vlog2Vx (vx 0 0 10 200 3 0 0 0 0 0 0 0x0)),
    ([0x005641AD, 0x30000000, 0x00000000], .vsinpiVx (vx 0 0 10 200 3 0 0 0 0 0 0 0x0)),
    ([0x005641B5, 0x30000000, 0x00000000], .vcospiVx (vx 0 0 10 200 3 0 0 0 0 0 0 0x0)),
    ([0x005641BD, 0x30000000, 0x00000000], .vtanhVx (vx 0 0 10 200 3 0 0 0 0 0 0 0x0))] = true := by decide

/-! ### States to test on -/

/-- The state after a load from outside: one running wave of one block, every register of it as its launch leaves it. -/
def base : State := State.reset.loadLaunch
/-- `base` with a changed wave in focus. -/
def withW (f : Wave → Wave) : State := { base with w := f base.w }
/-- `base` with scalar registers set. -/
def regs (l : List (SReg × Word)) : State := l.foldl (fun s x => s.setS x.1 x.2) base
/-- The state after an instruction that goes on. -/
def after (i : Instr) (s : State) : State := match exec i s with | .next t => t | _ => s
/-- Whether the wave in focus entered its handler for a cause. -/
def trapped (c : Cause) (t : State) : Bool := t.hm && t.w.tcause.extractLsb' 0 8 == BitVec.ofNat 8 c.code
/-- `base` with a handler at 0x40. -/
def handled : State := withW fun w => { w with tvec := 0x40 }

/-- A peer that nothing has passed to or from. -/
def peer1 : Peer :=
  { dev := 1, lost := false, route := .up, downFrom := 0, mem := [], poison := [], pseqNext := 1, performed := 0, held := [],
    table := [], outPerformed := 0, outHeld := [], outTable := [], scTime := 0, ftime := 0 }
/-- `base` with the next table of its translations at a peer that does not answer. -/
def away : State :=
  { base with mem := base.mem.writeAll (placed 0x10000 (leBytes 8 (2 ^ 54 + 0x11000 + 1))), peers := [{ peer1 with route := .down }] }
/-- `base` with a partial on a line of its memory: of its tables, or another. -/
def awaiting (a : Nat) : State := { base with parts := [⟨none, 0, 0, true, a, 0, false, 1, [], false⟩] }

/-- An action that ends well, with a property of what it leaves. -/
theorem runs {α : Type} {r : Except (Halt × State) (α × State)} (p : α → State → Bool)
    (h : (match r with | .ok (x, u) => p x u | .error _ => false) = true) : ∃ x u, r = .ok (x, u) ∧ p x u = true := by
  cases r with
  | ok x => exact ⟨x.1, x.2, rfl, h⟩
  | error e => simp at h

/-- An action that ends well. -/
theorem ran {α : Type} {r : Except (Halt × State) (α × State)} (h : r.toOption.isSome = true) : ∃ x u, r = .ok (x, u) := by
  cases r with
  | ok x => exact ⟨x.1, x.2, rfl⟩
  | error e => simp [Except.toOption] at h

/-- An instruction that goes on. -/
theorem goesOn {i : Instr} {s : State} (h : (match exec i s with | .next _ => true | _ => false) = true) : ∃ t, exec i s = .next t := by
  cases e : exec i s with
  | next t => exact ⟨t, rfl⟩
  | fault f => simp [e] at h
  | refused r => simp [e] at h

/-! ### Witnesses: encoding, step, scalar -/

theorem witness_DecodeOfEncode : (Instr.saddi 3 3 (-1)).wellFormed = true ∧ encode (.saddi 3 3 (-1)) ≠ [] := by decide
theorem witness_DecodeOfEncode_long : (Instr.vld (mx 0 130 5 66 7 0 0 1 1 3 1 0)).wellFormed = true ∧
    encode (.vld (mx 0 130 5 66 7 0 0 1 1 3 1 0)) ≠ [] := by decide
theorem witness_EncodeOfDecode : decodeWords 0xFF861940 0 0 0 0 = .ok (.saddi 3 3 (-1)) := by decide

/-- NOP, then a NOP with a reserved bit set, placed where the next step fetches. -/
def atWord (w : Nat) : State := State.reset.withFetchWord 32 w
theorem witness_StepRunsDecoded : (atWord 0x280).agenda = [] ∧ (Claims.begun (atWord 0x280)).runnable = true ∧
    (Claims.begun (atWord 0x280)).codeWord (atWord 0x280).w.pc = .ok 0x280 ∧
    (Claims.begun (atWord 0x280)).moreWords (wordsAsked 0x280) ((atWord 0x280).w.pc + 4) = .ok [] ∧
    Claims.decodeList [0x280] = .ok .nop := ⟨by decide, by decide, rfl, rfl, by decide⟩
theorem witness_StepRunsDecoded_reject : (Claims.begun (atWord 0xA80)).runnable = true ∧
    (Claims.begun (atWord 0xA80)).codeWord (atWord 0xA80).w.pc = .ok 0xA80 ∧
    (Claims.begun (atWord 0xA80)).moreWords (wordsAsked 0xA80) ((atWord 0xA80).w.pc + 4) = .ok [] ∧
    Claims.decodeList [0xA80] = .error .reservedField := ⟨by decide, rfl, rfl, by decide⟩
theorem witness_StepRunsDecoded_fetch : (Claims.begun (withW fun w => { w with pc := 0x400000000000 })).runnable = true ∧
    ∃ h, (Claims.begun (withW fun w => { w with pc := 0x400000000000 })).codeWord 0x400000000000 = .error h := ⟨by decide, _, rfl⟩
theorem witness_StepRunsAgenda : ({ base with agenda := [.event .flush base.facts] } : State).agenda = [.event .flush base.facts] ∧
    encode .flush = [] ∧ ({ base with agenda := [.focus base.w.key] } : State).agenda = [.focus base.w.key] := ⟨rfl, rfl, rfl⟩
theorem witness_IdleStep : base.agenda = [] ∧ ({ base with dev := { base.dev with halt := true } } : State).dev.halt = true :=
  ⟨rfl, rfl⟩

theorem witness_ScalarArithmetic : Claims.Calm base ∧ (0xFFFFFFFF : DWord).hi = 0 := by decide
theorem witness_ScalarDivision : Claims.Calm base ∧ (0 : DWord).hi = 0 ∧ (5 : Word) ≠ 0 := by decide
theorem witness_ScalarBitFields : Claims.Calm (regs [(2, 0x201F)]) ∧ (0x201F : DWord).hi = 0 := by decide
theorem witness_ComparesAndMoves : Claims.Calm base ∧ (5 : BitVec 3).toNat ≤ 5 ∧ (7 : DWord).hi = 0 ∧ (4 : SReg).toNat % 2 = 0 ∧
    (8 : SReg).toNat % 2 = 0 := by decide
theorem witness_PairArithmetic : Claims.Calm base ∧ (62 : SReg).toNat % 2 = 0 ∧ (4 : SReg).toNat % 2 = 0 ∧ (63 : DWord).hi = 0 := by decide
theorem witness_MaskInstructions : Claims.Calm base ∧ (61 : SReg).toNat ≤ 61 := by decide

theorem witness_Branches : Claims.Calm base ∧ base.w.pc.extractLsb' 0 2 = 0 ∧ (regs [(3, 0)]).sreg 3 = 0 ∧ base.scc = false ∧
    base.sreg 61 ≠ 0 ∧ base.sreg 58 = 0 ∧ (4 : SReg).toNat % 2 = 0 ∧ (base.spair 4).extractLsb' 0 2 = 0 := by decide
theorem witness_Branches_misaligned :
    ((withW fun w => { w with pc := 0x20002 }).w.pc + BitVec.ofInt 64 (4 * (0 : BitVec 21).toInt)).extractLsb' 0 2 ≠ 0#2 ∧
    (4 : SReg).toNat % 2 = 0 ∧ ((regs [(4, 2)]).spair 4).extractLsb' 0 2 ≠ 0#2 ∧
    (248 : BitVec 8).toNat % 8 = 0 ∧ (248 : BitVec 8).toNat < (withW fun w => { w with pc := 0x20002 }).w.valloc ∧
    (31 : BitVec 9).toNat ≤ 31 ∧ 8 * (31 : BitVec 9).toNat < (regs [(4, 2)]).w.valloc ∧
    ((regs [(54, 1)]).spair rLK).extractLsb' 0 2 ≠ 0#2 := by decide
theorem witness_Branches_tret : (withW fun w => { w with status := 2, tpc := 2 }).hm = true ∧
    (withW fun w => { w with status := 2, tpc := 2 }).w.tpc.extractLsb' 0 2 ≠ 0#2 := by decide

/-- The state whose stack holds what a CALL of eight registers stored. -/
def called : State := after (.call 0 8 4) base
theorem witness_Calls : (8 : Nat) < base.w.valloc ∧ (base.spair rSP).extractLsb' 0 6 = 0#6 ∧
    ¬ base.spair rSP - BitVec.ofNat 64 (384 * 8 + 64 * ((8 + 31) / 32)) < base.w.slimit ∧ (8 : BitVec 8).toNat = 8 ∧
    (base.w.pc + BitVec.ofInt 64 (4 * (4 : Word).toInt)).extractLsb' 0 2 = 0#2 ∧ 8 * (1 : BitVec 9).toNat = 8 ∧
    (base.spair 4).extractLsb' 0 2 = 0#2 ∧
    ∃ u v, stackStore (base.spair rSP - BitVec.ofNat 64 (384 * 8 + 64 * ((8 + 31) / 32)) + BitVec.ofNat 64 (384 * 8))
      ((List.range 8).flatMap fun k => leBytes 2 (base.vreg k).tagWord) base = .ok ((), u) ∧
      (List.range 8).forM spill u = .ok ((), v) ∧ Claims.Calm v ∧ v.w.pc = base.w.pc := by
  refine ⟨by decide, by decide, by decide, by decide, by decide, by decide, by decide, ?_⟩
  obtain ⟨_, u, e, h⟩ := runs (r := stackStore (base.spair rSP - BitVec.ofNat 64 (384 * 8 + 64 * ((8 + 31) / 32)) + BitVec.ofNat 64 (384 * 8))
      ((List.range 8).flatMap fun k => leBytes 2 (base.vreg k).tagWord) base)
    (fun _ u => decide (((List.range 8).forM spill u).toOption.any fun x => decide (Claims.Calm x.2 ∧ x.2.w.pc = base.w.pc))) (by decide +kernel)
  obtain ⟨_, v, e2, h2⟩ := runs (r := (List.range 8).forM spill u) (fun _ v => decide (Claims.Calm v ∧ v.w.pc = base.w.pc)) (by
    cases e3 : (List.range 8).forM spill u <;> simp_all [Except.toOption])
  exact ⟨u, v, e, e2, of_decide_eq_true h2⟩
theorem witness_Calls_plain : Claims.Calm base ∧ 0 < base.w.valloc ∧ (base.spair rSP).extractLsb' 0 6 = 0#6 ∧
    ¬ base.spair rSP < base.w.slimit ∧ (base.w.pc + BitVec.ofInt 64 (4 * (4 : Word).toInt)).extractLsb' 0 2 = 0#2 ∧
    (4 : SReg).toNat % 2 = 0 ∧ (base.spair 4).extractLsb' 0 2 = 0#2 := by decide
theorem witness_Returns_checks : (16 : BitVec 8).toNat % 8 = 0 ∧ (withW fun w => { w with valloc := 16 }).w.valloc ≤ (16 : BitVec 8).toNat ∧
    (8 : BitVec 8).toNat < base.w.valloc ∧ (base.w.pc + BitVec.ofInt 64 (4 * (4 : Word).toInt)).extractLsb' 0 2 = 0#2 ∧
    ((regs [(52, 0x100001)]).spair rSP).extractLsb' 0 6 ≠ 0#6 ∧
    ((regs [(52, 0x100000)]).spair rSP).extractLsb' 0 6 = 0#6 ∧
    (regs [(52, 0x100000)]).spair rSP - BitVec.ofNat 64 (384 * 8 + 64 * ((8 + 31) / 32)) < base.w.slimit := by decide
/-- `base` above a frame of eight registers, every register's spill pending. -/
def framed : State := withW fun w => { (regs [(52, 0x200000 - 3136)]).w with vregs := w.vregs.map fun r => { r with pend := true } }
theorem witness_Returns : (1 : BitVec 9).toNat ≤ 31 ∧ 8 < framed.w.valloc ∧ (framed.spair rLK).extractLsb' 0 2 = 0#2 ∧
    ∃ u, (List.range 8).forM (refill (framed.spair rSP) 8) (framed.setRot ((framed.w.rot + framed.w.valloc - 8) % framed.w.valloc)) = .ok ((), u) ∧
      Claims.Calm u := by
  refine ⟨by decide, by decide, by decide, ?_⟩
  obtain ⟨_, u, e, h⟩ := runs (r := (List.range 8).forM (refill (framed.spair rSP) 8)
    (framed.setRot ((framed.w.rot + framed.w.valloc - 8) % framed.w.valloc))) (fun _ u => decide (Claims.Calm u)) (by decide +kernel)
  exact ⟨u, e, of_decide_eq_true h⟩
theorem witness_PlainReturn : Claims.Calm base ∧ 0 < base.w.valloc ∧ (base.spair rLK).extractLsb' 0 2 = 0#2 := by decide

/-- The state of `called` as RET's slide leaves it: the spills of v0 to v7 are still pending. -/
def slid : State := called.setRot 0
theorem witness_Returns_pending : ∃ u, stackLoad (slid.spair rSP + BitVec.ofNat 64 (384 * 8 + 2 * 0)) 2 slid = .ok ([0, 0], u) ∧
    (u.vreg 0).pend = true := by
  obtain ⟨x, u, e, h⟩ := runs (r := stackLoad (slid.spair rSP + BitVec.ofNat 64 (384 * 8 + 2 * 0)) 2 slid)
    (fun x u => decide (x = [0, 0] ∧ (u.vreg 0).pend = true)) (by decide +kernel)
  obtain ⟨rfl, h2⟩ := of_decide_eq_true h
  exact ⟨u, e, h2⟩
theorem witness_Returns_loaded : ∃ u, stackLoad (called.spair rSP + BitVec.ofNat 64 (384 * 8 + 2 * 0)) 2 called = .ok ([0, 0], u) ∧
    (u.vreg 0).pend = false ∧ ∃ ls v, stackLoad (called.spair rSP + BitVec.ofNat 64 (384 * 0)) 384 u = .ok (ls, v) := by
  obtain ⟨x, u, e, h⟩ := runs (r := stackLoad (called.spair rSP + BitVec.ofNat 64 (384 * 8 + 2 * 0)) 2 called)
    (fun x u => decide (x = [0, 0] ∧ (u.vreg 0).pend = false ∧
      (stackLoad (called.spair rSP + BitVec.ofNat 64 (384 * 0)) 384 u).toOption.isSome = true)) (by decide +kernel)
  obtain ⟨rfl, h2, h3⟩ := of_decide_eq_true h
  exact ⟨u, e, h2, ran h3⟩

theorem witness_NopYieldFbarWend : Claims.Calm base ∧ base.yieldSet = [] ∧
    ({ base with waves := [{ base.w with key := ⟨1, 0, 0, 1⟩ }] } : State).yieldSet ≠ [] ∧ ∃ u, moveWB base = .ok ((), u) := by
  refine ⟨by decide, by decide, by decide, ?_⟩
  obtain ⟨_, u, e, -⟩ := runs (r := moveWB base) (fun _ _ => true) (by decide +kernel)
  exact ⟨u, e⟩

/-- A diagnostic wave in handler mode. -/
def diagnostic : State := withW fun w => { w with status := 0xA }
theorem witness_StateRegisters : Claims.Calm diagnostic ∧ (62 : SReg).toNat % 2 = 0 ∧ diagnostic.w.status.getLsbD 3 = true ∧
    (15 : BitVec 4) ≠ 0 ∧ diagnostic.hm = true ∧ injTarget (0x10000000 : Word) = 1 ∧ injWhere (0x10000000 : Word) = 0 := by decide
theorem witness_StateRegisters_forbidden : base.hm = false ∧ base.w.status.getLsbD 3 = false ∧ ¬ ((0x0F : BitVec 9).toNat ≤ 0x0E) ∧
    ¬ (0x17 ≤ (0x0F : BitVec 9).toNat) := by decide

theorem witness_TrapEntry : Claims.CanHandle handled ∧ (255 : BitVec 9).toNat ≤ 255 := by
  refine ⟨?_, by decide⟩; unfold Claims.CanHandle; decide
theorem witness_TrapEntry_kill : (withW fun w => { w with status := 2 }).hm = true ∧ base.w.tvec = 0 ∧
    (withW fun w => { w with tvec := 2 }).w.tvec.extractLsb' 0 2 ≠ 0#2 := by decide
theorem witness_TrapEntry_tret : Claims.Calm diagnostic ∧ diagnostic.hm = true ∧ diagnostic.w.tpc.extractLsb' 0 2 = 0#2 := by decide

/-- `base` with its one table entry removed, and a pc outside every region. -/
def unmapped : State := { base with mem := base.mem.writeAll (placed 0x11000 (leBytes 8 0)) }
theorem witness_IllegalInstructions : Claims.CanHandle handled ∧ (Instr.slid 5 0).wellFormed = false ∧
    (Instr.vbfe (vx 0 0 10 200 0 0 0 0 0 0 0 0x20)).wellFormed = false ∧ base.runnable = true := by
  refine ⟨?_, by decide, by decide, by decide⟩; unfold Claims.CanHandle; decide
theorem witness_IllegalInstructions_fetch : (withW fun w => { w with pc := 0x0100000000000000 }).runnable = true ∧
    (∃ e, (withW fun w => { w with pc := 0x0100000000000000 }).regionCheck 0 { r := true } 0x0100000000000000 4 = .error e) ∧
    unmapped.runnable = true ∧ unmapped.leftRegion unmapped.w.ctx unmapped.w.pc unmapped.w.pc = false ∧
    unmapped.regionCheck unmapped.w.ctx { r := true } unmapped.w.pc 4 = .ok 0x20000 ∧
    unmapped.translate unmapped.w.ctx 0x20000 = .absent false :=
  ⟨by decide, ⟨_, rfl⟩, by decide, by decide, rfl, rfl⟩
theorem witness_IllegalInstructions_tables : away.runnable = true ∧ away.regionCheck away.w.ctx { r := true } away.w.pc 4 = .ok 0x20000 ∧
    away.translate away.w.ctx 0x20000 = .away ∧ (awaiting 0x10000).translate 0 0x20000 = .held 0 1024 ∧
    (awaiting 0x10000).regionCheck 0 { r := true } 0x20000 4 = .ok 0x20000 ∧
    ({ base with poison := [1088] } : State).translate 0 0x20000 = .poison ∧
    (match ({ base with mem := base.mem.writeAll (placed 0x11000 (leBytes 8 0x12F)) } : State).translate 0 0x20000 with
      | .leaf l => !(l.r && l.x)
      | _ => false) = true := by decide +kernel

theorem witness_ScalarFrame : Claims.Calm base ∧ (Instr.mand 61).wellFormed = true ∧ Claims.scalarPlain (.mand 61) = true ∧
    ∃ t, exec (.mand 61) base = .next t := ⟨by decide, by decide, by decide, goesOn (by decide)⟩

/-! ### Witnesses: vector -/

/-- `base` with v1 to v7 of a format. -/
def tagged (f : Fmt) : State := (List.range 8).foldl (fun s n => s.setVreg n { s.vreg n with fmt := f }) base
/-- A wave that holds a spill pending in v0. -/
def pending : State := base.setVreg 0 { base.vreg 0 with pend := true, paddr := 0x100000 }

theorem spilled_of_calm (s : State) (vd words : Nat)
    (h : ((List.range words).forM (fun k => spill (vd + k)) s).toOption.any (fun x => decide (Claims.Calm x.2)) = true) :
    ∃ u, Claims.Spilled s u vd words ∧ Claims.Calm u := by
  cases e : (List.range words).forM (fun k => spill (vd + k)) s with
  | ok x => exact ⟨x.2, fun _ => e, by simpa [e, Except.toOption] using h⟩
  | error y => simp [e, Except.toOption] at h

theorem witness_VectorBits : (∃ u, Claims.Spilled pending u 0 1 ∧ Claims.Calm u) ∧ Claims.Calm base ∧ (Instr.vand 0 1 127).wellFormed = true ∧
    (Instr.vandVx (vx 0 1 10 255 0 0 0 0 0 0 0 7)).wellFormed = true ∧ (Instr.vbfi (vx 0 0 10 200 0 0 0 0 0 0 0 0x0503)).wellFormed = true ∧
    Claims.InWindow base [0, 1, 255] ∧ Claims.Unbound base (base.vreg 1).bnd ∧ pending.active ≠ [] :=
  ⟨spilled_of_calm _ _ _ (by decide +kernel), by decide⟩
theorem witness_VectorBits_exchange : (Instr.vshfl (vx 0 0 10 200 0 0 0 0 0 0 11 96)).wellFormed = true ∧
    (Instr.vshfl (vx 1 0 10 200 0 0 0 0 0 0 0 0x0708)).wellFormed = true ∧ (Instr.vshfl (vx 3 0 10 200 0 0 0 0 0 0 0 0x5F60)).wellFormed = true ∧
    (Instr.vbcast (vx 0 0 10 200 0 0 0 0 0 0 0 0x1F20)).wellFormed = true ∧ Claims.InWindow base [200, 10, 11] := by decide
theorem witness_LaneMoves : (∃ u, Claims.Spilled base u 127 1 ∧ Claims.Calm u) ∧ (∃ u, spill 127 base = .ok ((), u)) ∧ Claims.Calm base ∧ (95 : DWord).hi = 0 ∧ (95 : DWord).lo.toNat < 96 ∧ (127 : BitVec 7).toNat < base.w.valloc ∧
    Claims.Unbound base (base.vreg 127).bnd ∧ ((regs [(9, 95)]).sreg 9).toNat < 96 ∧ 96 ≤ ((regs [(9, 96)]).sreg 9).toNat ∧
    (Instr.vtag (vx 0 0 0 9 0 0 0 0 0 0 0 0x34)).wellFormed = true ∧ Fmt.ofCode ((0x34 : Word).toNat / 16) = some .f32 := by
  refine ⟨spilled_of_calm _ _ _ (by decide +kernel), ?_, by decide⟩
  obtain ⟨_, u, e, -⟩ := runs (r := spill 127 base) (fun _ _ => true) (by decide)
  exact ⟨u, e⟩
theorem witness_VectorNumeric : Claims.Calm (tagged .f32) ∧ (Instr.vfma 1 2 3).wellFormed = true ∧
    Claims.NumericOk .fma (v3Op 1 2 3) (tagged .f32) ∧ ∃ u, Claims.Spilled (tagged .f32) u 1 1 ∧ Claims.Calm u :=
  ⟨by decide, by decide, ⟨by decide, by decide, by decide, by decide, by decide, by decide, by decide⟩, spilled_of_calm _ _ _ (by decide +kernel)⟩
theorem witness_VectorNumeric_pair : (Instr.vaddVx (vx 0 0 4 2 0 0 0 1 0 0 6 0)).wellFormed = true ∧
    Claims.NumericOk .add (vxOp (vx 0 0 4 2 0 0 0 1 0 0 6 0)) (tagged .f64) ∧
    ∃ u, Claims.Spilled (tagged .f64) u 2 2 ∧ Claims.Calm u :=
  ⟨by decide, ⟨by decide, by decide, by decide, by decide, by decide, by decide, by decide⟩, spilled_of_calm _ _ _ (by decide +kernel)⟩
theorem witness_IntegerElements : 2 ^ 31 ≤ (0x7FFFFFFF : Word).toInt + (1 : Word).toInt ∧
    (0x80000000 : Word).toInt + (0xFFFFFFFF : Word).toInt < -(2 ^ 31) := by decide
theorem witness_VectorCompare : Claims.Calm (tagged .f32) ∧ (Instr.vcmp 5 1 2).wellFormed = true ∧
    (Instr.vcmpVx (vx 5 1 1 0 0 0 0 0 0 0 0 7)).wellFormed = true ∧ Claims.InWindow (tagged .f32) [1, 2] ∧
    ((tagged .f32).vreg 1).fmt ≠ .b32 ∧ ((tagged .f32).vreg 1).fmt ≠ .z4x8 ∧ ((tagged .f32).vreg 2).fmt = ((tagged .f32).vreg 1).fmt ∧
    ((tagged .f32).vreg 1).fmt.isPair = false := by decide
theorem witness_VectorConvertDotReduce : Claims.InWindow (tagged .f32) [2, 4, 0, 0] ∧
    Claims.Unbound (tagged .f32) ((vxOp (vx 0 0 4 2 0 0 0 0 5 0 0 0)).bnd (tagged .f32)) ∧
    (Instr.vcvt (vx 0 0 4 2 0 0 0 0 1 0 0 0)).wellFormed = true ∧ Fmt.ofCode 1 = some .s32 ∧ ((tagged .f32).vreg 4).fmt ≠ .b32 ∧
    (Instr.vred (vx 2 0 4 2 0 0 0 0 0 0 0 0)).wellFormed = true ∧ redAccepts 2 .f32 = true ∧
    (Instr.vdot (vx 0 0 4 2 0 0 0 0 0 6 5 0)).wellFormed = true ∧ dotAccepts .t8x4 .t8x4 .f32 = true := by decide
theorem witness_VectorConvertDotReduce_special : (Instr.vrcp 1 2).wellFormed = true ∧
    (Instr.vtanhVx (vx 0 0 4 2 0 0 0 0 0 0 0 0)).wellFormed = true ∧ ((tagged .f32).vreg 2).fmt = .f32 ∧
    Claims.InWindow (tagged .f32) [1, 2] := by decide
theorem witness_FormatTraps : ¬ ((16 : BitVec 7).toNat < (withW fun w => { w with valloc := 16 }).w.valloc) ∧
    (base.vreg 2).fmt = .b32 ∧ ((tagged .f32).vreg 2).fmt ≠ ((tagged .f32).vreg 9).fmt := by decide

/-- Lanes of v1 hold 5 as N32 under bound 1, whose range is 0 to 4. -/
def bounded (action : Word) : State :=
  let s := base.setVreg 1 { base.vreg 1 with fmt := .n32, bnd := 1, lanes := Vector.replicate 96 5#32 }
  s.setCx { s.cx with bdhi := put s.cx.bdhi (1 : BitVec 4) 4, bndact := action <<< 2 }
theorem witness_FormatTraps_bound : Claims.InWindow (bounded 3) [2, 1] ∧ ((bounded 3).bounds.bound 1).action = 3 ∧
    ((bounded 2).bounds.bound 1).action = 2 ∧ ((bounded 1).bounds.bound 1).action = 1 ∧
    ((bounded 3).active.filter fun l => (List.range Fmt.n32.count).any fun k =>
      (((bounded 3).bounds.bound 1).clamp .n32 (Fmt.n32.elem ((bounded 3).vlane 1 l).toNat k)).isSome) ≠ [] := by decide +kernel
theorem witness_VectorFrame : (Instr.vxor 1 2 3).wellFormed = true ∧ Claims.bitClass (.vxor 1 2 3) = some 1 ∧
    (∃ u, Claims.Spilled base u 1 1 ∧ Claims.Calm u) ∧ ∃ t, exec (.vxor 1 2 3) base = .next t ∧ t.w.seqno = base.w.seqno + 1 := by
  refine ⟨by decide, by decide, spilled_of_calm _ _ _ (by decide +kernel), ?_⟩
  obtain ⟨t, e⟩ := goesOn (i := .vxor 1 2 3) (s := base) (by decide +kernel)
  refine ⟨t, e, ?_⟩
  have h : (after (.vxor 1 2 3) base).w.seqno = base.w.seqno + 1 := by decide +kernel
  rwa [after, e] at h

/-! ### Witnesses: memory -/

/-- A scalar access of a word of the local area at s2. -/
def lm (v aop lvl : Nat) : MS := ms 1 0 2 4 0 v aop 0 0 lvl 2 0
/-- Where they fall. -/
def gAt : Lane × Loc := ⟨⟨0, 0x30000, 0x30000⟩, ⟨false, 0, 0x30000, 0x30000, 0x30000, true⟩⟩
@[inherit_doc gAt] def lAt : Lane × Loc := ⟨⟨0, 0, 0⟩, ⟨true, 0, 0, 0, 0, true⟩⟩

/-- A result that is one. -/
theorem okay {ε α : Type} {r : Except ε α} (h : r.toOption.isSome = true) : ∃ x, r = .ok x := by
  cases r with
  | ok x => exact ⟨x, rfl⟩
  | error e => simp [Except.toOption] at h

/-- The checks of an access pass where Lean can see them pass. -/
theorem checked_of (m : Mem) (o : MemOps) (s b : State) (p : List (Lane × Loc)) (h0 : m.xt = none)
    (h : m.kind ≠ .update ∧ m.checks o b true = .ok ⟨p, []⟩ ∧ (p.all fun x => (m.loc == false || b.rangeHeld (m.kind != .load) x.2.pa m.bytes == false) &&
      (x.2.isLocal || b.restoring x.2.dev x.2.pa == false) && (m.meetsPoison b x.2 == false)) = true) : Claims.Checked m o s b p := by
  obtain ⟨h1, h2, h3⟩ := h
  refine ⟨fun h => absurd h h1, fun r h => by simp [h0] at h, h2, fun hl x hx => ?_, fun x hx hl => ?_, fun x hx => ?_⟩ <;>
    have := List.all_eq_true.mp h3 x hx <;> simp_all
@[inherit_doc checked_of] theorem ready_of (m : Mem) (o : MemOps) (ds : List Nat) (s : State) (p : List (Lane × Loc)) (h : m.commits = false)
    (h0 : m.xt = none) (h1 : m.kind ≠ .update ∧ m.checks o s true = .ok ⟨p, []⟩ ∧ (p.all fun x => (m.loc == false || s.rangeHeld (m.kind != .load) x.2.pa m.bytes == false) &&
      (x.2.isLocal || s.restoring x.2.dev x.2.pa == false) && (m.meetsPoison s x.2 == false)) = true) : Claims.Ready m o ds s s p :=
  ⟨by simp [Claims.Released, Claims.fresh, h, h0], checked_of m o s s p h0 h1⟩
/-- One that passes where the places hold no line. -/
theorem passes_of (m : Mem) (o : MemOps) (s : State) (p : List (Lane × Loc)) (h : m.commits = false)
    (h0 : m.xt = none) (h1 : m.kind ≠ .update ∧ m.checks o s true = .ok ⟨p, []⟩ ∧ (p.all fun x => (m.loc == false || s.rangeHeld (m.kind != .load) x.2.pa m.bytes == false) &&
      (x.2.isLocal || s.restoring x.2.dev x.2.pa == false) && (m.meetsPoison s x.2 == false)) = true) : Claims.Passes m o s p := by
  have e : Claims.afterRelease m (Claims.fresh m s) = s := by simp [Claims.afterRelease, Claims.fresh, h, h0]
  exact ⟨by rw [e]; exact checked_of m o s s p h0 h1, fun hc => by simp [h] at hc⟩

/-- A relaxed access whose destination has no spill pending prepares nothing but its recalls. -/
theorem prepared_of (m : Mem) (o : MemOps) (ds : List Nat) (s u : State) (p : List (Lane × Loc)) (h0 : ds.forM spill s = .ok ((), s))
    (h1 : m.isSc = false) (h2 : m.recalls o p s = .ok ((), u)) : Claims.Prepared m o ds s p u :=
  ⟨s, by split <;> [rfl; exact h0], by simpa [h1] using h2⟩

theorem witness_TranslationRegisters : Claims.Calm base ∧ (4 : SReg).toNat % 2 = 0 ∧ base.xtHeld (base.spair 0) = none ∧
    (awaiting 0x10000).xtHeld ((awaiting 0x10000).spair 0) = some (0, 1024) ∧
    base.runAt base.w.ctx ((regs [(5, 0x00100000)]).spair 4) = none := ⟨by decide, by decide, by decide +kernel, by decide +kernel, rfl⟩

theorem witness_ScalarLoads : Claims.scalarLoad (.sldMs (ms 0 0 0 4 0 0 0 0 0 3 2 0)) = some (ms 0 0 0 4 0 0 0 0 0 3 2 0, 0, 12) ∧
    (Instr.sldMs (ms 0 0 0 4 0 0 0 0 0 3 2 0)).wellFormed = true ∧ ∃ u, Claims.Calm u ∧
    Claims.Ready (msMem (ms 0 0 0 4 0 0 0 0 0 3 2 0) .load) (Claims.loadOps (ms 0 0 0 4 0 0 0 0 0 3 2 0) 0) [] base base [gAt] ∧
    Claims.Prepared (msMem (ms 0 0 0 4 0 0 0 0 0 3 2 0) .load) (Claims.loadOps (ms 0 0 0 4 0 0 0 0 0 3 2 0) 0) [] base [gAt] u ∧
    (msMem (ms 0 0 0 4 0 0 0 0 0 3 2 0) .load).asksPeer u gAt.2 = false := by
  refine ⟨by decide, by decide, ?_⟩
  obtain ⟨_, u, e, h⟩ := runs (r := (msMem (ms 0 0 0 4 0 0 0 0 0 3 2 0) .load).recalls (Claims.loadOps (ms 0 0 0 4 0 0 0 0 0 3 2 0) 0) [gAt] base)
    (fun _ u => decide (Claims.Calm u ∧ (msMem (ms 0 0 0 4 0 0 0 0 0 3 2 0) .load).asksPeer u gAt.2 = false)) (by decide +kernel)
  obtain ⟨h1, h2⟩ := of_decide_eq_true h
  exact ⟨u, h1, ready_of _ _ _ _ _ rfl rfl (by decide +kernel), prepared_of _ _ _ _ _ _ rfl rfl e, h2⟩

/-- A vector access of words of the local area at offsets 0, 4, 8 ..., one lane active. -/
def vm (v aop : Nat) : MX := mx 1 2 0 8 0 v aop 0 0 1 2 0
/-- `base` with lane 0 active alone. -/
def oneLane : State := regs [(61, 1), (62, 0), (63, 0)]
theorem witness_VectorLoads : Claims.vectorLoad (.vld (vm 0 0)) = some (vm 0 0, 0, 12) ∧ (Instr.vld (vm 0 0)).wellFormed = true ∧
    (vm 0 0).voff.toNat < oneLane.w.valloc ∧ (vm 0 0).vt.toNat + wordsOf (mxMem (vm 0 0) .load).bytes ≤ oneLane.w.valloc ∧
    ∃ u, Claims.Calm u ∧ (u.vreg 8).pend = false ∧ Claims.Unbound u (u.vreg 8).bnd ∧
    Claims.Ready (mxMem (vm 0 0) .load) (Claims.vloadOps (vm 0 0) 0) (Claims.runOf (vm 0 0)) oneLane oneLane [lAt] ∧
    Claims.Prepared (mxMem (vm 0 0) .load) (Claims.vloadOps (vm 0 0) 0) (Claims.runOf (vm 0 0)) oneLane [lAt] u ∧
    Claims.Answers u lAt.2 := by
  refine ⟨by decide, by decide, by decide, by decide, ?_⟩
  obtain ⟨_, u, e, h⟩ := runs (r := (mxMem (vm 0 0) .load).recalls (Claims.vloadOps (vm 0 0) 0) [lAt] oneLane)
    (fun _ u => decide (Claims.Calm u ∧ (u.vreg 8).pend = false ∧ Claims.Unbound u (u.vreg 8).bnd)) (by decide +kernel)
  obtain ⟨h1, h2, h3⟩ := of_decide_eq_true h
  exact ⟨u, h1, h2, h3, ready_of _ _ _ _ _ rfl rfl (by decide +kernel), prepared_of _ _ _ _ _ _ rfl rfl e, .inl rfl⟩

/-- What every store and atomic here asks: no spill is pending, the checks pass, the recalls end, and every lane performs. -/
theorem performs (m : Mem) (o : MemOps) (ds : List Nat) (s : State) (x : Lane × Loc) (n : Nat) (q : State → Bool) (h0 : ds.forM spill s = .ok ((), s))
    (hs : m.isSc = false)
    (h : ((m.recalls o [x] s).toOption.any fun a => (m.perform o [x] [] (m.post o [x] [] a.2)).toOption.any fun b =>
      b.1.2.isEmpty && b.1.1.length == n && q b.2) = true) :
    ∃ u vals w, Claims.Prepared m o ds s [x] u ∧ m.perform o [x] [] (m.post o [x] [] u) = .ok ((vals, []), w) ∧ vals.length = n ∧ q w = true := by
  cases e : m.recalls o [x] s with
  | error y => simp [e, Except.toOption] at h
  | ok a =>
    simp only [e, Except.toOption, Option.any_some] at h
    cases e2 : m.perform o [x] [] (m.post o [x] [] a.2) with
    | error y => simp [e2] at h
    | ok b =>
      simp only [e2, Option.any_some, Bool.and_eq_true, List.isEmpty_iff, beq_iff_eq] at h
      refine ⟨a.2, b.1.1, b.2, prepared_of m o ds s a.2 [x] h0 hs e, ?_, h.1.2, h.2⟩
      rw [e2]
      exact congrArg _ (Prod.ext (Prod.ext rfl h.1.1) rfl)

theorem witness_Stores : Claims.scalarStore (.sstMs (lm 0 0 1)) = some (lm 0 0 1, 0, 12) ∧ (Instr.sstMs (lm 0 0 1)).wellFormed = true ∧
    (msMem (lm 0 0 1) .store).loc = true ∧ 1 ≤ rankOf (msMem (lm 0 0 1) .store).lvl ∧
    Claims.Ready (msMem (lm 0 0 1) .store) (Claims.storeOps (lm 0 0 1) 0) [] base base [lAt] ∧
    ∃ u vals w, Claims.Prepared (msMem (lm 0 0 1) .store) (Claims.storeOps (lm 0 0 1) 0) [] base [lAt] u ∧
      (msMem (lm 0 0 1) .store).perform (Claims.storeOps (lm 0 0 1) 0) [lAt] [] ((msMem (lm 0 0 1) .store).post (Claims.storeOps (lm 0 0 1) 0) [lAt] [] u) =
        .ok ((vals, []), w) ∧ vals.length = 1 ∧ true = true :=
  ⟨by decide, by decide, by decide, by decide, ready_of _ _ _ _ _ rfl rfl (by decide +kernel),
    performs _ _ _ _ _ _ (fun _ => true) rfl rfl (by decide +kernel)⟩
theorem witness_Stores_vector : Claims.vectorStore (.vst (vm 0 0)) = some (vm 0 0, 0, 12) ∧ (Instr.vst (vm 0 0)).wellFormed = true ∧
    (mxMem (vm 0 0) .store).loc = true ∧ 1 ≤ rankOf (mxMem (vm 0 0) .store).lvl ∧
    Claims.Ready (mxMem (vm 0 0) .store) (Claims.vstoreOps (vm 0 0) 0) [] oneLane oneLane [lAt] ∧
    ∃ u vals w, Claims.Prepared (mxMem (vm 0 0) .store) (Claims.vstoreOps (vm 0 0) 0) [] oneLane [lAt] u ∧
      (mxMem (vm 0 0) .store).perform (Claims.vstoreOps (vm 0 0) 0) [lAt] [] ((mxMem (vm 0 0) .store).post (Claims.vstoreOps (vm 0 0) 0) [lAt] [] u) =
        .ok ((vals, []), w) ∧ vals.length = 1 ∧ true = true :=
  ⟨by decide, by decide, by decide, by decide, ready_of _ _ _ _ _ rfl rfl (by decide +kernel),
    performs _ _ _ _ _ _ (fun _ => true) rfl rfl (by decide +kernel)⟩
theorem witness_StoresByLevel : Claims.scalarStore (.sst 4 0 0) = some (siForm 4 0, 0, 4) ∧ (Instr.sst 4 0 0).wellFormed = true ∧
    (siForm 4 0).lvl = 0 ∧ gAt.2.pa % 64 + (msMem (siForm 4 0) .store).bytes ≤ 64 ∧
    Claims.Ready (msMem (siForm 4 0) .store) (Claims.storeOps (siForm 4 0) 0) [] base base [gAt] ∧
    ∃ u, Claims.Prepared (msMem (siForm 4 0) .store) (Claims.storeOps (siForm 4 0) 0) [] base [gAt] u ∧ u.w.wbuf.lines = [] ∧ u.w.wbuf.used < 64 := by
  refine ⟨by decide, by decide, by decide, by decide, ready_of _ _ _ _ _ rfl rfl (by decide +kernel), ?_⟩
  obtain ⟨_, u, e, h⟩ := runs (r := (msMem (siForm 4 0) .store).recalls (Claims.storeOps (siForm 4 0) 0) [gAt] base)
    (fun _ u => decide (u.w.wbuf.lines = [] ∧ u.w.wbuf.used < 64)) (by decide +kernel)
  exact ⟨u, prepared_of _ _ _ _ _ _ rfl rfl e, of_decide_eq_true h⟩
theorem witness_StoresByLevel_home : Claims.scalarStore (.sstMs (ms 0 0 0 4 0 0 0 0 0 3 2 0)) = some (ms 0 0 0 4 0 0 0 0 0 3 2 0, 0, 12) ∧
    (Instr.sstMs (ms 0 0 0 4 0 0 0 0 0 3 2 0)).wellFormed = true ∧
    Claims.Ready (msMem (ms 0 0 0 4 0 0 0 0 0 3 2 0) .store) (Claims.storeOps (ms 0 0 0 4 0 0 0 0 0 3 2 0) 0) [] base base [gAt] ∧
    ∃ u, Claims.Prepared (msMem (ms 0 0 0 4 0 0 0 0 0 3 2 0) .store) (Claims.storeOps (ms 0 0 0 4 0 0 0 0 0 3 2 0) 0) [] base [gAt] u ∧
      gAt.2.isLocal = false ∧ gAt.2.coh = true ∧ gAt.2.dev = u.dev.devnum ∧ u.parts = [] ∧ u.snaps = [] ∧ u.restores = [] ∧
      u.vaultFenced (64 * lineOf gAt.2.pa) = false ∧ Memory.wf u.mem := by
  refine ⟨by decide, by decide, ready_of _ _ _ _ _ rfl rfl (by decide +kernel), ?_⟩
  obtain ⟨_, u, e, h⟩ := runs (r := (msMem (ms 0 0 0 4 0 0 0 0 0 3 2 0) .store).recalls (Claims.storeOps (ms 0 0 0 4 0 0 0 0 0 3 2 0) 0) [gAt] base)
    (fun _ u => decide (gAt.2.isLocal = false ∧ gAt.2.coh = true ∧ gAt.2.dev = u.dev.devnum ∧ u.parts = [] ∧ u.snaps = [] ∧ u.restores = [] ∧
      u.vaultFenced (64 * lineOf gAt.2.pa) = false ∧ Memory.wf u.mem)) (by decide +kernel)
  exact ⟨u, prepared_of _ _ _ _ _ _ rfl rfl e, of_decide_eq_true h⟩
theorem witness_Atomics : Claims.scalarAtomic (.satom (lm 1 0 1)) = some (lm 1 0 1, 0, 12) ∧ (Instr.satom (lm 1 0 1)).wellFormed = true ∧
    updateOnly (lm 1 0 1).aop = false ∧ (msMem (lm 1 0 1) .atomic).loc = true ∧ 1 ≤ rankOf (msMem (lm 1 0 1) .atomic).lvl ∧
    Claims.Ready (msMem (lm 1 0 1) .atomic) (Claims.atomicOps (lm 1 0 1) 0) [] base base [lAt] ∧
    base.w.wbuf = Place.empty ∧ Memory.wf base.blk.scratch ∧
    ∃ u vals w, Claims.Prepared (msMem (lm 1 0 1) .atomic) (Claims.atomicOps (lm 1 0 1) 0) [] base [lAt] u ∧
      (msMem (lm 1 0 1) .atomic).perform (Claims.atomicOps (lm 1 0 1) 0) [lAt] [] u = .ok ((vals, []), w) ∧ vals.length = 1 ∧ true = true :=
  ⟨by decide, by decide, by decide, by decide, by decide, ready_of _ _ _ _ _ rfl rfl (by decide +kernel),
    by decide, by decide, performs _ _ _ _ _ _ (fun _ => true) rfl rfl (by decide +kernel)⟩
theorem witness_Atomics_vector : Claims.vectorAtomic (.vatom (vm 1 9)) = some (vm 1 9, 0, 12) ∧ (Instr.vatom (vm 1 9)).wellFormed = true ∧
    (vm 1 9).vt.toNat + 2 * wordsOf (mxMem (vm 1 9) .atomic).bytes ≤ oneLane.w.valloc ∧
    Claims.Ready (mxMem (vm 1 9) .atomic) (Claims.vatomicOps (vm 1 9) 0) (Claims.runOf (vm 1 9)) oneLane oneLane [lAt] ∧
    ∃ u vals w, Claims.Prepared (mxMem (vm 1 9) .atomic) (Claims.vatomicOps (vm 1 9) 0) (Claims.runOf (vm 1 9)) oneLane [lAt] u ∧
      (mxMem (vm 1 9) .atomic).perform (Claims.vatomicOps (vm 1 9) 0) [lAt] [] u = .ok ((vals, []), w) ∧ vals.length = 1 ∧
      (!(w.vreg 8).pend) = true :=
  ⟨by decide, by decide, by decide, ready_of _ _ _ _ _ rfl rfl (by decide +kernel),
    performs _ _ _ _ _ _ (fun w => !(w.vreg 8).pend) rfl rfl (by decide +kernel)⟩

/-- An access of the word at s0:s1 at a level, with an order. -/
def gm (order lvl : Nat) : MS := ms 0 0 0 4 0 0 0 order 0 lvl 2 0
/-- `base` with a gang buffer. -/
def buffered : State := { base with gang := { base.gang with gcap := 16 } }
/-- Preparing a relaxed store or atomic of one lane leaves a state with a property. -/
theorem prepares (m : Mem) (o : MemOps) (ds : List Nat) (s : State) (p : List (Lane × Loc)) (q : State → Bool) (h0 : ds.forM spill s = .ok ((), s))
    (hs : m.isSc = false) (h : ((m.recalls o p s).toOption.any fun a => q a.2) = true) : ∃ u, Claims.Prepared m o ds s p u ∧ q u = true := by
  cases e : m.recalls o p s with
  | error y => simp [e, Except.toOption] at h
  | ok a => exact ⟨a.2, prepared_of m o ds s a.2 p h0 hs e, by simpa [e, Except.toOption] using h⟩
theorem witness_StoresByLevel_places : (∀ x ∈ [gAt], x.2.pa % 64 + 4 ≤ 64) ∧
    (Claims.Ready (msMem (gm 0 0) .store) (Claims.storeOps (gm 0 0) 0) [] buffered buffered [gAt] ∧
      ∃ u, Claims.Prepared (msMem (gm 0 0) .store) (Claims.storeOps (gm 0 0) 0) [] buffered [gAt] u ∧ decide (u.w.wbuf.used + Claims.linesOf [gAt] ≤ 64) = true) ∧
    (Claims.Ready (msMem (gm 0 1) .store) (Claims.storeOps (gm 0 1) 0) [] buffered buffered [gAt] ∧
      ∃ u, Claims.Prepared (msMem (gm 0 1) .store) (Claims.storeOps (gm 0 1) 0) [] buffered [gAt] u ∧
        decide (u.blk.place.used + Claims.linesOf [gAt] ≤ u.blk.bcap ∧ 0 < u.blk.bcap ∧ u.blk.place.lines = []) = true) ∧
    (Claims.Ready (msMem (gm 0 2) .store) (Claims.storeOps (gm 0 2) 0) [] buffered buffered [gAt] ∧
      ∃ u, Claims.Prepared (msMem (gm 0 2) .store) (Claims.storeOps (gm 0 2) 0) [] buffered [gAt] u ∧
        decide (u.gang.place.used + Claims.linesOf [gAt] ≤ u.gang.gcap ∧ 0 < u.gang.gcap ∧ u.gang.place.lines = []) = true) :=
  ⟨by decide, ⟨ready_of _ _ _ _ _ rfl rfl (by decide +kernel), prepares _ _ _ _ _ _ rfl rfl (by decide +kernel)⟩,
    ⟨ready_of _ _ _ _ _ rfl rfl (by decide +kernel), prepares _ _ _ _ _ _ rfl rfl (by decide +kernel)⟩,
    ready_of _ _ _ _ _ rfl rfl (by decide +kernel), prepares _ _ _ _ _ _ rfl rfl (by decide +kernel)⟩
/-- A lane at home finds nothing in its way, nor does the core hold a dirty byte. -/
def freeHome (bytes : Nat) (u : State) (p : List (Lane × Loc)) : Bool :=
  (p.all fun x => !x.2.isLocal && x.2.coh && x.2.dev == u.dev.devnum && !u.vaultFenced (64 * lineOf x.2.pa) &&
    (List.range bytes).all fun k => !u.restoring x.2.dev (x.2.pa + k)) && u.parts.isEmpty && u.snaps.isEmpty && decide (Memory.wf u.mem) &&
    u.w.wbuf.lines.isEmpty && u.blk.place.lines.isEmpty && u.gang.place.lines.isEmpty && (u.co.cache ++ u.co.ckc).all fun l => l.dirty.isEmpty
theorem freeHome_says {a : Mem} {u : State} {p : List (Lane × Loc)} (h : freeHome a.bytes u p = true) : Claims.AtHome a u p ∧ u.parts = [] ∧ u.snaps = [] ∧
    Claims.NoDirty u ∧ Memory.wf u.mem ∧ Claims.NoLines u := by
  simp only [freeHome, Bool.and_eq_true, List.all_eq_true, List.isEmpty_iff, decide_eq_true_eq, Bool.not_eq_true', beq_iff_eq, List.mem_range] at h
  obtain ⟨⟨⟨⟨⟨⟨⟨h1, h2⟩, h3⟩, h4⟩, h5⟩, h6⟩, h7⟩, h8⟩ := h
  exact ⟨fun x hx => ⟨(h1 x hx).1.1.1.1, (h1 x hx).1.1.1.2, (h1 x hx).1.1.2, (h1 x hx).1.2, (h1 x hx).2⟩, h2, h3, fun l hl _ => h8 l hl, h4, h5, h6, h7⟩
theorem witness_StoresByLevel_atHome :
    Claims.Ready (msMem (gm 0 3) .store) (Claims.storeOps (gm 0 3) 0) [] base base [gAt] ∧
      ∃ u, Claims.Prepared (msMem (gm 0 3) .store) (Claims.storeOps (gm 0 3) 0) [] base [gAt] u ∧ freeHome 4 u [gAt] = true :=
  ⟨ready_of _ _ _ _ _ rfl rfl (by decide +kernel), prepares _ _ _ _ _ _ rfl rfl (by decide +kernel)⟩
theorem witness_Atomics_atHome : updateOnly (gm 0 3).aop = false ∧
    Claims.Ready (msMem (gm 0 3) .atomic) (Claims.atomicOps (gm 0 3) 0) [] base base [gAt] ∧
      ∃ u, Claims.Prepared (msMem (gm 0 3) .atomic) (Claims.atomicOps (gm 0 3) 0) [] base [gAt] u ∧ freeHome 4 u [gAt] = true :=
  ⟨by decide, ready_of _ _ _ _ _ rfl rfl (by decide +kernel), prepares _ _ _ _ _ _ rfl rfl (by decide +kernel)⟩

/-- Offsets where the checks of AccessChecks meet: the last word of the local area, and one beyond it. -/
theorem witness_AccessChecks : (∃ e, base.regionCheck base.w.ctx { r := true } 0x0100000000030000 4 = .error (.prot e)) ∧ (regs [(2, 65533)]).w.todo = none ∧ ((msLane (lm 0 0 1) 0 (regs [(2, 65533)]) 0).va.toNat % 4 ≠ 0) ∧
    (msLane (lm 0 0 1) 0 (regs [(2, 65532)]) 0).va.toNat % 4 = 0 ∧ (msLane (lm 0 0 1) 0 (regs [(2, 65532)]) 0).va.toNat + 4 ≤ base.blk.localSize ∧
    base.blk.localSize < (msLane (lm 0 0 1) 0 (regs [(2, 65536)]) 0).va.toNat + 4 ∧
    ({ base.blk with tags := [65520] } : Block).taggedSlot 65532 4 = some 65520 ∧
    base.regionHeld base.w.ctx 0x30000 = none ∧ base.leftRegion base.w.ctx 0x30000 0x0100000000030000 = true ∧
    base.leftRegion base.w.ctx 0x10030000 0x10030000 = false :=
  ⟨⟨_, rfl⟩, by decide +kernel⟩

theorem witness_Commits : (1 ≤ (1 : BitVec 3).toNat ∧ (4 : BitVec 3).toNat ≤ 4) ∧ base.w.wbuf.lines = [] ∧ base.w.conflict = false ∧
    (withW fun w => { w with conflict := true }).w.conflict = true ∧ (∃ u, commitTo 1 base = .ok ((), u)) ∧
    (∃ u, commitTo 4 base = .ok ((), u)) ∧ ∃ u, moveWB base = .ok ((), u) := by
  refine ⟨by decide, rfl, rfl, rfl, ?_, ?_, ?_⟩
  · obtain ⟨_, u, e⟩ := ran (r := commitTo 1 base) (by decide +kernel); exact ⟨u, e⟩
  · obtain ⟨_, u, e⟩ := ran (r := commitTo 4 base) (by decide +kernel); exact ⟨u, e⟩
  · obtain ⟨_, u, e⟩ := ran (r := moveWB base) (by decide +kernel); exact ⟨u, e⟩

/-- `base` with a walker request of one line at the head of core 0. -/
def walking (op : WalkOp) : State := base.setCo { base.co with walks := [⟨op, base.w.key, 0, 0, 0x30000, 1⟩] }
theorem witness_Walkers : (0 : SReg).toNat % 2 = 0 ∧ (base.spair 0).extractLsb' 0 6 = 0#6 ∧ (base.sreg 2).toNat % 64 = 0 ∧
    ((regs [(6, 65520)]).sreg 6).toNat % 16 = 0 ∧ ((regs [(6, 65520)]).sreg 6).toNat + 16 ≤ base.blk.localSize ∧
    ((regs [(2, 64)]).sreg 2).toNat ≠ 0 ∧ base.leftRegion base.w.ctx 0x30000 0x30000 = false ∧
    base.leftRegion base.w.ctx 0x30000 (0x30000 + BitVec.ofNat 64 (64 - 1)) = false ∧
    base.regionCheck base.w.ctx { w := true } 0x30000 64 = .ok 0x30000 ∧ base.regionCheck base.w.ctx { r := true } 0x30000 64 = .ok 0x30000 ∧
    base.co.walks.length < 16 :=
  by decide +kernel
/-- The leaf that a translation answers. -/
def leafAt (s : State) (va : Nat) : Leaf := match s.translate 0 va with | .leaf l => l | _ => ⟨0, 0, 0, false, false, false, false, false, false, false⟩
theorem witness_Walkers_line : ((walking .cfl).core (walking .cfl).facts.core).walks = [⟨.cfl, base.w.key, 0, 0, 0x30000, 1⟩] ∧
    (walking .cfl).translate 0 0x30000 = .leaf (leafAt base 0x30000) ∧ (leafAt base 0x30000).dev = (walking .cfl).dev.devnum ∧
    (walking .cfl).restores = [] ∧ (walking .cfl).parts = [] ∧ (walking .cfl).poolWait = [] ∧
    (∃ t, (walking .cfl).walkLine .cfl 0 0 (lineOf ((leafAt base 0x30000).pa 0x30000)) (leafAt base 0x30000).coh = .ok t) ∧
    unmapped.translate 0 0x30000 = .absent false ∧ away.translate 0 0x30000 = .away ∧ (awaiting 0x10000).translate 0 0x30000 = .held 0 1024 :=
  ⟨by decide, by decide +kernel, by decide +kernel, rfl, rfl, rfl, okay (by decide +kernel), by decide +kernel, by decide +kernel, by decide +kernel⟩

/-! ### Witnesses: synchronisation -/

/-- `base` with barrier 1 at some count. -/
def atBarrier (b : Barrier) : State := base.setBar 1 b
theorem witness_NamedBarriers : (∃ u v, moveWB base = .ok ((), u) ∧ moveBG u = .ok ((), v)) ∧ (1 ≤ (16 : BitVec 5).toNat ∧ (16 : BitVec 5).toNat ≤ 16) ∧ base.hm = false ∧ (base.bar 1).expected = none ∧
    (base.bar 1).count + 1 ≠ 16 ∧ ((atBarrier ⟨false, some 16, 15, false⟩).bar 1).expected = some 16 ∧
    ((atBarrier ⟨false, some 16, 15, false⟩).bar 1).count + 1 = 16 ∧ (base.bar 1).count + 1 = 1 := by
  refine ⟨?_, by decide⟩
  obtain ⟨_, u, e, h⟩ := runs (r := moveWB base) (fun _ u => (moveBG u).toOption.isSome) (by decide +kernel)
  obtain ⟨_, v, e2⟩ := ran h
  exact ⟨u, v, e, e2⟩
theorem witness_NamedBarriers_traps : ((atBarrier ⟨false, some 16, 15, false⟩).bar 1).expected = some 16 ∧ (16 : Nat) ≠ (15 : BitVec 5).toNat ∧
    (atBarrier ⟨false, some 16, 15, false⟩).hm = false ∧ diagnostic.hm = true := by decide
theorem witness_NamedBarriers_release :
    let s : State := { base with facts := { base.facts with launch := 1, id := 2 }, w := { base.w with life := .waiting (.barrier 2 true) } }
    s.dev.halt = false ∧ s.w.key.block = s.facts.block ∧ s.w.saved = false ∧ s.w.life = .waiting (.barrier s.facts.id true) := by decide

/-- `base` in a launch whose Gong tag 0, at level B, expects two arrivals and has some. -/
def gong (arrivals episode : Nat) (mine : Option Nat) : State :=
  { base with launch := { base.launch with gong := base.launch.gong.set 0 ⟨1, 2, arrivals, episode⟩ },
              w := { base.w with gong := base.w.gong.set 0 mine } }
theorem witness_Gongs : (∃ u, commitTo 1 (gong 0 0 none) = .ok ((), u)) ∧ (gong 0 0 none).hm = false ∧ ((gong 0 0 none).gongTag 0).level ≠ 0 ∧
    ((gong 0 0 none).gongTag 0).arrivals + 1 < ((gong 0 0 none).gongTag 0).expected ∧
    ((gong 1 0 none).gongTag 0).expected ≤ ((gong 1 0 none).gongTag 0).arrivals + 1 ∧
    pick (gong 0 1 (some 0)).w.gong (0 : BitVec 3) = some 0 ∧ 0 < ((gong 0 1 (some 0)).gongTag 0).episode ∧
    ((gong 0 0 (some 0)).gongTag 0).episode ≤ 0 := by
  refine ⟨?_, by decide⟩
  obtain ⟨_, u, e⟩ := ran (r := commitTo 1 (gong 0 0 none)) (by decide +kernel); exact ⟨u, e⟩
theorem witness_Gongs_release :
    let s : State := { gong 0 1 (some 0) with facts := { base.facts with launch := 1 }, w := { base.w with life := .waiting (.gong 0 0) } }
    (∃ l, s.findLaunch s.facts.launch = some l ∧ s.w.key.launch = l.id ∧ 0 < (pick l.gong (0 : BitVec 3)).episode) ∧
    s.w.saved = false ∧ s.dev.halt = false ∧ s.w.life = .waiting (.gong 0 0) := ⟨⟨_, rfl, by decide, by decide⟩, by decide⟩

/-- `base` with a barrier object of count 2 and reload 3 at offset 64. -/
def object (gen : Word) : State :=
  let s := regs [(2, 64), (3, 2)]
  { s with blk := { s.blk with scratch := Memory.writeAll [] (placed 64 (leBytes 4 2 ++ leBytes 4 gen.toNat ++ leBytes 4 3)), tags := [64] } }
theorem witness_BarrierObjects : (∃ u, moveWB (object 0) = .ok ((), u)) ∧ ((object 0).sreg 2).toNat % 16 = 0 ∧ ((object 0).sreg 2).toNat + 16 ≤ (object 0).blk.localSize ∧
    (object 0).slotHeld 64 = false ∧ 0 < ((object 0).sreg 3).toInt ∧ 0 < (1 : DWord).lo.toInt ∧ (0xFFFFFFFF : DWord).lo = 0xFFFFFFFF ∧
    (0xFFFFFFFF : DWord).hi = 0 ∧ (object 0).blk.tagged 64 = true ∧
    Memory.wf (object 0).blk.scratch ∧ 0 < ((object 0).blk.word 64).toInt - (1 : Nat) ∧ ((object 0).blk.word 64).toInt - (2 : Nat) ≤ 0 := by
  refine ⟨?_, by decide⟩
  obtain ⟨_, u, e⟩ := ran (r := moveWB (object 0)) (by decide +kernel); exact ⟨u, e⟩
theorem witness_BarrierObjectWaits : (object 0).blk.tagged ((object 0).sreg 2).toNat = true ∧ (object 0).w.life = .ready ∧
    ((object 1).blk.word 68).getLsbD 0 ≠ ((object 1).sreg 4).getLsbD 0 ∧ ((object 0).blk.word 68).getLsbD 0 = ((object 0).sreg 4).getLsbD 0 ∧
    (7 : DWord).hi = 0 := by decide
/-- A wait on that object until cycle 5. -/
def timed (cycle : Nat) : State :=
  let s := object 0
  { s with facts := { s.facts with wave := s.w.key }, w := { s.w with life := .waiting (.mbwait 64 4 false (some 5) none) } }.setCo { s.co with cycle := cycle }
theorem witness_BarrierObjectWaits_timeout : (timed 5).facts.wave = (timed 5).w.key ∧
    (timed 5).w.life = .waiting (.mbwait 64 4 false (some 5) none) ∧ (timed 5).blk.key = (timed 5).w.key.block ∧
    Memory.wf (timed 5).blk.scratch ∧ (timed 5).dev.halt = false ∧ 5 ≤ (timed 5).co.cycle ∧ (timed 4).co.cycle < 5 := by decide

/-- `base` with queue 1 of two entries, produced and consumed by stage 0. -/
def queued (n : Nat) : State := { base with blk := { base.blk with queues := put base.blk.queues (1 : BitVec 3) ⟨0, 0, 2, 128, 0, n % 2, n⟩ } }
theorem witness_Queues : (∃ u, moveWB (queued 1) = .ok ((), u)) ∧ (pick (queued 0).blk.queues (0 : BitVec 3)).cap = 0 ∧ (queued 0).w.stage = (pick (queued 0).blk.queues (1 : BitVec 3)).prod ∧
    (pick (queued 1).blk.queues (1 : BitVec 3)).count < (pick (queued 1).blk.queues (1 : BitVec 3)).cap ∧
    (queued 1).queuedBefore 1 true = false ∧ (pick (queued 0).blk.queues (1 : BitVec 3)).count ≤ ((queued 0).waitingPops 1).length ∧
    ((queued 2).waitingPops 1).length < (pick (queued 2).blk.queues (1 : BitVec 3)).count ∧ 0 < (pick (queued 2).blk.queues (1 : BitVec 3)).count ∧ (queued 2).queuedBefore 1 false = false ∧ (queued 2).hm = false := by
  refine ⟨?_, by decide⟩
  obtain ⟨_, u, e⟩ := ran (r := moveWB (queued 1)) (by decide +kernel); exact ⟨u, e⟩
/-- Queue 1 full, and another wave of the block that waits to take an entry. -/
def contended : State := { queued 2 with waves := [{ base.w with key := { base.w.key with wid := 1 }, life := .waiting (.queue 1 false 0 5) }] }
theorem witness_Queues_waiting : contended.waitingPops 1 = [(contended.waves.headD base.w, 0, 5)] ∧
    1 < (pick contended.blk.queues (1 : BitVec 3)).count ∧ (∀ v ∈ contended.waves, v.key = (contended.waves.headD base.w).key → v = contended.waves.headD base.w) ∧
    (contended.waves.headD base.w).key ≠ contended.w.key := by decide +kernel

/-! ### Witnesses: copy engine, launches, snapshots -/

/-- A copy request: 16 bytes from offset 0 to offset 256 of the local area at B, with the chain bit and NEXT. -/
def request (chain next : Nat) : List Byte :=
  leBytes 8 0 ++ leBytes 8 256 ++ leBytes 4 16 ++ leBytes 1 0 ++ leBytes 1 0 ++ leBytes 2 (0x320 + chain) ++ leBytes 4 0 ++ leBytes 4 0 ++
    leBytes 4 0xFFFFFFFF ++ leBytes 4 next ++ leBytes 2 0 ++ leBytes 2 0 ++ leBytes 4 0 ++ leBytes 4 0 ++ leBytes 12 0
/-- `base` with that request at the offset in s2. -/
def kicking (off : Nat) : State :=
  let s := regs [(2, BitVec.ofNat 32 off)]
  { s with blk := { s.blk with scratch := Memory.writeAll [] (placed 1024 (request 0 0)) } }
theorem witness_CopyKickSealWait : Claims.Calm (kicking 1024) ∧ ((kicking 1024).sreg 2).toNat % 64 = 0 ∧
    ((kicking 1024).sreg 2).toNat + 64 ≤ (kicking 1024).blk.localSize ∧ (kicking 1024).co.kicks.length < 32 ∧
    ((kicking 1024).readAt 0 false ⟨true, 0, 1024, 1024, 0, true⟩ 64).2 = false ∧ (kicking 1024).blk.key = (kicking 1024).w.key.block ∧
    ((kicking 65).sreg 2).toNat % 64 ≠ 0 ∧ ((kicking 65536).sreg 2).toNat % 64 = 0 ∧
    (kicking 65536).blk.localSize < ((kicking 65536).sreg 2).toNat + 64 := by decide +kernel

/-- A kick of the wave in focus of that request. -/
def oneKick (err : Nat) (fin started : Bool) (pos : Nat) (raw : List Byte) : Kick :=
  { id := 7, pc := 0x20000, owner := base.w.key, ctx := 0, raw := raw, off := 1024, first := true, started := started, row := 0, pos := pos,
    sum := 0, prevCk := 0, err := err, link := false, ckmm := false, noobj := false, delivered := 0, finished := fin, held := none,
    barslot := none, inj := none, saved := [] }
/-- `base` with kicks in its core's engine, the facts naming the one above. -/
def engine (ks : List Kick) : State :=
  let s := { base with facts := { base.facts with num := 7 }, w := { base.w with batchKicks := put base.w.batchKicks (3 : BitVec 4) [7] } }
  s.setCo { s.co with kicks := ks }
theorem witness_CopyKickSealWait_full : 32 ≤ (engine (List.replicate 32 (oneKick 0 false true 0 (request 0 0)))).co.kicks.length ∧
    (engine [oneKick 0 false true 0 (request 0 0)]).batchDone 3 = false ∧ (engine []).batchDone 3 = true ∧
    (engine []).w.reports.any (fun r => (pick (engine []).w.batchKicks (3 : BitVec 4)).contains r.kick) = false ∧
    ({ engine [] with w := { (engine []).w with reports := [⟨7, 64⟩] } } : State).w.reports.find?
      (fun r => (pick (engine []).w.batchKicks (3 : BitVec 4)).contains r.kick) = some ⟨7, 64⟩ ∧ (3 : DWord).hi = 0 := by decide +kernel
theorem witness_CopyRequests : (engine [oneKick 0 true true 0 (request 1 1024)]).kick 0 7 = some (oneKick 0 true true 0 (request 1 1024)) ∧
    (engine [oneKick 0 false false 0 (request 0 0)]).kick 0 7 = some (oneKick 0 false false 0 (request 0 0)) ∧
    (oneKick 0 true true 0 (request 1 1024)).owner = base.w.key ∧ base.blk.key = base.w.key.block ∧ Claims.Calm base ∧
    ((engine [oneKick 0 true true 0 (request 1 1024)]).core 0).ranges.length < 32 := by decide +kernel
theorem witness_CopyRequests_line : let r := (oneKick 0 false true 0 (request 0 0)).req
    r.opc = 0 ∧ r.sloc = true ∧ r.dloc = true ∧ r.dlvl = 1 ∧ r.obj = 0xFFFFFFFF ∧ 0 < r.rowCount ∧ 0 < r.len ∧
    r.src.toNat % 2 ^ 32 + 16 ≤ base.blk.localSize ∧ r.dst.toNat % 2 ^ 32 + 16 ≤ base.blk.localSize ∧ min r.len (min 64 64) = 16 ∧
    Memory.wf base.blk.scratch ∧ base.blk.poison = [] := by decide +kernel
theorem witness_CopyRequests_end : let r := (oneKick 9 false true 0 (request 1 1024)).req
    (oneKick 9 false true 0 (request 1 1024)).err ≠ 0 ∧ (9 : Nat) < 256 ∧ r.obj = 0xFFFFFFFF ∧ r.chain = true ∧
    (oneKick 0 false true 0 (leBytes 64 0)).req.total = 0 ∧
    (engine [oneKick 9 false true 0 (request 1 1024)]).kick 0 7 = some (oneKick 9 false true 0 (request 1 1024)) := by decide +kernel

/-- A launch record of one gang of one wave at 0x20000 without a handler. -/
def record : List Byte :=
  leBytes 8 0x20000 ++ leBytes 4 0x80000000 ++ leBytes 2 1 ++ leBytes 2 1 ++ leBytes 4 (2 ^ 21 + 2 ^ 16 + 1) ++ leBytes 4 0 ++
    leBytes 16 (1 + 2 ^ 5) ++ leBytes 32 0 ++ leBytes 24 0 ++ leBytes 24 0 ++ leBytes 2 0xFFFF ++ leBytes 6 0
/-- `base` with that record at 0x30000 and queue 5, fed by the context, of some records. -/
def feeding (tail : Word) : State :=
  let s : State := { base with mem := base.mem.writeAll (placed 0x30000 record) }
  let s := s.setCx { s.cx with bclmask := 1, savesize := 2 ^ 20 }
  (s.setQueue 5 { LQueue.reset with qbase := 0x40000, en := true, src := true, qsize := 2, tail := tail }).setS 2 5
theorem witness_LaunchQueues : (feeding 1).spair 0 = 0x30000 ∧ ((feeding 1).queue 5).src = true ∧ ((feeding 1).queue 5).en = true ∧
    ((feeding 1).queue 5).ctx.toNat = (feeding 1).w.ctx.toNat ∧ ((feeding 1).queue 4).src = false ∧
    (((feeding 1).queue 5).tail - ((feeding 1).queue 5).head).toNat < ((feeding 1).queue 5).qsize ∧
    ((feeding 2).queue 5).qsize ≤ (((feeding 2).queue 5).tail - ((feeding 2).queue 5).head).toNat ∧
    (Rec.ofBytes record).reason (feeding 1).cx (feeding 1).dev.gbres = 0 ∧
    (Rec.ofBytes (leBytes 128 0)).reason (feeding 1).cx (feeding 1).dev.gbres ≠ 0 ∧
    (((commitTo 3 (feeding 1)).toOption.any fun u => !u.2.leftRegion u.2.w.ctx 0x30000 0x30000 &&
      (u.2.regionCheck u.2.w.ctx { r := true } 0x30000 128).toOption.isSome && (lnchLine 0x30000 u.2).toOption.any fun v =>
        (lnchLine (0x30000 + 64) v.2).toOption.any fun x => decide (v.1 ++ x.1 = record) &&
          (lnchWrite ((feeding 1).queue 5) record x.2).toOption.isSome) = true) := by decide +kernel

/-- `base` with a snapshot of the line at 0x30000 in slot 2 whose old bytes it holds, and its handle in s2. -/
def snapped : State :=
  { regs [(2, 0x12)] with snaps := [⟨0, 2, 0x30000, 0x30000, 0x30000, 64, none, 1, 1, [(0xC00, leBytes 64 5, false)], false⟩] }
theorem witness_SnapshotsTaken : (base.spair 0).extractLsb' 0 6 = 0#6 ∧ (64 : DWord).hi = 0 ∧ (64 : DWord).lo.toNat % 64 = 0 ∧
    base.leftRegion base.w.ctx 0x30000 0x30000 = false ∧ base.leftRegion base.w.ctx 0x30000 (0x30000 + BitVec.ofNat 64 (64 - 1)) = false ∧
    base.regionCheck base.w.ctx { r := true, w := true } 0x30000 64 = .ok 0x30000 ∧
    base.translate base.w.ctx 0x30000 = .leaf (leafAt base 0x30000) ∧ base.restores = [] ∧
    ((base.runAt base.w.ctx 0x30000).any fun x => decide (64 ≤ x.2.2.2)) = true ∧ (leafAt base 0x30000).coh = true ∧
    (leafAt base 0x30000).dev = base.dev.devnum ∧ base.snaps = [] ∧ (base.setCx { base.cx with poolsize := 4 }).cx.poolsize ≠ 0 ∧
    base.cx.poolsize = 0 ∧ base.xtHeld (base.spair 0) = none ∧ (awaiting 0x10000).xtHeld ((awaiting 0x10000).spair 0) = some (0, 1024) := by
  decide +kernel
theorem witness_SnapshotsTaken_accept : snapped.snapOf snapped.w.ctx (snapped.sreg 2) = snapped.snaps.head? ∧
    snapped.snapOf snapped.w.ctx (snapped.sreg 3) = none ∧ snapped.restores = [] ∧
    (snapped.snaps.head?.map fun h => snapped.subtree h) = some snapped.snaps := by decide +kernel
theorem witness_SnapshotsRejected : snapped.restores = [] ∧ snapped.parts = [] ∧
    snapped.w.wbuf.inRange snapped.dev.devnum 0x30000 64 = false ∧ snapped.blk.place.inRange snapped.dev.devnum 0x30000 64 = false ∧
    snapped.gang.place.inRange snapped.dev.devnum 0x30000 64 = false ∧
    ({ snapped.w.wbuf with lines := [⟨false, 0, 0xC00, 0, 0, true, [], false, .place, none, false⟩] } : Place).inRange 0 0x30000 64 = true := by decide
/-- `snapped` while the restore is down to its last line. -/
def restoring : State := { snapped with restores := [⟨0, [2], 0x30000, 64, [(0xC00, leBytes 64 5, false)], base.w.key⟩] }
theorem witness_SnapshotsRejected_complete : restoring.restores.find? (fun x => x.ctx = restoring.facts.ctx) = restoring.restores.head? ∧
    (leBytes 64 5).length = 64 ∧ restoring.parts = [] ∧ (∀ p ∈ restoring.snaps, p.ctx = 0) ∧ restoring.vaultFenced (64 * 0xC00) = false ∧
    Memory.wf restoring.mem ∧ restoring.w.life ≠ .ended := by decide +kernel
theorem witness_SnapshotsRejected_pool : let s : State := { base with poolWait := [(0, .wave)] }
    s.poolWait.find? (fun e => e.1 = s.facts.ctx) = some (0, .wave) ∧ s.snaps = [] ∧ s.poolFree s.facts.ctx = 0 ∧
    snapped.poolFree snapped.facts.ctx = 0 ∧ (∃ p ∈ snapped.snaps, p.ctx = snapped.facts.ctx) ∧ (0 : Nat) < snapped.poolUsed snapped.facts.ctx ∧
    s.poolUsed s.facts.ctx ≤ 2 ^ 28 := by decide +kernel

/-! ### Witnesses: tile array -/

theorem witness_TileArithmetic : ([1, 2] : List Int).length = ([3, -4] : List Int).length ∧
    -(2 ^ 31) ≤ (0 : Word).toInt + ([3, -8] : List Int).sum ∧ (0x80000000 : Word).toInt + ([-1] : List Int).sum < -(2 ^ 31) ∧
    2 ^ 31 ≤ (0x7FFFFFFF : Word).toInt + ([1] : List Int).sum ∧ (FloatFmt.f32.read 0x3F800000).isNaN = false := by decide
/-- `base` with accumulator 2 bound to slot 5, its loops and its failure. -/
def slotted (loops : List Loop) (failed : Bool) : State :=
  let s := { base with w := { base.w with accs := base.w.accs.set 2 (some 5) } }
  let s := s.setSlot 5 { Slot.bound (some s.w.key) with failed := failed }
  s.setCo { s.co with loops := loops }
/-- MLOOP of one step on S8x4 planes, and the loop it makes. -/
def mloop1 : ML := { mode := 1, sb := 3, sa := 2, acc := 2, la := 0, pb := 1, fmtB := 12, pa := 1, fmtA := 12, incB := 0, incA := 0, steps1 := 0 }
@[inherit_doc mloop1] def loop1 (running failed : Bool) (formed done : Nat) (buf : List Formed) : Loop :=
  ⟨9, base.w.key, 5, 0x20000, mloop1, 0, 8192, formed, done, buf, 0, false, running, failed⟩
theorem witness_AccumulatorControl : Claims.Idle (slotted [] false) 5 ∧ (slotted [] false).boundSlot 2 = some 5 ∧ base.boundSlot 2 = none ∧
    ({ base with w := { base.w with quota := 0 } } : State).w.quota ≤ (base.w.accs.toList.countP fun x => x.isSome) ∧
    (base.w.accs.toList.countP fun x => x.isSome) < base.w.quota ∧ (base.slot 0).owner = none ∧
    (slotted [loop1 true false 0 0 []] false).co.slotBusy 5 = true ∧ (slotted [] true).co.slotBusy 5 = false ∧
    ((slotted [] true).slot 5).failed = true := by
  refine ⟨?_, by decide⟩
  unfold Claims.Idle; decide
theorem witness_AccumulatorControl_full : ∀ i : BitVec 4, ((base.setCo { base.co with slots := Vector.replicate 16 (Slot.bound (some base.w.key)) }).slot i).owner ≠ none := by
  decide +kernel
theorem witness_AccumulatorMoves : (base.sreg 2).toNat % 64 = 0 ∧ (base.sreg 2).toNat + 24576 ≤ base.blk.localSize ∧
    ((regs [(2, 40960)]).sreg 2).toNat + 24576 ≤ base.blk.localSize ∧ ((regs [(2, 1)]).sreg 2).toNat % 64 ≠ 0 ∧
    base.rangeHeld true 0 24576 = false ∧ base.blk.taggedSlot 0 24576 = none ∧ base.blk.poison = [] ∧ Memory.wf base.blk.scratch ∧
    Claims.Unbound (slotted [] false) ((slotted [] false).slot 5).bnd ∧ Claims.Unbound base 0 ∧
    ((bind 2 base).toOption.any fun x => decide (x.2.co.slotBusy x.1 = false ∧ (x.2.slot x.1).failed = false ∧ x.2.rangeHeld false 0 24576 = false)) = true := by
  decide +kernel
theorem witness_AccumulatorMoves_columns : (Instr.acrd (vx 2 0 0 200 0 0 0 0 0 0 0 63)).wellFormed = true ∧ 200 < base.w.valloc ∧
    Claims.Unbound base ((vxOp (vx 2 0 0 200 0 0 0 0 0 0 0 63)).bnd base) ∧ (slotted [] false).boundSlot (vx 2 0 0 200 0 0 0 0 0 0 0 63).f = some 5 ∧
    (Instr.acwr (vx 2 0 1 0 0 0 0 0 0 0 0 63)).wellFormed = true ∧ ((tagged .s32).vreg 1).fmt = .s32 ∧ (base.vreg 1).fmt ≠ .f32 ∧
    (base.vreg 1).fmt ≠ .s32 ∧ (bind 2 (tagged .s32)).toOption.isSome = true := by decide +kernel
theorem witness_TileLoops : Claims.planesOk (mlA mloop1) ∧ Claims.planesOk (mlB mloop1) ∧ Claims.stepsInside base true 0 0 (mlA mloop1) 1 ∧
    Claims.stepsInside base false 8192 0 (mlB mloop1) 1 ∧ mloop1.ok = true ∧ mlAcc mloop1 ≠ 0 ∧
    tileInt mloop1.fmtA.toNat = true ∧ tileInt mloop1.fmtB.toNat = true ∧ ((regs [(3, 8192)]).sreg 2).toNat % 16 = 0 ∧
    ((regs [(3, 8192)]).sreg 3).toNat % 16 = 0 ∧ ((regs [(2, 8)]).sreg 2).toNat % 16 ≠ 0 ∧
    (List.replicate 8 (loop1 false false 0 0 [])).length = 8 ∧ base.co.loops.length < 8 ∧ base.co.ranges.length + 2 ≤ 32 ∧
    ((bind 2 base).toOption.any fun x => (x.2.slot x.1).failed == false) = true := by
  refine ⟨⟨_, _, _, rfl, by decide, by decide⟩, ⟨_, _, _, rfl, by decide, by decide⟩, ?_, ?_, by decide +kernel⟩ <;>
    unfold Claims.stepsInside <;> decide
theorem witness_TileLoops_format : ¬ Claims.planesOk (1, 1) := by
  rintro ⟨n, lo, hi, h, -, -⟩
  exact absurd (show tileFmt 1 = none by decide) (by rw [show tileFmt 1 = some (n, lo, hi) from h]; simp)
/-- A step whose array sums are exact, one that is off, and the sequencer at a loop. -/
def step1 (arr : Int) : Formed := ⟨[[.fin arr]], [[.fin 0]], false, 0⟩
def sequencing (l : Loop) : State := slotted [l] false
theorem witness_TileLoops_sequencer : ((sequencing (loop1 true false 0 0 [])).core (sequencing (loop1 true false 0 0 [])).facts.core).loops =
      [loop1 true false 0 0 []] ∧ (loop1 true false 0 0 []).formed < mlSteps mloop1 ∧ (loop1 true false 0 0 []).buf.length < 2 ∧
    (loop1 true false 0 0 []).blocked ((sequencing (loop1 true false 0 0 [])).core 0) 0 = false ∧
    (sequencing (loop1 true false 0 0 [])).findBlock (loop1 true false 0 0 []).owner.block = some base.blk ∧
    (∀ w, (sequencing (loop1 true false 0 0 [])).findWave base.w.key = some w → injArm w.errinj = false) ∧
    (sequencing (loop1 true false 0 0 [])).facts.flip = none ∧ (step1 0).arr = (step1 0).exact ∧ (step1 1).agrees = false ∧
    (loop1 true false 1 1 []).done = mlSteps mloop1 ∧ (step1 1).arr ≠ (step1 1).exact := by
  refine ⟨by decide +kernel, by decide, by decide, by decide +kernel, rfl, ?_, by decide, by decide, by decide, by decide, by decide⟩
  intro w h
  have : (sequencing (loop1 true false 0 0 [])).findWave base.w.key = some (sequencing (loop1 true false 0 0 [])).w := rfl
  rw [this] at h
  obtain rfl := Option.some.inj h
  decide

/-! ### Witnesses: events -/

/-- `base` with facts. -/
def told (f : Facts → Facts) (s : State := base) : State := { s with facts := f s.facts }
/-- `base` with a life of its wave, which the facts name, and its core's CYCLE. -/
def living (l : Life) (cycle : Nat) : State :=
  let s := told (fun f => { f with wave := base.w.key }) (withW fun w => { w with life := l })
  s.setCo { s.co with cycle := cycle }
theorem witness_WaveEvents : (living (.waiting (.yield 0 [])) 64).findWave base.w.key = some (living (.waiting (.yield 0 [])) 64).w ∧
    0 + 64 ≤ ((living (.waiting (.yield 0 [])) 64).core 0).cycle ∧ ((living (.waiting (.yield 0 [])) 63).core 0).cycle < 0 + 64 ∧
    (living .ready 0).w.life = .ready ∧ (living .ready 0).w.status.getLsbD 1 = false ∧ (living .ready 0).dev.halt = false ∧
    (living .ready 0).findWave base.w.key = some (living .ready 0).w ∧ base.w.saved = false ∧ base.w.key.launch ≠ 0 :=
  ⟨rfl, by decide, by decide, rfl, by decide, rfl, rfl, rfl, by decide⟩
theorem witness_WaveEvents_watchdog : let s := living (.waiting (.barrier 1 false)) (2 ^ 26)
    s.findWave base.w.key = some s.w ∧ s.w.saved = false ∧ Wait.watched (.barrier 1 false) = true ∧ s.dev.halt = false ∧
    s.waitOver s.w (.barrier 1 false) = false ∧ s.waitOver s.w (.barrier 1 true) = true ∧ base.w.waitFrom + 2 ^ (s.ctxOf 0).wdogk ≤ (s.core 0).cycle ∧
    ((living (.waiting (.barrier 1 false)) 5).core 0).cycle < base.w.waitFrom + 2 ^ (base.ctxOf 0).wdogk :=
  ⟨rfl, rfl, by decide, rfl, rfl, rfl, by decide, by decide⟩
/-- A wave that holds two bytes in its stack cache. -/
def caching : State :=
  told (fun f => { f with wave := base.w.key, num := 2 }) (withW fun w => { w with stk := [⟨0x100000, 0x100000, 0, 0x100000, true, 1⟩, ⟨0x100001, 0x100001, 0, 0x100001, true, 2⟩] })
theorem witness_WaveEvents_stack : caching.facts.wave = caching.w.key ∧ Claims.Clear caching ∧ (∀ b ∈ caching.w.stk.take caching.facts.num, b.dev = caching.dev.devnum) ∧ ∃ u, stkWriteBack (caching.w.stk.take caching.facts.num) caching = .ok ((), u) := by
  obtain ⟨_, u, e⟩ := ran (r := stkWriteBack (caching.w.stk.take caching.facts.num) caching) (by decide +kernel)
  exact ⟨by decide, ⟨rfl, rfl, rfl⟩, by decide, u, e⟩
/-- `base` with an instruction's words at its pc, which the facts name with a cause of a flush. -/
def checking (i : Instr) (c : FlushCause) : State :=
  told (fun f => { f with wave := base.w.key, flush := c }) { base with mem := base.mem.writeAll (placed 0x20000 ((encode i).flatMap fun w => leBytes 4 w.toNat)) }
theorem witness_WaveEvents_checker : (∀ i ∈ [Instr.vrcp 1 2, .wend],
      ((checking i .result).nextOf base.w.key).map (·.2) = some (some i) ∧ (checking i .result).findWave base.w.key = some base.w) ∧
    resultUnit (.vrcp 1 2) = some 2 ∧ resultUnit .wend = none ∧ (checking .nop (.value [5])).facts.flush = .value [5] ∧
    base.mayIssue base.w = true ∧ base.w.byChecker = false ∧ base.w.ckOnly = false ∧ base.facts.bad = none ∧
    (withW fun w => { w with ckOnly := true, tvec := 0x40 }).w.ckOnly = true ∧ Claims.CanHandle (withW fun w => { w with ckOnly := true, tvec := 0x40 }) := by
  refine ⟨by decide +kernel, by decide, by decide, rfl, by decide, rfl, rfl, rfl, rfl, ?_⟩; unfold Claims.CanHandle; decide
theorem witness_WaveEvents_heat : (100 : Nat) ≤ (told fun f => { f with addr := 100 }).facts.addr ∧ ¬ (100 : Nat) ≤ (told fun f => { f with addr := 99 }).facts.addr ∧
    (110 : Nat) ≤ (told fun f => { f with addr := 110 }).facts.addr ∧ (told fun f => { f with addr := 109 }).facts.addr < 110 := by decide

/-- Queue 5 of context 0 with one record at its head: SRC, and the record's bytes. -/
def waitingQueue (src : Bool) (bs : List Byte) : State :=
  let s : State := told (fun f => { f with queue := 5 }) { base with mem := base.mem.writeAll (placed 0x40000 bs) }
  let s := s.setCx { s.cx with bclmask := 1, savesize := 2 ^ 20 }
  s.setQueue 5 { LQueue.reset with qbase := 0x40000, en := true, src := src, qsize := 2, tail := 1 }
theorem witness_LaunchLife : let s := waitingQueue false record; let q := s.queue 5
    q.en = true ∧ q.qsize ≠ 0 ∧ q.head ≠ q.tail ∧ q.state ≠ 2 ∧ q.pend = none ∧ q.ctx.toNat < 4096 ∧ (s.ctxOf 0).en = true ∧ s.heldLaunches < 64 ∧
    s.ctxWaits 0 { r := true } 0x40000 128 = none ∧ s.ctxPlace 0 { r := true } 0x40000 128 = some 0x40000 ∧ Rec.ofBytes (s.homeBytes 0x40000 128) = Rec.ofBytes record ∧
    (Rec.ofBytes record).reason (s.ctxOf 0) s.dev.gbres = 0 ∧ (∀ x ∈ s.allLaunches, x.id ≠ s.dev.nextLaunch) := by decide +kernel
theorem witness_LaunchLife_rejected : let s := waitingQueue false (leBytes 128 0)
    (Rec.ofBytes (s.homeBytes 0x40000 128)).reason (s.ctxOf 0) s.dev.gbres ≠ 0 ∧
    ({ s with mem := [] } : State).ctxWaits 0 { r := true } 0x40000 128 = none ∧ ({ s with mem := [] } : State).ctxPlace 0 { r := true } 0x40000 128 = none ∧
    (awaiting 0x40040).ctxWaits 0 { r := true } 0x40000 128 = some (some (0, 4097)) ∧ away.ctxWaits 0 { r := true } 0x40000 128 = some none ∧ (waitingQueue true record).queue 5 = { LQueue.reset with qbase := 0x40000, en := true, src := true, qsize := 2, tail := 1 } := by
  decide +kernel
/-- `base` whose launch is in a state, named by the facts. -/
def launched (st : LaunchState) (f : Launch → Launch) : State :=
  told (fun f => { f with launch := 1 }) { base with launch := f { base.launch with state := st } }
theorem witness_LaunchLife_states : (launched .waiting id).findLaunch 1 = some (launched .waiting id).launch ∧ (launched .waiting id).launch.state = .waiting ∧
    ((launched .waiting id).evaluate (launched .waiting id).launch).depsMet.all id = true ∧
    ((launched .waiting fun l => { l with depsMet := [false], record := { l.record with deps := [(0, 1)] } }).evaluate
      (launched .waiting fun l => { l with depsMet := [false], record := { l.record with deps := [(0, 1)] } }).launch).depsMet.all id = false ∧
    (∀ x, (launched .waiting fun l => { l with depsMet := [false], record := { l.record with deps := [(0, 1)] } }).depWaits
      (launched .waiting fun l => { l with depsMet := [false], record := { l.record with deps := [(0, 1)] } }).launch ≠ some (some x)) ∧
    (launched .ready id).firstReady (launched .ready id).launch = true ∧ (launched .ready id).launch.record.gongLvl.countP (· != 0) ≤ (launched .ready id).freeTags := by
  refine ⟨by decide +kernel, by decide +kernel, by decide +kernel, by decide +kernel, fun x h => ?_, by decide +kernel, by decide +kernel⟩
  have e : (launched .waiting fun l => { l with depsMet := [false], record := { l.record with deps := [(0, 1)] } }).depWaits
      (launched .waiting fun l => { l with depsMet := [false], record := { l.record with deps := [(0, 1)] } }).launch = none := by decide +kernel
  rw [e] at h
  cases h
/-- A launch in Waiting that declares one Gong tag, beside a Ready one of its priority. -/
def declaring (ready : Bool) : State :=
  { launched .waiting fun l => { l with record := { l.record with gongLvl := [1] } } with
    launches := if ready then [{ base.launch with id := 2, state := .ready }] else [] }
theorem witness_LaunchLife_tags : ∀ r, ((declaring r).evaluate (declaring r).launch).depsMet.all id = true ∧
    (declaring r).launch.record.gongLvl.countP (· != 0) = 1 ∧ 1 ≤ (declaring r).freeTags ∧
    ((∀ k ∈ (declaring r).allLaunches, k.id ≠ 0 → k.state = .ready → k.record.prio < (declaring r).launch.record.prio) ↔ r = false) := by decide +kernel
theorem witness_LaunchLife_completes : let s := launched .running fun l => { l with retired := 1 }
    Claims.Open s ∧ s.findLaunch s.facts.launch = some s.launch ∧ s.launch.id ≠ 0 ∧ s.launch.state = .running ∧ s.launch.record.gangs ≤ s.launch.retired ∧
    (s.queue s.launch.queue).notify = false ∧ s.launch.record.doneIdx = 0xFFFF ∧
    s.ctxWaits s.launch.ctx ⟨true, true, true⟩ 28 4 = none ∧ (awaiting 0).ctxWaits 0 ⟨true, true, true⟩ 28 4 = some (some (0, 0)) ∧
    away.ctxWaits 0 ⟨true, true, true⟩ 28 4 = some none ∧ unmapped.ctxWaits 0 ⟨true, true, true⟩ 28 4 = none ∧ unmapped.ctxPlace 0 ⟨true, true, true⟩ 28 4 = none ∧
    s.ctxPlace s.launch.ctx ⟨true, true, true⟩ ((s.ctxOf 0).evbase + BitVec.ofNat 64 (4 * 7)) 4 = some 28 ∧ (s.ctxOf s.launch.ctx).killing = false ∧
    s.vaultFenced (64 * lineOf 28) = false ∧ Memory.wf s.mem :=
  ⟨⟨⟨rfl, rfl, rfl⟩, fun _ h => nomatch h⟩, by decide +kernel⟩

/-- `base` beside a launch in Placing whose first gang is to start, on a device whose class 0 has all cores and no other budget. -/
def placing : State :=
  let s : State := { base with dev := { base.dev with budgets := put base.dev.budgets (0 : BitVec 4) ⟨512, 0, 0, 0, 0⟩ } }
  { s with launches := [{ base.launch with id := 2, state := .placing, nextGang := 0, record := Rec.ofBytes record }] }
    |>.setCx { base.cx with stkcount := 8, savecount := 8 }
/-- The launch to place. -/
def toPlace : Launch := placing.launches.headD base.launch
/-- The best quad of a list that holds one that the gang fits is one that it fits. -/
theorem bestQuad_fits (s : State) (l : Launch) : ∀ (qs : List QuadId) (q : QuadId), q ∈ qs → (s.reserving q).isNone = true → s.bufferFits l q = true →
    s.fitNew l q ≠ 0 → ∃ r, s.bestQuad l qs = some r ∧ s.fitNew l r.1 ≠ 0 := by
  have fits : ∀ (qs : List QuadId) r, s.bestQuad l qs = some r → s.fitNew l r.1 ≠ 0 := by
    intro qs
    induction qs with
    | nil => simp [State.bestQuad]
    | cons a as ih =>
      intro r h
      simp only [State.bestQuad] at h
      repeat' split at h
      all_goals first | exact ih r h | (cases h; simp_all)
  intro qs q hq h1 h2 h3
  suffices h : (s.bestQuad l qs).isSome = true by
    obtain ⟨r, e⟩ := Option.isSome_iff_exists.mp h
    exact ⟨r, e, fits qs r e⟩
  induction qs with
  | nil => cases hq
  | cons a as ih =>
    simp only [State.bestQuad]
    rcases List.mem_cons.mp hq with rfl | hm
    · simp only [h1, h2, Bool.and_self, if_true, h3, if_false]
      repeat' split
      all_goals simp_all
    · have := ih hm
      repeat' split
      all_goals simp_all
/-- A device whose one candidate is a new gang with room and without a budget but for the cores starts it. -/
theorem nextStart_fresh (s : State) (l : Launch) (cores : Nat) (used : Nat × Nat) (h : s.candidates = [.fresh l] ∧ s.slotsLeft l.ctx ≠ 0 ∧
      pick s.dev.budgets (BitVec.ofNat 4 l.record.bclass) = ⟨cores, 0, 0, used.1, used.2⟩ ∧ (s.classCores l.record.bclass).length < cores ∧
      (s.reserving 0).isNone = true ∧ s.bufferFits l 0 = true ∧ s.fitNew l 0 ≠ 0) :
    ∃ q, s.nextStart false s.candidates = some (.fresh l, q) := by
  obtain ⟨hc, hs, hb, hn, h1, h2, h3⟩ := h
  obtain ⟨⟨q, k⟩, e, h⟩ := bestQuad_fits s l allQuads 0 (by decide) h1 h2 h3
  cases hx : pickCore l.record (s.quadOcc q) with
  | none =>
    refine absurd ?_ h
    have : ∀ n, fitCount l.record n (s.quadOcc q) = 0 := by intro n; cases n <;> simp [fitCount, hx]
    simp [State.fitNew, this]
  | some x =>
    have h4 := (List.dedup_sublist (s.classCores l.record.bclass ++ [x.1])).length_le
    simp only [List.length_append, List.length_singleton] at h4
    have hb : s.budgetOk l.record x.1 = true := by simp [State.budgetOk, State.budgetFor, hb]; omega
    exact ⟨q, by simp [hc, State.nextStart, State.placeOf, State.placeNew, e, hx, hb, hs]⟩
theorem witness_Placement_fresh : ∃ q, placing.nextStart false placing.candidates = some (.fresh toPlace, q) :=
  nextStart_fresh placing toPlace 512 (0, 0) (by decide +kernel)
/-- The same once that gang has started on quad 0, which the facts name. -/
def reserved : State := told (fun f => { f with quad := 0 }) { placing with gangs := [{ base.gang with key := ⟨2, 0⟩, quad := 0, state := .placing, placed := 0, blocks := 1 }] }
theorem witness_Placement : ((reserved.reserving 0).map (·.key)) = some ⟨2, 0⟩ ∧ (reserved.findLaunch 2).isSome = true ∧ (reserved.ctxOf 0).switchedOut = false ∧
    toPlace.record.waves.length ≤ (reserved.freeSlices 0).length ∧ ((pickCore toPlace.record (reserved.quadOcc 0)).any fun x => reserved.budgetOk toPlace.record x.1) = true ∧
    ((told fun f => { f with launch := 1 }).findGang (told fun f => { f with launch := 1 }).facts.gangKey).isSome = true ∧
    ({ base.gang with state := .saved } : Gang).state = .saved ∧ base.gang.key.launch ≠ 0 ∧ toPlace.unplaced = true := by decide +kernel
theorem witness_Placement_retires : let s : State := told (fun f => { f with launch := 1 }) { base with w := { base.w with life := .ended }, gang := { base.gang with killed := true, blocks := 2 } }
    s.findBlock s.facts.block = some s.blk ∧ s.findGang s.blk.key.gangKey = some s.gang ∧ s.gang.state = .resident ∧ s.blk.retired = false ∧
    (∀ w ∈ s.allWaves, w.key.block = s.blk.key → w.life = .ended) ∧ (s.busyWork fun k => k.block == s.blk.key) = false ∧
    s.gang.killed = true ∧ s.gang.placed ≠ s.gang.blocks := by decide +kernel

theorem witness_ParksAndShootdowns : let s := withW fun w => { w with life := .parked ⟨.page, 5, false, none⟩ }
    (s.parkedAs 0 5).isSome = true ∧ s.gangWaves s.w.key.gangKey = [s.w] ∧ s.gang.key = s.w.key.gangKey ∧ s.gang.state = .resident :=
  ⟨by decide +kernel, rfl, rfl, rfl⟩
theorem witness_ParksAndShootdowns_held : let s := engine [{ oneKick 0 false true 0 (request 0 0) with held := some ⟨.page, 5, false, none⟩ }]
    s.parkedAs 0 5 = none ∧ (s.heldAs 0 5).isSome = true := by decide +kernel
theorem witness_ParksAndShootdowns_shoot : (base.ctxOf 0).shrecall = false ∧ base.underWay 0 = false ∧ base.restores = [] ∧ base.parts = [] ∧ (∀ w ∈ base.allWaves, w.stk = []) ∧ (base.ctxOf 0).flctl = false ∧
    ((base.setCx { base.cx with flctl := true }).ctxOf 0).flctl = true ∧ (base.core 0).cache = [] := by decide +kernel
theorem witness_ParksAndShootdowns_flush : ∀ k, (State.reset.core k).cache = [] ∧ (State.reset.core k).ckc = [] := by
  intro k
  simp only [State.core, State.reset, pick, Vector.getElem_replicate]
  exact ⟨rfl, rfl⟩
/-- A write to device 1 whose acknowledgement has not come. -/
theorem witness_ParksAndShootdowns_waits :
    let s : State := { base.setCo { base.co with writes := [⟨base.w.key, 0, 1, ⟨1, 0, 0, true, none, false⟩, [(0, 1)], false⟩] } with peers := [peer1] }
    s.underWay 0 = true ∧ s.restores = [] ∧ s.parts = [] := by decide +kernel

theorem witness_ContextsAndQueues : let s : State := told (fun f => { f with ctx := 7, val := 0x80000000 })
    (s.ctxOf 7).en = false ∧ s.facts.val.lo.getLsbD 31 = true ∧ s.dev.powered = true ∧ s.dev.fwState ≠ .recovery ∧
    s.facts.val.lo.getLsbD 30 = false ∧ (base.ctxOf 0).en = true ∧ (base.ctxOf 0).killing = false ∧ base.fwHolds = false ∧
    State.fwHolds { base with dev := { base.dev with fwState := .probation } } = true ∧
    (∀ g ∈ base.residentGangs, g.ctx = 0 → g.state ≠ .saving) ∧ base.restores = [] ∧
    (let s : State := { base with gang := { base.gang with state := .saving } }
     ∃ g ∈ s.residentGangs, g.ctx = 0 ∧ g.state = .saving) ∧
    base.busyWork (fun k => base.allWaves.any fun w => w.key == k && w.ctx == 0) = false := by decide +kernel
theorem witness_ContextsAndQueues_rings : ((waitingQueue false record).queue 5).src = false ∧ ((waitingQueue true record).queue 5).src = true ∧
    ((2 : Word) - ((waitingQueue false record).queue 5).head).toNat ≤ ((waitingQueue false record).queue 5).qsize ∧
    ((waitingQueue false record).queue 5).qsize < ((3 : Word) - ((waitingQueue false record).queue 5).head).toNat ∧
    base.dev.heldRecs = [] ∧ base.dev.traceLost = 0 ∧ base.parts = [] ∧ base.snaps = [] ∧ base.restores = [] ∧ (base.core 0).bin ≠ 3 ∧ (0x10000 : Word).toNat = 64 * 2 ^ 10 ∧
    (let t : State := { base with dev := { base.dev with trace := { base.dev.trace with size := 64 }, smpEn := true } }
     t.dev.trace.size ≠ 0 ∧ t.dev.trace.pending < t.dev.trace.size ∧ (t.core 0).cycle % 2 ^ 16 = 0 ∧ t.dev.smpEn = true) ∧ base.dev.smpEn = false ∧
    base.dev.trace.size = 0 ∧ base.dev.trace.size ≤ base.dev.trace.pending ∧ (Ring.pending { base.dev.trace with tail := 64 }) = 64 := by
  decide +kernel

/-- `base` with that peer, changed, and facts. -/
def domain (f : Peer → Peer) (g : Facts → Facts) : State := told (fun x => g { x with dev := 1 }) { base with peers := [f peer1] }
theorem witness_Fabric_links : let s : State := { base with ports := base.ports.set 0 ⟨true, false, 16⟩ }
    s.ports[s.facts.port].up = true ∧ s.ports[s.facts.port].retraining = false ∧ 16 ≤ s.ports[s.facts.port].replays ∧
    (s.links[s.facts.port]).retrains ≠ 3 ∧ (base.ports.set 0 ⟨true, true, 16⟩)[s.facts.port].retraining = true := by decide +kernel
theorem witness_Fabric_loss : (domain id id).peer 1 = some peer1 ∧
    (domain (fun p => { p with route := .down }) id).peer 1 = some { peer1 with route := .down } ∧
    ({ base.dev with ftime := 20000000 } : Device).ftime ≥ peer1.downFrom + 20000000 ∧ peer1.lost = false := by decide +kernel
theorem witness_Fabric_arrivals : let s := domain id fun f => { f with addr := 0x30000, size := 8, data := [1, 2], num := 1 }
    s.peer s.facts.dev = some peer1 ∧ Claims.Open s ∧ s.facts.id.toNat < 2 ∧ s.facts.bad = none ∧ s.facts.data ≠ [] ∧ peer1.lost = false ∧ Memory.wf s.mem ∧ s.vaultFenced (64 * lineOf 0x30000) = false ∧
    inMemory 0x30000 8 = true ∧ inMemory 0x30000 2 = true ∧ inMemory 0xBFFFFFFFFF 2 = false ∧ 0x30000 % 64 + 2 ≤ 64 ∧ BitVec.ofNat 32 s.facts.num = peer1.performed + 1 ∧
    peer1.held = [] ∧ s.facts.ok = true ∧ notAfter 0 peer1.performed = true ∧ updateOnly s.facts.op.aop = false ∧ s.poisoned 0x30000 = false ∧
    inMemory 0x30000 s.facts.op.bytes = true ∧ peer1.table = [] := by
  refine ⟨by decide +kernel, ⟨⟨rfl, rfl, rfl⟩, fun e h => by cases h⟩, by decide +kernel⟩
theorem witness_Fabric_answers : notAfter (BitVec.ofNat 32 (domain (fun p => { p with outPerformed := 3 }) fun f => { f with num := 3 }).facts.num) 3 = true ∧
    notAfter 1 peer1.outPerformed = false ∧ BitVec.ofNat 32 (domain id fun f => { f with num := 1 }).facts.num = peer1.outPerformed + 1 ∧ peer1.outHeld = [] ∧ peer1.route = .up ∧
    (let s : State := { (domain id fun f => { f with num := 1 }) with
       gang := { base.gang with place := ⟨[⟨false, 1, 4, 256, 256, true, [(0, 5)], false, .place, some ⟨1, 0, 0, true, none, false⟩, false⟩], false⟩ } }
     ((s.unacked 1 1).any fun x => x.1.last && x.1.red.isNone && x.1.pseq == 1) = true ∧ s.parts = []) ∧
    (let s := domain id fun f => { f with tag := 3 }
     ((s.setCo { s.co with atomics := [⟨3, base.w.key, 0, 1, 256, ⟨0, false, 1, 0⟩, false, none, 0, []⟩] }).waiting 0 3).isSome = true) ∧
    (let s := told (fun f => { f with wave := base.w.key }) (withW fun w => { w with life := .waiting (.remote #v[1, 0, 0] 0x30000 1) })
     s.facts.wave = s.w.key ∧ s.w.key.launch ≠ 0 ∧ s.w.saved = false ∧ s.dev.halt = false ∧ s.gang.key = s.w.key.gangKey ∧ s.gang.state = .resident ∧
     s.w.life = .waiting (.remote #v[1, 0, 0] 0x30000 1) ∧ s.atWend s.w.key = false ∧ (s.setW s.w.wbuf).w.life ≠ .waiting (.wbfull 0)) := by
  decide +kernel
theorem witness_Fabric_deadline : (domain (fun p => { p with outTable := [⟨0, 3, 5, 0⟩] }) fun f => { f with tag := 3 }).peers.find?
      (fun p => p.outTable.any fun e => e.core == 0 && e.tag == 3) = some { peer1 with outTable := [⟨0, 3, 5, 0⟩] } ∧
    (base.core 0).atomics = [] := by decide +kernel

/-- `base` with firmware registers. -/
def firmware (f : Device → Device) : State := { base with dev := f base.dev }
theorem witness_FirmwareAndUnits : Claims.Clear base ∧ base.dev.fwState = .idle ∧ base.dev.fwRole ≠ 3 ∧ base.dev.featack[0].getLsbD 3 = false ∧
    (firmware fun d => { d with featack := d.featack.set 0 8 }).dev.featack[0].getLsbD 3 = true ∧
    (checkImage (base.homeBytes 0 0) 0 0 0 base.dev.running[runningIndex 0 0]).getRight?.isSome = true ∧ base.spanFirst 0 0 = none ∧
    ((awaiting 0x10).spanFirst 0 32).isSome = true := ⟨⟨rfl, rfl, rfl⟩, by decide +kernel⟩
/-- An image of the management role, staged. -/
def image1 : Image := ⟨0, 0, 1, 0, true, []⟩
theorem witness_FirmwareAndUnits_swap : (firmware fun d => { d with fwState := .staged, staged := some image1 }).dev.staged = some image1 ∧
    (let s := firmware fun d => { d with fwState := .handover, staged := some image1, previous := none }
     s.dev.fwState = .handover ∧ s.dev.previous = none) ∧
    (let s := firmware fun d => { d with fwState := .probation, staged := some image1, previous := some (0, Running.reset), ftime := 10000000000, fwMissed := 2 }
     s.dev.fwBeat + 1000000 ≤ s.dev.ftime ∧ 3 ≤ s.dev.fwMissed + 1 ∧ s.dev.fwFrom + 10000000000 ≤ s.dev.ftime ∧ s.dev.fwMissed < 3 ∧ (0 : Nat) < 6) := by
  decide +kernel
theorem witness_FirmwareAndUnits_core : (∃ u : UnitId, unitRef u = .core 0 ∧ unitKind u = 9 ∧ unitScope u = 0) ∧ (base.core 5).bin ≠ 3 ∧
    (base.core 5).retest = .no ∧ base.dev.unitgo = none ∧ base.facts.bad = none ∧ base.poolWait = [] ∧ base.coreEmpty 5 = true ∧ base.fwHolds = false ∧ base.dev.ring.size = 0 ∧ base.parts = [] ∧
    72 ≤ hoursSince (72 * 3600000000000) (base.core 5).cleanFrom := ⟨⟨coreUnit 9 0, by decide⟩, by decide +kernel⟩

theorem witness_HostAccesses : Claims.Open base ∧ hasMemory 0x1000 = true ∧ hasMemory 0xC000000000 = false ∧ inMemory 0xBFFFFFFFFE 2 = true ∧ inMemory 0xBFFFFFFFFF 2 = false ∧
    0xBFFFFFFFFE % 64 + 2 ≤ 64 ∧ base.vaultFenced (64 * lineOf 0xBFFFFFFFFE) = false ∧ Memory.wf base.mem ∧ base.poisoned 0xBFFFFFFFFE = false ∧
    base.dev.halt = false ∧ base.dev.featack[0].getLsbD 4 = false ∧
    (firmware fun d => { d with featack := d.featack.set 0 16, halt := true }).dev.featack[0].getLsbD 4 = true ∧
    (firmware fun d => { d with halt := true }).dev.halt = true := by
  refine ⟨⟨⟨rfl, rfl, rfl⟩, fun e h => by cases h⟩, by decide +kernel⟩
theorem witness_Reset : (base.facts.units = [] ∧ base.dev.strap = false ∧ base.facts.size = 0 ∧ base.dev.bootSlot = false) ∧
    (told fun f => { f with units := [(wholeCore 0, 1, 2)] }).facts.units = [(wholeCore 0, 1, 2)] ∧ unitRef (wholeCore 0) = .core 0 ∧
    (firmware fun d => { d with strap := true, bootSlot := true }).dev.strap = true := by decide +kernel
theorem witness_StepKeepsCanonical : Claims.Canonical base ∧ ∃ t, step base = .next t := by
  refine ⟨by unfold Claims.Canonical; decide +kernel, ?_⟩
  have h : (match step base with | .next _ => true | _ => false) = true := by decide +kernel
  cases e : step base with
  | next t => exact ⟨t, rfl⟩
  | fault f => simp [e] at h
  | refused r => simp [e] at h

/-! ### Well-formedness: an ill-formed term for each check (03/R94 to R106) -/

theorem test_illformed_registers : [Instr.slid 5 0, .saddd 4 6 7, .sadddLiteral 5 4 0, .ssubd 1 2 4, .ssubdLiteral 2 3 0,
    .smuld 2 4 1, .smuldLiteral 4 1 0, .sshld 1 2 3, .sshldLiteral 2 1 0, .sshrd 2 3 4, .sshrdLiteral 1 2 0, .scmpd 0 1 2,
    .scmpdLiteral 0 1 0, .jmpr 1, .callr 1 0, .sld 1 3 0, .sst 1 3 0, .xld 0 3, .cfl 0 3 0, .civ 0 3 0, .cwb 0 3 0,
    .ici 0 3 0, .lnch 3 0, .snap 0 3 0, .snapLiteral 0 3 0, .sqry 3 0, .mand 62, .mandn 62, .melse 63, .mrest 62].all
    (fun i => !i.wellFormed) = true := by decide
theorem test_illformed_literals : [Instr.saddLiteral 0 0 0x100000000, .ssubLiteral 0 0 0x100000000, .smulLiteral 0 0 0x100000000,
    .smulhiLiteral 0 0 0x100000000, .smulhuLiteral 0 0 0x100000000, .sdivLiteral 0 0 0x100000000, .sdivuLiteral 0 0 0x100000000,
    .sremLiteral 0 0 0x100000000, .sremuLiteral 0 0 0x100000000, .sandLiteral 0 0 0x100000000, .sorLiteral 0 0 0x100000000,
    .sxorLiteral 0 0 0x100000000, .sandnLiteral 0 0 0x100000000, .sshlLiteral 0 0 0x100000000, .sshrLiteral 0 0 0x100000000,
    .ssarLiteral 0 0 0x100000000, .srolLiteral 0 0 0x100000000, .sminLiteral 0 0 0x100000000, .smaxLiteral 0 0 0x100000000,
    .sminuLiteral 0 0 0x100000000, .smaxuLiteral 0 0 0x100000000, .saddcLiteral 0 0 0x100000000, .scmpLiteral 0 0 0x100000000,
    .scmpnLiteral 0 0 0x100000000, .sselLiteral 0 0 0x100000000, .sliLiteral 0 0x100000000, .sbfeLiteral 0 0 0x100000000,
    .sbfiLiteral 0 0 0x100000000, .sshldLiteral 0 0 0x100000000, .sshrdLiteral 0 0 0x100000000, .mbInitLiteral 0 0x100000000,
    .mbArriveLiteral 0 0x100000000, .mbWaitLiteral 0 0 0x100000000, .cpwaitLiteral 0x100000000, .cptestLiteral 0x100000000,
    .snapLiteral 0 0 0x100000000, .vmovsLiteral 0 0x100000000, .vgetlLiteral 0 0 0x100000000, .vsetlLiteral 0 0 0x100000000].all
    (fun i => !i.wellFormed) = true := by decide
theorem test_illformed_fields : [Instr.scmp 6 0 0, .scmpn 7 0 0, .scmpd 6 0 0, .vcmp 6 0 0, .call 0 9 0, .callr 0 32, .ret 32,
    .trap 256, .commit 0, .commit 5, .abort 3, .mark 3, .acq 0, .fence 5, .barSync 0 0 0, .barSync 0 17 0, .barArrive 17 0,
    .unassignedOpcode 0x280].all (fun i => !i.wellFormed) = true := by decide
/-- Each field of the VX form where an opcode does not use it: rnd on VABS, VDOT and VRCP, sat on VMIN, rfmt and vc on VADD, vb with
I = 1, imm with I = 0, F, bov and I where unused, and the ranges inside imm32. -/
theorem test_illformed_vx : [Instr.vabsVx (vx 0 0 0 0 0 0 0 1 0 0 0 0), .vdot (vx 0 0 0 0 0 0 0 1 0 0 0 0), .vrcpVx (vx 0 0 0 0 0 0 0 1 0 0 0 0),
    .vminVx (vx 0 0 0 0 0 0 1 0 0 0 0 0), .vaddVx (vx 0 0 0 0 0 0 0 0 1 0 0 0), .vaddVx (vx 0 0 0 0 0 0 0 0 0 1 0 0),
    .vaddVx (vx 0 1 0 0 0 0 0 0 0 0 1 0), .vaddVx (vx 0 0 0 0 0 0 0 0 0 0 1 7), .vaddVx (vx 1 0 0 0 0 0 0 0 0 0 0 0),
    .vandVx (vx 0 0 0 0 0 1 0 0 0 0 0 0), .vselVx (vx 0 1 0 0 0 0 0 0 0 0 0 0), .vcmpVx (vx 0 0 0 1 0 0 0 0 0 0 0 0),
    .vcmpVx (vx 6 0 0 0 0 0 0 0 0 0 0 0), .vtag (vx 0 0 1 0 0 0 0 0 0 0 0 0x30), .vtag (vx 0 0 0 0 0 0 0 0 0 0 0 0x200),
    .vcvt (vx 0 0 0 0 0 0 0 0 0 0 0 0), .vcvt (vx 0 0 0 0 0 0 0 1 0x0A 0 0 0), .vred (vx 6 0 0 0 0 0 0 0 0 0 0 0), .vred (vx 1 0 0 0 0 0 1 0 0 0 0 0),
    .vshfl (vx 4 0 0 0 0 0 0 0 0 0 0 8), .vshfl (vx 0 0 0 0 0 0 0 0 0 0 1 0x108), .vshfl (vx 1 0 0 0 0 0 0 0 0 0 0 8),
    .vshfl (vx 1 0 0 0 0 0 0 0 0 0 0 0x808), .vshfl (vx 1 0 0 0 0 0 0 0 0 0 0 0x10C), .vshfl (vx 1 0 0 0 0 0 0 0 0 0 5 0x108),
    .vbcast (vx 0 0 0 0 0 0 0 0 0 0 0 0x808), .vbcast (vx 0 0 0 0 0 0 0 0 0 0 0 0x10008), .vbfe (vx 0 0 0 0 0 0 0 0 0 0 0 0x20),
    .vbfi (vx 0 0 0 0 0 0 0 0 0 0 0 0x2000), .acrd (vx 0 0 0 0 0 0 0 0 0 0 0 0x40), .acwr (vx 0 0 0 1 0 0 0 0 0 0 0 0)].all
    (fun i => !i.wellFormed) = true := by decide
/-- Reserved AS and level, width above 4, order above 4, SC below X1, AOP, V or the sign on the wrong instruction, orders a load or a
store cannot have, atomic widths and codes, update-only forms with a return, in local space, below X1, acquiring; register pairs and
quads, XT in local space. -/
theorem test_illformed_memory : [Instr.vld (mx 2 0 0 0 0 0 0 0 0 0 2 0), .vld (mx 0 0 0 0 0 0 0 0 0 7 2 0), .vld (mx 0 0 0 0 0 0 0 0 0 0 5 0),
    .vld (mx 0 0 0 0 0 0 0 5 0 3 2 0), .vld (mx 0 0 0 0 0 0 0 4 0 2 2 0), .vld (mx 0 0 0 0 0 1 0 0 0 0 2 0), .vld (mx 0 0 0 0 0 0 1 0 0 0 2 0),
    .vld (mx 0 0 0 0 0 0 0 0 1 0 2 0), .vld (mx 0 0 0 0 0 0 0 2 0 0 2 0), .vld (mx 0 0 0 0 0 0 0 3 0 0 2 0), .vst (mx 0 0 0 0 0 0 0 1 0 0 2 0),
    .vst (mx 0 0 0 0 0 0 0 0 1 0 0 0), .vld (mx 1 0 1 0 0 0 0 0 0 0 2 0), .vld (mx 0 0 0 1 0 0 0 0 0 0 3 0), .vst (mx 0 0 0 2 0 0 0 0 0 0 4 0),
    .vatom (mx 0 0 0 0 0 0 0 0 0 0 1 0), .vatom (mx 0 0 0 0 0 0 0x0B 0 0 0 2 0), .vatom (mx 0 0 0 0 0 1 0x10 0 0 3 2 0),
    .vatom (mx 1 0 0 0 0 0 0x10 0 0 3 2 0), .vatom (mx 0 0 0 0 0 0 0x10 0 0 2 2 0), .vatom (mx 0 0 0 0 0 0 0x10 1 0 3 2 0),
    .vatom (mx 0 0 0 0 0 0 0x1A 0 0 3 3 0), .vatom (mx 0 0 0 1 0 0 9 0 0 3 2 0), .vatom (mx 0 0 0 2 0 0 9 0 0 3 3 0), .vatom (mx 0 0 0 1 0 0 0 0 0 3 3 0),
    .vldOffset64 (mx 0 0 0 0 0 0 0 0 0 0 2 1) 0, .vstOffset64 (mx 0 0 0 0 0 0 0 0 0 0 2 1) 0, .vatomOffset64 (mx 0 0 0 0 0 0 0 0 0 3 2 1) 0,
    .sldMs (ms 0 0 0 0 0 0 0 0 0 0 4 0), .sldMs (ms 0 0 1 0 0 0 0 0 0 0 2 0), .sldMs (ms 0 0 0 1 0 0 0 0 0 0 3 0), .sldMs (ms 0 1 0 0 0 0 0 0 0 0 2 0),
    .sstMs (ms 0 1 0 0 0 0 0 0 0 0 2 0), .satom (ms 0 1 0 0 0 1 0 0 0 3 3 0), .satom (ms 0 0 0 1 0 0 0 0 0 3 2 0),
    .sldOffset64 (ms 0 0 0 0 0 0 0 0 0 0 2 1) 0, .sstOffset64 (ms 0 0 0 0 0 0 0 0 0 0 2 1) 0, .satomOffset64 (ms 0 0 0 0 0 0 0 0 0 3 2 1) 0].all
    (fun i => !i.wellFormed) = true := by decide
/-- MLOOP: the reserved bit, mode 3, formats in an integer mode, plane counts 0 and 9 (10/R304). -/
theorem test_illformed_loop : [{ mloop1 with mode := 16 }, { mloop1 with mode := 3 }, { mloop1 with mode := 8, fmtA := 1 }, { mloop1 with pa := 0 },
    { mloop1 with pb := 9 }].all (fun m : ML => !m.ok) = true ∧ mloop1.ok = true := by decide

/-! ### Words the decoder refuses (03/R94, R107, R108) -/

theorem test_decode_refuses : Claims.decodeList [0x20000000] = .error .reservedField ∧ Claims.decodeList [0xA80] = .error .reservedField ∧
    Claims.decodeList [3] = .ok (.unassignedOpcode 3) ∧ Claims.decodeList [0xFFFFFFFF] = .ok (.unassignedOpcode 0xFFFFFFFF) := by decide
theorem test_decodeTableWord : decodeTableWord 32 0x280 = some .nop ∧ decodeTableWord 32 0x5300 = some (.mand 10) ∧
    decodeTableWord 96 0x00000208_00000000_10000905 = some (.vshfl (vx 1 0 0 1 0 0 0 0 0 0 0 0x208)) := by decide

/-! ### Single steps; expected values are the manual's tables and hand calculation from its rules -/

/-- A register of four leading lanes, the rest 0, under a format. -/
def lanes4 (f : Fmt) (a b c d : Word) : VReg :=
  { VReg.created with fmt := f, lanes := ((((Vector.replicate 96 0#32).set 0 a).set 1 b).set 2 c).set 3 d }
/-- `s` with a vector register. -/
def withV (n : Nat) (r : VReg) (s : State) : State := s.setVreg n r
/-- `s` with EXEC of the low lanes alone. -/
def withExec (x : Word) (s : State) : State := s.setTriple rEXEC #v[x, 0, 0]
/-- The leading four lanes of a register. -/
def low4 (s : State) (n : Nat) : List Word := (List.range 4).map (s.vlane n)
/-- A sticky flag of STATUS 14:8 (02/R62): 0 IV, 1 DZ. -/
def flag (s : State) (k : Nat) : Bool := s.w.status.getLsbD (8 + k)

-- 04/R123, R124
theorem test_sadd_wraps : (after (.sadd 4 2 3) (regs [(2, 0xFFFFFFFF), (3, 2)])).sreg 4 = 1 := by decide
theorem test_ssub : (after (.ssub 4 2 3) (regs [(2, 1), (3, 2)])).sreg 4 = 0xFFFFFFFF := by decide
theorem test_smul_low : (after (.smul 4 2 3) (regs [(2, 0x10001), (3, 0x10001)])).sreg 4 = 0x00020001 := by decide
theorem test_smulhi_signed : (after (.smulhi 4 2 3) (regs [(2, 0xFFFFFFFF), (3, 2)])).sreg 4 = 0xFFFFFFFF := by decide
theorem test_smulhu_unsigned : (after (.smulhu 4 2 3) (regs [(2, 0xFFFFFFFF), (3, 2)])).sreg 4 = 1 := by decide
theorem test_sdiv_zero : (after (.sdiv 4 2 3) (regs [(2, 7)])).sreg 4 = 0xFFFFFFFF ∧ (after (.srem 4 2 3) (regs [(2, 7)])).sreg 4 = 7 := by decide
theorem test_sdiv_overflow : (after (.sdiv 4 2 3) (regs [(2, 0x80000000), (3, 0xFFFFFFFF)])).sreg 4 = 0x80000000 ∧
    (after (.srem 4 2 3) (regs [(2, 0x80000000), (3, 0xFFFFFFFF)])).sreg 4 = 0 := by decide
theorem test_sdiv_truncates : (after (.sdiv 4 2 3) (regs [(2, 0xFFFFFFF9), (3, 2)])).sreg 4 = 0xFFFFFFFD ∧
    (after (.sdivu 4 2 3) (regs [(2, 0xFFFFFFF9), (3, 2)])).sreg 4 = 0x7FFFFFFC := by decide
theorem test_sremu : (after (.sremu 4 2 3) (regs [(2, 0xFFFFFFF9), (3, 10)])).sreg 4 = 9 := by decide
theorem test_ssar_keeps_sign : (after (.ssar 4 2 3) (regs [(2, 0x80000000), (3, 4)])).sreg 4 = 0xF8000000 ∧
    (after (.sshr 4 2 3) (regs [(2, 0x80000000), (3, 4)])).sreg 4 = 0x08000000 := by decide
theorem test_smin_signed : (after (.smin 4 2 3) (regs [(2, 0xFFFFFFFF), (3, 1)])).sreg 4 = 0xFFFFFFFF ∧
    (after (.sminu 4 2 3) (regs [(2, 0xFFFFFFFF), (3, 1)])).sreg 4 = 1 := by decide
theorem test_smovs_source_is_destination : (after (.sadd 4 4 4) (regs [(4, 3)])).sreg 4 = 6 := by decide
theorem test_saddd_carries : (after (.saddd 4 6 8) (regs [(6, 0xFFFFFFFF), (7, 1), (8, 1)])).spair 4 = 0x200000000 := by decide
theorem test_pc_advances : (after .nop base).w.pc = base.w.pc + 4 ∧ (after (.sliLiteral 3 5) base).w.pc = base.w.pc + 12 := by decide
theorem test_step_from_load : (match step (State.reset.withFetchWord 32 0x280) with | .next t => t.w.pc | _ => 0) = 0x20004 := by decide +kernel

-- 04/R131: the example's masks, EXEC = 0000000F and CMASK = 00000001
theorem test_mand_example : let s := after (.mand 10) (regs [(61, 0xF), (62, 0), (63, 0), (58, 1)])
    s.sreg 61 = 1 ∧ s.sreg 10 = 0xF ∧ (after (.melse 10) s).sreg 61 = 0xE ∧ (after (.mrest 10) (after (.melse 10) s)).sreg 61 = 0xF := by decide

-- 04/R132 to R137: branches on the word offset; SCC as it stands
theorem test_br : (after (.br (-1)) base).w.pc = base.w.pc - 4 := by decide
theorem test_bez : (after (.bez 3 4) base).w.pc = base.w.pc + 16 ∧ (after (.bez 3 4) (regs [(3, 1)])).w.pc = base.w.pc + 4 := by decide
theorem test_bnz : (after (.bnz 3 4) base).w.pc = base.w.pc + 4 ∧ (after (.bnz 3 4) (regs [(3, 1)])).w.pc = base.w.pc + 16 := by decide
theorem test_scmp_bsc : let s := after (.scmp 0 2 3) (regs [(2, 5), (3, 5)])
    s.scc = true ∧ (after (.bsc 4) s).w.pc = s.w.pc + 16 ∧ (after (.bsnc 4) s).w.pc = s.w.pc + 4 := by decide

-- 04/R153: TRAP 7 with s0 = 41, SCC = 1 and a handler; SRD and SADDI in it; TRET
theorem test_trap_example : let s := (handled.setS 0 41).setScc true
    let t := after (.trap 7) s
    t.w.tcause = 0x710 ∧ t.w.tpc = s.w.pc + 4 ∧ t.hm = true ∧ t.scc = true ∧ t.sreg 0 = 41 ∧ t.w.pc = 0x40 ∧
    (after (.saddi 0 0 1) t).sreg 0 = 42 ∧ (after .tret t).hm = false ∧ (after .tret t).w.pc = s.w.pc + 4 := by decide +kernel
-- 04/R147: without a handler the wave ends
theorem test_trap_without_handler : (after (.trap 7) base).w.life = .ended ∧ (after (.trap 7) base).cx.wkill = true := by decide +kernel
-- 03/R107: a word that decodes to nothing is ILLOP, whose TPC is its own address
theorem test_unassigned : trapped .illop (after (.unassignedOpcode 3) handled) = true ∧ (after (.unassignedOpcode 3) handled).w.tpc = handled.w.pc := by
  decide +kernel

-- 05/R171: VSHFL.up of v0 by 2 in width 8, EXEC = FB; lanes 0 to 7
theorem test_vshfl_example : let s := withExec 0xFB (withV 0 { VReg.created with fmt := .n32, lanes := Vector.ofFn fun i => BitVec.ofNat 32 (10 + i) } base)
    (List.range 9).map ((after (.vshfl (vx 1 0 0 1 0 0 0 0 0 0 0 0x208)) s).vlane 1) = [10, 11, 0, 11, 12, 13, 14, 15, 0] := by decide +kernel
-- 05/R169: VRED.add of 1e8, 1.0 and -1e8 is 1.0 in the active lanes
theorem test_vred_example : let s := withExec 7 (withV 5 (lanes4 .f32 0x4CBEBC20 0x3F800000 0xCCBEBC20 0) base)
    low4 (after (.vred (vx 0 0 5 6 0 0 0 0 0 0 0 0)) s) 6 = [0x3F800000, 0x3F800000, 0x3F800000, 0] := by decide +kernel
-- 05/R173: VRSQ of 4.0, 0.0, -1.0 and +inf: 0.5, +inf, the canonical NaN, +0.0; DZ and IV
theorem test_vrsq_example : let s := withExec 0xF (withV 2 (lanes4 .f32 0x40800000 0 0xBF800000 0x7F800000) base)
    low4 (after (.vrsq 3 2) s) 3 = [0x3F000000, 0x7F800000, 0x7FC00000, 0] ∧ flag (after (.vrsq 3 2) s) 0 = true := by decide +kernel
-- 05/R166: VCVT.e4m3x4.sat of 1.0, -2.0, 0.3 and 500.0: 38, C0, 2A and, saturated, 7E
theorem test_vcvt_example : let s := withExec 0xF (withV 4 (lanes4 .f32 0x3F800000 0xC0000000 0x3E99999A 0x43FA0000) base)
    low4 (after (.vcvt (vx 0 0 4 8 0 0 1 0 8 0 0 0)) s) 8 = [0x38, 0xC0, 0x2A, 0x7E] := by decide +kernel
-- 02/R72: T6 codes of 3.0, -3.0, 5.0, 7.0
theorem test_tapered_example : let s := withExec 0xF (withV 4 (lanes4 .f32 0x40400000 0xC0400000 0x40A00000 0x40E00000) base)
    low4 (after (.vcvt (vx 0 0 4 8 0 0 0 0 0x0B 0 0 0)) s) 8 = [0x16, 0x2A, 0x18, 0x1A] := by decide +kernel
-- 02/R87: bd3 = 0.0 to 6.0, clamp; sums 7.5, -0.5, NaN (inf - inf) and 3.0 into v9 under bound 3
theorem test_bound_example : let s := withExec 0xF (withV 9 { VReg.created with fmt := .f32, bnd := 3 }
      (withV 1 (lanes4 .f32 0x40A00000 0x3F800000 0x7F800000 0x3F800000) (withV 2 (lanes4 .f32 0x40200000 0xBFC00000 0xFF800000 0x40000000) base)))
    let s := s.setCx { s.cx with bdlo := put s.cx.bdlo (3 : BitVec 4) 0, bdhi := put s.cx.bdhi (3 : BitVec 4) 0x40C00000,
                                 bndfmt := 8, bndact := 0x80 }
    low4 (after (.vadd 9 1 2) s) 9 = [0x40C00000, 0, 0, 0x40400000] ∧ flag (after (.vadd 9 1 2) s) 0 = true ∧
    (after (.vadd 9 1 2) s).w.bndst.getLsbD 3 = true := by decide +kernel
-- 05/R159: 2.5 * 2.0 + 1.0 is 6.0, with one rounding; v4 is the addend and the destination
theorem test_vfma : let s := withExec 1 (withV 4 (lanes4 .f32 0x3F800000 0 0 0) (withV 1 (lanes4 .f32 0x40200000 0 0 0) (withV 2 (lanes4 .f32 0x40000000 0 0 0) base)))
    low4 (after (.vfma 4 1 2) s) 4 = [0x40C00000, 0, 0, 0] := by decide +kernel
-- 01/R27: with EXEC zero no lane and no tag is written
theorem test_vadd_inactive : let s := withExec 0 (withV 1 (lanes4 .n32 1 1 1 1) base)
    (after (.vadd 4 1 1) s).vreg 4 = base.vreg 4 := by decide +kernel
-- 02/R62, R66, 03/R97: a signalling F32 immediate of an F64 operation is an operand that sets IV
theorem test_vmin_signalling_immediate : let s := withExec 1 (withV 2 (lanes4 .f64 0 0 0 0) (withV 3 (lanes4 .f64 0 0 0 0) base))
    flag (after (.vminVx (vx 0 1 2 8 0 0 0 0 0 0 0 0x7F800001)) s) 0 = true ∧ flag (after (.vminVx (vx 0 1 2 8 0 0 0 0 0 0 0 0x3F800000)) s) 0 = false := by
  decide +kernel
-- 02/R80: products +inf and -inf set IV under a quiet NaN accumulator too
theorem test_vdot_opposite_infinities : let s := withExec 1 (withV 4 (lanes4 .e5m2x4 0xFC7C 0 0 0) (withV 5 (lanes4 .e5m2x4 0x3C3C 0 0 0)
      (withV 6 (lanes4 .f32 0x7FC00000 0 0 0) base)))
    flag (after (.vdot (vx 0 0 4 2 0 0 0 0 0 6 5 0)) s) 0 = true ∧ low4 (after (.vdot (vx 0 0 4 2 0 0 0 0 0 6 5 0)) s) 2 = [0x7FC00000, 0, 0, 0] := by decide +kernel
-- 05/R161: the order of CMASK's bits; 1 < 2 in lanes 0 and 3 alone
theorem test_vcmp : let s := withExec 0xF (withV 1 (lanes4 .s32 1 3 (-1) 1) (withV 2 (lanes4 .s32 2 2 (-1) 2) base))
    (after (.vcmp 2 1 2) s).sreg rCMASK = 9 := by decide +kernel
-- 05/R163: the shift count is modulo 32; VSAR is signed
theorem test_vshl_count : let s := withV 1 (lanes4 .n32 1 0 0 0) (withV 2 (lanes4 .n32 33 0 0 0) base)
    (after (.vshl 4 1 2) s).vlane 4 0 = 2 ∧ (after (.vsar 4 1 2) (withV 1 (lanes4 .n32 0x80000000 0 0 0) s)).vlane 4 0 = 0xC0000000 := by decide +kernel

-- 09/R257: four arrivals end a generation: BAR.SYNC with count 1 goes on, count 2 waits
theorem test_barSync_one : (after (.barSync 0 1 3) base).w.pc = base.w.pc + 4 := by decide +kernel
theorem test_barSync_two : (after (.barSync 0 2 3) base).w.life ≠ .ready ∧ (after (.barSync 0 2 3) base).w.pc = base.w.pc := by decide +kernel
-- 08/R231: SST at level W, then SLD of the word, and a misaligned address
theorem test_store_load : let s := after (.sst 3 4 0) (regs [(3, 77), (4, 0x30000)])
    (after (.sld 6 4 0) s).sreg 6 = 77 := by decide +kernel
theorem test_load_misaligned : trapped .align (after (.sld 6 4 0) (handled.setS 4 0x30002)) = true := by decide +kernel
-- 04/R143: WEND ends the wave
theorem test_wend : (after .wend base).w.life = .ended := by decide +kernel
-- 02/R89: another wave may see the old value of BNDACT until it acquires; the writer sees the new one
theorem test_bound_write : let other : Wave := { base.w with key := ⟨1, 0, 0, 1⟩ }
    let t := after (.swr 3 0x0D) { regs [(3, 0x80)] with waves := [other] }
    t.cx.bndact = 0x80 ∧ t.w.oldBounds = [] ∧ t.waves.map (fun w => w.oldBounds.map (·.value)) = [[0]] ∧
    t.waves.map (fun w => w.ordered.oldBounds) = [[]] := by decide +kernel

/-! ### Witnesses: where instructions complete -/

theorem witness_NoSpillPending : Claims.NoPend base 0 2 ∧ base.active ≠ [] := by decide
theorem witness_VectorBitsComplete : Claims.Calm base ∧ (Instr.vand 0 1 127).wellFormed = true ∧ Claims.InWindow base [0, 1, 127] ∧ Claims.NoPend base 0 1 ∧
    Claims.Unbound base (base.vreg 1).bnd ∧ (Instr.vbfi (vx 0 0 10 200 0 0 0 0 0 0 0 0x0503)).wellFormed = true ∧
    Claims.InWindow base [200, 10, 0] ∧ Claims.NoPend base 200 1 ∧ Claims.Unbound base (base.vreg 10).bnd := by decide
theorem witness_LaneMovesComplete : Claims.Calm base ∧ (95 : DWord).hi = 0 ∧ (127 : BitVec 7).toNat < base.w.valloc ∧
    Claims.Unbound base (base.vreg 127).bnd ∧ Claims.NoPend base 127 1 ∧ ((regs [(9, 95)]).sreg 9).toNat < 96 ∧ (95 : DWord).lo.toNat < 96 ∧
    (Instr.vtag (vx 0 0 0 9 0 0 0 0 0 0 0 0x34)).wellFormed = true ∧ (Fmt.ofCode ((0x34 : Word).toNat / 16)).isSome = true := by decide
theorem witness_VectorNumericComplete : Claims.Calm (tagged .f32) ∧ (Instr.vfma 1 2 3).wellFormed = true ∧
    Claims.NumericOk .fma (v3Op 1 2 3) (tagged .f32) ∧ Claims.NoPend (tagged .f32) 1 2 ∧ (Instr.vaddVx (vx 0 0 4 2 0 0 0 1 0 0 6 0)).wellFormed = true ∧
    Claims.NumericOk .add (vxOp (vx 0 0 4 2 0 0 0 1 0 0 6 0)) (tagged .f64) ∧ Claims.NoPend (tagged .f64) 2 2 :=
  ⟨by decide, by decide, ⟨by decide, by decide, by decide, by decide, by decide, by decide, by decide⟩, by decide, by decide,
    ⟨by decide, by decide, by decide, by decide, by decide, by decide, by decide⟩, by decide⟩
theorem witness_ConversionsComplete : Claims.Calm (tagged .f32) ∧ Claims.InWindow (tagged .f32) [2, 4, 0, 0] ∧ Claims.NoPend (tagged .f32) 2 2 ∧
    Claims.Unbound (tagged .f32) ((vxOp (vx 0 0 4 2 0 0 0 0 1 0 0 0)).bnd (tagged .f32)) ∧
    (Instr.vcvt (vx 0 0 4 2 0 0 0 0 1 0 0 0)).wellFormed = true ∧ Fmt.ofCode 1 = some .s32 ∧ ((tagged .f32).vreg 4).fmt ≠ .b32 ∧
    (Instr.vred (vx 2 0 4 2 0 0 0 0 0 0 0 0)).wellFormed = true ∧ redAccepts 2 .f32 = true ∧ ((tagged .f32).vreg 4).fmt.isPair = false ∧
    (Instr.vdot (vx 0 0 4 2 0 0 0 0 0 6 5 0)).wellFormed = true ∧ dotAccepts .t8x4 .t8x4 .f32 = true ∧
    (Instr.vrcp 2 4).wellFormed = true ∧ (Instr.vtanhVx (vx 0 0 4 2 0 0 0 0 0 0 0 0)).wellFormed = true := by decide

theorem homed_one (s : State) (x : Lane × Loc) (h : x.2.isLocal = true ∨ x.2.dev = s.dev.devnum) : Claims.HomedHere s [x] := by
  intro y hy
  rw [List.mem_singleton.mp hy]
  exact h
/-- Where nothing stands between an access and this device's memory. -/
theorem base_free : Claims.Calm base ∧ Claims.NoLines base ∧ Claims.Clear base ∧ Claims.NoDirty base ∧ Claims.HomedHere base [gAt] ∧ Claims.HomedHere base [lAt] :=
  ⟨by decide, ⟨rfl, rfl, rfl⟩, ⟨rfl, rfl, rfl⟩, fun l h => (by cases h), homed_one _ _ (.inr rfl), homed_one _ _ (.inl rfl)⟩
theorem witness_AccessesComplete : Claims.Passes (msMem (gm 0 3) .load) (Claims.loadOps (gm 0 3) 0) base [gAt] ∧
    (Claims.Fits (msMem (gm 0 0) .store) base [gAt] ∧ Claims.Passes (msMem (gm 0 0) .store) (Claims.storeOps (gm 0 0) 0) base [gAt]) ∧
    Claims.Fits (msMem (lm 1 0 1) .atomic) base [lAt] ∧ Claims.Passes (msMem (lm 1 0 1) .atomic) (Claims.atomicOps (lm 1 0 1) 0) base [lAt] :=
  ⟨passes_of _ _ _ _ rfl rfl (by decide +kernel),
    ⟨by unfold Claims.Fits; decide, passes_of _ _ _ _ rfl rfl (by decide +kernel)⟩,
    by unfold Claims.Fits; decide, passes_of _ _ _ _ rfl rfl (by decide +kernel)⟩
/-- A store at B of a global word, and one with a release order at D. -/
theorem witness_AccessesComplete_levels :
    (Claims.Fits (msMem (gm 0 1) .store) base [gAt] ∧ Claims.Passes (msMem (gm 0 1) .store) (Claims.storeOps (gm 0 1) 0) base [gAt]) ∧
    (msMem (gm 2 3) .store).commits = true ∧ Claims.Fits (msMem (gm 2 3) .store) base [gAt] ∧
    Claims.Passes (msMem (gm 2 3) .store) (Claims.storeOps (gm 2 3) 0) base [gAt] :=
  ⟨⟨by unfold Claims.Fits; decide, passes_of _ _ _ _ rfl rfl (by decide +kernel)⟩, by decide, by unfold Claims.Fits; decide,
    checked_of _ _ _ _ _ rfl (by decide +kernel), fun _ _ => ⟨by decide +kernel, fun h => absurd h (by decide)⟩⟩
theorem witness_AccessesComplete_vector : Claims.NoLines oneLane ∧ Claims.Clear oneLane ∧ Claims.HomedHere oneLane [lAt] ∧ Claims.Calm oneLane ∧
    (vm 0 0).voff.toNat < oneLane.w.valloc ∧ (vm 1 9).vt.toNat + 2 * wordsOf (mxMem (vm 1 9) .atomic).bytes ≤ oneLane.w.valloc ∧
    (∀ k ∈ Claims.runOf (vm 0 0), (oneLane.vreg k).pend = false ∧ Claims.Unbound oneLane (oneLane.vreg k).bnd) ∧
    (∀ k ∈ Claims.runOf (vm 1 9), (oneLane.vreg k).pend = false) ∧
    Claims.Passes (mxMem (vm 0 0) .load) (Claims.vloadOps (vm 0 0) 0) oneLane [lAt] ∧
    Claims.Passes (mxMem (vm 0 0) .store) (Claims.vstoreOps (vm 0 0) 0) oneLane [lAt] ∧
    Claims.Passes (mxMem (vm 1 9) .atomic) (Claims.vatomicOps (vm 1 9) 0) oneLane [lAt] :=
  ⟨⟨rfl, rfl, rfl⟩, ⟨rfl, rfl, rfl⟩, homed_one _ _ (.inl rfl), by decide, by decide, by decide, by decide, by decide,
    passes_of _ _ _ _ rfl rfl (by decide +kernel), passes_of _ _ _ _ rfl rfl (by decide +kernel),
    passes_of _ _ _ _ rfl rfl (by decide +kernel)⟩
theorem witness_CommitsComplete : Claims.NoLines base ∧ Claims.NoDirty base ∧ Claims.Calm base ∧ base.w.conflict = false :=
  ⟨base_free.2.1, base_free.2.2.2.1, by decide, rfl⟩
theorem witness_ArrivalsComplete : Claims.NoLines base ∧ base.hm = false ∧ (base.bar 1).expected = none ∧ (base.bar 1).count + 1 = (1 : BitVec 5).toNat :=
  ⟨base_free.2.1, by decide, by decide, by decide⟩
theorem witness_ArrivalsComplete_gong : Claims.NoLines (gong 0 0 none) ∧ (gong 0 0 none).hm = false ∧ ((gong 0 0 none).gongTag 0).level ≠ 0 ∧
    ((gong 0 0 none).gongTag 0).level ≤ 3 := ⟨⟨rfl, rfl, rfl⟩, by decide, by decide, by decide⟩
theorem witness_ArrivalsComplete_object : Claims.NoLines (object 0) ∧ (object 0).blk.tagged ((object 0).sreg 2).toNat = true ∧ 0 < ((object 0).sreg 3).toInt ∧
    (1 : DWord).hi = 0 ∧ 0 < (1 : DWord).lo.toInt := ⟨⟨rfl, rfl, rfl⟩, by decide, by decide, by decide, by decide⟩
theorem witness_ArrivalsComplete_queue : Claims.NoLines (queued 1) ∧ 0 < (pick (queued 1).blk.queues (1 : BitVec 3)).cap ∧
    (queued 1).w.stage = (pick (queued 1).blk.queues (1 : BitVec 3)).prod ∧
    (pick (queued 1).blk.queues (1 : BitVec 3)).count < (pick (queued 1).blk.queues (1 : BitVec 3)).cap ∧ (queued 1).queuedBefore 1 true = false :=
  ⟨⟨rfl, rfl, rfl⟩, by decide, by decide, by decide, by decide⟩

/-- Where the second half of the record falls. -/
def recAt (a : Nat) : Loc := ⟨false, 0, a, BitVec.ofNat 64 a, a, true⟩
/-- LNCH from s0:s1 to queue 5 in a state of `feeding`. -/
def Entering (n : Word) : Prop :=
  let s := feeding n
  let q := s.queue 5
  (0 : SReg).toNat % 2 = 0 ∧ Claims.NoLines s ∧ Claims.Clear s ∧ (s.spair 0).extractLsb' 0 6 = 0#6 ∧ (s.sreg 2).toNat ≤ 255 ∧ BitVec.ofNat 8 (s.sreg 2).toNat = 5#8 ∧
    q.src = true ∧ q.ctx.toNat = s.w.ctx.toNat ∧ q.en = true ∧ s.leftRegion s.w.ctx (s.spair 0) (s.spair 0) = false ∧
    (s.regionCheck s.w.ctx { r := true } (s.spair 0) 128).toOption.isSome = true ∧
    (match s.findLane s.w.ctx none { r := true } 64 (s.spair 0) with | .at_ l => decide (l = recAt 0x30000) | _ => false) = true ∧
    (match s.findLane s.w.ctx none { r := true } 64 (s.spair 0 + 64) with | .at_ l => decide (l = recAt 0x30040) | _ => false) = true ∧
    (recAt 0).dev = s.dev.devnum ∧ s.ctxWaits s.w.ctx { w := true } (q.qbase + BitVec.ofNat 64 (128 * (q.tail.toNat % q.qsize))) 128 ≠ some none
theorem witness_LaunchEnters : Entering 1 ∧ Entering 2 := by
  refine ⟨⟨by decide, ⟨rfl, rfl, rfl⟩, ⟨rfl, rfl, rfl⟩, ?_⟩, ⟨by decide, ⟨rfl, rfl, rfl⟩, ⟨rfl, rfl, rfl⟩, ?_⟩⟩ <;> decide +kernel
theorem witness_LaunchEnters_record : let u := Claims.emptied (feeding 1); let a := u.readAt 3 false (recAt 0x30000) 64
    let b := (u.afterRead 3 false (recAt 0x30000) 64).readAt 3 false (recAt 0x30040) 64
    a.2 = false ∧ b.2 = false ∧ (Rec.ofBytes (a.1 ++ b.1)).reason (feeding 1).cx (feeding 1).dev.gbres = 0 := by decide +kernel

theorem witness_TilesComplete : let s := slotted [] false
    s.boundSlot 2 = some 5 ∧ Claims.Idle s 5 ∧ (s.sreg 2).toNat % 64 = 0 ∧ (s.sreg 2).toNat + 24576 ≤ s.blk.localSize ∧ s.rangeHeld false 0 24576 = false ∧
    s.rangeHeld true 0 24576 = false ∧ s.blk.poison = [] ∧ s.blk.taggedSlot 0 24576 = none ∧ Claims.Unbound s (s.slot 5).bnd ∧ Claims.Calm s ∧
    (Instr.acrd (vx 2 0 0 200 0 0 0 0 0 0 0 63)).wellFormed = true ∧ 200 < s.w.valloc ∧ (s.vreg 200).pend = false ∧
    Claims.Unbound s ((vxOp (vx 2 0 0 200 0 0 0 0 0 0 0 63)).bnd s) ∧ (Instr.acwr (vx 2 0 1 0 0 0 0 0 0 0 0 63)).wellFormed = true ∧
    s.co.loops.length < 8 ∧ s.co.ranges.length + 2 ≤ 32 ∧ (s.slot 5).failed = false := by
  refine ⟨by decide, ?_, by decide +kernel⟩
  unfold Claims.Idle; decide
/-- Two blocks and the gang of `base`, its wave ended. -/
def ending : State := told (fun f => { f with launch := 1 }) { base with w := { base.w with life := .ended } }
theorem witness_GangsComplete : ending.gang.key.launch ≠ 0 ∧ ending.findGang ending.gang.key = some ending.gang ∧ ending.facts.block = ending.blk.key ∧
    ending.findBlock ending.blk.key = some ending.blk ∧ ending.blk.key.gangKey = ending.gang.key ∧ ending.gang.state = .resident ∧ ending.blk.retired = false ∧
    (∀ w ∈ ending.allWaves, w.key.block = ending.blk.key → w.life = .ended) ∧ (ending.busyWork fun k => k.block == ending.blk.key) = false ∧
    ending.blk.place.lines = [] ∧ ending.gang.place.lines = [] ∧ ending.gang.placed = ending.gang.blocks ∧
    (∀ x ∈ ending.allGangs, x.key = ending.gang.key → x = ending.gang) ∧ (∀ x ∈ ending.allBlocks, x.key = ending.blk.key → x = ending.blk) := by decide +kernel
theorem witness_GangsComplete_save : let s : State := told (fun f => { f with launch := 1 }) { base with gang := { base.gang with state := .saving } }
    Claims.Open s ∧ s.dev.powered = true ∧ s.facts.gangKey = s.gang.key ∧ s.findGang s.gang.key = some s.gang ∧ s.gang.state = .saving ∧ s.gangRestoring s.gang.key = false ∧
    (s.busyWork fun k => k.gangKey == s.gang.key) = false ∧ (∀ w ∈ s.gangWaves s.gang.key, w.stk = [] ∧ w.wbuf.lines = []) ∧
    (∀ b ∈ s.allBlocks, b.key.gangKey = s.gang.key → b.place.lines = []) ∧ s.gang.place.lines = [] :=
  ⟨⟨⟨rfl, rfl, rfl⟩, fun _ h => nomatch h⟩, by decide +kernel⟩
theorem witness_SelfTests : unitRef (wholeCore 0) = .core 0 ∧ base.coreEmpty 5 = true ∧ base.dev.unitgo = none ∧ (base.core 0).retest = .no ∧
    ((base.setCo { base.co with retest := .present }).core 0).retest = .present ∧ base.fwHolds = false ∧
    (firmware fun d => { d with fwState := .probation }).fwHolds = true := by decide +kernel
/-- An aged launch of priority 7 that needs a gang buffer. -/
def highLaunch : Launch :=
  { base.launch with id := 2, state := .placing, nextGang := 0, aged := true, record := { Rec.ofBytes record with prio := 7, gbuf := 1 } }
/-- `base` beside it, its gang with all that may be reserved of its quad's gang buffer, in a context without a free save slot. -/
def preempting : State :=
  ({ base with
      launches := [highLaunch], launch := { base.launch with record := { base.launch.record with gbuf := 1 } },
      dev := { base.dev with featack := base.dev.featack.set 0 4, gbres := 1 } } : State).setCx { base.cx with savecount := 0, stkcount := 8 }
theorem witness_GangsMoveOn : (let s : State := { placing with launches := [], gang := { base.gang with state := .saved }, w := { base.w with saved := true } }
    ((s.nextStart false s.candidates).any fun x => x.1.isSaved) = true ∧ s.fwHolds = false ∧ (s.findGang s.gang.key).isSome = true) ∧
    (preempting.candidates.find? (fun c => c.aged && c.launch.record.prio == 7 && (preempting.placeOf c).isNone)) = some (.fresh highLaunch) ∧
    preempting.dev.featack[0].getLsbD 2 = true ∧ preempting.fwHolds = false ∧
    (preempting.residentGangs.filter fun g => g.quad == preempting.facts.quad && decide ((preempting.recordOf g.key.launch).prio ≤ 3)) = [preempting.gang] ∧
    preempting.fitsAfter (.fresh highLaunch) 0 = false ∧ (preempting.requestSave preempting.gang).fitsAfter (.fresh highLaunch) 0 = true := by decide +kernel

/-! ### Witnesses: waits, fetches, formats, elements, power -/

/-- `base` waiting in an MWAIT that has issued and whose accumulator is free again. -/
def retrying : State := withW fun w => { w with life := .waiting (.mwait 2), issued := some (.mwait 2) }
theorem witness_StepRunsDecoded_held : retrying.agenda = [] ∧ (Claims.begun retrying).runnable = true ∧ retrying.w.life.blocked = true ∧
    retrying.w.issued = some (.mwait 2) ∧ base.w.life.blocked = false := by decide
/-- `base` with words at an address that its pc names. -/
def coded (pc : Nat) (ws : List Nat) : State :=
  { base with mem := base.mem.writeAll (placed pc (ws.flatMap (leBytes 4))), w := { base.w with pc := BitVec.ofNat 64 pc } }
/-- An MLOOP of the reserved mode 3 at a sequencer that holds eight loops. -/
def crowded : State := (coded 0x20000 [0x18610601, 0x582C, 0]).setCo { base.co with loops := List.replicate 8 (loop1 false false 0 0 []) }
theorem witness_StepRunsDecoded_full : (Claims.begun crowded).runnable = true ∧ (Claims.begun crowded).codeWord crowded.w.pc = .ok 0x18610601 ∧
    (Claims.begun crowded).moreWords (wordsAsked 0x18610601) (crowded.w.pc + 4) = .ok [0x582C, 0] ∧
    (Claims.decodeList [0x18610601, 0x582C, 0]).toOption = none ∧ isMloop 0x18610601 = true ∧ 8 ≤ crowded.co.loops.length := by decide +kernel
/-- SLI with a literal whose second word lies in a poisoned line. -/
def severed : State := { coded 0x2003C [6346, 5, 0] with poison := [0x801] }
theorem witness_StepRunsDecoded_laterWord : (Claims.begun severed).runnable = true ∧ (Claims.begun severed).codeWord 0x2003C = .ok 6346 ∧
    1 ≤ wordsAsked 6346 ∧ ((Claims.begun severed).codeWord (0x2003C + BitVec.ofNat 64 (4 * 1))).toOption = none := by decide +kernel
theorem witness_IllegalInstructions_laterWord : severed.runnable = true ∧ severed.heldInstr = none ∧ severed.codeWord severed.w.pc = .ok 6346 ∧
    1 ≤ wordsAsked 6346 ∧ severed.leftRegion severed.w.ctx severed.w.pc 0x20040 = false ∧
    severed.regionCheck severed.w.ctx { r := true } 0x20040 4 = .ok 0x20040 ∧ severed.translate severed.w.ctx 0x20040 = .leaf (leafAt severed 0x20040) ∧
    (leafAt severed 0x20040).r = true ∧ (leafAt severed 0x20040).x = true ∧ severed.w.decoded = [] ∧ severed.w.fetched = [] ∧ severed.co.icache = [] ∧
    (leafAt severed 0x20040).dev = severed.dev.devnum ∧ severed.heldLine 0 (lineOf ((leafAt severed 0x20040).pa 0x20040)) = false ∧
    severed.homePoison 0 ((leafAt severed 0x20040).pa 0x20040) = true := by decide +kernel
/-- `base` whose one page lies at a peer that does not answer. -/
def farCode : State :=
  { base with mem := base.mem.writeAll (placed 0x11000 (leBytes 8 (2 ^ 54 + 0x13F))), peers := [{ peer1 with route := .down }] }
theorem witness_IllegalInstructions_home : retrying.runnable = true ∧ retrying.heldInstr ≠ none ∧ farCode.runnable = true ∧ farCode.heldInstr = none ∧
    farCode.translate 0 0x20000 = .leaf (leafAt farCode 0x20000) ∧ (leafAt farCode 0x20000).dev ≠ farCode.dev.devnum ∧
    farCode.reachable (leafAt farCode 0x20000).dev = false ∧ (awaiting 0x20000).heldLine 0 (lineOf ((leafAt (awaiting 0x20000) 0x20000).pa 0x20000)) = true ∧
    ((awaiting 0x12000).regionCheck 0 { r := true } 0x20000 4 matches .error (.held _ _)) = true := by decide +kernel
theorem witness_IllegalInstructions_loop : (Instr.mloop { mloop1 with mode := 3 }).wellFormed = false ∧ base.co.loops.length < 8 := by decide

/-- `base` at a pc that is no multiple of 4, which no displacement of words mends. -/
def odd : State := withW fun w => { w with pc := 0x20002 }
theorem witness_Branches_misaligned_conditions :
    (odd.w.pc + BitVec.ofInt 64 (4 * (0 : BitVec 15).toInt)).extractLsb' 0 2 ≠ 0#2 ∧ (odd.setScc true).scc = true ∧ odd.scc = false ∧
    odd.sreg 3 = 0 ∧ (odd.setS 3 1).sreg 3 ≠ 0 ∧ odd.sreg 61 ≠ 0 ∧ odd.sreg 58 = 0 ∧ odd.sreg 59 = 0 ∧ odd.sreg 60 = 0 ∧ (odd.setS 58 1).sreg 58 ≠ 0 ∧
    (let s := odd.setTriple rEXEC noLanes; s.sreg 61 = 0 ∧ s.sreg 62 = 0 ∧ s.sreg 63 = 0) := by decide
/-- TARGET and WHERE of some values of ERRINJ: the last lane, a lane too many, the scalar pipe at 0 and at 1, the last element of the array and
the one after it, a copy line, a reserved target. -/
theorem witness_StateRegisters_errinj : diagnostic.w.status.getLsbD 3 = true ∧
    ([0x00005F00, 0x00006000, 0x10000000, 0x10000100, 0x3017FF00, 0x30180000, 0x40001200, 0x60000000].map fun x : Word =>
      ((x.extractLsb' 28 3).toNat, (x.extractLsb' 8 13).toNat)) =
      [(0, 95), (0, 96), (1, 0), (1, 1), (3, 6143), (3, 6144), (4, 18), (6, 0)] := by decide

theorem witness_FormatTraps_numeric : Claims.InWindow base [1, 2, 3] ∧ Claims.refuses .fma .s32 = true ∧ Claims.refuses .add .s32 = false ∧
    (let s := (tagged .f64).setVreg 3 { (tagged .f64).vreg 3 with fmt := .s64 }
     Claims.InWindow s [4, 2, 6] ∧ (s.vreg 2).fmt.isPair = true ∧ (s.vreg 6).fmt = (s.vreg 2).fmt ∧ (s.vreg 3).fmt ≠ (s.vreg 2).fmt ∧
       Claims.refuses .add (s.vreg 2).fmt = false) ∧
    (let s := tagged .f64
     Claims.InWindow s [1, 2, 4] ∧ (s.vreg 3).fmt = .f64 ∧ (s.vreg 5).fmt = .f64 ∧ (1 : Nat) % 2 ≠ 0) ∧
    (let s := tagged .s32
     (Instr.vaddVx (vx 0 0 2 1 0 0 0 1 0 0 3 0)).wellFormed = true ∧ (vxOp (vx 0 0 2 1 0 0 0 1 0 0 3 0)).rnd ≠ 0 ∧ (s.vreg 2).fmt.isFloat = false ∧
       Claims.InWindow s [1, 2, 3] ∧ (vxOp (vx 0 0 2 1 0 0 1 0 0 0 0 0)).sat = true ∧ NumOp.abs.unary = true) := by decide
theorem witness_FormatTraps_others : (Instr.vcmpVx (vx 2 0 2 0 0 0 0 0 0 0 9 0)).wellFormed = true ∧ ((tagged .f32).vreg 9).fmt ≠ .f32 ∧
    (Instr.vcvt (vx 0 0 4 2 0 0 0 0 0x0E 0 0 0)).wellFormed = true ∧ 0x0E ≤ (vx 0 0 4 2 0 0 0 0 0x0E 0 0 0).rfmt.toNat ∧
    (base.vreg 4).fmt = .b32 ∧ (Instr.vcvt (vx 0 0 4 2 0 0 0 0 1 0 0 0)).wellFormed = true ∧ Claims.InWindow base [2, 4] ∧
    ((tagged .e4m3x4).vreg 4).fmt = .e4m3x4 ∧ (Fmt.e4m3x4, Fmt.e4m3x4, Fmt.e4m3x4) ∉ [(Fmt.s8x4, Fmt.s8x4, Fmt.s32)] ∧
    (vx 2 0 4 2 0 0 0 0 0 0 0 0).f.toNat ≤ 2 ∧ ((tagged .s8x4).vreg 4).fmt ∉ [Fmt.s32, .n32, .s64, .f32, .f64, .h16x2, .bf16x2] ∧
    (Instr.vtag (vx 0 0 0 9 0 0 0 0 0 0 0 0xF0)).wellFormed = true ∧ ((tagged .s32).vreg 2).fmt ≠ .f32 ∧
    ¬ Claims.InWindow (withW fun w => { w with valloc := 16 }) [1, 16, 2] := by decide

/-- An element that reads as a finite number. -/
theorem finite_of (f : Fmt) (a m : Nat) (neg : Bool) (e : Int) (q : ℚ) (h : f.value a = (.fin neg m e, 0)) (hq : q = Claims.withSign neg (m * 2 ^ e)) :
    Claims.Finite f a neg q := ⟨m, e, h, hq⟩
theorem witness_FloatElements : Claims.shape .h16x2 = some ⟨5, 10, 15⟩ ∧ (0x7C00 : Nat) = Claims.top .h16x2 ⟨5, 10, 15⟩ ∧ (0x7C01 : Nat) < 2 ^ (5 + 10) ∧
    (0x7F : Nat) = Claims.top .e4m3x4 ⟨4, 3, 7⟩ ∧ Fmt.h16x2.value 0x7C01 = (.nan true, 0) ∧ Fmt.h16x2.value 0x7C00 = (.inf false, 0) ∧
    Fmt.h16x2.value 0xFC00 = (.inf true, 0) ∧ (0x7E : Nat) ≤ Claims.top .e4m3x4 ⟨4, 3, 7⟩ - 1 := ⟨rfl, by decide⟩
theorem witness_FloatElements_finite : Claims.Finite .f32 0xC0200000 true (-5 / 2) ∧ Claims.Finite .f32 0 false 0 :=
  ⟨finite_of _ _ 0xA00000 _ (-22) _ (by decide +kernel) (by norm_num [Claims.withSign]),
    finite_of _ _ 0 _ 0 _ (by decide +kernel) (by norm_num [Claims.withSign])⟩
theorem witness_FloatElements_sums : (([(0xC0200000, true, -5 / 2), (0, false, 0)] : List (Nat × Bool × ℚ)) ≠ []) ∧
    (∀ e ∈ ([(0xC0200000, true, -5 / 2), (0, false, 0)] : List (Nat × Bool × ℚ)), Claims.Finite .f32 e.1 e.2.1 e.2.2) ∧
    dotAccepts .e5m2x4 .e4m3x4 .f32 = true ∧ (Fmt.e5m2x4.value 0x7D).1.isNaN = true ∧ (Fmt.e5m2x4.value 0x7C).1 = .inf false ∧
    ∃ n, Claims.Finite .e4m3x4 0 n 0 :=
  ⟨by simp, by simpa using witness_FloatElements_finite, by decide, by decide, by decide, false,
    finite_of _ _ 0 _ 0 _ (by decide) (by norm_num [Claims.withSign])⟩
theorem witness_IntegerElements_packed : Claims.intShape .s4x8 = some (4, -7, 7) ∧ (8 : Nat) < 2 ^ 4 ∧ Claims.intFlag .s4x8 8 = fINTRES ∧
    Claims.exactInt .add 7 1 0 = 8 ∧ (Fmt.t6x5, 5, 6) ∈ [(Fmt.t8x4, 4, 8), (Fmt.t6x5, 5, 6)] ∧ ([1, 2, 3, 4, 63] : List Nat).length = 5 := by decide
theorem witness_IntegerElements_rounds : Claims.RoundsToInt .rne (5 / 2) 2 ∧ Claims.RoundsToInt .rz (-5 / 2) (-2) ∧ Claims.RoundsToInt .ru (5 / 2) 3 ∧
    Claims.RoundsToInt .rd (-5 / 2) (-3) := by
  refine ⟨.inr ⟨?_, by decide⟩, ⟨?_, ?_, ?_⟩, ⟨?_, ?_⟩, ⟨?_, ?_⟩⟩ <;> norm_num [abs_of_pos, abs_of_neg]
theorem witness_TaperedAndCompare : Claims.Finite .t6x5 0x10 false 1 ∧ Claims.Finite .t6x5 0x11 false (5 / 4) ∧
    taperedValue (6 + 1) (2 * 0x10 + 1) = .fin false 9 (-3) ∧ (1 : Nat) + 3 ≤ 6 ∧ (3 : Nat) < 2 ^ (6 - 3 - 1) ∧ (1 : Nat) ≤ 0x10 ∧ 0x10 + 1 < 2 ^ (6 - 1) :=
  ⟨finite_of _ _ 4 _ (-2) _ (by decide) (by norm_num [Claims.withSign]), finite_of _ _ 5 _ (-2) _ (by decide) (by norm_num [Claims.withSign]), by decide⟩

/-- A device without power on its core rails. -/
def unpowered : State := { base with dev := { base.dev with powered := false } }
theorem witness_Power : base.dev.powered = true ∧ base.dev.halt = false ∧ base.clocked 0 = true ∧ unpowered.dev.powered = false ∧
    unpowered.clocked 0 = false ∧ base.safePoint image1 = true ∧ image1.role = 0 ∧ (base.core 0).moving = none ∧
    meets 0 (2 ^ 57) (base.xt 0).virt (max (base.xt 0).limit 1) = true := by decide +kernel
/-- A wave that yields to another one that has issued so often. -/
def yielding (issues : Nat) : State :=
  { living (.waiting (.yield 0 [(⟨1, 0, 0, 1⟩, 0)])) 5 with waves := [{ base.w with key := ⟨1, 0, 0, 1⟩, issues := issues }] }
theorem witness_WaveEvents_yield : ((yielding 1).findWave ⟨1, 0, 0, 1⟩).any (fun v => v.issues + v.left != 0) = true ∧
    ((yielding 0).findWave ⟨1, 0, 0, 1⟩).any (fun v => v.issues + v.left == 0 && !v.saved && (yielding 0).isReady v) = true ∧
    ((yielding 0).core 0).cycle < 0 + 64 := by decide +kernel
theorem witness_WaveEvents_claims : rankOf (vm 0 0).lvl.toNat ≠ 4 ∧ rankOf (lm 0 0 1).lvl.toNat ≠ 4 := by decide
theorem witness_TileLoops_offset : ((regs [(3, 8)]).sreg 2).toNat % 16 = 0 ∧ ((regs [(3, 8)]).sreg 3).toNat % 16 ≠ 0 ∧ 8 ≤ crowded.co.loops.length := by
  decide
theorem witness_LaunchEnters_ring : let s := feeding 1
    s.ctxPlace s.w.ctx { w := true } 0x40080 128 = some 0x40080 ∧ 0x40080 % 64 = 0 ∧ s.vaultFenced 0x40080 = false ∧ s.vaultFenced (0x40080 + 64) = false ∧
    Memory.wf s.mem ∧ (s.co.cache ++ s.co.ckc) = [] ∧ unmapped.ctxPlace 0 { w := true } 0x40080 128 = none := by decide +kernel
/-- An update-only sum of 1, a partial of it that core 0 of device 1 holds, and `base` with that partial. -/
def adding : AtomicOp := ⟨0x10, false, 1, 0⟩
@[inherit_doc adding] def theirs : Partial := ⟨some 1, 0, 0, true, 0x30000, 0x10, false, 1, [], false⟩
@[inherit_doc adding] def gathered (r : Route) : State :=
  { domain (fun p => { p with route := r }) fun f => { f with addr := 0x30000, size := 4 } with parts := [theirs] }
theorem witness_Fabric_partials : updateOnly adding.aop = true ∧ 0x30000 % adding.bytes = 0 ∧ hasMemory 0x30000 = true ∧
    (let s : State := { domain id id with agenda := [.peerPartial 1 0 true 0x30000 adding] }
     s.reachable 1 = true ∧ s.restoring s.dev.devnum 0x30000 = false ∧ s.parts = [] ∧ s.agenda = [.peerPartial 1 0 true 0x30000 adding]) ∧
    ((gathered .up).parts = [theirs] ∧ (gathered .up).snaps = [] ∧ (gathered .up).restores = [] ∧ (gathered .up).poolWait = [] ∧
      Memory.wf (gathered .up).mem ∧ (gathered .up).facts.addr = 0x30000 ∧ (gathered .up).facts.size = adding.bytes ∧
      inMemory 0x30000 adding.bytes = true ∧ (gathered .up).reachable 1 = true ∧ (gathered .up).poisoned 0x30000 = false) ∧
    (gathered .down).reachable 1 = false ∧ (gathered .up).peerLines 1 = [0xC00] := by decide +kernel
-- 08/R245, 15/R410: a read waits for a partial out of reach; 10/R296: an ill-formed MLOOP waits at a full sequencer; 06/R187: a wave that has
-- issued its MWAIT retires it without another fetch
theorem test_peer_partial_waits : (after .hostCoherentRead (gathered .down)).parts = [theirs] := by decide +kernel
theorem test_mloop_full : (match step crowded with | .next t => t.w.life | _ => .ended) = .waiting .mbusy := by decide +kernel
theorem test_held_instruction : (match step retrying with | .next t => t.w.pc | _ => 0) = retrying.w.pc + 4 := by decide +kernel

end Sys2Proof.Tests
end

section
/-! PROOF of O58, what a reset leaves: vectors of equal elements, records that wait for a ring, the fence of a core, and what the two reset
rows write. -/

namespace Sys2Proof.Machine

/-! ### Vectors of equal or mapped elements -/

@[simp] theorem pick_replicate {α : Type} {w n : Nat} (x : α) (i : BitVec w) (h : 2 ^ w = n) :
    pick (Vector.replicate n x) i h = x := by simp [pick]

@[simp] theorem pick_map {α β : Type} {w n : Nat} (f : α → β) (v : Vector α n) (i : BitVec w) (h : 2 ^ w = n) :
    pick (v.map f) i h = f (pick v i h) := by simp [pick]

/-! ### The state after reset -/

@[simp] theorem State.core_reset (c : CoreId) : State.reset.core c = Core.reset := pick_replicate _ _ _
@[simp] theorem State.ctxOf_reset (c : CtxId) : State.reset.ctxOf c = Ctx.reset := pick_replicate _ _ _
@[simp] theorem State.queue_reset (q : QueueId) : State.reset.queue q = LQueue.reset := pick_replicate _ _ _

/-- No wave issues while none is in focus (06/R186). -/
theorem State.not_runnable_of_absent {s : State} (h : s.w = Wave.absent) : s.runnable = false := by
  simp [State.runnable, h, Wave.absent]

/-! ### Event records without a ring (15/R396) -/

/-- The device once it holds one more record back, which took the SEQ it had (15/R396, R402). -/
def State.holdRecord (s : State) (kind : Nat) (ctx : Option CtxId) (body : List Byte) : State :=
  { s with dev := { s.dev with
    seq := (s.dev.seq + 1) % 2 ^ 48
    heldRecs := s.dev.heldRecs ++ [⟨kind, (ctx.map (·.toNat)).getD 0xFFFF, s.dev.seq, s.dev.ftime, body⟩] } }

/-- A device with power and no ring holds a record back while fewer than 256 are held. -/
theorem State.record_of_no_ring {s : State} (kind : Nat) (ctx : Option CtxId) (body : List Byte) (hp : s.dev.powered = true)
    (hr : s.dev.ring.size = 0) (hn : s.dev.heldRecs.length < Config.heldRecords) :
    s.record kind ctx body = s.holdRecord kind ctx body := by
  have flush (n : Nat) (t : State) (ht : t.dev.ring.size = 0) : t.flushRecords n = t := by
    cases n with
    | zero => rfl
    | succ n => cases h : t.dev.heldRecs <;> simp [State.flushRecords, h, ht]
  simp [State.record, State.writeRecord, State.holdRecord, hp, Nat.not_le.mpr hn, flush, hr]

section
variable (s : State) (kind : Nat) (ctx : Option CtxId) (body : List Byte)
@[simp] theorem State.holdRecord_core (c : CoreId) : (s.holdRecord kind ctx body).core c = s.core c := rfl
@[simp] theorem State.holdRecord_bists : (s.holdRecord kind ctx body).dev.bists = s.dev.bists := rfl
@[simp] theorem State.holdRecord_heldRecs : (s.holdRecord kind ctx body).dev.heldRecs =
    s.dev.heldRecs ++ [⟨kind, (ctx.map (·.toNat)).getD 0xFFFF, s.dev.seq, s.dev.ftime, body⟩] := rfl
end

/-! ### The cold reset (18/R441, R445) -/

/-- The device when its units are tested at a cold reset. -/
def State.coldStart (s : State) : State :=
  { State.reset with
    agenda := s.agenda
    facts := s.facts
    turn := s.turn
    cores := State.reset.cores.map fun c => { c with cleanFrom := s.dev.ftime }
    slices := State.reset.slices.map fun u => { u with cleanFrom := s.dev.ftime }
    vaults := State.reset.vaults.map fun u => { u with cleanFrom := s.dev.ftime }
    links := State.reset.links.map fun u => { u with cleanFrom := s.dev.ftime }
    peers := s.peers.map Peer.restarted
    dev := s.dev.cold s.facts.size }

/-- A cold reset fences the failing units one after the other. -/
theorem exec_coldReset (s : State) : exec .coldReset s = .next (s.facts.units.foldl State.failUnit s.coldStart) := rfl

/-- A cold reset in which every unit passes. -/
theorem exec_coldReset_passes {s : State} (h : s.facts.units = []) : exec .coldReset s = .next s.coldStart := by
  rw [exec_coldReset, h, List.foldl_nil]

/-- A cold reset in which one unit fails. -/
theorem exec_coldReset_fails {s : State} {f : UnitId × Nat × Nat} (h : s.facts.units = [f]) :
    exec .coldReset s = .next (s.coldStart.failUnit f) := by
  rw [exec_coldReset, h, List.foldl_cons, List.foldl_nil]

@[simp] theorem State.coldStart_dev (s : State) : s.coldStart.dev = s.dev.cold s.facts.size := rfl
@[simp] theorem State.coldStart_ctxOf (s : State) (c : CtxId) : s.coldStart.ctxOf c = Ctx.reset := pick_replicate _ _ _
@[simp] theorem State.coldStart_queue (s : State) (q : QueueId) : s.coldStart.queue q = LQueue.reset := pick_replicate _ _ _
@[simp] theorem State.coldStart_core (s : State) (c : CoreId) : s.coldStart.core c = { Core.reset with cleanFrom := s.dev.ftime } := by
  simp [State.core, State.coldStart, State.reset]

/-- Under the strap, until a swap has marked a slot, the recovery image boots. -/
theorem Device.cold_recovery {d : Device} (tries : Nat) (hs : d.strap = true) (hb : d.bootSlot = false) :
    (d.cold tries).fwState = .recovery := by simp [Device.cold, hs, hb]

/-- Without the strap, or with a marked slot, the active slots boot when none fails. -/
theorem Device.cold_active {d : Device} (h : d.strap = false ∨ d.bootSlot = true) :
    (d.cold 0).fwState = .idle ∧ ∀ i : Fin 6, (d.cold 0).running[i] = if d.active[i] then d.images[i].2 else d.images[i].1 := by
  have hn : ¬ (d.strap = true ∧ d.bootSlot = false) := by rcases h with h | h <;> simp [h]
  simp [Device.cold, Device.booted, hn]

/-! ### A core that fails its test (18/R445) -/

@[simp] theorem State.core_setCore_same (s : State) (c : CoreId) (x : Core) : (s.setCore c x).core c = x := pick_put_same _ _ _ _

@[simp] theorem State.setCore_setCore (s : State) (c : CoreId) (x y : Core) : (s.setCore c x).setCore c y = s.setCore c y := by
  simp [State.setCore, put]

/-- Placement uses no fenced core. -/
theorem State.openCore_fenced {s : State} {c : CoreId} (h : (s.core c).bin = 3#2) : s.openCore c = false := by
  simp [State.openCore, h]

/-- A fenced core's clock stops, so no sync packet tells of it. -/
theorem State.clockSync_fence (s : State) (c : CoreId) (old : BitVec 2) : s.clockSync c old 3#2 = s := by simp [State.clockSync]

/-- A core's fence at once: bin 3 with no move under way, and the record of the move. -/
theorem State.coreBin_fence (s : State) (u : UnitId) (c : CoreId) :
    s.coreBin u c 3#2 = (s.setCore c { s.core c with bin := 3#2, cleanFrom := s.dev.ftime, moving := none }).binRecord u
      ((s.core c).moving.getD (s.core c).bin) 3#2 := by
  simp only [State.coreBin, State.coreClock, State.clockSync_fence, State.binDone, State.core_setCore_same, State.setCore_setCore,
    State.setCore_dev, Option.getD_some]

/-- A core's fence at once on a device that holds its records back. -/
theorem State.coreBin_fence_of_no_ring {s : State} (u : UnitId) (c : CoreId) (hp : s.dev.powered = true)
    (hr : s.dev.ring.size = 0) (hn : s.dev.heldRecs.length < Config.heldRecords) :
    let t := s.coreBin u c 3#2
    (t.core c).bin = 3#2 ∧ t.dev.bists = s.dev.bists ∧ ∃ r ∈ t.dev.heldRecs, r.kind = 4 := by
  rw [State.coreBin_fence, State.binRecord, State.errorRecord, State.record_of_no_ring 4 none _ (s := State.setCore ..) hp hr hn]
  simp

/-- The device once it holds the record of a unit's failed test and has noted the test's RESULT and STEP. -/
def State.noteFailure (s : State) (u : UnitId) (code step : Nat) : State :=
  (s.holdRecord 4 none { code := 0x0702, unit := u, detail := step % 2 ^ 24 : ErrBody }.bytes).onDev fun d =>
    { d with bists := (u, BitVec.ofNat 32 (code % 2 ^ 8 * 2 ^ 24 + step % 2 ^ 24)) :: d.bists.filter fun e => unitRef e.1 != unitRef u }

theorem State.length_noteFailure_heldRecs (s : State) (u : UnitId) (code step : Nat) :
    (s.noteFailure u code step).dev.heldRecs.length = s.dev.heldRecs.length + 1 := by simp [State.noteFailure, State.onDev]

theorem State.mem_noteFailure_bists (s : State) (u : UnitId) (code step : Nat) :
    (u, BitVec.ofNat 32 (code % 2 ^ 8 * 2 ^ 24 + step % 2 ^ 24)) ∈ (s.noteFailure u code step).dev.bists := List.mem_cons_self

/-- A core that fails its test on a device without a ring is fenced at once. -/
theorem State.failUnit_core_eq {s : State} {u : UnitId} {c : CoreId} (code step : Nat) (hu : unitRef u = .core c)
    (hc : (s.core c).bin ≠ 3#2) (hp : s.dev.powered = true) (hr : s.dev.ring.size = 0)
    (hn : s.dev.heldRecs.length < Config.heldRecords) :
    s.failUnit (u, code, step) = (s.noteFailure u code step).coreBin u c 3#2 := by
  simp only [State.failUnit, State.errorRecord, State.record_of_no_ring 4 none _ hp hr hn, State.noteFailure, hu]
  exact if_neg hc

/-- Such a core ends in bin 3, with its test's result and a held error record. -/
theorem State.failUnit_core {s : State} {u : UnitId} {c : CoreId} (code step : Nat) (hu : unitRef u = .core c)
    (hc : (s.core c).bin ≠ 3#2) (hp : s.dev.powered = true) (hr : s.dev.ring.size = 0) (hh : s.dev.heldRecs = []) :
    let t := s.failUnit (u, code, step)
    (t.core c).bin = 3#2 ∧ (u, BitVec.ofNat 32 (code % 2 ^ 8 * 2 ^ 24 + step % 2 ^ 24)) ∈ t.dev.bists ∧
      ∃ r ∈ t.dev.heldRecs, r.kind = 4 := by
  have hn : s.dev.heldRecs.length < Config.heldRecords := by simp [hh, Config.heldRecords]
  have hn' : (s.noteFailure u code step).dev.heldRecs.length < Config.heldRecords := by
    simp [State.length_noteFailure_heldRecs, hh, Config.heldRecords]
  obtain ⟨hbin, hbists, hrec⟩ := State.coreBin_fence_of_no_ring (s := s.noteFailure u code step) u c hp hr hn'
  rw [State.failUnit_core_eq code step hu hc hp hr hn]
  exact ⟨hbin, hbists.symm ▸ s.mem_noteFailure_bists u code step, hrec⟩

/-! ### The warm reset (00/R18, 18/R441) -/

theorem exec_warmReset (s : State) : exec .warmReset s = execWarmReset s := rfl

end Sys2Proof.Machine

namespace Sys2Proof.Claims
open Sys2Proof.Machine

/-! ### O58 -/

/-- State.reset holds the values of a cold reset. -/
theorem resetValues : ResetValues := by
  refine ⟨rfl, ?_, rfl, rfl, rfl, rfl, rfl, rfl, ?_, ?_, ?_, rfl, rfl, rfl, rfl, rfl, rfl, rfl, State.not_runnable_of_absent rfl⟩
  · intro i
    simp [State.reset, Device.reset]
  · intro c
    simp [Ctx.reset]
  · intro q
    simp [LQueue.reset]
  · intro c
    simp [Core.reset]

/-- The two reset rows over every state. -/
theorem resetRows : ResetRows := by
  intro s
  refine ⟨fun hpass => ?_, fun u c code step hunits hu => ?_, ?_⟩
  · refine ⟨s.coldStart, exec_coldReset_passes hpass, rfl, rfl, ?_, ?_, ?_, rfl, rfl, rfl, rfl, rfl, ?_, rfl, ?_⟩
    · simp [Ctx.reset]
    · simp [LQueue.reset]
    · simp [Core.reset]
    · exact fun hs hb => Device.cold_recovery _ hs hb
    · intro h hsize
      rw [State.coldStart_dev, hsize]
      exact Device.cold_active h
  · have hc : (s.coldStart.core c).bin ≠ 3#2 := by simp [Core.reset]
    obtain ⟨hbin, hbists, hrec⟩ := State.failUnit_core code step hu hc rfl rfl rfl
    exact ⟨_, exec_coldReset_fails hunits, hbin, State.openCore_fenced hbin, hrec, hbists⟩
  · refine ⟨_, exec_warmReset s, rfl, rfl, rfl, rfl, rfl, ?_, ?_, rfl, State.not_runnable_of_absent rfl⟩
    · exact fun c => congrArg Ctx.en (State.ctxOf_reset c)
    · simp [State.core, Core.warm]

/-- Nothing is listed in any memory after reset. -/
theorem resetCanonical : ResetCanonical := by
  refine ⟨Memory.wf_nil, ?_, ?_⟩
  · intro b hb
    obtain rfl : b = Block.absent := by simpa [State.allBlocks, State.reset] using hb
    exact Memory.wf_nil
  · intro p hp
    cases hp

/-- Settles O58: the values after reset, the two reset rows, and canonical memories. -/
theorem reset : Obligations.Reset := ⟨resetValues, resetRows, resetCanonical⟩

end Sys2Proof.Claims
end

section
/-! SUPPORT for the events of the device: waves by name, what a write at the home and an event record leave alone, and writes of stack bytes
at a home where nothing stands between them and memory. -/

namespace Sys2Proof.Machine

/-! ### Waves by name -/

theorem State.findWave_key {s : State} {w : Wave} {k : WaveKey} (h : s.findWave k = some w) : w.key = k := by
  simpa using List.find?_some h

@[simp] theorem State.findWave_self (s : State) : s.findWave s.w.key = some s.w := by simp [State.findWave, State.allWaves]

/-- A wave that has been changed is found under its name. -/
theorem State.findWave_setWave {s : State} {v w : Wave} {k : WaveKey} (h : s.findWave k = some v) (hw : w.key = v.key) :
    (s.setWave w).findWave w.key = some w := by
  have hk : k = w.key := (State.findWave_key h).symm.trans hw.symm
  have same : ∀ x ∈ s.allWaves, decide ((if x.key = w.key then w else x).key = w.key) = decide (x.key = w.key) := by
    intro x _
    split <;> simp_all
  calc (s.setWave w).findWave w.key
      = (s.allWaves.map fun x => if x.key = w.key then w else x).find? fun x => x.key = w.key := rfl
    _ = (s.findWave w.key).map fun x => if x.key = w.key then w else x := by
        rw [List.find?_map]
        exact congrArg _ (List.find?_congr same)
    _ = some w := by rw [← hk, h, Option.map_some, if_pos (State.findWave_key h)]

/-- A change of the wave in focus, made as that wave. -/
theorem State.changeAs_self (s : State) (f : State → State) : s.changeAs s.w.key f = f s := by
  simp [State.changeAs, State.asWave, State.seenAs]

/-! ### What a write at the home leaves alone (13/R367 to R373) -/

/-- A core without its data caches. -/
def Core.bare (c : Core) : Core := { c with cache := [], ckc := [] }

/-- The state without what a write at the home changes: memory and its poison, the registrations with what the home slices know of the
cores' copies, and the cores' data caches. -/
def State.frame (s : State) : State :=
  { s with mem := [], poison := [], reg := [], sigs := [], invals := [], dirs := [], cores := s.cores.map Core.bare }

theorem State.frame_w {s t : State} (h : t.frame = s.frame) : t.w = s.w := by
  simpa [State.frame] using congrArg State.w h
theorem State.frame_dev {s t : State} (h : t.frame = s.frame) : t.dev = s.dev := by
  simpa [State.frame] using congrArg State.dev h

/-- A core that keeps all but its data caches. -/
theorem State.frame_setCore {s : State} {c : CoreId} {x : Core} (h : x.bare = (s.core c).bare) : (s.setCore c x).frame = s.frame := by
  have : (put s.cores c x).map Core.bare = s.cores.map Core.bare := by
    ext i hi
    by_cases e : c.toNat = i
    · subst e
      simpa [put, State.core, pick] using h
    · simp [put, e]
  simp [State.frame, State.setCore, this]

/-- What every step of a fold leaves alone, the fold leaves alone. -/
theorem State.frame_foldl {α : Type} {f : State → α → State} (h : ∀ s a, (f s a).frame = s.frame) (l : List α) (s : State) :
    (l.foldl f s).frame = s.frame := by
  induction l generalizing s with
  | nil => rfl
  | cons a l ih => rw [List.foldl_cons, ih, h]

@[simp] theorem State.frame_dropWord (s : State) (agent pa : Nat) : (s.dropWord agent pa).frame = s.frame := by
  unfold State.dropWord
  split
  · exact State.frame_setCore rfl
  · rfl

@[simp] theorem State.frame_sendInvals (s : State) (agent line : Nat) : (s.sendInvals agent line).frame = s.frame := rfl
@[simp] theorem State.frame_setReg (s : State) (r : List (Nat × Nat)) (line : Nat) : (s.setReg r line).frame = s.frame := rfl

@[simp] theorem State.frame_register (s : State) (agent pa : Nat) : (s.register agent pa).frame = s.frame := by
  unfold State.register
  cases s.registrant pa <;> simp

@[simp] theorem State.frame_registerAll (s : State) (agent : Nat) (bs : List (Nat × Byte)) :
    (s.registerAll agent bs).frame = s.frame := State.frame_foldl (fun s pa => s.frame_register agent pa) _ _

@[simp] theorem State.frame_clearPoison (s : State) (line : Nat) (bs : List (Nat × Byte)) : (s.clearPoison line bs).frame = s.frame := by
  unfold State.clearPoison
  split <;> rfl

@[simp] theorem State.frame_putDirty (s : State) (line : Nat) (bs : List (Nat × Byte)) : (s.putDirty line bs).frame = s.frame := by
  unfold State.putDirty
  split <;> rfl

@[simp] theorem State.frame_putBytes (s : State) (line : Nat) (bs : List (Nat × Byte)) : (s.putBytes line bs).frame = s.frame := by
  unfold State.putBytes
  split
  · rfl
  · simp

@[simp] theorem State.frame_evict (s : State) (c : CoreId) (v : Option CacheLine) : (s.evict c v).frame = s.frame := by
  cases v with
  | none => rfl
  | some v =>
    have given : (s.setCore c ((s.core c).giveUp v.dev v.line)).frame = s.frame := State.frame_setCore rfl
    simp only [State.evict, State.unregister]
    split <;> simp [given]

@[simp] theorem State.frame_noteTaken (s : State) (c : CoreId) (dev line : Nat) (coh : Bool) :
    (s.noteTaken c dev line coh).frame = s.frame := by
  unfold State.noteTaken
  split <;> rfl

@[simp] theorem State.frame_takeLine (s : State) (c : CoreId) (dev line : Nat) (coh dirty : Bool) (bs : List (Nat × Byte)) (va : DWord) :
    (s.takeLine c dev line coh dirty bs va).frame = s.frame := by
  have taken (t : State) : (t.setCore c ((t.core c).take dev line coh dirty t.turn bs va)).frame = t.frame := State.frame_setCore rfl
  simp [State.takeLine, State.evictFor, taken]

@[simp] theorem State.frame_holdWords (s : State) (c : CoreId) (line : Nat) (bs : List (Nat × Byte)) :
    (s.holdWords c line bs).frame = s.frame := s.frame_takeLine ..

@[simp] theorem State.frame_dropLine (s : State) (c : CoreId) (dev line : Nat) : (s.dropLine c dev line).frame = s.frame :=
  State.frame_setCore rfl

/-! ### What an event record leaves alone (15/R396, R402) -/

/-- The state without what a write of the device itself changes: what a write at the home changes, partials and shadow lines, the line of
writers that wait on a pool, and the event ring with the records held for it. -/
def State.apart (s : State) : State :=
  { s.frame with parts := [], snaps := [], poolWait := [], retry := none, dev := { s.dev with heldRecs := [], ring := State.reset.dev.ring } }

theorem State.apart_of_frame {s t : State} (h : t.frame = s.frame) : t.apart = s.apart :=
  congrArg (fun u : State =>
    { u with parts := [], snaps := [], poolWait := [], retry := none, dev := { u.dev with heldRecs := [], ring := State.reset.dev.ring } }) h

/-- What every step of a fold that may stop leaves alone, the fold leaves alone. -/
theorem State.apart_foldlM {α ε : Type} {f : State → α → Except ε State} (h : ∀ s a t, f s a = .ok t → t.apart = s.apart) (l : List α)
    {s t : State} (e : l.foldlM f s = .ok t) : t.apart = s.apart := by
  induction l generalizing s with
  | nil => cases e; rfl
  | cons a l ih =>
    rw [List.foldlM_cons] at e
    cases ha : f s a with
    | error x => rw [ha] at e; cases e
    | ok u => rw [ha] at e; exact (ih e).trans (h _ _ _ ha)

theorem State.apart_copyOnWrite {s t : State} {but : Option CtxId} {line : Nat} (h : s.copyOnWrite but line = .ok t) :
    t.apart = s.apart := by
  refine State.apart_foldlM (fun s p t h => ?_) _ h
  split at h
  · cases h; rfl
  · split at h <;> cases h
    rfl

theorem State.apart_recallLine {s t : State} {line : Nat} (h : s.recallLine s.dev.devnum line = .ok t) : t.apart = s.apart := by
  unfold State.recallLine State.recallWhere at h
  split at h
  · cases h; rfl
  · simp only [reduceIte] at h
    split at h
    · cases h; rfl
    · split at h
      · cases h; rfl
      · cases hc : s.copyOnWrite none line with
        | error c => rw [hc] at h; cases h
        | ok u =>
          rw [hc] at h
          cases h
          refine (State.apart_of_frame (State.frame_registerAll ..)).trans (Eq.trans ?_ (State.apart_copyOnWrite hc))
          simp only [State.apart, State.frame, Vector.map_map]
          rfl

theorem State.apart_beforeWrite {s t : State} {but : Option CtxId} {line : Nat} (h : s.beforeWrite but line = .ok t) :
    t.apart = s.apart := by
  unfold State.beforeWrite at h
  cases hr : s.recallLine s.dev.devnum line with
  | error c => rw [hr] at h; cases h
  | ok u => rw [hr] at h; exact (State.apart_copyOnWrite h).trans (State.apart_recallLine hr)

/-- The agent of the device's own writes is no core. -/
theorem State.apart_homeWrite_host {s t : State} {but : Option CtxId} {line : Nat} {bs : List (Nat × Byte)}
    (h : s.homeWrite (some hostAgent) but line bs = .ok t) : t.apart = s.apart := by
  unfold State.homeWrite at h
  cases hb : s.beforeWrite but line with
  | error c => rw [hb] at h; cases h
  | ok u =>
    rw [hb] at h
    cases h
    exact (State.apart_of_frame (by simp)).trans (State.apart_beforeWrite hb)

theorem State.apart_deviceWrite {s t : State} {a : Nat} {bs : List Byte} (h : s.deviceWrite a bs = .ok t) : t.apart = s.apart := by
  unfold State.deviceWrite at h
  split at h
  · cases h
  · cases hw : s.homeWriteAll (some hostAgent) none ((placed a bs).filter fun b => hasMemory b.1) with
    | error c => rw [hw] at h; cases h
    | ok u =>
      rw [hw] at h
      cases h
      exact State.apart_foldlM (fun _ _ _ => State.apart_homeWrite_host) _ hw

@[simp] theorem State.apart_joinPool (s : State) (c : Option CtxId) (x : Turn) : (s.joinPool c x).apart = s.apart := by
  cases c with
  | none => rfl
  | some c =>
    simp only [State.joinPool, State.stillShort]
    split_ifs <;> rfl

@[simp] theorem State.apart_flushRecords (n : Nat) (s : State) : (s.flushRecords n).apart = s.apart := by
  induction n generalizing s with
  | zero => rfl
  | succ n ih =>
    unfold State.flushRecords
    split
    · rfl
    · next r rs _ =>
      dsimp only
      split
      · rfl
      · split
        · simp
        · next u hw =>
          have := State.apart_deviceWrite hw
          rw [ih]
          exact this

/-- The device with the next SEQ. -/
def State.numbered (s : State) : State := { s with dev := { s.dev with seq := (s.dev.seq + 1) % 2 ^ 48 } }

@[simp] theorem State.apart_writeRecord (s : State) (kind : Nat) (ctx : Option CtxId) (body : List Byte) :
    (s.writeRecord kind ctx body).apart = s.numbered.apart := by
  unfold State.writeRecord
  dsimp only
  split
  · rfl
  · rw [State.apart_flushRecords]
    rfl

/-- A record takes a number and, of what the device's own writes leave alone, changes nothing else. -/
theorem State.apart_record (s : State) (kind : Nat) (ctx : Option CtxId) (body : List Byte) :
    (s.record kind ctx body).apart = if s.dev.powered then s.numbered.apart else s.apart := by
  unfold State.record
  split <;> simp

section
variable (s : State) (kind : Nat) (ctx : Option CtxId) (body : List Byte)

/-- What neither the write nor the number touches stands. -/
theorem State.record_keeps {α : Type} (f : State → α) (ha : ∀ u : State, f u.apart = f u) (hn : f s.numbered = f s) :
    f (s.record kind ctx body) = f s := by
  have h := congrArg f (s.apart_record kind ctx body)
  rw [ha] at h
  split at h
  · rw [h, ha, hn]
  · rw [h, ha]

@[simp] theorem State.record_w : (s.record kind ctx body).w = s.w := s.record_keeps kind ctx body (·.w) (fun _ => rfl) rfl
@[simp] theorem State.record_waves : (s.record kind ctx body).waves = s.waves :=
  s.record_keeps kind ctx body (·.waves) (fun _ => rfl) rfl
@[simp] theorem State.record_pwrk : (s.record kind ctx body).dev.pwrk = s.dev.pwrk :=
  s.record_keeps kind ctx body (·.dev.pwrk) (fun _ => rfl) rfl
@[simp] theorem State.record_pkgpwr : (s.record kind ctx body).dev.pkgpwr = s.dev.pkgpwr :=
  s.record_keeps kind ctx body (·.dev.pkgpwr) (fun _ => rfl) rfl
@[simp] theorem State.record_tj : (s.record kind ctx body).dev.tj = s.dev.tj :=
  s.record_keeps kind ctx body (·.dev.tj) (fun _ => rfl) rfl

/-- A core keeps all but its data caches. -/
theorem State.record_core (c : CoreId) : ((s.record kind ctx body).core c).bare = (s.core c).bare :=
  s.record_keeps kind ctx body (fun u => (u.core c).bare)
    (fun u => by simp [State.core, State.apart, State.frame, Core.bare]) rfl

theorem State.record_seq (hp : s.dev.powered = true) : (s.record kind ctx body).dev.seq = (s.dev.seq + 1) % 2 ^ 48 := by
  have h := congrArg (fun u : State => u.dev.seq) (s.apart_record kind ctx body)
  rw [if_pos hp] at h
  exact h

@[simp] theorem State.record_findWave (k : WaveKey) : (s.record kind ctx body).findWave k = s.findWave k := by
  simp [State.findWave, State.allWaves]

end

/-! ### Stack bytes at their home (06/R190, 14/R382) -/

/-- Nothing stands between a write and this device's memory in a state that a home write leaves. -/
theorem State.clear_of_frame {s t : State} (h : t.frame = s.frame) (hc : Claims.Clear s) : Claims.Clear t := by
  obtain ⟨hparts, hsnaps, hrest⟩ := hc
  refine ⟨?_, ?_, ?_⟩
  · simpa [State.frame, hparts] using congrArg State.parts h
  · simpa [State.frame, hsnaps] using congrArg State.snaps h
  · simpa [State.frame, hrest] using congrArg State.restores h

/-- An act at the home goes through and leaves alone what a write there does. -/
def State.GoesHome (s : State) (x : Except CtxId State) : Prop := ∃ t, x = .ok t ∧ t.frame = s.frame

theorem State.GoesHome.pure {s t : State} (h : t.frame = s.frame) : s.GoesHome (.ok t) := ⟨t, rfl, h⟩

/-- One act at the home after another. -/
theorem State.GoesHome.bind {s : State} {x : Except CtxId State} {f : State → Except CtxId State} (hx : s.GoesHome x)
    (hf : ∀ t : State, t.frame = s.frame → t.GoesHome (f t)) : s.GoesHome (x >>= f) := by
  obtain ⟨t, rfl, ht⟩ := hx
  obtain ⟨u, hu, fu⟩ := hf t ht
  exact ⟨u, hu, fu.trans ht⟩

@[simp] theorem State.core_putDirty (s : State) (line : Nat) (bs : List (Nat × Byte)) (c : CoreId) :
    (s.putDirty line bs).core c = s.core c := by
  unfold State.putDirty
  split <;> rfl

section
variable {s : State} (hc : Claims.Clear s)
include hc

theorem State.copyOnWrite_of_clear (but : Option CtxId) (line : Nat) : s.GoesHome (s.copyOnWrite but line) := by
  simp only [State.copyOnWrite, State.deepest, hc.2.1]
  exact .pure rfl

theorem State.beforeWrite_of_clear (but : Option CtxId) (line : Nat) : s.GoesHome (s.beforeWrite but line) := by
  simp only [State.beforeWrite, State.recallLine, hc.1, reduceIte]
  exact State.copyOnWrite_of_clear hc but line

theorem State.writeBack_of_clear (c : CoreId) (line : Nat) : s.GoesHome (s.writeBack c line) := by
  unfold State.writeBack
  dsimp only
  split
  · exact .pure rfl
  · exact .bind (State.beforeWrite_of_clear hc ..) fun t _ =>
      .pure ((State.frame_setCore (by rw [State.core_putDirty]; rfl)).trans (t.frame_putDirty ..))

theorem State.makeRoom_of_clear (c : CoreId) (dev line : Nat) : s.GoesHome (s.makeRoom c dev line) := by
  have second (t : State) (ft : t.frame = s.frame) (v : CacheLine) : t.GoesHome (t.writeBack c v.line) :=
    State.writeBack_of_clear (State.clear_of_frame ft hc) ..
  unfold State.makeRoom
  dsimp only
  split
  · refine .bind (.pure rfl) fun t ft => ?_
    split
    · exact .pure rfl
    · exact second t ft _
  · refine .bind (State.writeBack_of_clear hc ..) fun t ft => ?_
    split
    · exact .pure rfl
    · exact second t ft _

/-- A write of any agent, or of none. -/
theorem State.homeWrite_of_clear (agent : Option Nat) (but : Option CtxId) (line : Nat) (bs : List (Nat × Byte)) :
    s.GoesHome (s.homeWrite agent but line bs) := by
  unfold State.homeWrite
  refine .bind (State.beforeWrite_of_clear hc ..) fun t ft => ?_
  cases agent with
  | none => exact .pure (t.frame_putBytes ..)
  | some a =>
    by_cases ha : a < 512
    · simp only [ha, reduceIte]
      exact .bind (State.makeRoom_of_clear (State.clear_of_frame ft hc) ..) fun u _ => .pure (by simp)
    · simp only [ha, reduceIte]
      exact .pure (by simp)

/-- A write of the wave in focus at D, on a coherent or a software-managed page. -/
theorem State.writeD_of_clear (line : Nat) (coh : Bool) (bs : List (Nat × Byte)) (va : DWord) : s.GoesHome (s.writeD line coh bs va) := by
  cases coh with
  | true =>
    simp only [State.writeD, reduceIte]
    exact State.homeWrite_of_clear hc ..
  | false =>
    simp only [State.writeD, hc.1, reduceIte, Bool.false_eq_true]
    refine .bind (.pure rfl) fun t ft => ?_
    have ct := State.clear_of_frame ft hc
    refine .bind (State.copyOnWrite_of_clear ct ..) fun u fu => ?_
    have cu := State.clear_of_frame fu ct
    refine .bind (State.makeRoom_of_clear cu ..) fun v fv => ?_
    have cv := State.clear_of_frame fv cu
    split
    · refine .pure ?_
      split <;> simp
    · refine .bind (State.writeBack_of_clear cv ..) fun x fx => ?_
      obtain ⟨y, hy, fy⟩ := State.homeWrite_of_clear (State.clear_of_frame (x.frame_dropLine ..) (State.clear_of_frame fx cv)) none none line bs
      exact ⟨y, hy, fy.trans (x.frame_dropLine ..)⟩

end

/-! ### The stack cache's acts -/

/-- The runs that stack bytes are cut into, put together again. -/
theorem flatten_stkLines (bs : List StkByte) : (stkLines bs).flatten = bs := by
  induction bs with
  | nil => rfl
  | cons b bs ih =>
    unfold stkLines
    split
    · next c g gs e =>
      rw [e] at ih
      split <;> simpa using ih
    · simpa using ih

/-- A write at the home is performed by the wave where nothing stands between it and memory. -/
theorem atHome_of_clear {s : State} (hc : Claims.Clear s) {f : State → Except CtxId State} (hf : s.GoesHome (f s)) (line : Nat)
    (bs : List (Nat × Byte)) (va : DWord) (access : Nat) : ∃ t, atHome line bs f va access s = .ok ((), t) ∧ t.frame = s.frame := by
  obtain ⟨t, ht, ft⟩ := hf
  obtain ⟨hparts, -, hrest⟩ := hc
  refine ⟨t, ?_, ft⟩
  simp [atHome, State.restoring, recallAct, withPool, Act.bind_run, hrest, hparts, ht]

theorem stkWriteLine_of_clear {s : State} (hc : Claims.Clear s) {bs : List StkByte} (hd : ∀ b ∈ bs, b.dev = s.dev.devnum) :
    ∃ t, stkWriteLine bs s = .ok ((), t) ∧ t.frame = s.frame := by
  cases bs with
  | nil => exact ⟨s, rfl, rfl⟩
  | cons b bs =>
    have here : b.dev = s.dev.devnum := hd b List.mem_cons_self
    simp only [stkWriteLine, Act.bind_run, Act.get_run, here, reduceIte]
    exact atHome_of_clear hc (State.writeD_of_clear hc ..) ..

theorem stkWriteLines_of_clear {s : State} (hc : Claims.Clear s) {gs : List (List StkByte)}
    (hd : ∀ g ∈ gs, ∀ b ∈ g, b.dev = s.dev.devnum) : ∃ t, (gs.forM stkWriteLine : Act Unit) s = .ok ((), t) ∧ t.frame = s.frame := by
  induction gs generalizing s with
  | nil => exact ⟨s, rfl, rfl⟩
  | cons g gs ih =>
    obtain ⟨t, ht, ft⟩ := stkWriteLine_of_clear hc (hd g List.mem_cons_self)
    have hd' : ∀ h ∈ gs, ∀ b ∈ h, b.dev = t.dev.devnum := by
      rw [State.frame_dev ft]
      exact fun h hh => hd h (List.mem_cons_of_mem _ hh)
    obtain ⟨u, hu, fu⟩ := ih (State.clear_of_frame ft hc) hd'
    exact ⟨u, (Act.bind_ok _ _ _ _ _ ht).trans hu, fu.trans ft⟩

/-- Stack bytes that are homed here go to memory where nothing stands between them and it. -/
theorem stkWriteBack_of_clear {s : State} (hc : Claims.Clear s) {bs : List StkByte} (hd : ∀ b ∈ bs, b.dev = s.dev.devnum) :
    ∃ t, stkWriteBack bs s = .ok ((), t) ∧ t.frame = s.frame :=
  stkWriteLines_of_clear hc fun g hg b hb => hd b (flatten_stkLines bs ▸ List.mem_flatten.mpr ⟨g, hg, hb⟩)

end Sys2Proof.Machine
end

section
/-! PROOF of O50, the events of a wave, of its checker and of heat: what each event does, one lemma for each of its outcomes. -/

namespace Sys2Proof.Machine

/-! ### The rails (18/R450) -/

theorem State.stopped_iff (s : State) : s.stopped = true ↔ s.dev.halt = true ∨ s.dev.powered = false := by
  simp [State.stopped]

theorem State.stopped_of_unpowered {s : State} (h : s.dev.powered = false) : s.stopped = true := s.stopped_iff.mpr (.inr h)

theorem State.not_stopped {s : State} (hh : s.dev.halt = false) (hp : s.dev.powered = true) : s.stopped = false := by
  simp [State.stopped, hh, hp]

theorem State.not_runnable_of_stopped {s : State} (h : s.stopped = true) : s.runnable = false := by simp [State.runnable, h]

/-! ### YIELD and starvation (04/R139, 12/R342) -/

theorem execYieldResume_stopped {s : State} (h : s.stopped = true) : execYieldResume s = .next s := by
  unfold execYieldResume
  split
  · rfl
  · split
    · simp [h]
    · rfl

theorem execWaveStarved_stopped {s : State} (h : s.stopped = true) : execWaveStarved s = .next s := by
  unfold execWaveStarved
  split
  · rfl
  · simp [h]

theorem State.yieldDone_iff (s : State) (x : WaveKey × Nat) : s.yieldDone x = true ↔
    ∀ v, s.findWave x.1 = some v → v.issues + v.left ≠ x.2 ∨ v.saved = true ∨ s.isReady v = false := by
  unfold State.yieldDone
  split
  · next h => simp [h]
  · next h => simp [h, or_assoc]

/-- What a yielding wave's turn does while the device runs. -/
theorem execYieldResume_yielding {s : State} {w : Wave} {since : Nat} {set : List (WaveKey × Nat)} (hf : s.findWave s.facts.wave = some w)
    (hl : w.life = .waiting (.yield since set)) (hs : s.stopped = false) (hv : w.saved = false) :
    execYieldResume s = .next (if since + 64 ≤ (s.core w.core).cycle ∨ set.all s.yieldDone then s.setWave { w with life := .ready } else s) := by
  simp only [execYieldResume, hf, hl, hs, hv, Bool.false_eq_true, or_self, reduceIte]
  split <;> rfl

theorem execWaveStarved_ready {s : State} {w : Wave} (hf : s.findWave s.facts.wave = some w) (hr : s.isReady w = true)
    (hs : s.stopped = false) (hv : w.saved = false) : execWaveStarved s = .next (s.setWave { w with starved := true }) := by
  simp [execWaveStarved, hf, hr, hs, hv]

/-! ### The watchdog (06/R195) -/

/-- A wait that draws no record now: the device is stopped, the wait is not watched or is over, or the period is not. -/
theorem execWatchdog_quiet {s : State} {w : Wave} {x : Wait} (hf : s.findWave s.facts.wave = some w) (hl : w.life = .waiting x)
    (h : s.stopped = true ∨ x.watched = false ∨ s.waitOver w x = true ∨
      (s.core w.core).cycle < w.waitFrom + 2 ^ (s.ctxOf w.ctx).wdogk) : execWatchdog s = .next s := by
  simp only [execWatchdog, hf, hl]
  refine if_pos ?_
  rcases h with h | h | h | h <;> simp [h]

theorem execWatchdog_stopped {s : State} (h : s.stopped = true) : execWatchdog s = .next s := by
  cases hf : s.findWave s.facts.wave with
  | none => simp [execWatchdog, hf]
  | some w =>
    cases hl : w.life with
    | waiting x => exact execWatchdog_quiet hf hl (.inl h)
    | _ => simp [execWatchdog, hf, hl]

/-- A period that has passed: the next one begins, and a record is written. -/
theorem execWatchdog_records {s : State} {w : Wave} {x : Wait} (hf : s.findWave s.facts.wave = some w) (hl : w.life = .waiting x)
    (hs : s.stopped = false) (hv : w.saved = false) (hx : x.watched = true) (ho : s.waitOver w x = false)
    (hc : w.waitFrom + 2 ^ (s.ctxOf w.ctx).wdogk ≤ (s.core w.core).cycle) :
    ∃ body, execWatchdog s =
      .next ((s.setWave { w with waitFrom := w.waitFrom + 2 ^ (s.ctxOf w.ctx).wdogk }).record 2 (some w.ctx) body) := by
  simp only [execWatchdog, hf, hl, hs, hv, hx, ho, Nat.not_lt.mpr hc, Bool.not_true, Bool.false_eq_true, or_self, reduceIte]
  exact ⟨_, rfl⟩

/-! ### The stack cache (06/R190) -/

/-- A wave's oldest stack bytes written back leave its stack cache. -/
theorem execStackCacheWriteback_of_ok {s u : State} (hw : s.facts.wave = s.w.key) (hp : s.dev.powered = true)
    (h : stkWriteBack (s.w.stk.take s.facts.num) s = .ok ((), u)) :
    execStackCacheWriteback s = .next { u with w := { u.w with stk := u.w.stk.drop s.facts.num } } := by
  simp [execStackCacheWriteback, hw, hp, State.inWave, State.asWave, State.seenAs, Act.bind_run, h]

/-! ### The checker's verdicts (01/R40, R45, R46) -/

theorem State.not_mayIssue_of_stopped {s : State} (h : s.stopped = true) (w : Wave) : s.mayIssue w = false := by
  simp [State.mayIssue, h]

/-- No flush of a wave that may not issue, or whose instruction the checker performs. -/
theorem execFlush_of_not_claiming {s : State} {w : Wave} (hf : s.findWave s.facts.wave = some w)
    (h : s.mayIssue w = false ∨ w.byChecker = true ∨ w.ckOnly = true) : execFlush s = .next s := by
  simp only [execFlush, hf]
  refine if_pos ?_
  rcases h with h | h | h <;> simp [h]

theorem execFlush_stopped {s : State} (h : s.stopped = true) : execFlush s = .next s := by
  cases hf : s.findWave s.facts.wave with
  | none => simp [execFlush, hf]
  | some w => exact execFlush_of_not_claiming hf (.inl (State.not_mayIssue_of_stopped h w))

section
variable {s : State} {w : Wave} (hf : s.findWave s.facts.wave = some w) (hi : s.mayIssue w = true) (hb : w.byChecker = false)
  (hk : w.ckOnly = false)
include hf hi hb hk

theorem execFlush_value {lines : List Nat} (h : s.facts.flush = .value lines) : execFlush s = .next (s.valueMismatch w lines) := by
  simp [execFlush, hf, hi, hb, hk, h]

/-- A result mismatch of an instruction whose result a unit claims. -/
theorem execFlush_result {w0 : Word} {i : Instr} {u : Nat} (h : s.facts.flush = .result) (hn : s.nextOf w.key = some (w0, some i))
    (hu : resultUnit i = some u) : execFlush s = .next (s.resultMismatch w u) := by
  simp [execFlush, hf, hi, hb, hk, h, hn, hu]

/-- No unit is charged for an instruction without a claim. -/
theorem execFlush_unclaimed (h : s.facts.flush = .result)
    (hn : ∀ w0 i, s.nextOf w.key = some (w0, some i) → resultUnit i = none) : execFlush s = .next s := by
  have none_claims : ((s.nextOf w.key).bind fun x => x.2.bind resultUnit) = none := by
    rcases hx : s.nextOf w.key with - | ⟨w0, - | i⟩
    · rfl
    · rfl
    · exact hn w0 i hx
  simp [execFlush, hf, hi, hb, hk, h, none_claims]

end

/-! #### Value mismatches -/

/-- A line of which every byte is dirty. -/
def CacheLine.allDirty (l : CacheLine) : Prop := ∀ b ∈ l.bytes, l.dirty.contains b.off = true

theorem CacheLine.allDirty_keep_dirty (l : CacheLine) : (l.keep l.dirty.contains).allDirty := by
  intro b hb
  have kept : l.dirty.contains b.off = true := (List.mem_filter.mp hb).2
  simpa [CacheLine.keep] using kept

/-- Dropping a line leaves its dirty bytes in the data cache, and the other lines as they were. -/
theorem Core.mem_dropPrivate {c : Core} {line : Nat} {x : CacheLine} (h : x ∈ (c.dropPrivate line).cache) :
    (x.line = line → x.allDirty) ∧ (x ∈ c.cache ∨ x.allDirty) := by
  obtain ⟨l, hl, hx⟩ := List.mem_map.mp (List.mem_filter.mp h).1
  split at hx
  · subst hx
    exact ⟨fun _ => l.allDirty_keep_dirty, .inr l.allDirty_keep_dirty⟩
  · subst hx
    exact ⟨fun e => absurd e ‹_›, .inl hl⟩

/-- After the drops no line of the list holds a clean byte. -/
theorem Core.allDirty_of_mem_dropPrivates {lines : List Nat} {c : Core} {x : CacheLine}
    (h : x ∈ (lines.foldl Core.dropPrivate c).cache) : (x.line ∈ lines → x.allDirty) ∧ (x ∈ c.cache ∨ x.allDirty) := by
  induction lines generalizing c with
  | nil => exact ⟨fun e => absurd e List.not_mem_nil, .inl h⟩
  | cons line lines ih =>
    obtain ⟨later, held⟩ := ih h
    rcases held with held | dirty
    · obtain ⟨now, before⟩ := Core.mem_dropPrivate held
      refine ⟨fun e => ?_, before⟩
      rcases List.mem_cons.mp e with e | e
      · exact now e
      · exact later e
    · exact ⟨fun _ => dirty, .inr dirty⟩

@[simp] theorem Core.ckc_dropPrivates (lines : List Nat) (c : Core) : (lines.foldl Core.dropPrivate c).ckc = c.ckc := by
  induction lines generalizing c with
  | nil => rfl
  | cons line lines ih => exact ih _

/-! #### Result mismatches -/

/-- One mismatch counted against a unit of a core, saturating (17/R426). -/
theorem Core.mcnt_charge (c : Core) (d : Device) (u : UnitId) (i : Fin 13) :
    (c.charge d u i).mcnt[i] = min 65535 (c.mcnt[i] + 1) := by simp [Core.charge]

/-- The wave after a result mismatch: the third in a row starts checker-only mode (01/R46). -/
def Wave.mismatched (w : Wave) : Wave :=
  { w with flushes := w.flushes + 1, resMis := w.resMis + 1, ckOnly := decide (3 ≤ w.resMis + 1) }

/-- The state in which a result mismatch has been counted against the wave, and against a unit of its core. -/
def State.mismatched (s : State) (w : Wave) (u : UnitId) (i : Fin 13) : State :=
  (s.setCore w.core ((s.core w.core).charge s.dev u i)).setWave w.mismatched

theorem State.resultMismatch_eq (s : State) (w : Wave) {kind : Nat} (h : kind < 3) (hi : 4 * kind + w.sched.toNat < 13) :
    ∃ u body, s.resultMismatch w kind =
      if 3 ≤ w.resMis + 1 then (s.mismatched w u ⟨_, hi⟩).record 4 (some w.ctx) body else s.mismatched w u ⟨_, hi⟩ := by
  unfold State.resultMismatch
  simp only [h, reduceDIte, decide_eq_true_eq]
  exact ⟨_, _, rfl⟩

/-- A result mismatch counts against the wave and against the unit that claimed. -/
theorem State.resultMismatch_counts {s : State} {w : Wave} {kind : Nat} {k : WaveKey} (hf : s.findWave k = some w) (h : kind < 3) :
    (s.resultMismatch w kind).findWave w.key = some w.mismatched ∧
      ((s.resultMismatch w kind).core w.core).mcnt.toList.getD (4 * kind + w.sched.toNat) 0 =
        min 65535 ((s.core w.core).mcnt.toList.getD (4 * kind + w.sched.toNat) 0 + 1) := by
  have hi : 4 * kind + w.sched.toNat < 13 := by omega
  obtain ⟨u, body, e⟩ := s.resultMismatch_eq w h hi
  have found : (s.mismatched w u ⟨_, hi⟩).findWave w.key = some w.mismatched :=
    State.findWave_setWave (s := s.setCore w.core _) hf rfl
  have charged : (s.mismatched w u ⟨_, hi⟩).core w.core = (s.core w.core).charge s.dev u ⟨_, hi⟩ := s.core_setCore_same w.core _
  have recorded : (s.resultMismatch w kind).findWave w.key = some w.mismatched ∧
      ((s.resultMismatch w kind).core w.core).bare = ((s.core w.core).charge s.dev u ⟨_, hi⟩).bare := by
    rw [e]
    split
    · rw [State.record_findWave, State.record_core, charged]
      exact ⟨found, rfl⟩
    · rw [charged]
      exact ⟨found, rfl⟩
  refine ⟨recorded.1, ?_⟩
  have count : ((s.resultMismatch w kind).core w.core).mcnt = ((s.core w.core).charge s.dev u ⟨_, hi⟩).mcnt :=
    (congrArg Core.mcnt recorded.2 :)
  simpa [hi, count] using (s.core w.core).mcnt_charge s.dev u ⟨_, hi⟩

/-- A value mismatch counts against the wave, and leaves no clean byte of the lines in the data cache. -/
theorem State.valueMismatch_counts {s : State} {w : Wave} {k : WaveKey} (lines : List Nat) (hf : s.findWave k = some w) :
    (s.valueMismatch w lines).findWave w.key = some { w with
        flushes := w.flushes + 1, valMis := w.valMis + 1
        byChecker := ((s.nextOf w.key).any fun x => x.2.any loads) && decide (3 ≤ w.valMis + 1) } ∧
      (s.valueMismatch w lines).core w.core = lines.foldl Core.dropPrivate (s.core w.core) :=
  ⟨State.findWave_setWave (s := s.setCore w.core _) hf rfl, s.core_setCore_same w.core _⟩

/-! #### The units that claim results (01/R36, R46) -/

/-- P of a first word (03/R91). -/
theorem wordP_append (x : BitVec 29) (p : BitVec 1) (len : BitVec 2) : wordP (x ++ p ++ len) = p.toNat := by
  have bit : (x ++ p ++ len).extractLsb' 2 1 = p := by
    rw [BitVec.extractLsb'_append_eq_of_le (by omega), BitVec.extractLsb'_append_eq_of_add_le (by omega)]
    simp
  exact congrArg BitVec.toNat bit

/-- The unit of an instruction whose claim is on the pipe of its first word. -/
theorem resultUnit_of_pipe {i : Instr} {x : BitVec 29} {p : BitVec 1} {len : BitVec 2} {ws : List Word}
    (hu : resultUnit i = ((encode i).head?).map fun w => if wordP w = 1 then 0 else 1) (he : encode i = (x ++ p ++ len) :: ws) :
    resultUnit i = some (if p = 1#1 then 0 else 1) := by
  have hp : wordP (x ++ p ++ len) = 1 ↔ p = 1#1 := by
    rw [wordP_append]
    exact BitVec.toNat_inj (y := 1#1)
  rw [hu, he]
  exact congrArg some (if_congr hp rfl rfl)

theorem resultUnit_loads (x : MX) (y : MS) : (rankOf x.lvl.toNat ≠ 4 → resultUnit (.vld x) = some 0) ∧
    (rankOf y.lvl.toNat ≠ 4 → resultUnit (.sldMs y) = some 1) := ⟨fun h => if_neg h, fun h => if_neg h⟩

theorem resultUnit_stores (x : MX) (y : MS) : resultUnit (.vst x) = some 0 ∧ resultUnit (.sstMs y) = some 1 :=
  ⟨resultUnit_of_pipe (p := 1#1) rfl rfl, resultUnit_of_pipe (p := 0#1) rfl rfl⟩

theorem resultUnit_pipes (a b c : BitVec 7) (r q m : SReg) :
    resultUnit (.vadd a b c) = some 0 ∧ resultUnit (.vcmp a b c) = some 0 ∧ resultUnit (.sadd r q m) = some 1 :=
  ⟨resultUnit_of_pipe (p := 1#1) rfl rfl, resultUnit_of_pipe (p := 1#1) rfl rfl, resultUnit_of_pipe (p := 0#1) rfl rfl⟩

/-! #### Checker-only mode (01/R47, R48, 17/R432) -/

/-- The instruction that the checker computed twice alike is executed by the turns that follow. -/
theorem execCheckerOnlyMode_agrees {s : State} {w : Wave} (hf : s.findWave s.facts.wave = some w) (hi : s.mayIssue w = true)
    (hk : w.ckOnly = true) (ho : s.facts.ok = true) (hb : s.facts.bad = none) :
    execCheckerOnlyMode s = .next { s with agenda := .focus w.key :: .wave :: .focus s.w.key :: s.agenda } := by
  simp [execCheckerOnlyMode, hf, hi, hk, ho, hb]

/-- Disagreement in checker-only mode, or an operand that cannot be corrected, raises CKHARD. -/
theorem execCheckerOnlyMode_hard {s : State} {w : Wave} (hf : s.findWave s.facts.wave = some w) (hi : s.mayIssue w = true)
    (h : (w.ckOnly = true ∧ s.facts.ok = false ∧ s.facts.bad = none) ∨ s.facts.bad.isSome = true) :
    execCheckerOnlyMode s = .next (s.checkHard w s.facts.bad) := by
  rcases h with ⟨hk, ho, hb⟩ | hb
  · simp [execCheckerOnlyMode, hf, hi, hk, ho, hb]
  · obtain ⟨n, hn⟩ := Option.isSome_iff_exists.mp hb
    simp [execCheckerOnlyMode, hf, hi, hn]

/-- The checker group is to be tested again, unless the fault lay in an accumulator slot (01/R48, 17/R432). -/
def State.retested (s : State) (w : Wave) (bad : Option Nat) : State :=
  if bad.any (· != 0) then s else s.setCore w.core { s.core w.core with retest := .present }

@[simp] theorem State.retested_w (s : State) (w : Wave) (bad : Option Nat) : (s.retested w bad).w = s.w := by
  unfold State.retested
  split <;> rfl

theorem State.retested_core (s : State) (w : Wave) {bad : Option Nat} (h : bad = none ∨ bad = some 0) :
    ((s.retested w bad).core w.core).retest = .present := by
  rcases h with rfl | rfl <;> exact congrArg Core.retest (s.core_setCore_same w.core _)

theorem State.checkHard_eq (s : State) (w : Wave) (bad : Option Nat) : ∃ body lanes, s.checkHard w bad =
    ((s.record 4 (some w.ctx) body).retested w bad).changeAs w.key fun u => u.trapEntry { cause := .ckhard, lanes := lanes } u.w.pc :=
  ⟨_, _, rfl⟩

/-- A discarded instruction leaves a core's units as they were. -/
theorem State.retest_abandon (s : State) (mine : WaveKey → Bool) (c : CoreId) :
    ((s.abandon mine).core c).retest = (s.core c).retest := by
  simp [State.abandon, State.core, Core.abandon, Core.endAtomics]

/-- The wave in focus enters its handler with CKHARD. -/
theorem State.checkHard_enters {s : State} (bad : Option Nat) (h : Claims.CanHandle s) : ∃ t, s.checkHard s.w bad = t ∧
    t.w.tcause = 0x14 ∧ t.w.pc = s.w.tvec ∧ t.w.tpc = s.w.pc ∧ t.hm = true ∧ t.w.ckOnly = false ∧ t.w.resMis = 0 ∧
    (bad = none ∨ bad = some 0 → (t.core s.w.core).retest = .present) := by
  obtain ⟨hhm, h0, h4⟩ := h
  obtain ⟨body, lanes, e⟩ := s.checkHard_eq s.w bad
  have tested := (s.record 4 (some s.w.ctx) body).retested_core s.w (bad := bad)
  have hw : ((s.record 4 (some s.w.ctx) body).retested s.w bad).w = s.w := by simp
  generalize (s.record 4 (some s.w.ctx) body).retested s.w bad = u at e tested hw
  rw [State.hm, ← hw] at hhm
  rw [← hw] at h0 h4 e tested ⊢
  rw [State.changeAs_self, State.trapEntry_handler _ _ _ hhm h0 h4] at e
  refine ⟨_, e, ?_, rfl, rfl, ?_, rfl, rfl, fun hbad => ?_⟩
  · show BitVec.ofNat 32 (0 * 256 + Cause.ckhard.code) = 0x14#32
    decide
  · simp [State.hm, stHM]
  · exact (u.retest_abandon _ _).trans (tested hbad)

/-! ### The throttle (12/R340, 18/R450) -/

/-- The throttle's next step (12/R340). -/
def State.nextPwrk (s : State) : Nat :=
  if 100 ≤ s.facts.addr ∨ 4500 < s.facts.size ∨ s.facts.ok = false then max 1 (s.dev.pwrk - 1) else min 16 (s.dev.pwrk + 1)

/-- The device with the throttle's next step and what it has measured. -/
def State.throttled (s : State) : State := { s with dev := { s.dev with pwrk := s.nextPwrk, pkgpwr := s.facts.pwr, tj := s.facts.addr } }

/-- A change of the step is recorded. -/
theorem execThrottleChange_eq (s : State) : ∃ body,
    execThrottleChange s = .next (if s.nextPwrk = s.dev.pwrk then s.throttled else s.throttled.record 5 none body) := by
  have step : (if decide (100 ≤ s.facts.addr) || decide (4500 < s.facts.size) || !s.facts.ok then (if s.dev.pwrk ≤ 1 then 1 else s.dev.pwrk - 1)
      else min 16 (s.dev.pwrk + 1)) = s.nextPwrk := by
    simp only [State.nextPwrk, Bool.or_eq_true, decide_eq_true_eq, Bool.not_eq_true', or_assoc]
    split
    · split <;> omega
    · rfl
  simp only [execThrottleChange, step]
  exact ⟨_, (apply_ite Host.Outcome.next _ _ _).symm⟩

theorem State.nextPwrk_down {s : State} (h : 100 ≤ s.facts.addr ∨ 4500 < s.facts.size ∨ s.facts.ok = false) :
    s.nextPwrk = max 1 (s.dev.pwrk - 1) := if_pos h

theorem State.nextPwrk_up {s : State} (ht : s.facts.addr < 100) (hw : s.facts.size ≤ 4500) (hr : s.facts.ok = true) :
    s.nextPwrk = min 16 (s.dev.pwrk + 1) := by
  refine if_neg ?_
  simp [hr, Nat.not_le.mpr ht, Nat.not_lt.mpr hw]

/-! ### A device without power (18/R450) -/

section
variable {s : State} (h : s.dev.powered = false)
include h

theorem State.kick_unpowered (c : CoreId) (id : Nat) : s.kick c id = none := by simp [State.kick, h]
theorem State.loopsOf_unpowered (c : CoreId) : s.loopsOf c = [] := by simp [State.loopsOf, h]
theorem State.clocked_unpowered (c : CoreId) : s.clocked c = false := by simp [State.clocked, h]

theorem execBarrierRelease_unpowered : execBarrierRelease s = .next s := by
  simp [execBarrierRelease, State.stopped_of_unpowered h]

theorem execMbWaitTimeout_unpowered : execMbWaitTimeout s = .next s := by
  unfold execMbWaitTimeout
  split
  · split
    · simp [State.stopped_of_unpowered h]
    · rfl
  · rfl

theorem execCopyRequestFetch_unpowered : execCopyRequestFetch s = .next s := by simp [execCopyRequestFetch, State.kick_unpowered h]
theorem execCopyLineTransfer_unpowered : execCopyLineTransfer s = .next s := by simp [execCopyLineTransfer, State.kick_unpowered h]
theorem execCopyRequestEnd_unpowered : execCopyRequestEnd s = .next s := by simp [execCopyRequestEnd, State.kick_unpowered h]
theorem execWalkerLine_unpowered : execWalkerLine s = .next s := by simp [execWalkerLine, h]
theorem execLoopStart_unpowered : execLoopStart s = .next s := by simp [execLoopStart, State.loopsOf_unpowered h]
theorem execKStep_unpowered : execKStep s = .next s := by simp [execKStep, State.loopsOf_unpowered h]
theorem execRowCheckVerdict_unpowered : execRowCheckVerdict s = .next s := by simp [execRowCheckVerdict, State.loopsOf_unpowered h]
theorem execCheckerOnlyStep_unpowered : execCheckerOnlyStep s = .next s := by simp [execCheckerOnlyStep, State.loopsOf_unpowered h]
theorem execLoopEnd_unpowered : execLoopEnd s = .next s := by simp [execLoopEnd, State.loopsOf_unpowered h]

theorem execBlockRetirement_unpowered : execBlockRetirement s = .next s := by
  unfold execBlockRetirement
  split
  · rfl
  · split
    · rfl
    · simp [h]

theorem execGangSave_unpowered : execGangSave s = .next s := by
  unfold execGangSave
  split
  · rfl
  · simp [h]

theorem execTraceSync_unpowered : execTraceSync s = .next s := by simp [execTraceSync, State.syncs, State.clocked_unpowered h]
theorem execWaveSample_unpowered : execWaveSample s = .next s := by simp [execWaveSample, State.clocked_unpowered h]

/-- No core, checker, engine, walker or sequencer acts. -/
theorem exec_coreActs_unpowered {i : Instr} (hi : i ∈ Claims.coreActs) : exec i s = .next s := by
  have hs := State.stopped_of_unpowered h
  simp only [Claims.coreActs, List.mem_cons, List.not_mem_nil, or_false] at hi
  rcases hi with rfl | rfl | rfl | rfl | rfl | rfl | rfl | rfl | rfl | rfl | rfl | rfl | rfl | rfl | rfl | rfl | rfl | rfl | rfl
  · exact execYieldResume_stopped hs
  · exact execWaveStarved_stopped hs
  · exact execWatchdog_stopped hs
  · exact execBarrierRelease_unpowered h
  · exact execMbWaitTimeout_unpowered h
  · exact execFlush_stopped hs
  · exact execCopyRequestFetch_unpowered h
  · exact execCopyLineTransfer_unpowered h
  · exact execCopyRequestEnd_unpowered h
  · exact execWalkerLine_unpowered h
  · exact execLoopStart_unpowered h
  · exact execKStep_unpowered h
  · exact execRowCheckVerdict_unpowered h
  · exact execCheckerOnlyStep_unpowered h
  · exact execLoopEnd_unpowered h
  · exact execBlockRetirement_unpowered h
  · exact execGangSave_unpowered h
  · exact execTraceSync_unpowered h
  · exact execWaveSample_unpowered h

end

end Sys2Proof.Machine

namespace Sys2Proof.Claims
open Sys2Proof.Machine

/-! ### O50 -/

/-- A yielding wave resumes, and a starved one is marked. -/
theorem yieldAndStarve : YieldAndStarve := by
  intro s w hf hv
  refine ⟨fun h => ?_, fun since set hl hh hp => ?_, fun hr hh hp => ?_⟩
  · have hs := s.stopped_iff.mpr h
    exact ⟨execYieldResume_stopped hs, execWaveStarved_stopped hs⟩
  · have turn := execYieldResume_yielding hf hl (State.not_stopped hh hp) hv
    simp only [List.all_eq_true, State.yieldDone_iff] at turn
    refine ⟨fun hd => ?_, fun hc hd => ?_⟩
    · rw [if_pos hd] at turn
      exact ⟨_, turn, State.findWave_setWave (w := { w with life := .ready }) hf rfl, rfl, rfl⟩
    · rwa [if_neg (not_or.mpr ⟨Nat.not_le.mpr hc, hd⟩)] at turn
  · exact ⟨_, execWaveStarved_ready hf hr (State.not_stopped hh hp) hv,
      State.findWave_setWave (w := { w with starved := true }) hf rfl, rfl⟩

/-- The watchdog records each whole period of a wait that it watches. -/
theorem watchdog : Watchdog := by
  intro s w x hf hl hv period
  refine ⟨fun hx ho hh hp hc => ?_, fun hc => ?_, fun h => ?_, fun i => ⟨rfl, rfl, rfl, rfl⟩,
    fun o r p d e since set => ⟨rfl, rfl, rfl, rfl, rfl⟩⟩
  · obtain ⟨body, e⟩ := execWatchdog_records hf hl (State.not_stopped hh hp) hv hx ho hc
    refine ⟨_, e, ?_, State.record_seq _ _ _ _ hp⟩
    rw [State.record_findWave]
    exact State.findWave_setWave (w := { w with waitFrom := w.waitFrom + period }) hf rfl
  · exact execWatchdog_quiet hf hl (.inr (.inr (.inr hc)))
  · rcases h with h | h | h
    · exact execWatchdog_quiet hf hl (.inr (.inl h))
    · exact execWatchdog_quiet hf hl (.inr (.inr (.inl h)))
    · exact execWatchdog_stopped (s.stopped_iff.mpr h)

/-- The oldest bytes of a stack cache go to memory. -/
theorem stackCacheWriteback : StackCacheWriteback := by
  intro s u hw hp
  refine ⟨fun h => ⟨_, execStackCacheWriteback_of_ok hw hp h, rfl, rfl, rfl, rfl, rfl, rfl⟩, fun hc hd => ?_⟩
  obtain ⟨t, ht, ft⟩ := stkWriteBack_of_clear hc hd
  refine ⟨_, execStackCacheWriteback_of_ok hw hp ht, ?_⟩
  rw [State.frame_w ft]
  exact ⟨rfl, rfl, rfl, rfl, rfl⟩

/-- Flushes charge the unit that claims, and checker-only mode ends in agreement or CKHARD. -/
theorem checkerVerdicts : CheckerVerdicts := by
  intro s w hf hi
  refine ⟨fun hb hk => ⟨fun lines h => ?_, fun w0 i u hn hu h3 h => ?_, fun hn h => ?_⟩, fun a b c r q m => ?_, fun x y => ?_,
    fun h => ?_, fun hk ho hb => ?_, fun h hw hcan => ?_⟩
  · obtain ⟨found, core⟩ := State.valueMismatch_counts lines hf
    refine ⟨_, execFlush_value hf hi hb hk h, rfl, found, ?_, ?_⟩
    · rw [core, Core.ckc_dropPrivates]
    · rw [core]
      exact fun x hx => (Core.allDirty_of_mem_dropPrivates hx).1
  · exact ⟨_, execFlush_result hf hi hb hk h hn hu, State.resultMismatch_counts hf (Nat.lt_succ_of_le h3)⟩
  · exact execFlush_unclaimed hf hi hb hk h hn
  · obtain ⟨hadd, hcmp, hsadd⟩ := resultUnit_pipes a b c r q m
    exact ⟨hadd, hcmp, hsadd, rfl, rfl, rfl, rfl⟩
  · obtain ⟨hvld, hsld⟩ := resultUnit_loads x y
    exact ⟨hvld, hsld, resultUnit_stores x y⟩
  · exact execFlush_of_not_claiming hf (.inr h)
  · exact execCheckerOnlyMode_agrees hf hi hk ho hb
  · obtain rfl : s.w = w := Option.some.inj ((s.findWave_self).symm.trans (hw ▸ hf))
    obtain ⟨t, ht, entered⟩ := State.checkHard_enters s.facts.bad hcan
    exact ⟨t, (execCheckerOnlyMode_hard hf hi h).trans (congrArg _ ht), entered⟩

/-- The throttle steps, heat takes the power away, and no core acts without it. -/
theorem throttleAndHeat : ThrottleAndHeat := by
  intro s tj watts
  refine ⟨?_, fun h => ?_, fun h i hi => exec_coreActs_unpowered h hi, fun h => if_pos h⟩
  · obtain ⟨body, e⟩ := execThrottleChange_eq s
    have down := State.nextPwrk_down (s := s)
    have up := State.nextPwrk_up (s := s)
    split at e
    · next same => exact ⟨_, e, rfl, rfl, down, up, fun _ hne => absurd same hne, rfl⟩
    · refine ⟨_, e, by simp [State.throttled], by simp [State.throttled, tj], ?_, ?_, fun hp _ => State.record_seq _ _ _ _ hp, State.record_w ..⟩
      · rwa [State.record_pwrk]
      · rwa [State.record_pwrk]
  · exact ⟨_, if_neg (Nat.not_lt.mpr h), rfl, State.not_runnable_of_stopped (State.stopped_of_unpowered rfl), rfl⟩

/-- Settles O50: each of the eight events by its own lemmas; a record and a write at the home leave the waves and the cores' units alone. -/
theorem waveEvents : Obligations.WaveEvents :=
  ⟨yieldAndStarve, watchdog, stackCacheWriteback, checkerVerdicts, throttleAndHeat⟩

end Sys2Proof.Claims
end

section
/-! SUPPORT for the vector instructions: what the checks of an instruction answer, the one write of a vector result, and the flags that
are raised together. -/

namespace Sys2Proof.Machine

/-! ### Checks of a vector instruction (03/R103, R108, 02/R59) -/

@[simp] theorem vIllop_run {α : Type} (s : State) :
    (vIllop : Act α) s = .error (.trap { cause := .illop, lanes := s.exec3 }, s) := rfl
@[simp] theorem vIllfmt_run {α : Type} (s : State) :
    (vIllfmt : Act α) s = .error (.trap { cause := .illfmt, lanes := s.exec3 }, s) := rfl

/-- An act that begins with a trap ends in it. -/
theorem vIllop_bind {α β : Type} (f : α → Act β) (s : State) :
    ((vIllop : Act α) >>= f) s = .error (.trap { cause := .illop, lanes := s.exec3 }, s) := Act.bind_error _ _ _ _ rfl
@[inherit_doc vIllop_bind] theorem vIllfmt_bind {α β : Type} (f : α → Act β) (s : State) :
    ((vIllfmt : Act α) >>= f) s = .error (.trap { cause := .illfmt, lanes := s.exec3 }, s) := Act.bind_error _ _ _ _ rfl

/-- An act that begins by reading the state. -/
@[simp] theorem get_bind {β : Type} (f : State → Act β) (s : State) : ((get : Act State) >>= f) s = f s s := rfl

/-- The registers named lie in the window, each by itself. -/
theorem window_any_eq_false {s : State} {ns : List Nat} :
    ((ns.map fun n => (n, 1)).any fun n => decide (s.w.valloc < n.1 + n.2)) = false ↔ Claims.InWindow s ns := by
  simp [List.any_eq_false]

/-- Registers in the window pass. -/
theorem window_ok {s : State} {ns : List Nat} (h : Claims.InWindow s ns) : window (ns.map fun n => (n, 1)) s = .ok ((), s) := by
  rw [window, get_bind, window_any_eq_false.mpr h]
  rfl

/-- A register outside the window raises ILLOP. -/
theorem window_trap {s : State} {ns : List Nat} (h : ¬ Claims.InWindow s ns) :
    window (ns.map fun n => (n, 1)) s = .error (.trap { cause := .illop, lanes := s.exec3 }, s) := by
  rw [window, get_bind, Bool.eq_true_of_not_eq_false (mt window_any_eq_false.mp h)]
  rfl

/-- The pair of a register is even and lies below VALLOC. -/
abbrev PairFits (s : State) (n : Nat) : Prop := n % 2 = 0 ∧ n + 2 ≤ s.w.valloc

theorem pairOk_cond_eq_false {s : State} {pair : Bool} {ns : List Nat} :
    (pair && ns.any fun n => n % 2 != 0 || decide (s.w.valloc < n + 2)) = false ↔ (pair = true → ∀ n ∈ ns, PairFits s n) := by
  cases pair <;> simp [List.any_eq_false]

/-- Pairs that fit pass. -/
theorem pairOk_ok {s : State} {pair : Bool} {ns : List Nat} (h : pair = true → ∀ n ∈ ns, PairFits s n) :
    pairOk pair ns s = .ok ((), s) := by
  rw [pairOk, get_bind, pairOk_cond_eq_false.mpr h]
  rfl

/-- A pair that does not fit raises ILLOP. -/
theorem pairOk_trap {s : State} {pair : Bool} {ns : List Nat} (h : ¬ (pair = true → ∀ n ∈ ns, PairFits s n)) :
    pairOk pair ns s = .error (.trap { cause := .illop, lanes := s.exec3 }, s) := by
  rw [pairOk, get_bind, Bool.eq_true_of_not_eq_false (mt pairOk_cond_eq_false.mp h)]
  rfl

theorem pairTags_cond_eq_false {s : State} {pair : Bool} {ns : List Nat} :
    (pair && ns.any fun n => n % 2 == 0 && decide (n + 2 ≤ s.w.valloc) && (s.vreg n).fmt != (s.vreg (n + 1)).fmt) = false ↔
      (pair = true → ∀ n ∈ ns, PairFits s n → (s.vreg n).fmt = (s.vreg (n + 1)).fmt) := by
  cases pair <;> simp [List.any_eq_false]

/-- Source pairs of one format code pass. -/
theorem pairTags_ok {s : State} {pair : Bool} {ns : List Nat}
    (h : pair = true → ∀ n ∈ ns, PairFits s n → (s.vreg n).fmt = (s.vreg (n + 1)).fmt) : pairTags pair ns s = .ok ((), s) := by
  rw [pairTags, get_bind, pairTags_cond_eq_false.mpr h]
  rfl

/-- A source pair of two format codes raises ILLFMT. -/
theorem pairTags_trap {s : State} {pair : Bool} {ns : List Nat}
    (h : ¬ (pair = true → ∀ n ∈ ns, PairFits s n → (s.vreg n).fmt = (s.vreg (n + 1)).fmt)) :
    pairTags pair ns s = .error (.trap { cause := .illfmt, lanes := s.exec3 }, s) := by
  rw [pairTags, get_bind, Bool.eq_true_of_not_eq_false (mt pairTags_cond_eq_false.mp h)]
  rfl

/-! ### Flags raised together (02/R63) -/

theorem foldl_or_flags (fs : List Flags) (x : Flags) : fs.foldl (· ||| ·) x = x ||| orFlags fs := by
  induction fs generalizing x with
  | nil => simp [orFlags]
  | cons f fs ih =>
    have e : orFlags (f :: fs) = fs.foldl (· ||| ·) f := by simp [orFlags]
    rw [List.foldl_cons, ih, e, ih, BitVec.or_assoc]

@[simp] theorem orFlags_nil : orFlags [] = 0 := rfl
@[simp] theorem orFlags_cons (f : Flags) (fs : List Flags) : orFlags (f :: fs) = f ||| orFlags fs := by
  rw [orFlags, List.foldl_cons, foldl_or_flags]
  simp
@[simp] theorem orFlags_append (fs gs : List Flags) : orFlags (fs ++ gs) = orFlags fs ||| orFlags gs := by
  induction fs with
  | nil => simp
  | cons f fs ih => simp [ih, BitVec.or_assoc]

/-- The flags of all elements of all lanes together. -/
theorem orFlags_map_orFlags {α : Type} (ls : List α) (g : α → List Flags) :
    orFlags (ls.map fun l => orFlags (g l)) = orFlags (ls.flatMap g) := by
  induction ls with
  | nil => rfl
  | cons l ls ih => simp [ih]

/-- The same flags from every lane are those of one lane. -/
theorem orFlags_flatMap_const {α : Type} {ls : List α} (h : ls ≠ []) (fs : List Flags) :
    orFlags (ls.flatMap fun _ => fs) = orFlags fs := by
  induction ls with
  | nil => exact absurd rfl h
  | cons l ls ih =>
    rcases ls with _ | ⟨m, ls⟩
    · simp
    · rw [List.flatMap_cons, orFlags_append, ih (List.cons_ne_nil _ _), BitVec.or_self]

@[simp] theorem State.raise_zero (s : State) : s.raise 0 = s := by simp [State.raise, State.setStatus]

@[simp] theorem State.setBnd_false (s : State) (b : BitVec 4) : s.setBnd b false = s := rfl
@[simp] theorem State.setBnd_w_errinj (s : State) (b : BitVec 4) (hit : Bool) : (s.setBnd b hit).w.errinj = s.w.errinj := by
  cases hit <;> rfl

/-! ### The one write of a vector result (05/R154, 02/R86) -/

/-- A lane of results by lane. -/
theorem LaneVals.at_map (ls : List Nat) (val : Nat → Nat) (l : Nat) :
    LaneVals.at_ (ls.map fun l => (l, val l)) l = if ls.contains l then some (val l) else none := by
  induction ls with
  | nil => rfl
  | cons k ls ih =>
    by_cases h : k = l
    · simp [LaneVals.at_, h]
    · have h' : (l == k) = false := by simpa using Ne.symm h
      have e : LaneVals.at_ ((k :: ls).map fun l => (l, val l)) l = LaneVals.at_ (ls.map fun l => (l, val l)) l := by
        simp [LaneVals.at_, h]
      rw [e, ih, List.contains_cons, h', Bool.false_or]

/-- A register with the lanes of a list replaced. -/
theorem VReg.withLanes_map (r : VReg) (ls : List Nat) (val : Nat → Nat) (k : Nat) :
    r.withLanes (ls.map fun l => (l, val l)) k = { r with
      lanes := Vector.ofFn fun l : Fin 96 => if ls.contains l.val then BitVec.ofNat 32 (val l / 2 ^ (32 * k)) else r.lanes[l] } := by
  unfold VReg.withLanes
  congr 2
  funext i
  rw [LaneVals.at_map]
  cases ls.contains i.val <;> rfl

/-- Lanes written after the spills of their registers. -/
theorem writeLanes_written {s u : State} {vd : Nat} {pair : Bool} (tag : Option (Fmt × BitVec 4)) (val : Nat → Nat)
    (ha : s.active ≠ []) (hs : Claims.Spilled s u vd (if pair then 2 else 1)) :
    writeLanes vd (if pair then 2 else 1) tag (s.active.map fun l => (l, val l)) s = .ok ((), Claims.written s u vd pair tag val) := by
  rw [writeLanes, Act.bind_ok _ _ _ _ _ (hs ha), Act.modify_run, Claims.written, if_neg ha]
  cases pair <;> cases tag <;>
    simp only [VReg.withLanes_map, Claims.lanePut, List.range_succ, List.range_zero, List.nil_append, List.foldl_cons, List.foldl_nil,
      List.cons_append, Nat.mul_zero, Nat.pow_zero, Nat.div_one, Nat.mul_one, if_true, if_false, Bool.false_eq_true, Option.map_none, Option.map_some,
      Option.getD_none, Option.getD_some, Nat.add_zero]

/-- The format under which a result is compared with its bound: a lone half of a pair format is not compared (02/R86). -/
abbrev comparedAs (f : Fmt) (pair : Bool) : Fmt := if pair || !f.isPair then f else .b32

/-- A result that its bound does not stop is written, as the bound leaves it. -/
theorem writeResult_ok {s u : State} {vd : Nat} {f : Fmt} {b : BitVec 4} {pair setTag : Bool} {flags : Flags} {val out : Nat → Nat}
    {hit : Bool} (hs : Claims.Spilled s u vd (if pair then 2 else 1))
    (hb : boundCheck s.bounds (comparedAs f pair) b (s.active.map fun l => (l, val l)) = .ok (s.active.map fun l => (l, out l), hit))
    (hn : s.active = [] → flags = 0 ∧ hit = false) :
    writeResult vd f b pair setTag flags (s.active.map fun l => (l, val l)) s =
      .ok ((), ((Claims.written s u vd pair (if setTag then some (f, b) else none) out).setBnd b hit).raise flags) := by
  by_cases ha : s.active = []
  · obtain ⟨rfl, rfl⟩ := hn ha
    simp only [writeResult, ha, List.map_nil, ne_eq, not_true_eq_false, if_false, Act.pure_run, Claims.written, if_true, State.setBnd_false,
      State.raise_zero]
  · have hv : (s.active.map fun l => (l, val l)) ≠ [] := by simpa using ha
    rw [writeResult, if_pos hv, get_bind, hb]
    exact Act.bind_ok _ _ _ _ _ (writeLanes_written _ out ha hs)

/-- A result that its bound stops traps, and nothing is written. -/
theorem writeResult_trap {s : State} {vd : Nat} {f : Fmt} {b : BitVec 4} {pair setTag : Bool} {flags : Flags} {vals : LaneVals}
    {t : TrapInfo} (hv : vals ≠ []) (hb : boundCheck s.bounds (comparedAs f pair) b vals = .error t) :
    writeResult vd f b pair setTag flags vals s = .error (.trap t, s) := by
  rw [writeResult, if_pos hv, get_bind, hb]
  rfl

theorem boundCheck_off {c : Ctx} {b : BitVec 4} (f : Fmt) (vals : LaneVals) (h : (c.bound b).action = 0) :
    boundCheck c f b vals = .ok (vals, false) := if_pos (.inl h)

/-- A result under no bound is written as it is. -/
theorem writeResult_unbound {s u : State} {vd : Nat} {f : Fmt} {b : BitVec 4} {pair setTag : Bool} {flags : Flags} {val : Nat → Nat}
    (hs : Claims.Spilled s u vd (if pair then 2 else 1)) (hb : Claims.Unbound s b) (hn : s.active = [] → flags = 0) :
    writeResult vd f b pair setTag flags (s.active.map fun l => (l, val l)) s =
      .ok ((), (Claims.written s u vd pair (if setTag then some (f, b) else none) val).raise flags) :=
  writeResult_ok hs (boundCheck_off _ _ hb) fun h => ⟨hn h, rfl⟩

/-- Elements packed lane by lane under no bound: they are written, and the flags of all of them are raised together. -/
theorem writeResult_elems {s u : State} {vd : Nat} {f : Fmt} {b : BitVec 4} {pair : Bool} (es : Nat → List (Nat × Flags))
    (hs : Claims.Spilled s u vd (if pair then 2 else 1)) (hb : Claims.Unbound s b) :
    let res := s.active.map fun l => (l, f.pack ((es l).map (·.1)), orFlags ((es l).map (·.2)))
    writeResult vd f b pair true (orFlags (res.map (·.2.2))) (res.map fun r => (r.1, r.2.1)) s =
      .ok ((), (Claims.written s u vd pair (some (f, b)) fun l => f.pack ((es l).map (·.1))).raise
        (orFlags (s.active.flatMap fun l => (es l).map (·.2)))) := by
  simp only [List.map_map, ← orFlags_map_orFlags]
  exact writeResult_unbound hs hb fun ha => by rw [ha]; rfl

/-! ### What a vector result leaves -/

@[simp] theorem lanePut_w_errinj (s : State) (n : Nat) (ls : List Nat) (tag : Option (Fmt × BitVec 4)) (val : Nat → Word) :
    (Claims.lanePut s n ls tag val).w.errinj = s.w.errinj := rfl

/-- A vector result keeps ERRINJ as the spills left it. -/
theorem calm_written {s u : State} (vd : Nat) (pair : Bool) (tag : Option (Fmt × BitVec 4)) (val : Nat → Nat)
    (hs : Claims.Calm s) (hu : Claims.Calm u) : Claims.Calm (Claims.written s u vd pair tag val) := by
  unfold Claims.written
  split
  · exact hs
  · cases pair <;> exact hu

/-- A vector result over no pending spill moves neither the pc nor SEQNO. -/
theorem written_pc_seqno (s : State) (vd : Nat) (pair : Bool) (tag : Option (Fmt × BitVec 4)) (val : Nat → Nat) :
    (Claims.written s s vd pair tag val).w.pc = s.w.pc ∧ (Claims.written s s vd pair tag val).w.seqno = s.w.seqno := by
  unfold Claims.written
  split
  · exact ⟨rfl, rfl⟩
  · cases pair <;> exact ⟨rfl, rfl⟩

/-- Where no spill is pending there is none to store (04/R451). -/
theorem spilled_of_noPend {s : State} {vd words : Nat} (h : Claims.NoPend s vd words) : Claims.Spilled s s vd words := by
  intro _
  have one (k : Nat) (hk : k < words) : spill (vd + k) s = .ok ((), s) := by
    rw [spill, get_bind]
    simp [h k hk]
  have all (ks : List Nat) (hks : ∀ k ∈ ks, k < words) : ks.forM (fun k => spill (vd + k)) s = .ok ((), s) := by
    induction ks with
    | nil => rfl
    | cons k ks ih =>
      show ((fun k => spill (vd + k)) k >>= fun _ => ks.forM fun k => spill (vd + k)) s = _
      rw [Act.bind_ok _ _ _ _ _ (one k (hks k List.mem_cons_self))]
      exact ih fun j hj => hks j (List.mem_cons_of_mem _ hj)
  exact all _ fun k hk => List.mem_range.mp hk

end Sys2Proof.Machine
end

section
/-! PROOF of O26: conversion, reduction, dot product and special functions, each by what its act answers. -/

namespace Sys2Proof.Machine

/-- An instruction that answers with a vector result retires it. -/
theorem run_written {s u : State} {i : Instr} {c : Claim} {body : Act PUnit} {vd n : Nat} {pair : Bool} {tag : Option (Fmt × BitVec 4)}
    {val : Nat → Nat} {flags : Flags} (he : exec i s = run i c body s) (hn : i.size = n) (hs : Claims.Calm s) (hu : Claims.Calm u)
    (hw : i.wellFormed = true) (hb : body s = .ok ((), (Claims.written s u vd pair tag val).raise flags)) :
    exec i s = .next (((Claims.written s u vd pair tag val).raise flags).retire n) := by
  rw [he, ← hn]
  exact run_next i c body s _ hw hb (calm_written vd pair tag val hs hu)

/-- An instruction whose result is written over no pending spill completes. -/
theorem completes_written {s : State} {i : Instr} {vd n : Nat} {pair : Bool} {tag : Option (Fmt × BitVec 4)} {val : Nat → Nat}
    {flags : Flags} (h : exec i s = .next (((Claims.written s s vd pair tag val).raise flags).retire n)) : Claims.Completes i n s := by
  obtain ⟨hpc, hseq⟩ := written_pc_seqno s vd pair tag val
  exact ⟨_, h, congrArg (· + BitVec.ofNat 64 n) hpc, congrArg (· + 1) hseq⟩

/-! ### Special functions (05/R174) -/

/-- One element of a special function. -/
def specialElem (fn : Special) (v : VOp) (s : State) (l : Nat) : Nat × Flags := fn.apply (FloatFmt.f32.read (s.vlane v.va l).toNat)

/-- A special function on F32 registers in the window writes its elements. -/
theorem special_ok {fn : Special} {v : VOp} {s u : State} (hwin : Claims.InWindow s [v.vd, v.va]) (hf : (s.vreg v.va).fmt = .f32)
    (hb : Claims.Unbound s (v.bnd s)) (hs : Claims.Spilled s u v.vd 1) :
    special fn v s = .ok ((), (Claims.written s u v.vd false (some (.f32, v.bnd s)) fun l => (specialElem fn v s l).1).raise
      (orFlags (s.active.map fun l => (specialElem fn v s l).2))) := by
  have hwin' : window [(v.vd, 1), (v.va, 1)] s = .ok ((), s) := window_ok hwin
  simp only [special, get_bind, Act.bind_ok _ _ _ _ _ hwin', hf, bne_self_eq_false, Bool.false_eq_true, if_false, List.map_map, Function.comp_def]
  exact writeResult_unbound hs hb fun ha => by rw [ha]; rfl

/-- A special function that is run writes each active lane. -/
theorem exec_special {i : Instr} {fn : Special} {v : VOp} {n : Nat} {s u : State} (he : exec i s = run i .sfu (special fn v) s)
    (hn : i.size = n) (hcs : Claims.Calm s) (hcu : Claims.Calm u) (hw : i.wellFormed = true) (hwin : Claims.InWindow s [v.vd, v.va])
    (hf : (s.vreg v.va).fmt = .f32) (hb : Claims.Unbound s (v.bnd s)) (hs : Claims.Spilled s u v.vd 1) :
    exec i s = .next (((Claims.written s u v.vd false (some (.f32, v.bnd s)) fun l => (specialElem fn v s l).1).raise
      (orFlags (s.active.map fun l => (specialElem fn v s l).2))).retire n) :=
  run_written he hn hcs hcu hw (special_ok hwin hf hb hs)

/-- The window's registers before the format of a special function's operand. -/
theorem special_traps {fn : Special} {v : VOp} {s : State} :
    (¬ Claims.InWindow s [v.vd, v.va] → special fn v s = .error (.trap { cause := .illop, lanes := s.exec3 }, s)) ∧
    (Claims.InWindow s [v.vd, v.va] → (s.vreg v.va).fmt ≠ .f32 →
      special fn v s = .error (.trap { cause := .illfmt, lanes := s.exec3 }, s)) := by
  refine ⟨fun h => ?_, fun h hf => ?_⟩
  · have hwin : window [(v.vd, 1), (v.va, 1)] s = _ := window_trap h
    simp only [special, get_bind, Act.bind_error _ _ _ _ hwin]
  · have hwin : window [(v.vd, 1), (v.va, 1)] s = .ok ((), s) := window_ok h
    simp only [special, get_bind, Act.bind_ok _ _ _ _ _ hwin, bne_iff_ne, ne_eq, hf, not_false_eq_true, if_true, vIllfmt_bind]

/-! ### Conversion (05/R165, R166) -/

/-- The elements of a lane's conversion from `fs` to `fd`. -/
def convertElems (x : VX) (fs fd : Fmt) (s : State) (l : Nat) : List (Nat × Flags) :=
  (List.range (min fs.count fd.count)).map fun k =>
    let v := fs.value ((fs.elems (s.vval fs.isPair x.va.toNat l)).getD k 0) (if fs = .z4x8 then (s.vlane x.vc.toNat l).toNat % 16 else 0)
    let r := fd.round (Rnd.ofBits x.rnd) (x.sat == 1#1) (fs.isFloat || fs.tapered.isSome) v.1
    (r.1, r.2 ||| v.2 ||| flagIf v.1.signals fIV)

/-- The registers that a conversion names. -/
def convertRegs (x : VX) : List Nat := [x.vd.toNat, x.va.toNat] ++ if x.vc = 0 then [] else [x.vc.toNat]

theorem convert_window (x : VX) : (([(x.vd.toNat, 1), (x.va.toNat, 1)] ++ if x.vc = 0#8 then [] else [(x.vc.toNat, 1)]) : List (Nat × Nat)) =
    (convertRegs x).map fun n => (n, 1) := by
  show _ = List.map _ ([x.vd.toNat, x.va.toNat] ++ if x.vc = 0#8 then [] else [x.vc.toNat])
  split <;> rfl

/-- A conversion between formats that it accepts writes its elements. -/
theorem convert_ok {x : VX} {s u : State} {fs fd : Fmt} (hwin : Claims.InWindow s (convertRegs x)) (hfs : (s.vreg x.va.toNat).fmt = fs)
    (hfd : Fmt.ofCode x.rfmt.toNat = some fd) (hz : fd ≠ .z4x8) (hb32 : fs ≠ .b32) (hvc : x.vc ≠ 0 → fs = .z4x8)
    (hrnd : x.rnd ≠ 0 → ¬ (fs.isInt = true ∧ fd.isInt = true))
    (hpa : fs.isPair = true → PairFits s x.va.toNat ∧ (s.vreg (x.va.toNat + 1)).fmt = fs) (hpd : fd.isPair = true → PairFits s x.vd.toNat)
    (hb : Claims.Unbound s ((vxOp x).bnd s)) (hs : Claims.Spilled s u x.vd.toNat (if fd.isPair then 2 else 1)) :
    convert x s = .ok ((), (Claims.written s u x.vd.toNat fd.isPair (some (fd, (vxOp x).bnd s))
        fun l => fd.pack ((convertElems x fs fd s l).map (·.1))).raise
      (orFlags (s.active.flatMap fun l => (convertElems x fs fd s l).map (·.2)))) := by
  have pd : pairOk fd.isPair [x.vd.toNat] s = .ok ((), s) := pairOk_ok fun h n hn => List.mem_singleton.mp hn ▸ hpd h
  have tags : pairTags fs.isPair [x.va.toNat] s = .ok ((), s) := pairTags_ok fun h n hn _ => by
    rw [List.mem_singleton.mp hn, hfs, (hpa h).2]
  have pa : pairOk fs.isPair [x.va.toNat] s = .ok ((), s) := pairOk_ok fun h n hn => List.mem_singleton.mp hn ▸ (hpa h).1
  have fmts : (fd == .z4x8 || fs == .b32) = false := by simp [hz, hb32]
  have fields : (x.vc != 0#8 && fs != .z4x8 || x.rnd != 0#2 && fs.isInt && fd.isInt) = false := by
    simp only [Bool.or_eq_false_iff, Bool.and_eq_false_imp, bne_iff_ne, bne_eq_false_iff_eq, Bool.and_eq_true, and_imp]
    exact ⟨hvc, fun hr hi => Bool.eq_false_iff.mpr fun hd => hrnd hr ⟨hi, hd⟩⟩
  simp only [convert, get_bind, convert_window, Act.bind_ok _ _ _ _ _ (window_ok hwin), hfs, hfd, Act.bind_ok _ _ _ _ _ pd, fmts,
    Act.bind_ok _ _ _ _ _ tags, Act.bind_ok _ _ _ _ _ pa, fields, Bool.false_eq_true, if_false]
  exact writeResult_elems (convertElems x fs fd s) hs hb

/-! ### Reduction (05/R169) -/

/-- The elements of a reduction: each position over all active lanes. -/
def reduceElems (x : VX) (f : Fmt) (s : State) : List (Nat × Flags) :=
  (List.range f.count).map fun k => redElem x.f.toNat f (Rnd.ofBits x.rnd) (x.sat == 1#1)
    (s.active.map fun l => (f.elems (s.vval f.isPair x.va.toNat l)).getD k 0)

/-- A reduction on a format that it accepts writes its elements to every active lane. -/
theorem exec_vred {x : VX} {s u : State} {f : Fmt} (hcs : Claims.Calm s) (hcu : Claims.Calm u) (hw : (Instr.vred x).wellFormed = true)
    (hwin : Claims.InWindow s [x.vd.toNat, x.va.toNat]) (hf : (s.vreg x.va.toNat).fmt = f) (ha : redAccepts x.f.toNat f = true)
    (hrnd : x.rnd ≠ 0 → f.isFloat = true)
    (hp : f.isPair = true → PairFits s x.va.toNat ∧ PairFits s x.vd.toNat ∧ (s.vreg (x.va.toNat + 1)).fmt = f)
    (hb : Claims.Unbound s ((vxOp x).bnd s)) (hs : Claims.Spilled s u x.vd.toNat (if f.isPair then 2 else 1)) :
    exec (.vred x) s = .next (((Claims.written s u x.vd.toNat f.isPair (some (f, (vxOp x).bnd s))
        fun _ => f.pack ((reduceElems x f s).map (·.1))).raise
      (orFlags (s.active.flatMap fun _ => (reduceElems x f s).map (·.2)))).retire 12) := by
  have win : window [(x.vd.toNat, 1), (x.va.toNat, 1)] s = .ok ((), s) := window_ok hwin
  have tags : pairTags f.isPair [x.va.toNat] s = .ok ((), s) := pairTags_ok fun h n hn _ => by
    rw [List.mem_singleton.mp hn, hf, (hp h).2.2]
  have pairs : pairOk f.isPair [x.vd.toNat, x.va.toNat] s = .ok ((), s) := pairOk_ok fun h => by simpa using ⟨(hp h).2.1, (hp h).1⟩
  have fields : (x.rnd != 0#2 && !f.isFloat) = false := by
    rw [Bool.and_eq_false_imp, bne_iff_ne]
    exact fun h => congrArg _ (hrnd h)
  have flags : (if s.active = [] then 0 else orFlags ((reduceElems x f s).map (·.2))) =
      orFlags (s.active.flatMap fun _ => (reduceElems x f s).map (·.2)) := by
    split
    · next h => rw [h]; rfl
    · next h => rw [orFlags_flatMap_const h]
  refine run_written (c := .vpipe) rfl rfl hcs hcu hw ?_
  simp only [Act.bind_ok _ _ _ _ _ win, hf, ha, Bool.not_true, Bool.false_eq_true, if_false, Act.bind_ok _ _ _ _ _ tags,
    Act.bind_ok _ _ _ _ _ pairs, fields]
  rw [← flags]
  have done := writeResult_unbound (f := f) (setTag := true) (flags := if s.active = [] then 0 else orFlags ((reduceElems x f s).map (·.2)))
    (val := fun _ => f.pack ((reduceElems x f s).map (·.1))) hs hb fun h => if_pos h
  simpa only [reduceElems, List.map_map, Function.comp_def, if_true] using done

/-! ### Dot product (05/R168) -/

/-- A lane's dot product, rounded. -/
def dotElem (x : VX) (s : State) (l : Nat) : Nat × Flags :=
  let f (n : BitVec 8) : Fmt := (s.vreg n.toNat).fmt
  let w (n : BitVec 8) : Nat := (s.vlane n.toNat l).toNat
  let v := dotSum (f x.va) (f x.vb) (f x.vc) (w x.va) (w x.vb) (w x.vc)
  let r := (f x.vc).round .rne (x.sat == 1#1) false v.1
  (r.1, r.2 ||| v.2)

/-- No format of a dot product's sum is a pair. -/
theorem isPair_of_dotAccepts {a b c : Fmt} (h : dotAccepts a b c = true) : c.isPair = false := by
  cases c <;> simp_all [dotAccepts, Fmt.isPair]

/-- A dot product on formats that it accepts writes its sums. -/
theorem exec_vdot {x : VX} {s u : State} (hcs : Claims.Calm s) (hcu : Claims.Calm u) (hw : (Instr.vdot x).wellFormed = true)
    (hwin : Claims.InWindow s [x.vd.toNat, x.va.toNat, x.vb.toNat, x.vc.toNat])
    (ha : dotAccepts (s.vreg x.va.toNat).fmt (s.vreg x.vb.toNat).fmt (s.vreg x.vc.toNat).fmt = true)
    (hb : Claims.Unbound s ((vxOp x).bnd s)) (hs : Claims.Spilled s u x.vd.toNat 1) :
    exec (.vdot x) s = .next (((Claims.written s u x.vd.toNat false (some ((s.vreg x.vc.toNat).fmt, (vxOp x).bnd s))
        fun l => (dotElem x s l).1).raise (orFlags (s.active.map fun l => (dotElem x s l).2))).retire 12) := by
  have win : window [(x.vd.toNat, 1), (x.va.toNat, 1), (x.vb.toNat, 1), (x.vc.toNat, 1)] s = .ok ((), s) := window_ok hwin
  refine run_written (c := .vpipe) rfl rfl hcs hcu hw ?_
  simp only [Act.bind_ok _ _ _ _ _ win, ha, Bool.not_true, Bool.false_eq_true, if_false, List.map_map, Function.comp_def]
  exact writeResult_unbound hs hb fun h => by rw [h]; rfl

end Sys2Proof.Machine

namespace Sys2Proof.Claims
open Sys2Proof.Machine

/-! ### O26 -/

theorem convertDotReduce : VectorConvertDotReduce := by
  intro s u x hs hu va vb vc vd fa fb fc bnd rnd sat out hwin hb
  obtain ⟨hd, ha, hvb, hvc⟩ : vd < s.w.valloc ∧ va < s.w.valloc ∧ vb < s.w.valloc ∧ vc < s.w.valloc := by simpa [InWindow] using hwin
  refine ⟨fun hw fd hfd hz hb32 hz4 hrnd hpa hpd hsp => ?_, fun hw hacc hrnd hp hsp => ?_, fun hw hacc hsp => ?_⟩
  · have hregs : InWindow s (convertRegs x) := by
      intro n hn
      unfold convertRegs at hn
      split at hn <;> simp at hn <;> rcases hn with rfl | rfl | rfl <;> assumption
    exact run_written (c := .vpipe) rfl rfl hs hu hw
      (convert_ok hregs rfl hfd hz hb32 hz4 hrnd (fun h => ⟨⟨(hpa h).1, (hpa h).2.1⟩, (hpa h).2.2⟩) hpd hb hsp)
  · refine exec_vred hs hu hw (by simp [InWindow, hd, ha, va, vd]) rfl hacc hrnd (fun h => ?_) hb hsp
    obtain ⟨he, hv, he', hv', ht⟩ := hp h
    exact ⟨⟨he, hv⟩, ⟨he', hv'⟩, ht⟩
  · exact exec_vdot hs hu hw hwin hacc hb hsp

theorem specialFunctions : SpecialFunctions := by
  intro s u vd va x hs hu
  have out {fn : Special} {v : VOp} {n : Nat} {i : Instr} (he : exec i s = run i .sfu (special fn v) s) (hn : i.size = n)
      (hw : i.wellFormed = true) := exec_special (u := u) he hn hs hu hw
  exact ⟨⟨out rfl rfl, out rfl rfl⟩, ⟨out rfl rfl, out rfl rfl⟩, ⟨out rfl rfl, out rfl rfl⟩, ⟨out rfl rfl, out rfl rfl⟩,
    ⟨out rfl rfl, out rfl rfl⟩, ⟨out rfl rfl, out rfl rfl⟩, ⟨out rfl rfl, out rfl rfl⟩, ⟨out rfl rfl, out rfl rfl⟩⟩

theorem conversionsComplete : ConversionsComplete := by
  intro s d a x hs
  have spilled {n : Nat} (h : NoPend s x.vd.toNat 2) (hn : n ≤ 2) : Spilled s s x.vd.toNat n :=
    spilled_of_noPend fun k hk => h k (Nat.lt_of_lt_of_le hk hn)
  refine ⟨fun hwin hb hp => ?_, ?_⟩
  · obtain ⟨cvt, red, dot⟩ := convertDotReduce s s x hs hs hwin hb
    refine ⟨fun hw fd hfd hz hb32 hz4 hrnd hpa hpd => ?_, fun hw hacc hrnd hpp => ?_, fun hw hacc => ?_⟩
    · exact completes_written (cvt hw fd hfd hz hb32 hz4 hrnd hpa hpd (spilled hp (by split <;> omega)))
    · exact completes_written (red hw hacc hrnd hpp (spilled hp (by split <;> omega)))
    · exact completes_written (dot hw hacc (spilled hp (by omega)))
  · have out {fn : Special} {v : VOp} {n : Nat} {i : Instr} (he : exec i s = run i .sfu (special fn v) s) (hn : i.size = n)
        (hw : i.wellFormed = true) (hwin : InWindow s [v.vd, v.va]) (hf : (s.vreg v.va).fmt = .f32) (hb : Unbound s (v.bnd s))
        (hp : NoPend s v.vd 1) : Completes i n s :=
      completes_written (exec_special he hn hs hs hw hwin hf hb (spilled_of_noPend hp))
    exact ⟨⟨out rfl rfl, out rfl rfl⟩, ⟨out rfl rfl, out rfl rfl⟩, ⟨out rfl rfl, out rfl rfl⟩, ⟨out rfl rfl, out rfl rfl⟩,
      ⟨out rfl rfl, out rfl rfl⟩, ⟨out rfl rfl, out rfl rfl⟩, ⟨out rfl rfl, out rfl rfl⟩, ⟨out rfl rfl, out rfl rfl⟩⟩

/-- Settles O26: each act answers with its elements written and their flags raised, and over no pending spill the instruction completes. -/
theorem vectorConvertDotReduce : Obligations.VectorConvertDotReduce := ⟨convertDotReduce, specialFunctions, conversionsComplete⟩

end Sys2Proof.Claims
end

section
/-! PROOF of O27: the traps of the vector instructions in the order of their checks, and VMOV under a bound. -/

namespace Sys2Proof.Machine

/-- An act that raises a trap of the active lanes and changes nothing. -/
abbrev Refuses (a : Act PUnit) (s : State) (c : Cause) : Prop := a s = .error (.trap { cause := c, lanes := s.exec3 }, s)

/-- A run whose act refuses traps. -/
theorem vTraps_of_refuses {i : Instr} {c : Claim} {body : Act PUnit} {s : State} {k : Cause} (he : exec i s = run i c body s)
    (hw : i.wellFormed = true) (h : Refuses body s k) : Claims.VTraps s i k := he.trans (run_trap i c body s s _ hw h)

/-- ILLOP out of the window, then ILLFMT, from what the act answers. -/
theorem windowThenFormat_of {i : Instr} {c : Claim} {body : Act PUnit} {s : State} {regs : List Nat} {bad : Prop}
    (he : exec i s = run i c body s) (hout : ¬ Claims.InWindow s regs → Refuses body s .illop)
    (hbad : Claims.InWindow s regs → bad → Refuses body s .illfmt) : Claims.WindowThenFormat s i regs bad :=
  fun hw => ⟨fun h => vTraps_of_refuses he hw (hout h), fun h hb => vTraps_of_refuses he hw (hbad h hb)⟩

/-! ### Numeric instructions (05/R158, R159) -/

/-- The formats that are refused are those that are not accepted. -/
theorem accepts_eq_not_refuses (o : NumOp) (f : Fmt) : o.accepts f = !Claims.refuses o f := by
  cases o <;> cases f <;> rfl

/-- The source registers of a numeric instruction. -/
def numericSrcs (o : NumOp) (v : VOp) : List Nat := v.va :: ((if o.unary || v.imm.isSome then [] else [v.vb]) ++ if o.ternary then [v.vc] else [])

/-- The results of a numeric instruction by lane: its elements packed, and their flags. -/
def numericResults (o : NumOp) (v : VOp) (s : State) : List (Nat × Nat × Flags) := s.active.map fun l =>
  (l, (s.vreg v.va).fmt.pack ((Claims.numericElems o v s l).map (·.1)), orFlags ((Claims.numericElems o v s l).map (·.2)))

section
variable {o : NumOp} {v : VOp} {s : State}

theorem numeric_window (h : ¬ Claims.InWindow s (v.vd :: numericSrcs o v)) : Refuses (numeric o v) s .illop := by
  rw [Refuses, numeric, get_bind]
  exact Act.bind_error _ _ _ _ (window_trap h)

theorem numeric_format (hwin : Claims.InWindow s (v.vd :: numericSrcs o v))
    (h : Claims.refuses o (s.vreg v.va).fmt = true ∨ ∃ n ∈ numericSrcs o v, (s.vreg n).fmt ≠ (s.vreg v.va).fmt) :
    Refuses (numeric o v) s .illfmt := by
  have bad : (!o.accepts (s.vreg v.va).fmt || (numericSrcs o v).any fun n => (s.vreg n).fmt != (s.vreg v.va).fmt) = true := by
    rw [accepts_eq_not_refuses]
    simpa using h
  rw [Refuses, numeric, get_bind]
  refine (Act.bind_ok _ _ _ _ _ (window_ok hwin)).trans ?_
  exact (congrFun (if_pos bad) s).trans (vIllfmt_bind _ s)

variable (hwin : Claims.InWindow s (v.vd :: numericSrcs o v)) (ha : Claims.refuses o (s.vreg v.va).fmt = false)
  (hsame : ∀ n ∈ numericSrcs o v, (s.vreg n).fmt = (s.vreg v.va).fmt)
include hwin ha hsame

/-- A numeric instruction on registers of one accepted format goes on to the checks of its pairs and fields, and to its write. -/
theorem numeric_accepted :
    let f := (s.vreg v.va).fmt
    numeric o v s = (do
      pairTags f.isPair (numericSrcs o v)
      pairOk f.isPair (v.vd :: numericSrcs o v)
      if (v.rnd != 0#2 && !f.isFloat) || (v.sat && o.unary && f.isFloat) then vIllop
      writeResult v.vd f (v.bnd s) f.isPair true (orFlags ((numericResults o v s).map fun r : Nat × Nat × Flags => r.2.2))
        ((numericResults o v s).map fun r : Nat × Nat × Flags => (r.1, r.2.1))) s := by
  have good : (!o.accepts (s.vreg v.va).fmt || (numericSrcs o v).any fun n => (s.vreg n).fmt != (s.vreg v.va).fmt) = false := by
    rw [accepts_eq_not_refuses, ha]
    simpa using hsame
  rw [numeric, get_bind]
  refine (Act.bind_ok _ _ _ _ _ (window_ok hwin)).trans ?_
  exact congrFun (if_neg (Bool.eq_false_iff.mp good)) s

/-- A source pair of two codes. -/
theorem numeric_pairTags (h : ∃ n ∈ numericSrcs o v, PairFits s n ∧ (s.vreg (n + 1)).fmt ≠ (s.vreg v.va).fmt)
    (hp : (s.vreg v.va).fmt.isPair = true) : Refuses (numeric o v) s .illfmt := by
  rw [Refuses, numeric_accepted hwin ha hsame]
  refine Act.bind_error _ _ _ _ (pairTags_trap fun h' => ?_)
  obtain ⟨n, hn, hf, hne⟩ := h
  exact hne ((h' hp n hn hf).symm.trans (hsame n hn))

variable (hone : (s.vreg v.va).fmt.isPair = true → ∀ n ∈ numericSrcs o v, PairFits s n → (s.vreg (n + 1)).fmt = (s.vreg v.va).fmt)
include hone

omit hwin ha in
theorem numeric_tags_ok : pairTags (s.vreg v.va).fmt.isPair (numericSrcs o v) s = .ok ((), s) :=
  pairTags_ok fun hp n hn hf => (hsame n hn).trans (hone hp n hn hf).symm

/-- A pair that is odd or beyond VALLOC. -/
theorem numeric_pairOk (hp : (s.vreg v.va).fmt.isPair = true) (h : ∃ n ∈ v.vd :: numericSrcs o v, ¬ PairFits s n) :
    Refuses (numeric o v) s .illop := by
  rw [Refuses, numeric_accepted hwin ha hsame]
  refine (Act.bind_ok _ _ _ _ _ (numeric_tags_ok hsame hone)).trans ?_
  refine Act.bind_error _ _ _ _ (pairOk_trap fun h' => ?_)
  obtain ⟨n, hn, hf⟩ := h
  exact hf (h' hp n hn)

/-- A rounding or saturation field that the format does not take. -/
theorem numeric_fields (hfit : (s.vreg v.va).fmt.isPair = true → ∀ n ∈ v.vd :: numericSrcs o v, PairFits s n)
    (h : (v.rnd ≠ 0 ∧ (s.vreg v.va).fmt.isFloat = false) ∨ (v.sat = true ∧ o.unary = true ∧ (s.vreg v.va).fmt.isFloat = true)) :
    Refuses (numeric o v) s .illop := by
  have bad : ((v.rnd != 0#2 && !(s.vreg v.va).fmt.isFloat) || (v.sat && o.unary && (s.vreg v.va).fmt.isFloat)) = true := by
    simpa [and_assoc] using h
  rw [Refuses, numeric_accepted hwin ha hsame]
  refine (Act.bind_ok _ _ _ _ _ (numeric_tags_ok hsame hone)).trans ?_
  refine (Act.bind_ok _ _ _ _ _ (pairOk_ok hfit)).trans ?_
  exact (congrFun (if_pos bad) s).trans (vIllop_bind _ s)

end

/-- The traps of a numeric instruction that is run. -/
theorem numericTraps {o : NumOp} {v : VOp} {s : State} {i : Instr} (he : exec i s = run i .vpipe (numeric o v) s) :
    Claims.NumericTraps o v s i :=
  ⟨windowThenFormat_of he numeric_window numeric_format, fun hw hwin ha hsame =>
    ⟨fun hp h => vTraps_of_refuses he hw (numeric_pairTags hwin ha hsame h hp),
      fun hone hp h => vTraps_of_refuses he hw (numeric_pairOk hwin ha hsame hone hp h),
      fun hone hfit h => vTraps_of_refuses he hw (numeric_fields hwin ha hsame hone hfit h)⟩⟩

/-! ### Compares (05/R161) -/

/-- The source registers of a compare. -/
def compareSrcs (v : VOp) : List Nat := v.va :: if v.imm.isSome then [] else [v.vb]

/-- The traps of a compare that is run. -/
theorem compareTraps {c : Nat} {v : VOp} {s : State} {i : Instr} (he : exec i s = run i .vpipe (vcompare c v) s) :
    Claims.WindowThenFormat s i (compareSrcs v) ((s.vreg v.va).fmt = .b32 ∨ (s.vreg v.va).fmt = .z4x8 ∨
      ∃ n ∈ compareSrcs v, (s.vreg n).fmt ≠ (s.vreg v.va).fmt) := by
  refine windowThenFormat_of he (fun h => ?_) fun hwin h => ?_
  · rw [Refuses, vcompare, get_bind]
    exact Act.bind_error _ _ _ _ (window_trap h)
  · have bad : ((s.vreg v.va).fmt == .b32 || (s.vreg v.va).fmt == .z4x8 ||
        (compareSrcs v).any fun n => (s.vreg n).fmt != (s.vreg v.va).fmt) = true := by
      simpa [or_assoc] using h
    rw [Refuses, vcompare, get_bind]
    refine (Act.bind_ok _ _ _ _ _ (window_ok hwin)).trans ?_
    exact (congrFun (if_pos bad) s).trans (vIllfmt_bind _ s)

/-! ### Conversion, dot product, reduction, VTAG -/

/-- Codes from 0x0E on name no format of a result: 0x0E is Z4x8, and the others are reserved (02/R57, R77). -/
theorem ofCode_of_le {c : Nat} (h : 0x0E ≤ c) : Fmt.ofCode c = none ∨ Fmt.ofCode c = some .z4x8 := by
  rcases Nat.eq_or_lt_of_le h with rfl | h
  · exact .inr rfl
  · exact .inl (List.getElem?_eq_none h)

/-- The codes of the pair formats. -/
theorem ofCode_isPair {c : BitVec 5} {f : Fmt} (h : Fmt.ofCode c.toNat = some f) (hp : f.isPair = true) : c = 6 ∨ c = 7 := by
  have all : ∀ c : BitVec 5, ∀ f ∈ Fmt.ofCode c.toNat, f.isPair = true → c = 6 ∨ c = 7 := by decide
  exact all c f h hp

/-- A conversion to a code that names no result format, or from B32. -/
theorem convert_format {x : VX} {s : State} (hwin : Claims.InWindow s (convertRegs x))
    (h : 0x0E ≤ x.rfmt.toNat ∨ ((s.vreg x.va.toNat).fmt = .b32 ∧ (x.rfmt = 6 ∨ x.rfmt = 7 → PairFits s x.vd.toNat))) :
    Refuses (convert x) s .illfmt := by
  simp only [Refuses, convert, get_bind, convert_window, Act.bind_ok _ _ _ _ _ (window_ok hwin)]
  cases hfd : Fmt.ofCode x.rfmt.toNat with
  | none => rfl
  | some fd =>
    have bad : (fd == .z4x8 || (s.vreg x.va.toNat).fmt == .b32) = true := by
      rcases h with h | h
      · obtain rfl : fd = .z4x8 := by
          rcases ofCode_of_le h with e | e
          · exact absurd (hfd.symm.trans e) (by simp)
          · exact Option.some.inj (hfd.symm.trans e)
        rfl
      · simp [h.1]
    have fits : pairOk fd.isPair [x.vd.toNat] s = .ok ((), s) := pairOk_ok fun hp n hn => by
      rw [List.mem_singleton.mp hn]
      have code := ofCode_isPair hfd hp
      rcases h with h | h
      · rcases code with e | e <;> simp [e] at h
      · exact h.2 code
    simp only [Act.bind_ok _ _ _ _ _ fits, bad, if_true, vIllfmt_bind]

/-- The pairings of a dot product (02/R79). -/
theorem dotAccepts_iff (a b c : Fmt) : dotAccepts a b c = true ↔ (a, b, c) ∈ [(Fmt.s8x4, Fmt.s8x4, Fmt.s32), (.e4m3x4, .e4m3x4, .f32),
    (.e4m3x4, .e5m2x4, .f32), (.e5m2x4, .e4m3x4, .f32), (.e5m2x4, .e5m2x4, .f32), (.t8x4, .t8x4, .f32)] := by
  cases c <;> cases a <;> simp [dotAccepts]

/-- The formats of a sum, a least and a greatest element (05/R169). -/
theorem redAccepts_iff {op : Nat} {f : Fmt} (h : op ≤ 2) :
    redAccepts op f = true ↔ f ∈ [Fmt.s32, .n32, .s64, .f32, .f64, .h16x2, .bf16x2] := by
  have : ¬ 3 ≤ op := by omega
  simp [redAccepts, this, or_assoc]

/-! ### VMOV under a bound (02/R86 to R88) -/

/-- An element outside its bound (02/R86). -/
abbrev BoundReg.outside (d : BoundReg) (f : Fmt) (x : Nat) : Bool := (List.range f.count).any fun k => (d.clamp f (f.elem x k)).isSome

/-- One element of a lane clamped. -/
def BoundReg.clampStep (d : BoundReg) (f : Fmt) (x : Nat) (r : Nat × Bool) (i : Nat) : Nat × Bool :=
  (d.clamp f (f.elem x i)).elim r fun v => (f.setElem r.1 i v, true)

theorem BoundReg.lane_eq (d : BoundReg) (f : Fmt) (x : Nat) : d.lane f x = (List.range f.count).foldl (d.clampStep f x) (x, false) := by
  unfold BoundReg.lane
  congr 1
  funext r i
  unfold BoundReg.clampStep
  cases d.clamp f (f.elem x i) <;> rfl

theorem BoundReg.foldl_clampStep (d : BoundReg) (f : Fmt) (x : Nat) (ks : List Nat) (r : Nat × Bool) :
    (ks.foldl (d.clampStep f x) r).2 = (r.2 || ks.any fun k => (d.clamp f (f.elem x k)).isSome) ∧
      ((ks.any fun k => (d.clamp f (f.elem x k)).isSome) = false → ks.foldl (d.clampStep f x) r = r) := by
  induction ks generalizing r with
  | nil => simp
  | cons k ks ih =>
    cases hk : d.clamp f (f.elem x k) with
    | none => simpa [hk, BoundReg.clampStep] using ih r
    | some v => simpa [hk, BoundReg.clampStep] using (ih (f.setElem r.1 k v, true)).1

/-- Clamping finds an element outside exactly where there is one, and leaves a lane without one as it is. -/
theorem BoundReg.lane_spec (d : BoundReg) (f : Fmt) (x : Nat) :
    (d.lane f x).2 = d.outside f x ∧ (d.outside f x = false → (d.lane f x).1 = x) := by
  obtain ⟨h, hn⟩ := d.foldl_clampStep f x (List.range f.count) (x, false)
  rw [d.lane_eq]
  exact ⟨by simpa using h, fun h => congrArg Prod.fst (hn h)⟩

/-- What a bound with an action answers for results of a format that it compares. -/
theorem boundCheck_on {c : Ctx} {d : BoundReg} {f : Fmt} {b : BitVec 4} (ls : List Nat) (val : Nat → Nat) (hd : c.bound b = d) (hf : f ≠ .b32)
    (ha : d.action ≠ 0) :
    boundCheck c f b (ls.map fun l => (l, val l)) =
      if (ls.filter fun l => d.outside f (val l)) ≠ [] ∧ d.action = 3 then
        .error { cause := .bound, arg := b.toNat, lanes := lanesMask (ls.filter fun l => d.outside f (val l)) }
      else .ok (ls.map fun l => (l, if d.action = 2 then (d.lane f (val l)).1 else val l),
        decide ((ls.filter fun l => d.outside f (val l)) ≠ [])) := by
  have bad : ((ls.map fun l => (l, val l)).map fun v => (v.1, d.lane f v.2)).filter (·.2.2) =
      (ls.filter fun l => d.outside f (val l)).map fun l => (l, d.lane f (val l)) := by
    simp only [List.map_map, List.filter_map, Function.comp_def, (d.lane_spec f _).1]
  simp only [boundCheck, hd, ha, hf, or_self, if_false]
  rw [bad]
  by_cases h : (ls.filter fun l => d.outside f (val l)) = []
  · have same (l : Nat) (hl : l ∈ ls) : (l, if d.action = 2 then (d.lane f (val l)).1 else val l) = (l, val l) := by
      rw [(d.lane_spec f _).2 (by simpa using List.filter_eq_nil_iff.mp h l hl), ite_self]
    rw [h, List.map_congr_left same]
    simp
  · by_cases h3 : d.action = 3
    · simp [h, h3, Function.comp_def]
    · by_cases h2 : d.action = 2 <;> simp [h, h2, h3, Function.comp_def]

/-- What VMOV gives to its write: the lanes of va under va's tag. -/
theorem exec_vmov_body {s : State} {vd va : BitVec 7} (hwin : Claims.InWindow s [vd.toNat, va.toNat]) :
    bitwise1 id (v3Op vd va 0) s = writeResult vd.toNat (s.vreg va.toNat).fmt (s.vreg va.toNat).bnd false true 0
      (s.active.map fun l => (l, (s.vlane va.toNat l).toNat)) s := by
  rw [bitwise1, bitwise, get_bind]
  exact Act.bind_ok _ _ _ _ _ (window_ok hwin)

end Sys2Proof.Machine

namespace Sys2Proof.Claims
open Sys2Proof.Machine

/-! ### O27 -/

/-- Every format that is refused, and the window's check before it. -/
theorem formatsRefused : FormatTraps := by
  intro s vd va vb c x
  have num {o : NumOp} {v : VOp} {i : Instr} (he : exec i s = run i .vpipe (numeric o v) s) := numericTraps he
  have sfu {fn : Special} {i j : Instr} (hi : exec i s = run i .sfu (special fn (v3Op vd va 0)) s)
      (hj : exec j s = run j .sfu (special fn (vxOp x)) s) :
      WindowThenFormat s i [vd.toNat, va.toNat] ((s.vreg va.toNat).fmt ≠ .f32) ∧
        WindowThenFormat s j [x.vd.toNat, x.va.toNat] ((s.vreg x.va.toNat).fmt ≠ .f32) :=
    ⟨windowThenFormat_of hi (special_traps (v := v3Op vd va 0)).1 (special_traps (v := v3Op vd va 0)).2,
      windowThenFormat_of hj (special_traps (v := vxOp x)).1 (special_traps (v := vxOp x)).2⟩
  have bits {srcs : List Nat} {f : State → Nat → Word} {i : Instr} {n : List Nat} {v : VOp} (he : exec i s = run i .vpipe (bitwise v srcs f) s)
      (hw : i.wellFormed = true) (hn : v.vd :: srcs = n) (h : ¬ InWindow s n) : VTraps s i .illop := by
    refine vTraps_of_refuses he hw ?_
    rw [Refuses, bitwise, get_bind]
    exact Act.bind_error _ _ _ _ (window_trap (hn ▸ h))
  refine ⟨⟨⟨num rfl, num rfl⟩, ⟨num rfl, num rfl⟩, ⟨num rfl, num rfl⟩, ⟨num rfl, num rfl⟩, ⟨num rfl, num rfl⟩, ⟨num rfl, num rfl⟩,
    ⟨num rfl, num rfl⟩, ⟨num rfl, num rfl⟩, ⟨num rfl, num rfl⟩, ⟨num rfl, num rfl⟩⟩, ⟨compareTraps rfl, compareTraps rfl⟩, ?_, ?_, ?_, ?_,
    ⟨sfu rfl rfl, sfu rfl rfl, sfu rfl rfl, sfu rfl rfl, sfu rfl rfl, sfu rfl rfl, sfu rfl rfl, sfu rfl rfl⟩,
    bits rfl rfl rfl, bits rfl rfl rfl, bits rfl rfl rfl, bits rfl rfl rfl, bits rfl rfl rfl, bits rfl rfl rfl, bits rfl rfl rfl,
    bits rfl rfl rfl⟩
  · refine windowThenFormat_of (c := .vpipe) (body := convert x) rfl (fun h => ?_) convert_format
    rw [Refuses, convert, get_bind]
    refine Act.bind_error _ _ _ _ ?_
    rw [convert_window]
    exact window_trap h
  · refine windowThenFormat_of (c := .vpipe) rfl (fun h => Act.bind_error _ _ _ _ (window_trap h)) fun hwin h => ?_
    refine (Act.bind_ok _ _ _ _ _ (window_ok hwin)).trans ((congrFun (if_pos ?_) s).trans (vIllfmt_bind _ s))
    rw [Bool.not_eq_true', ← Bool.not_eq_true, dotAccepts_iff]
    exact h
  · refine windowThenFormat_of (c := .vpipe) rfl (fun h => Act.bind_error _ _ _ _ (window_trap h)) fun hwin h => ?_
    refine (Act.bind_ok _ _ _ _ _ (window_ok hwin)).trans ((congrFun (if_pos ?_) s).trans (vIllfmt_bind _ s))
    rw [Bool.not_eq_true', ← Bool.not_eq_true, redAccepts_iff h.1]
    exact h.2
  · refine windowThenFormat_of (c := .vpipe) rfl (fun h => Act.bind_error _ _ _ _ (window_trap h)) fun hwin h => ?_
    have none : Fmt.ofCode (x.imm.toNat / 16) = none := List.getElem?_eq_none (by simp; omega)
    refine (Act.bind_ok _ _ _ _ _ (window_ok hwin)).trans ?_
    simp only [none]
    rfl

/-- VMOV writes, clamps or traps as its bound says. -/
theorem boundActions : BoundActions := by
  intro s u vd va hs hu b f d outside hwin hf hp
  let val (l : Nat) : Nat := (s.vlane va.toNat l).toNat
  have check (ha : d.action ≠ 0) : boundCheck s.bounds (comparedAs f false) b (s.active.map fun l => (l, val l)) =
      if outside ≠ [] ∧ d.action = 3 then .error { cause := .bound, arg := b.toNat, lanes := lanesMask outside }
      else .ok (s.active.map fun l => (l, if d.action = 2 then (d.lane f (val l)).1 else val l), decide (outside ≠ [])) := by
    have cmp : comparedAs f false = f := by simp [hp]
    rw [cmp]
    exact boundCheck_on s.active val rfl hf ha
  refine ⟨fun ho h3 => ?_, fun hsp => ?_⟩
  · have hv : (s.active.map fun l => (l, val l)) ≠ [] := fun h => ho (by simp [outside, List.map_eq_nil_iff.mp h])
    have stops := (check (by simp [h3])).trans (if_pos ⟨ho, h3⟩)
    exact run_trap (.vmov vd va) .vpipe _ s s _ rfl ((exec_vmov_body hwin).trans (writeResult_trap hv stops))
  · have goes (ha : d.action ≠ 0) (h3 : d.action ≠ 3) : exec (.vmov vd va) s =
        .next (((written s u vd.toNat false (some (f, b)) fun l => if d.action = 2 then (d.lane f (val l)).1 else val l).setBnd b
          (decide (outside ≠ []))).retire 4) := by
      have writes := writeResult_ok (setTag := true) (flags := 0) hsp ((check ha).trans (if_neg fun h => h3 h.2))
        fun h => ⟨rfl, by simp [outside, h]⟩
      rw [State.raise_zero] at writes
      refine run_next (.vmov vd va) .vpipe _ s _ rfl ((exec_vmov_body hwin).trans writes) ?_
      rw [State.setBnd_w_errinj]
      exact calm_written _ _ _ _ hs hu
    refine ⟨fun h1 => ?_, fun h2 => ?_⟩
    · simpa [h1] using goes (by simp [h1]) (by simp [h1])
    · simpa [h2] using goes (by simp [h2]) (by simp [h2])

/-- Settles O27: each act refuses in the order of its checks, and a bound with an action answers as it says. -/
theorem formatTraps : Obligations.FormatTraps := ⟨formatsRefused, boundActions⟩

end Sys2Proof.Claims
end

section
/-! SUPPORT for the number formats: exact values as rationals and as integers, their sums, products and order, and a magnitude rounded to
a multiple of a power of two. -/

namespace Sys2Proof
open Claims (withSign)

/-! ### Finite values as rationals -/

/-- The rational of a finite value; the special values have none and count as 0. -/
def Num.rat : Num → ℚ
  | .fin s m e => withSign s (m * 2 ^ e)
  | _ => 0

@[simp] theorem Num.rat_fin (s : Bool) (m : Nat) (e : Int) : (Num.fin s m e).rat = withSign s (m * 2 ^ e) := rfl

@[simp] theorem withSign_zero (s : Bool) : withSign s 0 = 0 := by cases s <;> simp [withSign]
theorem withSign_mul (s : Bool) (x y : ℚ) : withSign s (x * y) = withSign s x * y := by cases s <;> simp [withSign]
theorem withSign_not (s : Bool) (x : ℚ) : withSign (!s) x = -withSign s x := by cases s <;> simp [withSign]
theorem withSign_bne (s t : Bool) (x y : ℚ) : withSign (s != t) (x * y) = withSign s x * withSign t y := by
  cases s <;> cases t <;> simp [withSign]
@[simp] theorem withSign_eq_zero {s : Bool} {x : ℚ} : withSign s x = 0 ↔ x = 0 := by cases s <;> simp [withSign]
theorem abs_withSign {s : Bool} {x : ℚ} (h : 0 ≤ x) : |withSign s x| = x := by
  cases s <;> simp [withSign, abs_of_nonneg h]
/-- The sign of a value that is not zero is the one it is given. -/
theorem withSign_lt_zero {s : Bool} {x : ℚ} (h : 0 < x) : decide (withSign s x < 0) = s := by
  cases s <;> simp [withSign, h, h.le]

theorem two_zpow_pos (k : Int) : (0 : ℚ) < 2 ^ k := zpow_pos two_pos k
theorem two_zpow_ne_zero (k : Int) : (2 : ℚ) ^ k ≠ 0 := (two_zpow_pos k).ne'

/-- A magnitude is zero when its integer is. -/
@[simp] theorem mul_two_zpow_eq_zero {m : Nat} {e : Int} : (m : ℚ) * 2 ^ e = 0 ↔ m = 0 := by simp [two_zpow_ne_zero]
theorem mul_two_zpow_pos {m : Nat} {e : Int} (h : m ≠ 0) : (0 : ℚ) < m * 2 ^ e :=
  mul_pos (Nat.cast_pos.mpr (Nat.pos_of_ne_zero h)) (two_zpow_pos e)

theorem cast_signed (s : Bool) (m : Nat) : ((signed s m : Int) : ℚ) = withSign s m := by cases s <;> simp [signed, withSign]

/-- A magnitude at a lesser scale. -/
theorem cast_scaleTo {m : Nat} {e k : Int} (h : k ≤ e) : (scaleTo m e k : ℚ) * 2 ^ k = m * 2 ^ e := by
  have : ((2 : ℚ) ^ (e - k).toNat) * 2 ^ k = 2 ^ e := by
    rw [← zpow_natCast, Int.toNat_of_nonneg (by omega), ← zpow_add₀ two_ne_zero]
    congr 1
    omega
  rw [scaleTo, Nat.cast_mul, Nat.cast_pow, Nat.cast_ofNat, mul_assoc, this]

theorem cast_signed_scaleTo {s : Bool} {m : Nat} {e k : Int} (h : k ≤ e) :
    ((signed s (scaleTo m e k) : Int) : ℚ) * 2 ^ k = withSign s (m * 2 ^ e) := by
  rw [cast_signed, ← withSign_mul, cast_scaleTo h]

/-- The value of a signed integer at a scale is finite. -/
theorem Num.ofInt_fin (v k : Int) (z : Bool) : ∃ s m e, Num.ofInt v k z = .fin s m e ∧ withSign s (m * 2 ^ e) = v * 2 ^ k := by
  by_cases h : v = 0
  · exact ⟨z, 0, 0, by simp [Num.ofInt, h], by simp [h]⟩
  · refine ⟨decide (v < 0), v.natAbs, k, by simp [Num.ofInt, h], ?_⟩
    rw [withSign_mul, ← cast_signed]
    congr 2
    by_cases hv : v < 0
    · simp [signed, hv, abs_of_neg hv]
    · simp [signed, hv, abs_of_nonneg (not_lt.mp hv)]

/-- A zero result has the sign it is given. -/
theorem Num.ofInt_zero (k : Int) (z : Bool) : Num.ofInt 0 k z = .fin z 0 0 := rfl

@[simp] theorem Num.rat_ofInt (v k : Int) (z : Bool) : (Num.ofInt v k z).rat = v * 2 ^ k := by
  obtain ⟨s, m, e, h, hv⟩ := Num.ofInt_fin v k z
  rw [h, Num.rat_fin, hv]

/-- A sum of finite values is exact. -/
theorem Num.add_fin (rnd : Rnd) (s t : Bool) (m n : Nat) (e f : Int) : ∃ v k,
    (Num.fin s m e).add rnd (.fin t n f) = (Num.ofInt v k (zeroSign rnd s t), 0) ∧
      (v : ℚ) * 2 ^ k = withSign s (m * 2 ^ e) + withSign t (n * 2 ^ f) := by
  refine ⟨_, min e f, rfl, ?_⟩
  rw [Int.cast_add, add_mul, cast_signed_scaleTo (min_le_left _ _), cast_signed_scaleTo (min_le_right _ _)]

/-- A product of finite values is exact. -/
theorem Num.mul_fin (s t : Bool) (m n : Nat) (e f : Int) : ∃ k,
    (Num.fin s m e).mul (.fin t n f) = (.fin (s != t) (m * n) k, 0) ∧
      withSign (s != t) ((m * n : Nat) * 2 ^ k) = withSign s (m * 2 ^ e) * withSign t (n * 2 ^ f) := by
  refine ⟨_, rfl, ?_⟩
  rw [← withSign_bne]
  by_cases h : m * n = 0
  · rcases Nat.mul_eq_zero.mp h with h | h <;> simp [h]
  · rw [if_neg h, zpow_add₀ two_ne_zero, Nat.cast_mul, mul_mul_mul_comm]

/-- Finite values are ordered as their rationals. -/
theorem cmp_fin (s t : Bool) (m n : Nat) (e f : Int) :
    (Num.fin s m e).cmp (.fin t n f) = cmp (withSign s (m * 2 ^ e)) (withSign t (n * 2 ^ f)) := by
  have mono : StrictMono fun v : Int => (v : ℚ) * 2 ^ min e f := fun a b h =>
    mul_lt_mul_of_pos_right (Int.cast_lt.mpr h) (two_zpow_pos _)
  rw [← cast_signed_scaleTo (min_le_left e f), ← cast_signed_scaleTo (min_le_right e f)]
  exact ((mono.cmp_map_eq _ _).trans (cmp_eq_compare _ _)).symm

/-- The exact sum of a list, whatever its scale. -/
theorem sumFin_rat (xs : List Num) : ((sumFin xs).1 : ℚ) * 2 ^ (sumFin xs).2 = (xs.map Num.rat).sum := by
  induction xs with
  | nil => simp [sumFin]
  | cons x xs ih =>
    rw [List.map_cons, List.sum_cons, ← ih]
    cases x with
    | fin s m e =>
      simp only [sumFin, Num.rat_fin]
      split
      · next h => simp [h]
      · split
        · next h => simp [h, cast_signed, ← withSign_mul]
        · have e1 := cast_signed_scaleTo (s := s) (m := m) (min_le_left e (sumFin xs).2)
          have e2 : ((2 : ℚ) ^ ((sumFin xs).2 - min e (sumFin xs).2).toNat) * 2 ^ min e (sumFin xs).2 = 2 ^ (sumFin xs).2 := by
            rw [← zpow_natCast, Int.toNat_of_nonneg (by omega), ← zpow_add₀ two_ne_zero]
            congr 1
            omega
          rw [Int.cast_add, add_mul, e1, Int.cast_mul, Int.cast_pow, Int.cast_ofNat, mul_assoc, e2]
    | inf | nan | nar => simp [sumFin, Num.rat]

/-! ### Conditions on an order (04/R127) -/

/-- A condition holds on the order of two rationals when they stand in it. -/
theorem condHolds_cmp {c : Nat} (a b : ℚ) : condHolds c (cmp a b) = true ↔ Claims.Ordered c a b := by
  rcases lt_trichotomy a b with h | h | h
  · have e : cmp a b = .lt := h.cmp_eq_lt
    rcases c with _ | _ | _ | _ | _ | c <;> simp [condHolds, Claims.Ordered, e, h, h.ne, h.le, h.not_gt, h.not_ge]
  · rcases c with _ | _ | _ | _ | _ | c <;> simp [condHolds, Claims.Ordered, h]
  · have e : cmp a b = .gt := h.cmp_eq_gt
    rcases c with _ | _ | _ | _ | _ | c <;> simp [condHolds, Claims.Ordered, e, h, h.ne', h.le, h.not_gt, h.not_ge]

/-- Integers are ordered as their rationals. -/
theorem compare_int (a b : Int) : compare a b = cmp (a : ℚ) (b : ℚ) :=
  ((Int.cast_strictMono.cmp_map_eq a b).trans (cmp_eq_compare a b)).symm

/-! ### Rounding to a multiple of a power of two (02/R67) -/

/-- Whether a magnitude of `a` whole units and a part `t` of one is rounded away from zero. -/
def RoundsAway (rnd : Rnd) (neg : Bool) (a : Nat) (t : ℚ) : Prop :=
  match rnd with
  | .rne => 1 / 2 < t ∨ (t = 1 / 2 ∧ a % 2 = 1)
  | .rz => False
  | .ru => neg = false ∧ t ≠ 0
  | .rd => neg = true ∧ t ≠ 0

/-- An exact number of units is not rounded. -/
theorem not_roundsAway_zero (rnd : Rnd) (neg : Bool) (a : Nat) : ¬ RoundsAway rnd neg a 0 := by
  cases rnd <;> norm_num [RoundsAway]

/-- The bits that a rounding looks at. -/
theorem roundsUp_iff (rnd : Rnd) (neg : Bool) (a r : Nat) {p : Nat} (hp : 0 < p) :
    roundsUp rnd neg (a % 2 == 1) (2 * r) p false = true ↔ RoundsAway rnd neg a ((r : ℚ) / p) := by
  have hp' : (0 : ℚ) < p := Nat.cast_pos.mpr hp
  have half_lt : (1 / 2 : ℚ) < r / p ↔ p < 2 * r := by
    rw [lt_div_iff₀ hp', ← Nat.cast_lt (α := ℚ)]
    push_cast
    constructor <;> intro h <;> linarith
  have half_eq : (r / p : ℚ) = 1 / 2 ↔ 2 * r = p := by
    rw [div_eq_iff hp'.ne', ← Nat.cast_inj (R := ℚ)]
    push_cast
    constructor <;> intro h <;> linarith
  have ne_zero : (r / p : ℚ) ≠ 0 ↔ 2 * r ≠ 0 := by simp [hp'.ne']
  cases rnd <;> simp only [roundsUp, RoundsAway, half_lt, half_eq, ne_zero] <;> simp

/-- A magnitude rounded to a multiple of 2^q: its whole units and the rest decide. -/
theorem roundAt_spec (rnd : Rnd) (neg : Bool) (m : Nat) (e q : Int) : ∃ (a : Nat) (t : ℚ), 0 ≤ t ∧ t < 1 ∧
    (m : ℚ) * 2 ^ e = (a + t) * 2 ^ q ∧ ((roundAt rnd neg ⟨m, e, false⟩ q).2 = true ↔ t ≠ 0) ∧
    ((roundAt rnd neg ⟨m, e, false⟩ q).1 = a + 1 ∧ RoundsAway rnd neg a t ∨
      (roundAt rnd neg ⟨m, e, false⟩ q).1 = a ∧ ¬ RoundsAway rnd neg a t) := by
  by_cases h : q ≤ e
  · refine ⟨m * 2 ^ (e - q).toNat, 0, le_refl _, one_pos, ?_, ?_, .inr ⟨?_, not_roundsAway_zero _ _ _⟩⟩
    · rw [add_zero, ← cast_scaleTo h, scaleTo]
    · simp [roundAt, h]
    · simp [roundAt, h, shiftBy]
  · obtain ⟨s, hs⟩ : ∃ s : Nat, q = e + s := ⟨(q - e).toNat, by omega⟩
    have hs0 : 0 < s := by omega
    subst hs
    have up : shiftBy m (e - (e + s)) = m / 2 ^ s := by simp [shiftBy, hs0.ne']
    have hp : (0 : ℚ) < 2 ^ s := by positivity
    have iff := roundsUp_iff rnd neg (m / 2 ^ s) (m % 2 ^ s) (p := 2 ^ s) (by positivity)
    rw [Nat.cast_pow, Nat.cast_ofNat] at iff
    refine ⟨m / 2 ^ s, ((m % 2 ^ s : Nat) : ℚ) / 2 ^ s, by positivity, ?_, ?_, ?_, ?_⟩
    · rw [div_lt_one hp]
      exact_mod_cast Nat.mod_lt _ (by positivity)
    · have : (m : ℚ) = 2 ^ s * (m / 2 ^ s : Nat) + (m % 2 ^ s : Nat) := by exact_mod_cast (Nat.div_add_mod m (2 ^ s)).symm
      rw [zpow_add₀ two_ne_zero, zpow_natCast]
      conv_lhs => rw [this]
      field_simp
    · simp [roundAt, hs0.ne', hp.ne']
    · simp only [roundAt, up, show ¬ (e + (s : Int) ≤ e) by omega, if_false, add_sub_cancel_left, Int.toNat_natCast]
      by_cases hr : roundsUp rnd neg (m / 2 ^ s % 2 == 1) (2 * (m % 2 ^ s)) (2 ^ s) false = true
      · exact .inl ⟨if_pos hr, iff.mp hr⟩
      · exact .inr ⟨if_neg hr, mt iff.mpr hr⟩

end Sys2Proof
end

section
/-! PROOF of O23: where elements lie in a lane word, and the integer formats: their codes, exact operations, narrowing and conversions. -/

namespace Sys2Proof
open Claims (withSign)

/-! ### Elements of a lane word (02/R56, R58) -/

/-- The parts of an integer by their width give the integers back that were packed into it. -/
theorem packed_digits (w : Nat) (es : List Nat) (he : ∀ e ∈ es, e < 2 ^ w) (k : Nat) :
    ∃ x, ((es.zipIdx k).map fun e => e.1 % 2 ^ w * 2 ^ (w * e.2)).sum = 2 ^ (w * k) * x ∧ x < 2 ^ (w * es.length) ∧
      (List.range es.length).map (fun i => x / 2 ^ (w * i) % 2 ^ w) = es := by
  induction es generalizing k with
  | nil => exact ⟨0, by simp, by simp, rfl⟩
  | cons e es ih =>
    have hlt := he e List.mem_cons_self
    obtain ⟨x, hsum, hx, hd⟩ := ih (fun a ha => he a (List.mem_cons_of_mem _ ha)) (k + 1)
    refine ⟨e + 2 ^ w * x, ?_, ?_, ?_⟩
    · rw [List.zipIdx_cons, List.map_cons, List.sum_cons, hsum, Nat.mod_eq_of_lt hlt, Nat.mul_add w, Nat.mul_one, Nat.pow_add]
      ring
    · have : 2 ^ w * (x + 1) ≤ 2 ^ w * 2 ^ (w * es.length) := Nat.mul_le_mul_left _ hx
      have lt : e + 2 ^ w * x < 2 ^ w * (x + 1) := by rw [Nat.mul_add, Nat.mul_one]; omega
      rw [List.length_cons, Nat.mul_add w, Nat.mul_one, Nat.add_comm (w * _), Nat.pow_add]
      exact lt_of_lt_of_le lt this
    · rw [List.length_cons, List.range_succ_eq_map, List.map_cons, List.map_map]
      congr 1
      · simp [Nat.mod_eq_of_lt hlt]
      · refine Eq.trans (List.map_congr_left fun i _ => ?_) hd
        have : (e + 2 ^ w * x) / 2 ^ w = x := by
          rw [Nat.add_mul_div_left _ _ (Nat.two_pow_pos w), Nat.div_eq_of_lt hlt, Nat.zero_add]
        show (e + 2 ^ w * x) / 2 ^ (w * (i + 1)) % 2 ^ w = _
        rw [Nat.mul_add w, Nat.mul_one, Nat.add_comm (w * i), Nat.pow_add, ← Nat.div_div_eq_div_mul, this]

/-- A packed word gives its elements back. -/
theorem Fmt.elems_pack {f : Fmt} {es : List Nat} (hl : es.length = f.count) (he : ∀ e ∈ es, e < 2 ^ f.bits) :
    f.elems (f.pack es) = es ∧ f.pack es < 2 ^ (f.bits * f.count) := by
  obtain ⟨x, hsum, hx, hd⟩ := packed_digits f.bits es he 0
  have e : f.pack es = x := by simpa [Fmt.pack] using hsum
  rw [e, ← hl]
  exact ⟨by rwa [Fmt.elems, ← hl], hx⟩

/-- A bit of an element is a bit of the word. -/
theorem Fmt.testBit_elems (f : Fmt) (x j : Nat) {i : Nat} (hi : i < f.count) :
    ((f.elems x).getD i 0).testBit j = (decide (j < f.bits) && x.testBit (f.bits * i + j)) := by
  have : (f.elems x).getD i 0 = x / 2 ^ (f.bits * i) % 2 ^ f.bits := by simp [Fmt.elems, Fmt.elem, hi]
  rw [this, Nat.testBit_mod_two_pow, Nat.testBit_div_two_pow, Nat.add_comm]

/-- There is no element past the last. -/
theorem Fmt.elems_getD_of_ge (f : Fmt) (x : Nat) {i : Nat} (hi : f.count ≤ i) : (f.elems x).getD i 0 = 0 := by
  simp [Fmt.elems, hi]

/-! ### Integers as exact values -/

/-- A value is an integer. -/
def Num.IsInt (x : Num) (v : Int) : Prop := ∃ s m, x = .fin s m 0 ∧ signed s m = v

theorem Num.isInt_ofInt (v : Int) (z : Bool) : (Num.ofInt v 0 z).IsInt v := by
  by_cases h : v = 0
  · exact ⟨z, 0, by simp [Num.ofInt, h], by simp [signed, h]⟩
  · refine ⟨decide (v < 0), v.natAbs, by simp [Num.ofInt, h], ?_⟩
    by_cases hv : v < 0
    · simp [signed, hv, abs_of_neg hv]
    · simp [signed, hv, abs_of_nonneg (not_lt.mp hv)]

section
variable {x y z : Num} {a b c : Int} (hx : x.IsInt a) (hy : y.IsInt b) (hz : z.IsInt c)
include hx

theorem Num.IsInt.rat_eq : x.rat = a := by
  obtain ⟨s, m, rfl, h⟩ := hx
  rw [Num.rat_fin, ← h, cast_signed, zpow_zero, mul_one]

theorem Num.IsInt.isNaN_eq : x.isNaN = false := by
  obtain ⟨s, m, rfl, -⟩ := hx
  rfl

theorem Num.IsInt.negate : x.negate.IsInt (-a) := by
  obtain ⟨s, m, rfl, rfl⟩ := hx
  exact ⟨!s, m, rfl, by cases s <;> simp [signed]⟩

theorem Num.IsInt.abs : x.abs.IsInt |a| := by
  obtain ⟨s, m, rfl, rfl⟩ := hx
  exact ⟨false, m, rfl, by cases s <;> simp [signed]⟩

include hy

theorem Num.IsInt.cmp_eq : x.cmp y = compare a b := by
  obtain ⟨s, m, rfl, rfl⟩ := hx
  obtain ⟨t, n, rfl, rfl⟩ := hy
  simp [Num.cmp, scaleTo]

theorem Num.IsInt.add (rnd : Rnd) : ∃ r, x.add rnd y = (r, 0) ∧ r.IsInt (a + b) := by
  obtain ⟨s, m, rfl, rfl⟩ := hx
  obtain ⟨t, n, rfl, rfl⟩ := hy
  refine ⟨_, rfl, ?_⟩
  simpa [scaleTo] using Num.isInt_ofInt (signed s m + signed t n) (zeroSign rnd s t)

theorem Num.IsInt.mul : ∃ r, x.mul y = (r, 0) ∧ r.IsInt (a * b) := by
  obtain ⟨s, m, rfl, rfl⟩ := hx
  obtain ⟨t, n, rfl, rfl⟩ := hy
  refine ⟨_, rfl, s != t, m * n, by simp, ?_⟩
  cases s <;> cases t <;> simp [signed]

/-- The lesser, or greater, of two integers is one of the two. -/
theorem Num.IsInt.minMax (greater : Bool) : ∃ r, minMax greater x y = (r, 0) ∧ r.IsInt (if greater then max a b else min a b) ∧ (r = x ∨ r = y) := by
  simp only [Sys2Proof.minMax, hx.isNaN_eq, hy.isNaN_eq, hx.cmp_eq hy, Bool.or_self, Bool.false_eq_true, if_false]
  rcases lt_trichotomy a b with h | h | h
  · rw [compare_lt_iff_lt.mpr h]
    cases greater
    · exact ⟨x, rfl, by simpa [h.le] using hx, .inl rfl⟩
    · exact ⟨y, rfl, by simpa [h.le] using hy, .inr rfl⟩
  · subst h
    rw [compare_eq_iff_eq.mpr rfl, max_self, min_self, ite_self]
    by_cases h : ((x.neg && !y.neg) != greater) = true
    · exact ⟨x, by simp only [h, if_true], hx, .inl rfl⟩
    · exact ⟨y, by simp only [h, if_false, Bool.false_eq_true], hy, .inr rfl⟩
  · rw [compare_gt_iff_gt.mpr h]
    cases greater
    · exact ⟨y, rfl, by simpa [h.le] using hy, .inr rfl⟩
    · exact ⟨x, rfl, by simpa [h.le] using hx, .inl rfl⟩

include hz

theorem Num.IsInt.fma (rnd : Rnd) : ∃ r, x.fma rnd y z = (r, 0) ∧ r.IsInt (a * b + c) := by
  obtain ⟨p, hp, hpi⟩ := hx.mul hy
  obtain ⟨r, hr, hri⟩ := hpi.add hz rnd
  refine ⟨r, ?_, hri⟩
  simp [Num.fma, hx.isNaN_eq, hy.isNaN_eq, hz.isNaN_eq, hp, hpi.isNaN_eq, hr]
end

/-! ### The integer formats (02/R75, R76) -/

/-- What the model knows of an integer format: no float or tapered one, with the range and width of its shape. -/
structure IntFmt (f : Fmt) (w : Nat) (lo hi : Int) : Prop where
  float : f.float = none
  tapered : f.tapered = none
  range : f.intRange = some (lo, hi)
  bits : f.bits = w
  pos : 0 < w
  lo_le : -(2 ^ (w - 1)) ≤ lo ∧ lo ≤ 0
  hi_lt : hi < 2 ^ w ∧ 0 ≤ hi

theorem intFmt_of_shape {f : Fmt} {w : Nat} {lo hi : Int} (h : Claims.intShape f = some (w, lo, hi)) : IntFmt f w lo hi := by
  cases f <;> simp [Claims.intShape] at h <;> obtain ⟨rfl, rfl, rfl⟩ := h <;>
    exact ⟨rfl, rfl, rfl, rfl, by decide, by decide, by decide⟩

/-- Two's complement of the code of an element. -/
theorem toSigned_eq_toInt {n x : Nat} (hn : 0 < n) (hx : x < 2 ^ n) : toSigned n x = (BitVec.ofNat n x).toInt := by
  obtain ⟨k, rfl⟩ : ∃ k, n = k + 1 := ⟨n - 1, by omega⟩
  have half : 2 ^ (k + 1) = 2 * 2 ^ k := by rw [Nat.pow_succ, Nat.mul_comm]
  rw [BitVec.toInt_eq_toNat_cond, BitVec.toNat_ofNat, Nat.mod_eq_of_lt hx, toSigned, Nat.add_sub_cancel]
  by_cases h : x < 2 ^ k
  · rw [if_pos h, if_pos (by omega)]
  · rw [if_neg h, if_neg (by omega)]
    push_cast
    rfl

theorem value_of_int {f : Fmt} {w : Nat} {lo hi : Int} (h : Claims.intShape f = some (w, lo, hi)) {a : Nat} (ha : a < 2 ^ w) :
    f.value a = (Num.ofInt (Claims.intOf f w a) 0, Claims.intFlag f a) := by
  have code := toSigned_eq_toInt (intFmt_of_shape h).pos ha
  cases f <;> simp [Claims.intShape] at h <;> obtain ⟨rfl, rfl, rfl⟩ := h
  case s4x8 =>
    by_cases e : a = 8
    · simp [Fmt.value, Fmt.float, Fmt.tapered, Claims.intOf, Claims.intFlag, e, Num.ofInt]
    · simp [Fmt.value, Fmt.float, Fmt.tapered, Claims.intOf, Claims.intFlag, e, code]
  all_goals simp [Fmt.value, Fmt.float, Fmt.tapered, Claims.intOf, Claims.intFlag, Fmt.bits, code]

/-- The integer of an element's code. -/
theorem isInt_value {f : Fmt} {w : Nat} {lo hi : Int} (h : Claims.intShape f = some (w, lo, hi)) {a : Nat} (ha : a < 2 ^ w) :
    ∃ x, f.value a = (x, Claims.intFlag f a) ∧ x.IsInt (Claims.intOf f w a) := ⟨_, value_of_int h ha, Num.isInt_ofInt _ _⟩

/-- An integer is narrowed into an integer format. -/
theorem round_of_isInt {f : Fmt} {w : Nat} {lo hi : Int} (h : IntFmt f w lo hi) (rnd : Rnd) (sat : Bool) {x : Num} {v : Int} (hx : x.IsInt v) :
    f.round rnd sat false x = f.wrap sat v := by
  obtain ⟨s, m, rfl, rfl⟩ := hx
  simp [Fmt.round, h.float, h.tapered, shiftBy]

/-- Narrowing wraps, or saturates with `sat` and in S4. -/
theorem narrowed_wrap {f : Fmt} {w : Nat} {lo hi : Int} (h : IntFmt f w lo hi) (sat : Bool) (v : Int) :
    Claims.Narrowed f w lo hi sat v (f.wrap sat v) := by
  have order : lo ≤ hi := h.lo_le.2.trans h.hi_lt.2
  simp only [Fmt.wrap, h.range, h.bits]
  refine ⟨fun hv => if_neg ?_, fun hs => ⟨fun hv => ?_, fun hv => ?_⟩⟩
  · simp only [Bool.and_eq_true, Bool.or_eq_true, decide_eq_true_eq]
    rintro ⟨h1, h2⟩
    rcases hv with hv | ⟨hsat, hf⟩
    · omega
    · rcases h1 with h1 | h1
      · simp [hsat] at h1
      · exact hf h1
  · rw [if_pos (by simp [hs, hv]), min_eq_right (by omega), max_eq_left (by omega)]
  · rw [if_pos (by simp [hs, hv]), min_eq_left (by omega), max_eq_right (by omega)]

/-- A code's integer lies in what its width holds, and the code is what it wraps to, but for the reserved code of S4. -/
theorem wrap_intOf {f : Fmt} {w : Nat} {lo hi : Int} (h : Claims.intShape f = some (w, lo, hi)) (hf : f ≠ .s4x8) {a : Nat} (ha : a < 2 ^ w)
    (sat : Bool) : f.wrap sat (Claims.intOf f w a) = (a, 0) := by
  obtain ⟨h1, -⟩ := narrowed_wrap (intFmt_of_shape h) sat (Claims.intOf f w a)
  have hpos := (intFmt_of_shape h).pos
  have range : lo ≤ Claims.intOf f w a ∧ Claims.intOf f w a ≤ hi ∧ (Claims.intOf f w a % 2 ^ w).toNat = a := by
    have code := toSigned_eq_toInt hpos ha
    cases f <;> simp [Claims.intShape] at h hf <;> obtain ⟨rfl, rfl, rfl⟩ := h
    case n32 =>
      simp only [Claims.intOf, if_true]
      omega
    all_goals
      simp only [Claims.intOf, ← code, toSigned, if_false, reduceCtorEq, false_and]
      split <;> omega
  rw [h1 (.inl ⟨range.1, range.2.1⟩), range.2.2]

/-! ### Rounding to an integer (02/R67) -/

/-- A magnitude of whole units and a part of one, rounded away or not, is rounded to an integer. -/
theorem roundsToInt_of_units {rnd : Rnd} {a r : Nat} {t : ℚ} (neg : Bool) (h0 : 0 ≤ t) (h1 : t < 1)
    (h : r = a + 1 ∧ RoundsAway rnd neg a t ∨ r = a ∧ ¬ RoundsAway rnd neg a t) :
    Claims.RoundsToInt rnd (withSign neg (a + t)) (signed neg r) ∧ (t ≠ 0 ↔ withSign neg (a + t) ≠ (signed neg r : Int)) := by
  have dist : |withSign neg (a + t) - (signed neg r : Int)| = |(a + t : ℚ) - r| := by
    rw [cast_signed]
    cases neg
    · rfl
    · rw [← abs_neg]
      simp [withSign]
      congr 1
      ring
  have away (h : r = a + 1) : |(a + t : ℚ) - r| = 1 - t := by
    rw [h, abs_of_nonpos (by push_cast; linarith)]
    push_cast
    ring
  have down (h : r = a) : |(a + t : ℚ) - r| = t := by
    rw [h, abs_of_nonneg (by linarith)]
    ring
  refine ⟨?_, ?_⟩
  · cases rnd
    case rne =>
      show _ < _ ∨ _
      rw [dist]
      rcases h with ⟨h, ha | ⟨rfl, ha⟩⟩ | ⟨h, ha⟩
      · exact .inl (by rw [away h]; linarith)
      · exact .inr ⟨by rw [away h]; norm_num, by cases neg <;> simp [signed] <;> omega⟩
      · rw [down h]
        rcases lt_trichotomy t (1 / 2) with ht | rfl | ht
        · exact .inl ht
        · have even : ¬ a % 2 = 1 := fun e => ha (.inr ⟨rfl, e⟩)
          exact .inr ⟨rfl, by cases neg <;> simp [signed] <;> omega⟩
        · exact absurd (.inl ht) ha
    case rz =>
      obtain ⟨-, ⟨⟩⟩ | ⟨rfl, -⟩ := h
      have h2 : (0 : ℚ) ≤ r := Nat.cast_nonneg r
      rw [Claims.RoundsToInt, cast_signed, abs_withSign h2, abs_withSign (by linarith), ← withSign_bne, bne_self_eq_false]
      exact ⟨by linarith, by linarith, mul_nonneg h2 (by linarith)⟩
    case ru =>
      rw [Claims.RoundsToInt, cast_signed]
      rcases h with ⟨rfl, rfl, ht⟩ | ⟨rfl, ha⟩
      · have : 0 < t := lt_of_le_of_ne h0 (Ne.symm ht)
        simp only [withSign, Bool.false_eq_true, if_false, Nat.cast_add, Nat.cast_one]
        exact ⟨by linarith, by linarith⟩
      · cases neg
        · have : t = 0 := by_contra fun e => ha ⟨rfl, e⟩
          simp [withSign, this]
        · simp only [withSign, if_true]
          exact ⟨by linarith, by linarith⟩
    case rd =>
      rw [Claims.RoundsToInt, cast_signed]
      rcases h with ⟨rfl, rfl, ht⟩ | ⟨rfl, ha⟩
      · have : 0 < t := lt_of_le_of_ne h0 (Ne.symm ht)
        simp only [withSign, if_true, Nat.cast_add, Nat.cast_one]
        exact ⟨by linarith, by linarith⟩
      · cases neg
        · simp only [withSign, Bool.false_eq_true, if_false]
          exact ⟨by linarith, by linarith⟩
        · have : t = 0 := by_contra fun e => ha ⟨rfl, e⟩
          simp [withSign, this]
  · rw [← sub_ne_zero (a := withSign neg _), ← abs_ne_zero (a := withSign neg _ - _), dist]
    rcases h with ⟨h, ha⟩ | ⟨h, -⟩
    · have ht : t ≠ 0 := fun e => not_roundsAway_zero _ _ _ (e ▸ ha)
      rw [away h]
      exact iff_of_true ht (by linarith)
    · rw [down h]

/-- A finite value is rounded to an integer, and inexact when it is none. -/
theorem integerOf_spec (rnd : Rnd) (neg : Bool) (m : Nat) (e : Int) :
    Claims.RoundsToInt rnd (withSign neg (m * 2 ^ e)) (integerOf rnd neg m e).1 ∧
      ((integerOf rnd neg m e).2 = true ↔ withSign neg (m * 2 ^ e) ≠ (integerOf rnd neg m e).1) := by
  obtain ⟨a, t, h0, h1, hx, hinex, h⟩ := roundAt_spec rnd neg m e 0
  obtain ⟨hr, hne⟩ := roundsToInt_of_units neg h0 h1 h
  rw [zpow_zero, mul_one] at hx
  rw [hx]
  exact ⟨hr, hinex.trans hne⟩

/-- Two integers that a rational rounds to, to the nearest with ties to the even one, are not in order. -/
theorem not_lt_of_roundsToNearest {q : ℚ} {v u : Int} (hv : Claims.RoundsToInt .rne q v) (hu : Claims.RoundsToInt .rne q u) : ¬ v < u := by
  intro h
  have le {x : Int} (hx : Claims.RoundsToInt .rne q x) : -(1 / 2) ≤ q - x ∧ q - x ≤ 1 / 2 :=
    abs_le.mp (by rcases hx with hx | hx <;> [exact hx.le; exact hx.1.le])
  have even {x : Int} (hx : Claims.RoundsToInt .rne q x) (e : |q - x| = 1 / 2) : x % 2 = 0 :=
    hx.elim (fun h => absurd e h.ne) fun h => h.2
  have step : (v : ℚ) + 1 ≤ u := by exact_mod_cast h
  obtain ⟨-, hv2⟩ := le hv
  obtain ⟨hu1, -⟩ := le hu
  have ev := even hv (by rw [show q - v = 1 / 2 by linarith]; norm_num)
  have eu := even hu (by rw [show q - u = -(1 / 2) by linarith]; norm_num)
  have : u = v + 1 := by
    have : (u : ℚ) = v + 1 := by linarith
    exact_mod_cast this
  omega

/-- A rational rounds to one integer only. -/
theorem roundsToInt_unique {rnd : Rnd} {q : ℚ} {v u : Int} (hv : Claims.RoundsToInt rnd q v) (hu : Claims.RoundsToInt rnd q u) : v = u := by
  have near {a b : Int} (h : (a : ℚ) < b + 1) : a ≤ b := Int.lt_add_one_iff.mp (by exact_mod_cast h)
  cases rnd
  case rne => exact le_antisymm (not_lt.mp (not_lt_of_roundsToNearest hu hv)) (not_lt.mp (not_lt_of_roundsToNearest hv hu))
  case rz =>
    obtain ⟨v1, v2, v3⟩ := hv
    obtain ⟨u1, u2, u3⟩ := hu
    have size : |v| = |u| := le_antisymm (near (by push_cast; linarith)) (near (by push_cast; linarith))
    rcases abs_eq_abs.mp size with h | h
    · exact h
    · subst h
      push_cast at v3
      have zero : (u : ℚ) * q = 0 := by linarith
      rcases mul_eq_zero.mp zero with h | h
      · obtain rfl : u = 0 := by exact_mod_cast h
        rfl
      · rw [h, abs_zero, abs_nonpos_iff] at u1
        obtain rfl : u = 0 := by exact_mod_cast u1
        rfl
  case ru => exact le_antisymm (near (by linarith [hv.2, hu.1])) (near (by linarith [hv.1, hu.2]))
  case rd => exact le_antisymm (near (by linarith [hv.1, hu.2])) (near (by linarith [hv.2, hu.1]))

/-- A float or tapered value into an integer format: its integer, or the nearest one of the range with IV. -/
theorem round_of_fin {f : Fmt} {w : Nat} {lo hi : Int} (h : IntFmt f w lo hi) {rnd : Rnd} (sat neg : Bool) {m : Nat} {e v : Int}
    (hv : Claims.RoundsToInt rnd (withSign neg (m * 2 ^ e)) v) :
    f.round rnd sat true (.fin neg m e) =
      if v < lo then ((lo % 2 ^ w).toNat, fIV) else if hi < v then ((hi % 2 ^ w).toNat, fIV)
      else ((v % 2 ^ w).toNat, if withSign neg (m * 2 ^ e) = v then 0 else fNX) := by
  obtain ⟨hr, hne⟩ := integerOf_spec rnd neg m e
  obtain rfl := roundsToInt_unique hr hv
  have flag : flagIf (integerOf rnd neg m e).2 fNX = if withSign neg (m * 2 ^ e) = (integerOf rnd neg m e).1 then 0 else fNX := by
    by_cases hq : withSign neg (m * 2 ^ e) = (integerOf rnd neg m e).1
    · rw [if_pos hq, Bool.eq_false_iff.mpr fun h => hne.mp h hq]
      rfl
    · rw [if_neg hq, hne.mpr hq]
      rfl
  simp only [Fmt.round, h.float, h.tapered, if_true, Fmt.toInt, h.range, h.bits, flag]

end Sys2Proof

namespace Sys2Proof.Machine

/-! ### Element operations of the integer formats (05/R159) -/

/-- The exact result of an operation on the values of its operands. -/
def NumOp.exact (o : NumOp) (rnd : Rnd) (x y z : Num) : Num × Flags :=
  match o with
  | .add => x.add rnd y
  | .sub => x.add rnd y.negate
  | .mul => x.mul y
  | .fma | .mad => x.fma rnd y z
  | .min => minMax false x y
  | .max => minMax true x y
  | .abs => (x.abs, 0)
  | .neg => (x.negate, 0)
  | .mulhi => (.fin false 0 0, 0)

/-- Whether an operation saturates when its instruction asks for it: VMIN and VMAX do not. -/
abbrev NumOp.saturates (o : NumOp) (sat : Bool) : Bool := sat && o != .min && o != .max

/-- One element of an operation other than VMULHI: its exact result rounded, with the flags of the operands. -/
theorem NumOp.elem_eq {o : NumOp} {f : Fmt} {rnd : Rnd} {sat : Bool} {a b c : Nat} {x y z r : Num} {fx fy fz fr : Flags}
    (hx : f.value a = (x, fx)) (hy : f.value b = (y, fy)) (hz : f.value c = (z, fz)) (ho : o ≠ .mulhi)
    (hr : o.exact rnd x y z = (r, fr)) :
    o.elem f rnd sat a b c = ((f.round rnd (o.saturates sat) false r).1,
      (f.round rnd (o.saturates sat) false r).2 ||| fr ||| ((fx ||| if o.unary then 0 else fy) ||| if o.ternary then fz else 0)) := by
  cases o <;> simp_all [NumOp.elem, NumOp.exact, NumOp.saturates]

/-- The exact result of an operation on integers. -/
theorem NumOp.exact_isInt {o : NumOp} (ho : o ≠ .mulhi) (rnd : Rnd) {x y z : Num} {a b c : Int} (hx : x.IsInt a) (hy : y.IsInt b) (hz : z.IsInt c) :
    ∃ r, o.exact rnd x y z = (r, 0) ∧ r.IsInt (Claims.exactInt o a b c) := by
  cases o with
  | add => exact hx.add hy rnd
  | sub =>
    obtain ⟨r, hr, hi⟩ := hx.add hy.negate rnd
    exact ⟨r, hr, by simpa [Claims.exactInt, sub_eq_add_neg] using hi⟩
  | mul => exact hx.mul hy
  | fma | mad => exact hx.fma hy hz rnd
  | mulhi => exact absurd rfl ho
  | min =>
    obtain ⟨r, hr, hi, -⟩ := hx.minMax hy false
    exact ⟨r, hr, hi⟩
  | max =>
    obtain ⟨r, hr, hi, -⟩ := hx.minMax hy true
    exact ⟨r, hr, hi⟩
  | abs => exact ⟨_, rfl, hx.abs⟩
  | neg => exact ⟨_, rfl, hx.negate⟩

/-- One element of an operation of an integer format: its exact integer, narrowed. -/
theorem NumOp.elem_int {o : NumOp} {f : Fmt} {w : Nat} {lo hi : Int} (h : Claims.intShape f = some (w, lo, hi)) (ho : o ≠ .mulhi) (rnd : Rnd)
    (sat : Bool) {a b c : Nat} (ha : a < 2 ^ w) (hb : b < 2 ^ w) (hc : c < 2 ^ w) :
    let r := f.wrap (o.saturates sat) (Claims.exactInt o (Claims.intOf f w a) (Claims.intOf f w b) (Claims.intOf f w c))
    o.elem f rnd sat a b c = (r.1, r.2 |||
      ((Claims.intFlag f a ||| if o.unary then 0 else Claims.intFlag f b) ||| if o.ternary then Claims.intFlag f c else 0)) := by
  obtain ⟨x, hx, hxi⟩ := isInt_value h ha
  obtain ⟨y, hy, hyi⟩ := isInt_value h hb
  obtain ⟨z, hz, hzi⟩ := isInt_value h hc
  obtain ⟨r, hr, hri⟩ := NumOp.exact_isInt ho rnd hxi hyi hzi
  simp only [NumOp.elem_eq hx hy hz ho hr, round_of_isInt (intFmt_of_shape h) rnd _ hri, BitVec.ofNat_eq_ofNat, BitVec.or_zero]

end Sys2Proof.Machine

namespace Sys2Proof.Claims
open Sys2Proof.Machine

/-! ### O23 -/

theorem elementPlacement : ElementPlacement := by
  intro f count width h
  obtain ⟨rfl, rfl⟩ : count = f.count ∧ width = f.bits := by
    simp only [List.mem_cons, List.not_mem_nil, or_false, Prod.mk.injEq] at h
    rcases h with h | h | h | h | h | h | h | h | h | h | h | h | h | h | h <;> obtain ⟨rfl, rfl, rfl⟩ := h <;> exact ⟨rfl, rfl⟩
  refine ⟨fun x i j hi hj => ?_, fun x i j hj => ?_, fun es hl he => Fmt.elems_pack hl he⟩
  · rw [Fmt.testBit_elems f x j hi, decide_eq_true hj, Bool.true_and]
  · rcases Nat.lt_or_ge i f.count with hi | hi
    · rw [Fmt.testBit_elems f x j hi, decide_eq_false (Nat.not_lt.mpr hj), Bool.false_and]
    · rw [Fmt.elems_getD_of_ge f x hi, Nat.zero_testBit]

theorem packedIntegers : PackedIntegers := by
  intro f w lo hi h o rnd sat a b c ho ha hb hc
  refine ⟨_, narrowed_wrap (intFmt_of_shape h) _ _, ?_⟩
  rw [NumOp.elem_int h ho rnd sat ha hb hc]
  cases o <;> simp [NumOp.unary, NumOp.ternary, NumOp.saturates]

theorem integerConversions : IntegerConversions := by
  refine ⟨fun f w lo hi h => ?_, fun u z _ _ => ?_⟩
  · have hf := intFmt_of_shape h
    refine ⟨fun a ha => ?_, fun rnd sat neg m => ?_, fun rnd sat neg m e v hv => ?_, fun rnd sat sig => ?_⟩
    · obtain ⟨x, hx, s, m, rfl, hm⟩ := isInt_value h ha
      exact ⟨s, m, hx, hm⟩
    · rw [round_of_isInt hf rnd sat ⟨neg, m, rfl, rfl⟩]
      exact narrowed_wrap hf sat _
    · rw [round_of_fin hf sat neg hv]
      have := hf.lo_le.2.trans hf.hi_lt.2
      refine ⟨fun hlt => if_pos hlt, fun hlt => ?_, fun h1 h2 => ?_⟩
      · rw [if_neg (by omega), if_pos hlt]
      · rw [if_neg (by omega), if_neg (by omega)]
    · simp [Fmt.round, hf.float, hf.tapered, Fmt.toInt, hf.range, hf.bits]
  · obtain ⟨s, m, e, hm⟩ := Num.isInt_ofInt ((u : Int) - z) false
    exact ⟨s, m, congrArg (·, 0) e, hm⟩

/-- VMULHI of a 32-bit word, by its unsigned or signed product. -/
theorem mulhi_word (a b c : Word) :
    NumOp.mulhi.elem .n32 .rne false a.toNat b.toNat c.toNat = ((BitVec.ofNat 32 (a.toNat * b.toNat / 2 ^ 32)).toNat, 0) ∧
    NumOp.mulhi.elem .s32 .rne false a.toNat b.toNat c.toNat = ((BitVec.ofInt 32 (a.toInt * b.toInt / 2 ^ 32)).toNat, 0) := by
  have code (x : Word) : toSigned 32 x.toNat = x.toInt := by
    rw [toSigned_eq_toInt (by decide) x.isLt, BitVec.ofNat_toNat, BitVec.setWidth_eq]
  refine ⟨?_, ?_⟩
  · have : a.toNat * b.toNat / 2 ^ 32 < 2 ^ 32 := Nat.div_lt_of_lt_mul (Nat.mul_lt_mul'' a.isLt b.isLt)
    simp only [NumOp.elem, mulhiBits, reduceCtorEq, if_false, if_true]
    rw [BitVec.toNat_ofNat, Nat.mod_eq_of_lt this]
  · simp only [NumOp.elem, mulhiBits, if_true, code, BitVec.toNat_ofInt]
    norm_num

/-- The integer of a word: unsigned for N32, two's complement for S32. -/
theorem intOf_word (a : Word) : intOf .n32 32 a.toNat = a.toNat ∧ intOf .s32 32 a.toNat = a.toInt := by
  simp [intOf]

/-- An operation that wraps in 32 bits. -/
theorem elem_word {o : NumOp} {f : Fmt} (hf : f = .n32 ∨ f = .s32) (ho : o ≠ .mulhi) (a b c : Word) {x : Word}
    (hx : BitVec.ofInt 32 (exactInt o (intOf f 32 a.toNat) (intOf f 32 b.toNat) (intOf f 32 c.toNat)) = x) :
    o.elem f .rne false a.toNat b.toNat c.toNat = (x.toNat, 0) := by
  obtain ⟨lo, hi, h, hne⟩ : ∃ lo hi, intShape f = some (32, lo, hi) ∧ f ≠ .s4x8 := by
    rcases hf with rfl | rfl <;> exact ⟨_, _, rfl, by decide⟩
  obtain ⟨wraps, -⟩ := narrowed_wrap (intFmt_of_shape h) false (exactInt o (intOf f 32 a.toNat) (intOf f 32 b.toNat) (intOf f 32 c.toNat))
  have flag (y : Nat) : intFlag f y = 0 := if_neg fun e => hne e.1
  have code : (exactInt o (intOf f 32 a.toNat) (intOf f 32 b.toNat) (intOf f 32 c.toNat) % 2 ^ 32).toNat = x.toNat := by
    rw [← hx, BitVec.toNat_ofInt]
    rfl
  rw [NumOp.elem_int h ho .rne false a.isLt b.isLt c.isLt]
  simp [NumOp.saturates, wraps (.inr ⟨rfl, hne⟩), flag, ← code]

/-- VADD of S32 with sat = 1. -/
theorem add_saturates (a b c : Word) :
    Narrowed .s32 32 (-(2 ^ 31)) (2 ^ 31 - 1) true (a.toInt + b.toInt) (NumOp.add.elem .s32 .rne true a.toNat b.toNat c.toNat) := by
  have h : intShape .s32 = some (32, -(2 ^ 31), 2 ^ 31 - 1) := rfl
  have := narrowed_wrap (intFmt_of_shape h) true (a.toInt + b.toInt)
  rw [NumOp.elem_int h (by decide) .rne true a.isLt b.isLt c.isLt]
  have sat : NumOp.add.saturates true = true := rfl
  simpa [sat, exactInt, intOf_word, intFlag, NumOp.unary, NumOp.ternary] using this

theorem sub_word (x y : Int) : BitVec.ofInt 32 (x - y) = BitVec.ofInt 32 x - BitVec.ofInt 32 y := by
  rw [sub_eq_add_neg, BitVec.ofInt_add, BitVec.ofInt_neg, BitVec.sub_eq_add_neg]

theorem integerWords : IntegerElements := by
  intro a b c
  obtain ⟨na, sa⟩ := intOf_word a
  obtain ⟨nb, sb⟩ := intOf_word b
  obtain ⟨nc, sc⟩ := intOf_word c
  obtain ⟨mulhiN, mulhiS⟩ := mulhi_word a b c
  have n {o : NumOp} {x : Word} (ho : o ≠ .mulhi) (hx : BitVec.ofInt 32 (exactInt o a.toNat b.toNat c.toNat) = x) :
      o.elem .n32 .rne false a.toNat b.toNat c.toNat = (x.toNat, 0) := elem_word (.inl rfl) ho a b c (by rwa [na, nb, nc])
  have z {o : NumOp} {x : Word} (ho : o ≠ .mulhi) (hx : BitVec.ofInt 32 (exactInt o a.toInt b.toInt c.toInt) = x) :
      o.elem .s32 .rne false a.toNat b.toNat c.toNat = (x.toNat, 0) := elem_word (.inr rfl) ho a b c (by rwa [sa, sb, sc])
  obtain ⟨-, sat⟩ := add_saturates a b c
  obtain ⟨low, high⟩ := sat (.inl rfl)
  refine ⟨⟨n (by decide) ?_, n (by decide) ?_, n (by decide) ?_, n (by decide) ?_, mulhiN, n (by decide) ?_, n (by decide) ?_⟩,
    ⟨z (by decide) ?_, z (by decide) ?_, z (by decide) ?_, z (by decide) ?_, mulhiS, z (by decide) ?_, z (by decide) ?_, z (by decide) ?_,
      z (by decide) ?_⟩, fun h => high (by omega), fun h => low (by omega)⟩
  all_goals simp only [exactInt, BitVec.ofInt_add, BitVec.ofInt_mul, BitVec.ofInt_toInt, BitVec.ofInt_natCast, BitVec.ofNat_toNat, BitVec.setWidth_eq]
  · rw [sub_word, BitVec.ofInt_natCast, BitVec.ofInt_natCast, BitVec.ofNat_toNat, BitVec.ofNat_toNat, BitVec.setWidth_eq, BitVec.setWidth_eq]
  · rw [← Nat.cast_min, BitVec.ofInt_natCast]
  · rw [← Nat.cast_max, BitVec.ofInt_natCast]
  · rw [sub_word, BitVec.ofInt_toInt, BitVec.ofInt_toInt]
  · rw [BitVec.ofInt_neg, BitVec.ofInt_toInt]
  · split
    · next h => rw [abs_of_neg h, BitVec.ofInt_neg, BitVec.ofInt_toInt]
    · next h => rw [abs_of_nonneg (not_lt.mp h), BitVec.ofInt_toInt]

/-- Settles O23: an integer is computed exactly and narrowed by `Fmt.wrap`, or rounded to the one integer that 02/R67 names. -/
theorem integerElements : Obligations.IntegerElements := ⟨integerWords, elementPlacement, packedIntegers, integerConversions⟩

end Sys2Proof.Claims
end

section
/-! SUPPORT for the float formats: their codes as rationals, in order, and what a code reads as (02/R64 to R66, R69). -/

namespace Sys2Proof.Claims

/-! ### The codes of a shape -/

/-- The exponent of the least magnitude of a shape. -/
def Shape.qmin (h : Shape) : Int := 1 - h.bias - h.fb

/-- The value of the code at `sig` units in binade `i`: subnormal codes stand in binade 0, and a significand may reach the next binade. -/
theorem Shape.val_binade (h : Shape) {i sig : Nat} (hs : sig ≤ 2 ^ (h.fb + 1)) (hi : i = 0 ∨ 2 ^ h.fb ≤ sig) :
    h.val (i * 2 ^ h.fb + sig) = sig * 2 ^ (h.qmin + i) := by
  have hp : 0 < 2 ^ h.fb := Nat.two_pow_pos _
  rw [pow_succ] at hs
  by_cases hlt : sig < 2 ^ h.fb
  · obtain rfl : i = 0 := hi.resolve_right (Nat.not_le.mpr hlt)
    simp [Shape.val, hlt, Shape.qmin]
  · obtain ⟨r, rfl⟩ : ∃ r, sig = 2 ^ h.fb + r := ⟨sig - 2 ^ h.fb, by omega⟩
    have e : i * 2 ^ h.fb + (2 ^ h.fb + r) = r + 2 ^ h.fb * (i + 1) := by ring
    rw [Shape.val, if_neg (by omega), e, Nat.add_mul_mod_self_left, Nat.add_mul_div_left _ _ hp]
    rcases Nat.lt_or_ge r (2 ^ h.fb) with hr | hr
    · rw [Nat.mod_eq_of_lt hr, Nat.div_eq_of_lt hr, Shape.qmin]
      push_cast
      congr 2
      ring
    · obtain rfl : r = 2 ^ h.fb := by omega
      rw [Nat.mod_self, Nat.div_self hp, Shape.qmin, show ((1 + (i + 1) : Nat) : Int) - h.bias - h.fb = 1 + (1 - h.bias - h.fb + i) by push_cast; ring,
        zpow_add₀ two_ne_zero]
      push_cast
      ring

/-- Every code stands in one binade, at less than the significand of the next. -/
theorem Shape.binade (h : Shape) (k : Nat) : ∃ i sig, k = i * 2 ^ h.fb + sig ∧ sig < 2 ^ (h.fb + 1) ∧ (i = 0 ∨ 2 ^ h.fb ≤ sig) := by
  have hp : 0 < 2 ^ h.fb := Nat.two_pow_pos _
  rw [pow_succ]
  by_cases hk : k < 2 ^ h.fb
  · exact ⟨0, k, by simp, by omega, .inl rfl⟩
  · have hm := Nat.mod_lt k hp
    have hd : k / 2 ^ h.fb ≠ 0 := (Nat.div_pos (by omega) hp).ne'
    obtain ⟨j, hj⟩ := Nat.exists_eq_succ_of_ne_zero hd
    refine ⟨j, 2 ^ h.fb + k % 2 ^ h.fb, ?_, by omega, .inr (by omega)⟩
    have := Nat.div_add_mod k (2 ^ h.fb)
    rw [hj, Nat.mul_succ] at this
    rw [Nat.mul_comm j]
    omega

/-- The distance of a code's value from the next is a unit of its binade. -/
theorem Shape.val_succ (h : Shape) {i sig : Nat} (hs : sig < 2 ^ (h.fb + 1)) (hi : i = 0 ∨ 2 ^ h.fb ≤ sig) :
    h.val (i * 2 ^ h.fb + sig + 1) = (sig + 1) * 2 ^ (h.qmin + i) := by
  rw [Nat.add_assoc, h.val_binade hs (hi.imp_right Nat.le_succ_of_le), Nat.cast_add_one]

theorem Shape.val_strictMono (h : Shape) : StrictMono h.val := by
  refine strictMono_nat_of_lt_succ fun k => ?_
  obtain ⟨i, sig, rfl, hs, hi⟩ := h.binade k
  rw [h.val_succ hs hi, h.val_binade hs.le hi]
  exact mul_lt_mul_of_pos_right (lt_add_one _) (two_zpow_pos _)

@[simp] theorem Shape.val_zero (h : Shape) : h.val 0 = 0 := by simp [Shape.val]

theorem Shape.val_nonneg (h : Shape) (k : Nat) : 0 ≤ h.val k := by
  rw [← h.val_zero]
  exact h.val_strictMono.monotone (Nat.zero_le k)

theorem Shape.val_eq_zero (h : Shape) {k : Nat} : h.val k = 0 ↔ k = 0 := by
  rw [← h.val_zero, h.val_strictMono.injective.eq_iff]

/-! ### The float formats -/

/-- What the model knows of a float format, by the fields of its shape. -/
structure FloatOf (f : Fmt) (ff : FloatFmt) (h : Shape) : Prop where
  float : f.float = some ff
  prec : ff.prec = h.fb + 1
  fb : 2 ≤ h.fb
  eb : (if ff = .e4m3 then 4 else Nat.log2 (ff.emax - ff.emin + 3).toNat) = h.eb
  emin : ff.emin = 1 - h.bias
  e4m3 : ff = .e4m3 ↔ f = .e4m3x4
  top_units : (top f h : Int) = (ff.maxQ - h.qmin) * 2 ^ h.fb + ff.maxSig + 1
  maxQ : h.qmin < ff.maxQ
  maxSig : 2 ^ h.fb ≤ ff.maxSig ∧ ff.maxSig < 2 ^ (h.fb + 1)
  nan : ff.nanBits = canonicalNaN f
  last_code : f = .e4m3x4 → top f h = 127 ∧ h.eb + h.fb = 7
  top_eq : f ≠ .e4m3x4 → top f h = (2 ^ h.eb - 1) * 2 ^ h.fb
  small : top f h < 2 ^ (h.eb + h.fb)

theorem floatOf_of_shape {f : Fmt} {h : Shape} (hs : shape f = some h) : ∃ ff, FloatOf f ff h := by
  cases f <;> simp [shape] at hs <;> subst hs <;> refine ⟨_, rfl, ?_, ?_, ?_, ?_, ?_, ?_, ?_, ?_, ?_, ?_, ?_, ?_⟩ <;> decide

/-! ### What a code reads as -/

/-- The fields of a code: fraction, exponent and sign. -/
theorem Shape.code_fields (h : Shape) (neg : Bool) {k : Nat} (hk : k < 2 ^ (h.eb + h.fb)) :
    h.code neg k % 2 ^ h.fb = k % 2 ^ h.fb ∧ h.code neg k / 2 ^ h.fb % 2 ^ h.eb = k / 2 ^ h.fb ∧
      (h.code neg k / 2 ^ (h.eb + h.fb) % 2 == 1) = neg := by
  have hp : 0 < 2 ^ h.fb := Nat.two_pow_pos _
  have hd : k / 2 ^ h.fb < 2 ^ h.eb := Nat.div_lt_of_lt_mul (by rwa [← pow_add, Nat.add_comm h.fb])
  cases neg with
  | false =>
    have : h.code false k = k := by simp [Shape.code]
    rw [this, Nat.mod_eq_of_lt hd, Nat.div_eq_of_lt hk]
    exact ⟨rfl, rfl, rfl⟩
  | true =>
    have e : h.code true k = k + 2 ^ h.fb * 2 ^ h.eb := by rw [Shape.code, if_pos rfl, pow_add]; ring
    refine ⟨by rw [e, Nat.add_mul_mod_self_left], ?_, ?_⟩
    · rw [e, Nat.add_mul_div_left _ _ hp, Nat.add_mod_right, Nat.mod_eq_of_lt hd]
    · rw [Shape.code, if_pos rfl, Nat.add_comm, Nat.add_div_right _ (Nat.two_pow_pos _), Nat.div_eq_of_lt hk]
      rfl

section
variable {f : Fmt} {ff : FloatFmt} {h : Shape} (hf : FloatOf f ff h)
include hf

theorem FloatOf.value_eq (a : Nat) : f.value a = (ff.read a, 0) := by simp [Fmt.value, hf.float]

/-- The fields that the model takes from a code's bits. -/
theorem FloatOf.fields (neg : Bool) {k : Nat} (hk : k < 2 ^ (h.eb + h.fb)) :
    let expBits := if ff = .e4m3 then 4 else Nat.log2 (ff.emax - ff.emin + 3).toNat
    h.code neg k % 2 ^ (ff.prec - 1) = k % 2 ^ h.fb ∧ h.code neg k / 2 ^ (ff.prec - 1) % 2 ^ expBits = k / 2 ^ h.fb ∧
      (h.code neg k / 2 ^ (expBits + ff.prec - 1) % 2 == 1) = neg ∧ expBits = h.eb := by
  rw [hf.eb, hf.prec, Nat.add_sub_cancel]
  exact ⟨(h.code_fields neg hk).1, (h.code_fields neg hk).2.1, (h.code_fields neg hk).2.2, rfl⟩

/-- A format with infinities reads the exponent of ones as an infinity or a NaN, and every other code as a finite value. -/
theorem FloatOf.read_code (he : f ≠ .e4m3x4) (neg : Bool) {k : Nat} (hk : k < 2 ^ (h.eb + h.fb)) :
    ff.read (h.code neg k) =
      if k / 2 ^ h.fb = 2 ^ h.eb - 1 then (if k % 2 ^ h.fb = 0 then .inf neg else .nan (k % 2 ^ h.fb / 2 ^ (h.fb - 1) % 2 == 0))
      else if k / 2 ^ h.fb = 0 then .fin neg (k % 2 ^ h.fb) (if k % 2 ^ h.fb = 0 then 0 else h.qmin)
      else .fin neg (2 ^ h.fb + k % 2 ^ h.fb) (h.qmin + (k / 2 ^ h.fb : Nat) - 1) := by
  obtain ⟨frac, ex, sign, eb⟩ := hf.fields neg hk
  have least : ff.emin - (ff.prec - 1 : Nat) = h.qmin := by rw [hf.emin, hf.prec]; rfl
  have exponent : ff.emin + (k / 2 ^ h.fb : Nat) - 1 - (ff.prec - 1 : Nat) = h.qmin + (k / 2 ^ h.fb : Nat) - 1 := by
    rw [← least]
    ring
  have quiet : ff.prec - 2 = h.fb - 1 := by rw [hf.prec]; rfl
  simp only [FloatFmt.read, frac, ex, sign, least, exponent, quiet]
  rw [if_neg (mt hf.e4m3.mp he), eb, hf.prec, Nat.add_sub_cancel]

/-- E4M3 reads its last code as a NaN and every other as a finite value. -/
theorem FloatOf.read_code_e4m3 (he : f = .e4m3x4) (neg : Bool) {k : Nat} (hk : k < 2 ^ (h.eb + h.fb)) :
    ff.read (h.code neg k) =
      if k = 127 then .nan false
      else if k / 2 ^ h.fb = 0 then .fin neg (k % 2 ^ h.fb) (if k % 2 ^ h.fb = 0 then 0 else h.qmin)
      else .fin neg (2 ^ h.fb + k % 2 ^ h.fb) (h.qmin + (k / 2 ^ h.fb : Nat) - 1) := by
  obtain rfl := hf.e4m3.mpr he
  obtain ⟨eb, fb, bias⟩ := h
  obtain ⟨rfl, rfl, rfl⟩ : 4 = eb ∧ 3 = fb ∧ 7 = bias := by
    refine ⟨hf.eb, Nat.succ.inj hf.prec, ?_⟩
    have := hf.emin
    simp only [FloatFmt.e4m3] at this
    omega
  have whole : Shape.code ⟨4, 3, 7⟩ neg k % 128 = k := by
    have : k < 128 := hk
    cases neg <;> simp [Shape.code] <;> omega
  obtain ⟨frac, ex, sign⟩ := Shape.code_fields ⟨4, 3, 7⟩ neg hk
  have sign' : (Shape.code ⟨4, 3, 7⟩ neg k / 2 ^ (4 + (3 + 1) - 1) % 2 == 1) = neg := sign
  have prec : FloatFmt.e4m3.prec = 3 + 1 := rfl
  have least : (1 : Int) - (7 : Nat) - (3 : Nat) = -9 := rfl
  have exponent : (-9 : Int) + (k / 2 ^ 3 : Nat) - 1 = (k / 2 ^ 3 : Nat) - 10 := by ring
  simp only [FloatFmt.read, prec, whole, if_true, Nat.add_sub_cancel, frac, ex, sign', Shape.qmin, least, exponent]
  rfl

/-- A code of the finite ones reads as its value. -/
theorem FloatOf.finite_code (neg : Bool) {k : Nat} (hk : k < top f h) : Finite f (h.code neg k) neg (withSign neg (h.val k)) := by
  have hlt : k < 2 ^ (h.eb + h.fb) := hk.trans hf.small
  have read : ff.read (h.code neg k) =
      if k / 2 ^ h.fb = 0 then .fin neg (k % 2 ^ h.fb) (if k % 2 ^ h.fb = 0 then 0 else h.qmin)
      else .fin neg (2 ^ h.fb + k % 2 ^ h.fb) (h.qmin + (k / 2 ^ h.fb : Nat) - 1) := by
    by_cases he : f = .e4m3x4
    · rw [hf.read_code_e4m3 he neg hlt, if_neg]
      exact ((hf.last_code he).1 ▸ hk).ne
    · rw [hf.read_code he neg hlt, if_neg]
      rw [hf.top_eq he] at hk
      exact (Nat.div_lt_of_lt_mul (by rwa [Nat.mul_comm])).ne
  rw [Finite, hf.value_eq, read]
  by_cases h0 : k < 2 ^ h.fb
  · rw [if_pos (Nat.div_eq_of_lt h0), Nat.mod_eq_of_lt h0]
    refine ⟨_, _, rfl, ?_⟩
    rw [Shape.val, if_pos h0]
    by_cases hz : k = 0 <;> simp [hz, Shape.qmin]
  · rw [if_neg (Nat.div_pos (Nat.le_of_not_lt h0) (Nat.two_pow_pos _)).ne']
    refine ⟨_, _, rfl, ?_⟩
    rw [Shape.val, if_neg h0, Shape.qmin]
    push_cast
    congr 3
    ring

/-- The codes from the first that is not finite on: an infinity, or in E4M3 a NaN, and NaNs above it. -/
theorem FloatOf.special_code (neg : Bool) {k : Nat} (hk : k < 2 ^ (h.eb + h.fb)) :
    (k = top f h → f ≠ .e4m3x4 → f.value (h.code neg k) = (.inf neg, 0)) ∧
    (k = top f h → f = .e4m3x4 → f.value (h.code neg k) = (.nan false, 0)) ∧
    (top f h < k → f.value (h.code neg k) = (.nan (signals f h k), 0)) := by
  have hp : 0 < 2 ^ h.fb := Nat.two_pow_pos _
  rw [hf.value_eq]
  refine ⟨fun e he => ?_, fun e he => ?_, fun hlt => ?_⟩
  · rw [hf.read_code he neg hk, e, hf.top_eq he, Nat.mul_div_cancel _ hp, if_pos rfl, if_pos (Nat.mul_mod_left _ _)]
  · rw [hf.read_code_e4m3 he neg hk, if_pos (e.trans (hf.last_code he).1)]
  · by_cases he : f = .e4m3x4
    · obtain ⟨last, width⟩ := hf.last_code he
      rw [last] at hlt
      rw [width] at hk
      omega
    · have lt := hf.top_eq he ▸ hlt
      have exponent : k / 2 ^ h.fb = 2 ^ h.eb - 1 := by
        refine Nat.le_antisymm (Nat.le_sub_one_of_lt (Nat.div_lt_of_lt_mul (by rwa [← pow_add, Nat.add_comm h.fb]))) ?_
        exact (Nat.le_div_iff_mul_le hp).mpr lt.le
      have frac : k % 2 ^ h.fb ≠ 0 := by
        intro hz
        have := Nat.div_add_mod k (2 ^ h.fb)
        rw [exponent, hz, Nat.mul_comm] at this
        omega
      have bit : k % 2 ^ h.fb / 2 ^ (h.fb - 1) % 2 = k / 2 ^ (h.fb - 1) % 2 := by
        obtain ⟨b, hb⟩ : ∃ b, h.fb = b + 1 := ⟨h.fb - 1, by have := hf.fb; omega⟩
        rw [hb, Nat.add_sub_cancel, Nat.pow_succ, Nat.mod_mul_right_div_self, Nat.mod_mod]
      rw [hf.read_code he neg hk, if_pos exponent, if_neg frac, bit, signals]
      simp [he]
end

end Sys2Proof.Claims
end

section
/-! PROOF of O24: the tapered codes, their rounding in code order, and compares of elements. -/

namespace Sys2Proof
open Claims (withSign)

/-! ### The order of the tapered codes (02/R71, R72)

The bits of a magnitude's code after the sign, as many as there are, are the bits of a number between 0 and 1: its place. Places are ordered as the
magnitudes, and a code of n bits stands at its own number over 2^(n-1). -/

/-- The place of (1 + u) * 2^ex: below it the regimes of shorter runs, then the exponent bit and the fraction. -/
def taperedPlace (ex : Int) (u : ℚ) : ℚ :=
  if 0 ≤ ex then 1 - (4 - (ex % 2 : Int) - u) * 2 ^ (-(ex / 2 + 3)) else (2 + (ex % 2 : Int) + u) * 2 ^ (ex / 2 - 2)

/-- A magnitude stands at a place. -/
def Placed (q p : ℚ) : Prop := ∃ ex u, 0 ≤ u ∧ u < 1 ∧ q = (1 + u) * 2 ^ ex ∧ p = taperedPlace ex u

/-- In a binade the place grows with the fraction. -/
theorem taperedPlace_lt_iff (ex : Int) (u v : ℚ) : taperedPlace ex u < taperedPlace ex v ↔ u < v := by
  unfold taperedPlace
  split
  · rw [sub_lt_sub_iff_left, mul_lt_mul_iff_left₀ (two_zpow_pos _), sub_lt_sub_iff_left]
  · rw [mul_lt_mul_iff_left₀ (two_zpow_pos _), add_lt_add_iff_left]

/-- The end of a binade is the beginning of the next. -/
theorem taperedPlace_one (ex : Int) : taperedPlace ex 1 = taperedPlace (ex + 1) 0 := by
  have step (k : Int) : (2 : ℚ) ^ (k + 1) = 2 * 2 ^ k := by rw [zpow_add_one₀ two_ne_zero, mul_comm]
  obtain ⟨r, h⟩ := Int.even_or_odd' ex
  rcases h with rfl | rfl
  · have e1 : 2 * r / 2 = r ∧ 2 * r % 2 = 0 ∧ (2 * r + 1) / 2 = r ∧ (2 * r + 1) % 2 = 1 := by omega
    obtain ⟨h1, h2, h3, h4⟩ := e1
    have h5 : 0 ≤ 2 * r ↔ 0 ≤ 2 * r + 1 := by omega
    simp only [taperedPlace, h1, h2, h3, h4, ← h5]
    split <;> push_cast <;> ring
  · have e1 : (2 * r + 1) / 2 = r ∧ (2 * r + 1) % 2 = 1 ∧ (2 * r + 1 + 1) / 2 = r + 1 ∧ (2 * r + 1 + 1) % 2 = 0 := by omega
    obtain ⟨h1, h2, h3, h4⟩ := e1
    simp only [taperedPlace, h1, h2, h3, h4]
    rcases lt_trichotomy r (-1) with hr | rfl | hr
    · rw [if_neg (by omega), if_neg (by omega), show r + 1 - 2 = r - 2 + 1 by ring, step]
      push_cast
      ring
    · norm_num
    · rw [if_pos (by omega), if_pos (by omega), show -(r + 3) = -(r + 1 + 3) + 1 by ring, step]
      push_cast
      ring

/-- Later binades have greater places. -/
theorem taperedPlace_lt {ex ey : Int} {u v : ℚ} (h : ex < ey) (hu : u < 1) (hv : 0 ≤ v) : taperedPlace ex u < taperedPlace ey v := by
  have mono : StrictMono fun ex : Int => taperedPlace ex 0 := strictMono_int_of_lt_succ fun ex => by
    rw [← taperedPlace_one]
    exact (taperedPlace_lt_iff ex 0 1).mpr one_pos
  calc taperedPlace ex u < taperedPlace ex 1 := (taperedPlace_lt_iff ex u 1).mpr hu
    _ = taperedPlace (ex + 1) 0 := taperedPlace_one ex
    _ ≤ taperedPlace ey 0 := mono.monotone h
    _ ≤ taperedPlace ey v := not_lt.mp (mt (taperedPlace_lt_iff ey v 0).mp (not_lt.mpr hv))

/-- Places are ordered as magnitudes. -/
theorem Placed.lt_iff {q p q' p' : ℚ} (h : Placed q p) (h' : Placed q' p') : q < q' ↔ p < p' := by
  obtain ⟨ex, u, hu0, hu1, rfl, rfl⟩ := h
  obtain ⟨ey, v, hv0, hv1, rfl, rfl⟩ := h'
  have binade {a b : Int} {x y : ℚ} (h : a < b) (hx : x < 1) (hy : 0 ≤ y) : (1 + x) * 2 ^ a < (1 + y) * (2 : ℚ) ^ b := by
    have e1 : (1 + x) * 2 ^ a < 2 ^ (a + 1) := by
      rw [zpow_add_one₀ two_ne_zero, mul_comm]
      exact mul_lt_mul_of_pos_left (by linarith) (two_zpow_pos a)
    have e2 : (2 : ℚ) ^ (a + 1) ≤ 2 ^ b := zpow_le_zpow_right₀ one_le_two h
    have e3 : (2 : ℚ) ^ b ≤ (1 + y) * 2 ^ b := le_mul_of_one_le_left (two_zpow_pos b).le (by linarith)
    linarith
  rcases lt_trichotomy ex ey with h | rfl | h
  · exact iff_of_true (binade h hu1 hv0) (taperedPlace_lt h hu1 hv0)
  · rw [taperedPlace_lt_iff, mul_lt_mul_iff_left₀ (two_zpow_pos _), add_lt_add_iff_left]
  · exact iff_of_false (binade h hv1 hu0).not_gt (taperedPlace_lt h hv1 hu0).not_gt

theorem Placed.eq_iff {q p q' p' : ℚ} (h : Placed q p) (h' : Placed q' p') : q = q' ↔ p = p' := by
  rw [← not_iff_not, ← ne_eq, ← ne_eq, lt_or_lt_iff_ne.symm, lt_or_lt_iff_ne.symm, h.lt_iff h', h'.lt_iff h]

theorem Placed.cmp_eq {q p q' p' : ℚ} (h : Placed q p) (h' : Placed q' p') : cmp q q' = cmp p p' := by
  simp only [cmp, cmpUsing, h.lt_iff h', h'.lt_iff h]

/-! ### The place of a code -/

/-- The run of ones at the top of i bits. -/
theorem runLen_one (c i : Nat) : runLen c 1 i ≤ i ∧ ∃ r, c % 2 ^ i = (2 ^ runLen c 1 i - 1) * 2 ^ (i - runLen c 1 i) + r ∧
    (runLen c 1 i < i → r < 2 ^ (i - runLen c 1 i - 1)) ∧ (runLen c 1 i = i → r = 0) := by
  induction i with
  | zero => exact ⟨le_refl _, 0, by simp [runLen, Nat.mod_one], by simp [runLen], by simp⟩
  | succ i ih =>
    obtain ⟨hle, r, hr, hlt, heq⟩ := ih
    have split := Nat.mod_pow_succ (x := c) (b := 2) (k := i)
    by_cases hb : c / 2 ^ i % 2 = 1
    · have e : runLen c 1 (i + 1) = runLen c 1 i + 1 := by rw [runLen, if_pos hb, Nat.add_comm]
      rw [e, Nat.add_sub_add_right]
      refine ⟨by omega, r, ?_, fun h => hlt (by omega), fun h => heq (by omega)⟩
      have whole : 2 ^ runLen c 1 i * 2 ^ (i - runLen c 1 i) = 2 ^ i := by rw [← pow_add]; congr 1; omega
      rw [split, hb, hr, pow_succ, Nat.mul_one, Nat.sub_mul, Nat.sub_mul, Nat.one_mul, mul_right_comm, whole]
      have : 2 ^ (i - runLen c 1 i) ≤ 2 ^ i := Nat.pow_le_pow_right two_pos (by omega)
      omega
    · have e : runLen c 1 (i + 1) = 0 := by rw [runLen, if_neg hb]
      have hb0 : c / 2 ^ i % 2 = 0 := by omega
      rw [e]
      refine ⟨by omega, c % 2 ^ i, ?_, fun _ => ?_, fun h => by omega⟩
      · rw [split, hb0]
        simp
      · simpa using Nat.mod_lt c (Nat.two_pow_pos i)

/-- The run of zeros at the top of i bits. -/
theorem runLen_zero (c i : Nat) : runLen c 0 i ≤ i ∧ c % 2 ^ i < 2 ^ (i - runLen c 0 i) ∧
    (runLen c 0 i < i → 2 ^ (i - runLen c 0 i - 1) ≤ c % 2 ^ i) := by
  induction i with
  | zero => exact ⟨le_refl _, by simp [Nat.mod_one], by simp [runLen]⟩
  | succ i ih =>
    obtain ⟨hle, hlt, hge⟩ := ih
    have split := Nat.mod_pow_succ (x := c) (b := 2) (k := i)
    by_cases hb : c / 2 ^ i % 2 = 0
    · have e : runLen c 0 (i + 1) = runLen c 0 i + 1 := by rw [runLen, if_pos hb, Nat.add_comm]
      rw [e, Nat.add_sub_add_right, split, hb, Nat.mul_zero, Nat.add_zero]
      exact ⟨by omega, hlt, fun h => hge (by omega)⟩
    · have e : runLen c 0 (i + 1) = 0 := by rw [runLen, if_neg hb]
      have hb1 : c / 2 ^ i % 2 = 1 := by omega
      have := Nat.mod_lt c (Nat.two_pow_pos i)
      rw [e, split, hb1, Nat.sub_zero, Nat.add_sub_cancel, pow_succ]
      exact ⟨by omega, by omega, fun _ => by omega⟩

/-- The place of a magnitude by its regime and by its exponent bit and fraction together, a number below 2. -/
def fieldPlace (rg : Int) (w : ℚ) : ℚ := if 0 ≤ rg then 1 - (4 - w) * 2 ^ (-(rg + 3)) else (2 + w) * 2 ^ (rg - 2)

theorem placed_fields (rg : Int) {e f fb : Nat} (he : e < 2) (hf : f < 2 ^ fb) :
    Placed (((2 ^ fb + f : Nat) : ℚ) * 2 ^ (2 * rg + e - fb : Int)) (fieldPlace rg (e + f / 2 ^ fb)) := by
  have hp : (0 : ℚ) < 2 ^ fb := by positivity
  refine ⟨2 * rg + e, f / 2 ^ fb, by positivity, (div_lt_one hp).mpr (by exact_mod_cast hf), ?_, ?_⟩
  · rw [zpow_sub₀ two_ne_zero, zpow_natCast]
    push_cast
    field_simp
  · have h1 : (2 * rg + e) / 2 = rg := by omega
    have h2 : (2 * rg + e) % 2 = e := by omega
    have h3 : 0 ≤ 2 * rg + (e : Int) ↔ 0 ≤ rg := by omega
    simp only [taperedPlace, fieldPlace, h1, h2, h3, Int.cast_natCast, sub_add_eq_sub_sub, add_assoc]

/-- The exponent bit and the fraction are the bits below the regime. -/
theorem below_regime (e x fb : Nat) : (e : ℚ) + x / 2 ^ fb = 2 * (e * 2 ^ fb + x : Nat) / 2 ^ (fb + 1) := by
  push_cast
  field_simp
  ring

/-- A regime of k ones and a zero, above `left` bits that hold `r`. -/
theorem fieldPlace_ones {k left r : Nat} (hk : 1 ≤ k) :
    fieldPlace ((k : Int) - 1) (2 * r / 2 ^ left) = (((2 ^ k - 1) * 2 ^ (left + 1) + r : Nat) : ℚ) / 2 ^ (k + left + 1) := by
  have h1 : 1 ≤ 2 ^ k := Nat.one_le_two_pow
  rw [fieldPlace, if_pos (by omega), show -((k : Int) - 1 + 3) = -((k + 2 : Nat) : Int) by push_cast; ring, zpow_neg, zpow_natCast]
  push_cast [h1]
  field_simp
  ring

/-- A regime of ones alone. -/
theorem fieldPlace_all_ones {k : Nat} (hk : 1 ≤ k) : fieldPlace ((k : Int) - 1) 0 = ((2 ^ k - 1 : Nat) : ℚ) / 2 ^ k := by
  have h1 : 1 ≤ 2 ^ k := Nat.one_le_two_pow
  rw [fieldPlace, if_pos (by omega), show -((k : Int) - 1 + 3) = -((k + 2 : Nat) : Int) by push_cast; ring, zpow_neg, zpow_natCast]
  push_cast [h1]
  field_simp
  ring

/-- A regime of k zeros and a one, above `left` bits that hold `r`. -/
theorem fieldPlace_zeros {k left r : Nat} (hk : 1 ≤ k) :
    fieldPlace (-k) (2 * r / 2 ^ left) = ((2 ^ left + r : Nat) : ℚ) / 2 ^ (k + left + 1) := by
  rw [fieldPlace, if_neg (by omega), show -(k : Int) - 2 = -((k + 2 : Nat) : Int) by push_cast; ring, zpow_neg, zpow_natCast]
  push_cast
  field_simp
  ring

/-- The exponent bit and the fraction of a code with `left` bits below its regime; a bit for which there is no room is 0. -/
theorem exponent_fraction {c r left : Nat} (a : Nat) (hc : c = a * 2 ^ left + r) (hr : r < 2 ^ left) :
    (if left = 0 then 0 else c / 2 ^ (left - 1) % 2) < 2 ∧ c % 2 ^ (left - 1) < 2 ^ (left - 1) ∧
      ((if left = 0 then 0 else c / 2 ^ (left - 1) % 2 : Nat) : ℚ) + (c % 2 ^ (left - 1) : Nat) / 2 ^ (left - 1) = 2 * r / 2 ^ left := by
  refine ⟨by split <;> omega, Nat.mod_lt _ (Nat.two_pow_pos _), ?_⟩
  cases left with
  | zero =>
    obtain rfl : r = 0 := by simpa using hr
    simp [Nat.mod_one]
  | succ fb =>
    have hp : 0 < 2 ^ fb := Nat.two_pow_pos _
    have e : c = r + 2 ^ fb * (2 * a) := by rw [hc, pow_succ]; ring
    have hd : r / 2 ^ fb < 2 := Nat.div_lt_of_lt_mul (by rwa [← pow_succ])
    have whole : (r : ℚ) = 2 ^ fb * (r / 2 ^ fb : Nat) + (r % 2 ^ fb : Nat) := by exact_mod_cast (Nat.div_add_mod r (2 ^ fb)).symm
    rw [if_neg (Nat.succ_ne_zero fb), Nat.add_sub_cancel, e, Nat.add_mul_div_left _ _ hp, Nat.add_mul_mod_self_left,
      Nat.add_mul_mod_self_left, Nat.mod_eq_of_lt hd, pow_succ]
    conv_rhs => rw [whole]
    field_simp

/-- A positive code reads as a magnitude that stands at the code's place. -/
theorem taperedValue_placed {n c : Nat} (hn : 3 ≤ n) (h0 : c ≠ 0) (hc : c < 2 ^ (n - 1)) :
    ∃ m e, taperedValue n c = .fin false m e ∧ m ≠ 0 ∧ Placed (m * 2 ^ e) (c / 2 ^ (n - 1)) := by
  have sign : (c / 2 ^ (n - 1) % 2 == 1) = false := by simp [Nat.div_eq_of_lt hc]
  have whole : c % 2 ^ (n - 1) = c := Nat.mod_eq_of_lt hc
  simp only [taperedValue, h0, hc.ne, sign, if_false, Bool.false_eq_true]
  refine ⟨_, _, rfl, by positivity, ?_⟩
  by_cases hb : c / 2 ^ (n - 2) % 2 = 1
  · obtain ⟨hle, r, hr, hlt, heq⟩ := runLen_one c (n - 1)
    have hk : 1 ≤ runLen c 1 (n - 1) := by
      rw [show n - 1 = n - 2 + 1 by omega, runLen, if_pos hb]
      omega
    rw [whole] at hr
    simp only [hb, if_true]
    generalize runLen c 1 (n - 1) = k at *
    rcases hle.lt_or_eq with hkn | hkn
    · obtain ⟨left, hleft⟩ : ∃ left, n - 1 = k + left + 1 := ⟨n - 1 - k - 1, by omega⟩
      have e1 : n - 1 - k = left + 1 := by omega
      have e2 : n - 1 - k - 1 = left := by omega
      rw [e2] at hlt ⊢
      rw [e1] at hr
      obtain ⟨he, hf, hw⟩ := exponent_fraction (2 * (2 ^ k - 1)) (hr.trans (by rw [pow_succ]; ring)) (hlt hkn)
      have placed := placed_fields ((k : Int) - 1) he hf
      rw [hw, fieldPlace_ones hk, ← hr, ← hleft] at placed
      exact placed
    · obtain rfl := heq hkn
      have e1 : n - 1 - k = 0 := by omega
      rw [e1]
      rw [e1, pow_zero, Nat.mul_one, Nat.add_zero] at hr
      have placed := placed_fields ((k : Int) - 1) two_pos (f := 0) (fb := 0) one_pos
      simp only [Nat.cast_zero (R := ℚ), zero_div, add_zero, fieldPlace_all_ones hk, ← hr] at placed
      simpa [Nat.mod_one, hkn] using placed
  · have hb0 : c / 2 ^ (n - 2) % 2 = 0 := by omega
    obtain ⟨hle, hlt, hge⟩ := runLen_zero c (n - 1)
    have hk : 1 ≤ runLen c 0 (n - 1) := by
      rw [show n - 1 = n - 2 + 1 by omega, runLen, if_pos hb0]
      omega
    rw [whole] at hlt hge
    simp only [hb0, if_false, zero_ne_one]
    generalize runLen c 0 (n - 1) = k at *
    have hkn : k < n - 1 := by
      refine lt_of_le_of_ne hle fun h => h0 ?_
      rw [h] at hlt
      simpa using hlt
    obtain ⟨left, hleft⟩ : ∃ left, n - 1 = k + left + 1 := ⟨n - 1 - k - 1, by omega⟩
    have e1 : n - 1 - k = left + 1 := by omega
    have e2 : n - 1 - k - 1 = left := by omega
    rw [e2] at hge ⊢
    rw [e1, pow_succ] at hlt
    obtain ⟨r, rfl⟩ := Nat.exists_eq_add_of_le (hge hkn)
    obtain ⟨he, hf, hw⟩ := exponent_fraction (c := 2 ^ left + r) (r := r) (left := left) 1 (by rw [Nat.one_mul]) (by omega)
    have placed := placed_fields (-(k : Int)) he hf
    rw [hw, fieldPlace_zeros hk, ← hleft] at placed
    exact placed

/-- The bits of a magnitude's code after the sign, before they are cut to the width of the code, and how many they are: regime, exponent bit
and fraction. -/
def taperedBits (m : Nat) (e : Int) : Nat × Nat :=
  let fb := bitLen m - 1
  let rg := (e + fb) / 2
  let regime := if 0 ≤ rg then ((2 ^ (rg.toNat + 1) - 1) * 2, rg.toNat + 2) else (1, (-rg).toNat + 1)
  ((regime.1 * 2 + ((e + fb) % 2).toNat) * 2 ^ fb + (m - 2 ^ fb), regime.2 + 1 + fb)

/-- The leading bit of an integer. -/
theorem bitLen_spec {m : Nat} (h : m ≠ 0) : ∃ l, bitLen m = l + 1 ∧ 2 ^ l ≤ m ∧ m < 2 ^ (l + 1) :=
  ⟨Nat.log2 m, by simp [bitLen, h], Nat.log2_self_le h, Nat.lt_log2_self⟩

theorem placed_bits {m : Nat} (h : m ≠ 0) (e : Int) : Placed (m * 2 ^ e) ((taperedBits m e).1 / 2 ^ (taperedBits m e).2) := by
  obtain ⟨fb, hl, hlow, hhigh⟩ := bitLen_spec h
  obtain ⟨f, rfl⟩ := Nat.exists_eq_add_of_le hlow
  have hf : f < 2 ^ fb := by rw [pow_succ] at hhigh; omega
  obtain ⟨rg, hrg⟩ : ∃ rg, (e + fb) / 2 = rg := ⟨_, rfl⟩
  obtain ⟨eb, heb⟩ : ∃ eb : Nat, (e + fb) % 2 = eb := ⟨((e + fb) % 2).toNat, by omega⟩
  have placed := placed_fields rg (show eb < 2 by omega) hf
  rw [show 2 * rg + eb - fb = e by omega] at placed
  simp only [taperedBits, hl, Nat.add_sub_cancel, Nat.add_sub_cancel_left, hrg, heb, Int.toNat_natCast]
  convert placed using 1
  rw [below_regime]
  split
  · next h0 =>
    obtain ⟨k, hk⟩ : ∃ k : Nat, rg = (k + 1 : Nat) - 1 := ⟨rg.toNat, by omega⟩
    rw [hk, fieldPlace_ones (Nat.succ_pos k), show ((k + 1 : Nat) - 1 : Int).toNat = k by omega, pow_succ _ (fb + 1), pow_succ _ fb,
      show k + 2 + 1 + fb = k + 1 + (fb + 1) + 1 by ring]
    congr 2
    ring
  · next h0 =>
    obtain ⟨k, hk⟩ : ∃ k : Nat, rg = -(k : Int) := ⟨(-rg).toNat, by omega⟩
    rw [hk, fieldPlace_zeros (by omega), neg_neg, Int.toNat_natCast, show k + 1 + 1 + fb = k + (fb + 1) + 1 by ring]
    congr 2
    ring

/-- The code of a sign and a magnitude's code. -/
def taperedSign (n : Nat) (neg : Bool) (c : Nat) : Nat := if neg then 2 ^ n - c else c

/-- Bits cut to the width of a code. -/
theorem roundAt_bits (s total w : Nat) :
    (total ≤ w → roundAt .rne false ⟨s, -total, false⟩ (-w) = (s * 2 ^ (w - total), false)) ∧
    (w < total → roundAt .rne false ⟨s, -total, false⟩ (-w) =
      (if 2 ^ (total - w) < 2 * (s % 2 ^ (total - w)) || (2 ^ (total - w) == 2 * (s % 2 ^ (total - w)) && s / 2 ^ (total - w) % 2 == 1)
        then s / 2 ^ (total - w) + 1 else s / 2 ^ (total - w), s % 2 ^ (total - w) != 0)) := by
  refine ⟨fun h => ?_, fun h => ?_⟩
  · have e : (-(total : Int) - -(w : Int)) = (w - total : Nat) := by omega
    have le : -(w : Int) ≤ -(total : Int) := by omega
    simp only [roundAt, shiftBy, e, le, if_true, Int.natCast_nonneg, Int.toNat_natCast]
  · have e1 : (-(w : Int) - -(total : Int)) = (total - w : Nat) := by omega
    have e2 : (-(total : Int) - -(w : Int)) = -(total - w : Nat) := by omega
    have pos : ¬ (0 : Int) ≤ -(total - w : Nat) := by omega
    have le : ¬ -(w : Int) ≤ -(total : Int) := by omega
    have half : (2 * (s % 2 ^ (total - w)) == 2 ^ (total - w)) = (2 ^ (total - w) == 2 * (s % 2 ^ (total - w))) := BEq.comm
    simp only [roundAt, shiftBy, e1, e2, le, pos, if_false, neg_neg, Int.toNat_natCast, roundsUp, Bool.false_or, Bool.or_false, half]

/-- An exact magnitude into a tapered code: clipped to the range, and in it its bits are rounded to the nearest code, ties to the even one. -/
theorem taperedEncode_fin {n m : Nat} {e : Int} (neg : Bool) (h : m ≠ 0) :
    let sgn (q : Nat) : Nat := if neg then (2 ^ n - q) % 2 ^ n else q
    let maxpos := (Num.fin false m e).cmp (taperedValue n (taperedMax n))
    let minpos := (Num.fin false m e).cmp (taperedValue n 1)
    let r := roundAt .rne false ⟨(taperedBits m e).1, -(taperedBits m e).2, false⟩ (-(n - 1 : Nat))
    taperedEncode n (.fin neg m e) =
      if maxpos != .lt then (sgn (taperedMax n), flagIf (maxpos == .gt) (fSAT ||| fNX))
      else if minpos != .gt then (sgn 1, flagIf (minpos == .lt) (fSAT ||| fNX))
      else (sgn r.1, flagIf r.2 fNX) := by
  obtain ⟨fb, hl, -, -⟩ := bitLen_spec h
  obtain ⟨k, rfl⟩ := Nat.exists_eq_succ_of_ne_zero h
  have e1 : e + ((fb + 1 : Nat) : Int) - 1 = e + fb := by push_cast; ring
  have e2 : e + fb - 2 * ((e + fb) / 2) = (e + fb) % 2 := by omega
  simp only [taperedEncode, taperedBits, hl, e1, e2, Nat.add_sub_cancel]
  generalize (if 0 ≤ (e + fb) / 2 then _ else _ : Nat × Nat) = regime
  generalize regime.2 + 1 + fb = total
  generalize (regime.1 * 2 + _) * 2 ^ fb + (k + 1 - 2 ^ fb) = s
  congr 2
  obtain ⟨fits, cut⟩ := roundAt_bits s total (n - 1)
  by_cases ht : total ≤ n - 1
  · rw [fits ht, if_pos ht]
    rfl
  · rw [cut (Nat.lt_of_not_le ht), if_neg ht]

theorem taperedSign_eq {n c : Nat} (neg : Bool) (h0 : 0 < c) (hc : c < 2 ^ n) :
    (if neg then (2 ^ n - c) % 2 ^ n else c) = taperedSign n neg c := by
  rw [taperedSign, Nat.mod_eq_of_lt (by omega)]

/-- The order of a magnitude and a code's value is that of the place and the code. -/
theorem cmp_taperedValue {n m c : Nat} {e : Int} {y : ℚ} (hn : 3 ≤ n) (hp : Placed (m * 2 ^ e) (y / 2 ^ (n - 1))) (h0 : c ≠ 0)
    (hc : c < 2 ^ (n - 1)) : (Num.fin false m e).cmp (taperedValue n c) = cmp y c := by
  obtain ⟨m', e', hv, -, hp'⟩ := taperedValue_placed hn h0 hc
  have pos : (0 : ℚ) < 2 ^ (n - 1) := by positivity
  have mono : StrictMono fun x : ℚ => x / 2 ^ (n - 1) := fun a b h => (div_lt_div_iff_of_pos_right pos).mpr h
  rw [hv, cmp_fin]
  exact (hp.cmp_eq hp').trans (mono.cmp_map_eq y c)

/-- A magnitude at a place into a tapered code of either sign: clipped to the codes, and among them rounded to the nearest place, ties to the even
code. -/
theorem taperedEncode_placed {n m : Nat} {e : Int} {y : ℚ} (hn : 3 ≤ n) (neg : Bool) (h : m ≠ 0) (hp : Placed (m * 2 ^ e) (y / 2 ^ (n - 1))) :
    (2 ^ (n - 1) - 1 ≤ y → taperedEncode n (.fin neg m e) =
      (taperedSign n neg (2 ^ (n - 1) - 1), if y = 2 ^ (n - 1) - 1 then 0 else fSAT ||| fNX)) ∧
    (y ≤ 1 → taperedEncode n (.fin neg m e) = (taperedSign n neg 1, if y = 1 then 0 else fSAT ||| fNX)) ∧
    (1 < y → y < 2 ^ (n - 1) - 1 → ∃ (a : Nat) (t : ℚ), 0 ≤ t ∧ t < 1 ∧ y = a + t ∧
      (taperedEncode n (.fin neg m e) = (taperedSign n neg (a + 1), fNX) ∧ RoundsAway .rne false a t ∨
        taperedEncode n (.fin neg m e) = (taperedSign n neg a, if t = 0 then 0 else fNX) ∧ ¬ RoundsAway .rne false a t)) := by
  have four : 4 ≤ 2 ^ (n - 1) := Nat.pow_le_pow_right (n := 2) two_pos (show 2 ≤ n - 1 by omega)
  have double : 2 ^ n = 2 * 2 ^ (n - 1) := by rw [← Nat.pow_succ']; congr 1; omega
  have maxpos : ((2 ^ (n - 1) - 1 : Nat) : ℚ) = 2 ^ (n - 1) - 1 := by push_cast [show 1 ≤ 2 ^ (n - 1) by omega]; ring
  have four' : (4 : ℚ) ≤ 2 ^ (n - 1) := by exact_mod_cast four
  rw [taperedEncode_fin neg h]
  simp only [taperedMax, cmp_taperedValue hn hp (show 2 ^ (n - 1) - 1 ≠ 0 by omega) (by omega), cmp_taperedValue hn hp one_ne_zero (by omega), maxpos,
    Nat.cast_one, taperedSign_eq neg (show 0 < 2 ^ (n - 1) - 1 by omega) (show 2 ^ (n - 1) - 1 < 2 ^ n by omega),
    taperedSign_eq neg one_pos (show 1 < 2 ^ n by omega)]
  refine ⟨fun hy => ?_, fun hy => ?_, fun h1 h2 => ?_⟩
  · rcases hy.lt_or_eq with hy | hy
    · simp [hy.cmp_eq_gt, hy.ne', flagIf]
    · simp [← hy, flagIf]
  · have lt : y < 2 ^ (n - 1) - 1 := by linarith
    rcases hy.lt_or_eq with hy | hy
    · simp [hy.cmp_eq_lt, lt.cmp_eq_lt, hy.ne, flagIf]
    · subst hy
      simp [lt.cmp_eq_lt, flagIf]
  · simp only [h1.cmp_eq_gt, h2.cmp_eq_lt, bne_self_eq_false, Bool.false_eq_true, if_false]
    obtain ⟨a, t, h3, h4, hx, hinex, hr⟩ := roundAt_spec .rne false (taperedBits m e).1 (-(taperedBits m e).2) (-(n - 1 : Nat))
    have place : y = a + t := by
      have same := (hp.eq_iff (placed_bits h e)).mp rfl
      rw [zpow_neg, zpow_neg, zpow_natCast, zpow_natCast, ← div_eq_mul_inv, ← div_eq_mul_inv, ← same] at hx
      exact (div_left_inj' (pow_ne_zero _ two_ne_zero)).mp hx
    have ha : 1 ≤ a := by
      have : (1 : ℚ) < a + 1 := by linarith
      have : 1 < a + 1 := by exact_mod_cast this
      omega
    have ha' : a + 1 < 2 ^ n := by
      have : ((a + 1 : Nat) : ℚ) < 2 ^ (n - 1) := by push_cast; linarith
      have : a + 1 < 2 ^ (n - 1) := by exact_mod_cast this
      omega
    refine ⟨a, t, h3, h4, place, ?_⟩
    rcases hr with ⟨hr, haway⟩ | ⟨hr, haway⟩
    · have ht : t ≠ 0 := fun h0 => not_roundsAway_zero _ _ _ (h0 ▸ haway)
      rw [hinex.mpr ht, hr, taperedSign_eq neg (by omega) ha']
      exact .inl ⟨rfl, haway⟩
    · rw [hr, taperedSign_eq neg ha (by omega)]
      refine .inr ⟨?_, haway⟩
      by_cases ht : t = 0
      · rw [if_pos ht, Bool.eq_false_iff.mpr fun h => hinex.mp h ht]
        rfl
      · rw [if_neg ht, hinex.mpr ht]
        rfl

/-- The code of a negative value is the two's complement of the code of its magnitude. -/
theorem taperedValue_neg {n c : Nat} (hn : 3 ≤ n) (h0 : c ≠ 0) (hc : c < 2 ^ (n - 1)) :
    taperedValue n (2 ^ n - c) = (taperedValue n c).negate := by
  have double : 2 ^ n = 2 * 2 ^ (n - 1) := by rw [← Nat.pow_succ']; congr 1; omega
  have sign : (c / 2 ^ (n - 1) % 2 == 1) = false := by simp [Nat.div_eq_of_lt hc]
  have sign' : ((2 ^ n - c) / 2 ^ (n - 1) % 2 == 1) = true := by
    have : (2 ^ n - c) / 2 ^ (n - 1) = 1 := Nat.div_eq_of_lt_le (by omega) (by omega)
    rw [this]
    rfl
  have ne : 2 ^ n - c ≠ 0 := by omega
  have ne' : 2 ^ n - c ≠ 2 ^ (n - 1) := by omega
  have twice : 2 ^ n - (2 ^ n - c) = c := by omega
  simp only [taperedValue, h0, hc.ne, ne, ne', sign, sign', twice, if_false, if_true, Bool.false_eq_true, Num.negate, Bool.not_false]

end Sys2Proof

namespace Sys2Proof.Claims
open Sys2Proof.Machine

/-! ### O24: the codes -/

/-- What a tapered format is. -/
theorem tapered_of {f : Fmt} {n : Nat} (h : (f = .t8x4 ∧ n = 8) ∨ (f = .t6x5 ∧ n = 6)) :
    f.float = none ∧ f.tapered = some n ∧ 3 ≤ n := by
  rcases h with ⟨rfl, rfl⟩ | ⟨rfl, rfl⟩ <;> exact ⟨rfl, rfl, by decide⟩

section
variable {f : Fmt} {n : Nat} (hf : f.float = none) (ht : f.tapered = some n) (hn : 3 ≤ n)
include hf ht

theorem value_of_tapered (c : Nat) : f.value c = (taperedValue n c, 0) := by simp [Fmt.value, hf, ht]

theorem round_of_tapered (rnd : Rnd) (sat fromFloat : Bool) (x : Num) : f.round rnd sat fromFloat x = taperedEncode n x := by
  simp [Fmt.round, hf, ht]

include hn

/-- A value read from a code stands at the code's place. -/
theorem placed_of_finite {c : Nat} {q : ℚ} (h0 : c ≠ 0) (hc : c < 2 ^ (n - 1)) (h : Finite f c false q) : Placed q (c / 2 ^ (n - 1)) := by
  obtain ⟨m, e, hv, -, hp⟩ := taperedValue_placed hn h0 hc
  obtain ⟨m', e', hv', rfl⟩ := h
  rw [value_of_tapered hf ht, hv] at hv'
  obtain ⟨rfl, rfl⟩ : m = m' ∧ e = e' := by simpa using hv'
  exact hp

/-- A code and its two's complement read as the magnitude at the code's place, of either sign. -/
theorem finite_of_placed {c : Nat} {q : ℚ} (h0 : c ≠ 0) (hc : c < 2 ^ (n - 1)) (h : Placed q (c / 2 ^ (n - 1))) :
    Finite f c false q ∧ Finite f (2 ^ n - c) true (-q) := by
  obtain ⟨m, e, hv, -, hp⟩ := taperedValue_placed hn h0 hc
  obtain rfl := (h.eq_iff hp).mpr rfl
  refine ⟨⟨m, e, ?_, rfl⟩, ⟨m, e, ?_, rfl⟩⟩
  · rw [value_of_tapered hf ht, hv]
  · rw [value_of_tapered hf ht, taperedValue_neg hn h0 hc, hv]
    rfl
end

/-- The place of a magnitude written by its regime, exponent bit and fraction. -/
theorem placed_regime (rg : Int) {e x fb : Nat} (he : e < 2) (hx : x < 2 ^ fb) :
    Placed (4 ^ rg * 2 ^ e * (1 + x / 2 ^ fb)) (fieldPlace rg (2 * (e * 2 ^ fb + x : Nat) / 2 ^ (fb + 1))) := by
  have value : (4 : ℚ) ^ rg * 2 ^ e * (1 + x / 2 ^ fb) = ((2 ^ fb + x : Nat) : ℚ) * 2 ^ (2 * rg + e - fb : Int) := by
    rw [zpow_sub₀ two_ne_zero, zpow_add₀ two_ne_zero, zpow_mul, zpow_natCast, zpow_natCast]
    push_cast
    field_simp
  rw [value, ← below_regime]
  exact placed_fields rg he hx

theorem taperedReads : TaperedReads := by
  intro f n hfn
  obtain ⟨hf, ht, hn⟩ := tapered_of hfn
  have four : 4 ≤ 2 ^ (n - 1) := Nat.pow_le_pow_right (n := 2) two_pos (show 2 ≤ n - 1 by omega)
  have is {c : Nat} {q : ℚ} (h0 : c ≠ 0) (hc : c < 2 ^ (n - 1)) (h : Placed q (c / 2 ^ (n - 1))) :
      Finite f c false q ∧ (c ≠ 0 → Finite f (2 ^ n - c) true (-q)) :=
    (finite_of_placed hf ht hn h0 hc h).imp_right fun h _ => h
  have power (rg : Int) : Placed (4 ^ rg) (fieldPlace rg 0) := by
    simpa using placed_regime rg two_pos (e := 0) (x := 0) (fb := 0) one_pos
  refine ⟨⟨⟨0, 0, ?_, by simp⟩, fun h => absurd rfl h⟩, ?_, is ?_ ?_ ?_, is ?_ ?_ ?_, is ?_ ?_ ?_, fun k e x hk hkn he hx => ?_⟩
  · rw [value_of_tapered hf ht]
    rfl
  · rw [value_of_tapered hf ht, taperedValue, if_neg (by omega), if_pos rfl]
  · omega
  · omega
  · have ones := fieldPlace_all_ones (k := n - 1) (by omega)
    have p := power ((n - 1 : Nat) - 1)
    rw [ones, show ((n - 1 : Nat) - 1 : Int) = (n - 2 : Nat) by omega, zpow_natCast] at p
    exact p
  · omega
  · omega
  · have ones := fieldPlace_ones (k := n - 2) (left := 0) (r := 0) (by omega)
    have p := power ((n - 2 : Nat) - 1)
    rw [Nat.cast_zero, mul_zero, zero_div, Nat.add_zero, Nat.add_zero, pow_one, Nat.sub_mul, ← pow_succ, show n - 2 + 1 = n - 1 by omega] at ones
    rw [ones, show ((n - 2 : Nat) - 1 : Int) = (n - 3 : Nat) by omega, zpow_natCast] at p
    exact p
  · omega
  · omega
  · have zeros := fieldPlace_zeros (k := n - 2) (left := 0) (r := 0) (by omega)
    have p := power (-(n - 2 : Nat))
    rw [Nat.cast_zero, mul_zero, zero_div, Nat.add_zero, Nat.add_zero, pow_zero, show n - 2 + 1 = n - 1 by omega] at zeros
    rw [zeros, show (-(n - 2 : Nat) : Int) = 2 - n by omega] at p
    exact p
  · obtain ⟨fb, rfl⟩ : ∃ fb, n = k + fb + 3 := ⟨n - 3 - k, by omega⟩
    rw [show k + fb + 3 - 3 - k = fb by omega] at hx ⊢
    have rest : e * 2 ^ fb + x < 2 ^ (fb + 1) := by
      have : e * 2 ^ fb ≤ 1 * 2 ^ fb := Nat.mul_le_mul_right _ (by omega)
      rw [pow_succ]
      omega
    have p (rg : Int) := placed_regime rg he hx
    have pos : 0 < 2 ^ (fb + 1) := Nat.two_pow_pos _
    rw [show k + fb + 3 - 1 - k = fb + 1 + 1 by omega, show k + fb + 3 - 2 - k = fb + 1 by omega, Nat.add_assoc (_ * _), Nat.add_assoc (2 ^ _)]
    have width : k + fb + 3 - 1 = k + (fb + 1) + 1 := by omega
    have whole : 2 ^ k * 2 ^ (fb + 1 + 1) = 2 ^ (k + (fb + 1) + 1) := by rw [← pow_add]; rfl
    have top : 2 ^ (fb + 1 + 1) ≤ 2 ^ (k + (fb + 1) + 1) := Nat.pow_le_pow_right two_pos (by omega)
    have step : 2 ^ (fb + 1 + 1) = 2 * 2 ^ (fb + 1) := pow_succ' _ _
    refine ⟨is ?_ ?_ ?_, is ?_ ?_ ?_⟩
    · have : 2 ^ 1 ≤ 2 ^ k := Nat.pow_le_pow_right two_pos hk
      have : 0 < (2 ^ k - 1) * 2 ^ (fb + 1 + 1) := Nat.mul_pos (by omega) (by omega)
      omega
    · rw [width, Nat.sub_mul, whole]
      omega
    · have place := p ((k : Int) - 1)
      rw [fieldPlace_ones hk, ← width, show (k : Int) - 1 = (k - 1 : Nat) by omega, zpow_natCast] at place
      exact place
    · omega
    · rw [width]
      omega
    · have place := p (-(k : Int))
      rw [fieldPlace_zeros hk, ← width] at place
      exact place

/-! ### O24: rounding -/

/-- A number between two integers is rounded to the nearest of them, and half way to the even one. -/
theorem roundsAway_iff {a c : Nat} {t y : ℚ} (h0 : 0 ≤ t) (h1 : t < 1) (hy : y = a + t) (hlow : (c : ℚ) ≤ y) (hhigh : y < c + 1) :
    a = c ∧ (RoundsAway .rne false a t ↔ c + 1 / 2 < y ∨ (y = c + 1 / 2 ∧ c % 2 = 1)) := by
  obtain rfl : a = c := by
    have below : (a : ℚ) < c + 1 := by linarith
    have above : (c : ℚ) < a + 1 := by linarith
    exact Nat.le_antisymm (Nat.lt_succ_iff.mp (by exact_mod_cast below)) (Nat.lt_succ_iff.mp (by exact_mod_cast above))
  rw [hy, add_lt_add_iff_left, add_right_inj]
  exact ⟨rfl, Iff.rfl⟩

section
variable {n m : Nat} {e : Int} {y : ℚ} (hn : 3 ≤ n) (neg : Bool) (h : m ≠ 0) (hp : Placed (m * 2 ^ e) (y / 2 ^ (n - 1)))
include hn h hp

/-- A value that a code has is rounded to it. -/
theorem taperedEncode_exact {c : Nat} (h1 : 1 ≤ c) (hc : c < 2 ^ (n - 1)) (hy : y = c) :
    taperedEncode n (.fin neg m e) = (taperedSign n neg c, 0) := by
  obtain ⟨high, low, mid⟩ := taperedEncode_placed hn neg h hp
  have maxpos : ((2 ^ (n - 1) - 1 : Nat) : ℚ) = 2 ^ (n - 1) - 1 := by push_cast [show 1 ≤ 2 ^ (n - 1) by omega]; ring
  rcases Nat.eq_or_lt_of_le h1 with rfl | h1
  · rw [low hy.le, if_pos (by rw [hy, Nat.cast_one])]
  · rcases Nat.eq_or_lt_of_le (Nat.le_sub_one_of_lt hc) with rfl | hc
    · rw [maxpos] at hy
      rw [high hy.ge, if_pos hy]
    · obtain ⟨a, t, h2, h3, hat, hr⟩ := mid (by rw [hy]; exact_mod_cast h1) (by rw [hy, ← maxpos]; exact_mod_cast hc)
      obtain ⟨rfl, haway⟩ := roundsAway_iff h2 h3 hat hy.ge (by rw [hy]; exact lt_add_one _)
      have ht : t = 0 := by linarith
      rcases hr with ⟨-, hr⟩ | ⟨hr, -⟩
      · exact absurd (ht ▸ hr) (not_roundsAway_zero _ _ _)
      · rw [hr, if_pos ht]

/-- A value between two codes is rounded to the nearer place. -/
theorem taperedEncode_between {c : Nat} (h1 : 1 ≤ c) (hc : c + 1 < 2 ^ (n - 1)) (hlow : (c : ℚ) < y) (hhigh : y < c + 1) :
    (y < c + 1 / 2 → taperedEncode n (.fin neg m e) = (taperedSign n neg c, fNX)) ∧
    (c + 1 / 2 < y → taperedEncode n (.fin neg m e) = (taperedSign n neg (c + 1), fNX)) ∧
    (y = c + 1 / 2 → taperedEncode n (.fin neg m e) = (taperedSign n neg (if c % 2 = 0 then c else c + 1), fNX)) := by
  have low : (1 : ℚ) ≤ c := by exact_mod_cast h1
  have last : (c : ℚ) + 1 ≤ 2 ^ (n - 1) - 1 := by
    have : ((c + 1 + 1 : Nat) : ℚ) ≤ (2 ^ (n - 1) : Nat) := by exact_mod_cast hc
    push_cast at this
    linarith
  obtain ⟨-, -, mid⟩ := taperedEncode_placed hn neg h hp
  obtain ⟨a, t, h2, h3, hat, hr⟩ := mid (by linarith) (by linarith)
  obtain ⟨rfl, haway⟩ := roundsAway_iff h2 h3 hat hlow.le hhigh
  have ht : t ≠ 0 := fun h0 => hlow.ne' (by rw [hat, h0, add_zero])
  rw [haway, if_neg ht] at hr
  refine ⟨fun hy => ?_, fun hy => ?_, fun hy => ?_⟩
  · exact (hr.resolve_left fun ⟨_, hr⟩ => hr.elim (fun h => absurd h hy.not_gt) fun h => absurd h.1 hy.ne).1
  · exact (hr.resolve_right fun ⟨_, hr⟩ => hr (.inl hy)).1
  · split
    · exact (hr.resolve_left fun ⟨_, hr⟩ => hr.elim (fun h => absurd h hy.not_gt) fun h => by omega).1
    · exact (hr.resolve_right fun ⟨_, hr⟩ => hr (.inr ⟨hy, by omega⟩)).1
end

theorem taperedRounding : TaperedRounding := by
  intro f n hfn rnd sat fromFloat neg
  obtain ⟨hf, ht, hn⟩ := tapered_of hfn
  simp only [round_of_tapered hf ht]
  refine ⟨fun e => rfl, rfl, rfl, rfl, fun m e hm => ?_⟩
  obtain ⟨p, hp⟩ : ∃ p, Placed (m * 2 ^ e) p := ⟨_, placed_bits hm e⟩
  obtain ⟨y, rfl⟩ : ∃ y : ℚ, p = y / 2 ^ (n - 1) := ⟨p * 2 ^ (n - 1), by field_simp⟩
  obtain ⟨-, -, ⟨maxpos, -⟩, -, ⟨minpos, -⟩, -⟩ := taperedReads f n hfn
  have four : 4 ≤ 2 ^ (n - 1) := Nat.pow_le_pow_right (n := 2) two_pos (show 2 ≤ n - 1 by omega)
  have pos : (0 : ℚ) < 2 ^ (n - 1) := by positivity
  obtain ⟨high, low, -⟩ := taperedEncode_placed hn neg hm hp
  refine ⟨fun hq => ?_, fun hq => ?_, fun c h1 hc hfin => ?_, fun c x z b m' e' h1 hc hx hz hb hbe hlow hhigh => ?_⟩
  · have hy := ((placed_of_finite hf ht hn (by omega) (by omega) maxpos).lt_iff hp).mp hq
    rw [div_lt_div_iff_of_pos_right pos] at hy
    push_cast [show 1 ≤ 2 ^ (n - 1) by omega] at hy
    rw [high hy.le, if_neg hy.ne']
    rfl
  · have hy := (hp.lt_iff (placed_of_finite hf ht hn one_ne_zero (by omega) minpos)).mp hq
    rw [div_lt_div_iff_of_pos_right pos, Nat.cast_one] at hy
    rw [low hy.le, if_neg hy.ne]
    rfl
  · have hy := (hp.eq_iff (placed_of_finite hf ht hn (by omega) hc hfin)).mp rfl
    rw [div_left_inj' pos.ne'] at hy
    exact taperedEncode_exact hn neg hm hp h1 hc hy
  · have hylow := ((placed_of_finite hf ht hn (by omega) (by omega) hx).lt_iff hp).mp hlow
    have hyhigh := (hp.lt_iff (placed_of_finite hf ht hn (by omega) (by omega) hz)).mp hhigh
    rw [div_lt_div_iff_of_pos_right pos] at hylow hyhigh
    have double : 2 ^ (n + 1 - 1) = 2 * 2 ^ (n - 1) := by rw [← pow_succ']; congr 1; omega
    have hpb : Placed b ((c + 1 / 2 : ℚ) / 2 ^ (n - 1)) := by
      obtain ⟨m'', e'', hv, -, hpb⟩ := taperedValue_placed (n := n + 1) (c := 2 * c + 1) (by omega) (by omega) (by omega)
      obtain ⟨rfl, rfl⟩ : m' = m'' ∧ e' = e'' := by simpa using hb.symm.trans hv
      have : (2 : ℚ) ^ (n + 1 - 1) = 2 * 2 ^ (n - 1) := by exact_mod_cast double
      rw [← hbe, this] at hpb
      convert hpb using 1
      push_cast
      field_simp
    push_cast at hyhigh
    have place := taperedEncode_between hn neg hm hp h1 hc hylow hyhigh
    rw [hp.lt_iff hpb, hpb.lt_iff hp, hp.eq_iff hpb, div_lt_div_iff_of_pos_right pos, div_lt_div_iff_of_pos_right pos, div_left_inj' pos.ne']
    exact place

/-! ### O24: compares -/

/-- A value of a sign and magnitude, an infinity having the magnitude `top`, which is above every finite one. -/
def Extended (top : ℚ) (x : Num) (s : Bool) (q : ℚ) : Prop := (∃ m e, x = .fin s m e ∧ q = (m : ℚ) * 2 ^ (e : Int) ∧ q < top) ∨ (x = .inf s ∧ q = top)

theorem withSign_inj {s : Bool} {q r : ℚ} : withSign s q = withSign s r ↔ q = r := by cases s <;> simp [withSign]

/-- A signed magnitude below `top` lies between the infinities. -/
theorem withSign_between {v q : ℚ} (t : Bool) (h0 : 0 ≤ q) (h1 : q < v) : -v < withSign t q ∧ withSign t q < v := by
  cases t
  · exact ⟨show -v < q by linarith, h1⟩
  · exact ⟨neg_lt_neg h1, show -q < v by linarith⟩

section
variable {v : ℚ} {x y : Num} {s t : Bool} {q r : ℚ} (hx : Extended v x s q)
include hx

theorem Extended.isNaN_eq : x.isNaN = false := by
  obtain ⟨m, e, rfl, -⟩ | ⟨rfl, -⟩ := hx <;> rfl

theorem Extended.neg_eq : x.neg = s := by
  obtain ⟨m, e, rfl, -⟩ | ⟨rfl, -⟩ := hx <;> rfl

/-- Values are ordered as their signed magnitudes. -/
theorem Extended.cmp_eq (hv : 0 < v) (hy : Extended v y t r) : x.cmp y = cmp (withSign s q) (withSign t r) := by
  have inf (s : Bool) : withSign s v = if s then -v else v := rfl
  obtain ⟨m, e, rfl, rfl, hlt⟩ | ⟨rfl, rfl⟩ := hx <;> obtain ⟨n, f, rfl, rfl, hlt'⟩ | ⟨rfl, rfl⟩ := hy
  · exact cmp_fin s t m n e f
  · obtain ⟨h1, h2⟩ := withSign_between s (by positivity) hlt
    cases t
    · exact h2.cmp_eq_lt.symm
    · exact h1.cmp_eq_gt.symm
  · obtain ⟨h1, h2⟩ := withSign_between t (by positivity) hlt'
    cases s
    · exact h2.cmp_eq_gt.symm
    · exact h1.cmp_eq_lt.symm
  · have neg : -r < r := by linarith
    cases s <;> cases t
    · exact (cmp_self_eq_eq _).symm
    · exact neg.cmp_eq_gt.symm
    · exact neg.cmp_eq_lt.symm
    · exact (cmp_self_eq_eq _).symm
end

section
variable {f : Fmt} {ff : FloatFmt} {h : Shape} (hf : FloatOf f ff h)
include hf

theorem FloatOf.top_pos : 0 < top f h := by
  by_cases he : f = .e4m3x4
  · simp [top, he]
  · have : 0 < ff.maxSig := lt_of_lt_of_le (Nat.two_pow_pos _) hf.maxSig.1
    have h1 := hf.top_units
    have h2 : 0 ≤ (ff.maxQ - h.qmin) * 2 ^ h.fb := mul_nonneg (by have := hf.maxQ; omega) (by positivity)
    omega

/-- A code up to the last one that is no NaN reads as its signed magnitude. -/
theorem FloatOf.extended_code (s : Bool) {k : Nat} (hk : k ≤ if f = .e4m3x4 then top f h - 1 else top f h) :
    ∃ x, f.value (h.code s k) = (x, 0) ∧ Extended (h.val (top f h)) x s (h.val k) := by
  have pos := hf.top_pos
  rcases Nat.lt_or_ge k (top f h) with hlt | hge
  · obtain ⟨m, e, hv, hq⟩ := hf.finite_code s hlt
    exact ⟨_, hv, .inl ⟨m, e, rfl, withSign_inj.mp hq, h.val_strictMono hlt⟩⟩
  · have he : f ≠ .e4m3x4 := fun he => by rw [if_pos he] at hk; omega
    rw [if_neg he] at hk
    obtain rfl := Nat.le_antisymm hk hge
    exact ⟨_, (hf.special_code s hf.small).1 rfl he, .inr ⟨rfl, rfl⟩⟩

/-- A code above the last one that is no NaN reads as a NaN. -/
theorem FloatOf.nan_code (s : Bool) {k : Nat} (hlt : k < 2 ^ (h.eb + h.fb)) (hk : (if f = .e4m3x4 then top f h - 1 else top f h) < k) :
    f.value (h.code s k) = (.nan (signals f h k), 0) := by
  obtain ⟨-, last, above⟩ := hf.special_code s hlt
  by_cases he : f = .e4m3x4
  · rw [if_pos he] at hk
    rcases Nat.lt_or_ge (top f h) k with h1 | h1
    · exact above h1
    · rw [last (by omega) he]
      simp [signals, he]
  · exact above (by rwa [if_neg he] at hk)
end

/-- A compare of elements that are no tapered codes. -/
theorem compareElem_eq {f : Fmt} {c a b : Nat} {x y : Num} {fx fy : Flags} (ht : f.tapered = none) (hx : f.value a = (x, fx))
    (hy : f.value b = (y, fy)) : compareElem c f a b = ((compareNum c x y).1, (compareNum c x y).2 ||| fx ||| fy) := by
  simp only [compareElem, ht, hx, hy]

theorem compareNum_cmp {c : Nat} {x y : Num} {q r : ℚ} (hx : x.isNaN = false) (hy : y.isNaN = false) (h : x.cmp y = cmp q r) :
    ((compareNum c x y).1 = true ↔ Ordered c q r) ∧ (compareNum c x y).2 = 0 := by
  simp only [compareNum, hx, hy, Bool.or_self, Bool.false_eq_true, if_false, h]
  exact ⟨condHolds_cmp q r, trivial⟩

theorem compareNum_nan {c : Nat} {x y : Num} (h : (x.isNaN || y.isNaN) = true) :
    ((compareNum c x y).1 = true ↔ c = 1) ∧ (compareNum c x y).2 = if 2 ≤ c ∨ x.signals = true ∨ y.signals = true then fIV else 0 := by
  simp only [compareNum, h, if_true, beq_iff_eq, true_and]
  rcases Nat.lt_or_ge 1 c with hc | hc
  · simp [flagIf, Nat.not_le.mpr hc, show 2 ≤ c from hc]
  · simp [flagIf, hc, show ¬ 2 ≤ c by omega]

/-- A float code read: whether it is a NaN, and whether one that signals. -/
theorem FloatOf.isNaN_code {f : Fmt} {ff : FloatFmt} {h : Shape} (hf : FloatOf f ff h) (s : Bool) {k : Nat} (hlt : k < 2 ^ (h.eb + h.fb)) :
    ∃ x, f.value (h.code s k) = (x, 0) ∧
      (x.isNaN = true ↔ (if f = .e4m3x4 then top f h - 1 else top f h) < k) ∧
      (x.signals = true ↔ (if f = .e4m3x4 then top f h - 1 else top f h) < k ∧ signals f h k = true) := by
  rcases Nat.lt_or_ge (if f = .e4m3x4 then top f h - 1 else top f h) k with hk | hk
  · exact ⟨_, hf.nan_code s hlt hk, by simp [Num.isNaN, hk], by simp [Num.signals, hk]⟩
  · obtain ⟨x, hx, he⟩ := hf.extended_code s hk
    have := he.isNaN_eq
    refine ⟨x, hx, by simp [this, hk], ?_⟩
    obtain ⟨m, e, rfl, -⟩ | ⟨rfl, -⟩ := he <;> simp [Num.signals, hk]

theorem elementCompare : ElementCompare := by
  intro c a b hc
  refine ⟨fun f h na nb j k hs ha hb => ?_, fun f w lo hi hs ha hb => ?_, fun f n hfn ha hb => ?_⟩
  · obtain ⟨ff, hf⟩ := floatOf_of_shape hs
    have ht : f.tapered = none := by cases f <;> simp [shape] at hs <;> rfl
    subst ha hb
    refine ⟨fun hj hk => ?_, fun hj hk hlast => ?_⟩
    · obtain ⟨x, hx, hex⟩ := hf.extended_code na hj
      obtain ⟨y, hy, hey⟩ := hf.extended_code nb hk
      have pos : 0 < h.val (top f h) := by
        rw [← h.val_zero]
        exact h.val_strictMono hf.top_pos
      obtain ⟨h1, h2⟩ := compareNum_cmp (c := c) hex.isNaN_eq hey.isNaN_eq (hex.cmp_eq pos hey)
      rw [compareElem_eq ht hx hy, h2]
      exact ⟨h1, rfl⟩
    · obtain ⟨x, hx, hnx, hsx⟩ := hf.isNaN_code na hj
      obtain ⟨y, hy, hny, hsy⟩ := hf.isNaN_code nb hk
      obtain ⟨h1, h2⟩ := compareNum_nan (c := c) (x := x) (y := y) (by rwa [Bool.or_eq_true, hnx, hny])
      rw [compareElem_eq ht hx hy, h2]
      exact ⟨h1, by simp [hsx, hsy]⟩
  · have hi := intFmt_of_shape hs
    obtain ⟨x, hx, hxi⟩ := isInt_value hs ha
    obtain ⟨y, hy, hyi⟩ := isInt_value hs hb
    obtain ⟨h1, h2⟩ := compareNum_cmp (c := c) hxi.isNaN_eq hyi.isNaN_eq ((hxi.cmp_eq hyi).trans (compare_int _ _))
    rw [compareElem_eq hi.tapered hx hy, h2]
    exact ⟨h1, by simp⟩
  · obtain ⟨-, ht, hn⟩ := tapered_of hfn
    simp only [compareElem, ht, toSigned_eq_toInt (show 0 < n by omega) ha, toSigned_eq_toInt (show 0 < n by omega) hb, compare_int]
    exact ⟨condHolds_cmp _ _, trivial⟩

/-- Settles O24: the places of the tapered codes are ordered as their values, so that a rounding of places rounds values. -/
theorem taperedAndCompare : Obligations.TaperedAndCompare := ⟨taperedReads, taperedRounding, elementCompare⟩

end Sys2Proof.Claims
end

section
/-! SUPPORT for the float formats: an exact value rounded once into a float format (02/R66 to R70). -/

namespace Sys2Proof.Claims
open Sys2Proof.Machine

/-! ### The nearest of two neighbours -/

section
variable {f : Fmt} {h : Shape} {rnd : Rnd} {neg : Bool} {a k k' : Nat} {t q : ℚ} (h0 : 0 ≤ t) (h1 : t < 1)
  (hq : q = h.val k + t * (h.val (k + 1) - h.val k))
include h0 h1 hq

/-- A part of the distance to the next code lies between the two. -/
theorem val_part : h.val k ≤ q ∧ q < h.val (k + 1) := by
  have gap : 0 < h.val (k + 1) - h.val k := sub_pos.mpr (h.val_strictMono (Nat.lt_succ_self k))
  have h2 := mul_lt_mul_of_pos_right h1 gap
  have h3 := mul_nonneg h0 gap.le
  exact ⟨by linarith, by linarith⟩

/-- The code at or below a magnitude, cut to the first one that is not finite. -/
theorem roundsTo_below : h.val (min k (top f h)) ≤ q ∧ (min k (top f h) = top f h ∨ q < h.val (min k (top f h) + 1)) := by
  obtain ⟨low, high⟩ := val_part h0 h1 hq
  refine ⟨(h.val_strictMono.monotone (Nat.min_le_left _ _)).trans low, ?_⟩
  rcases Nat.lt_or_ge k (top f h) with hlt | hge
  · exact .inr (by rwa [Nat.min_eq_left hlt.le])
  · exact .inl (Nat.min_eq_right hge)

/-- The code at or above a magnitude, cut to the first one that is not finite. -/
theorem roundsTo_above (hk : k' = k + 1 ∧ t ≠ 0 ∨ k' = k ∧ t = 0) :
    (q ≤ h.val (min k' (top f h)) ∨ min k' (top f h) = top f h) ∧ (min k' (top f h) = 0 ∨ h.val (min k' (top f h) - 1) < q) := by
  obtain ⟨low, high⟩ := val_part h0 h1 hq
  refine ⟨?_, ?_⟩
  · rcases Nat.lt_or_ge k' (top f h) with hlt | hge
    · rw [Nat.min_eq_left hlt.le]
      rcases hk with ⟨rfl, -⟩ | ⟨rfl, rfl⟩
      · exact .inl high.le
      · exact .inl (by rw [hq, zero_mul, add_zero])
    · exact .inr (Nat.min_eq_right hge)
  · rcases hk with ⟨rfl, ht⟩ | ⟨rfl, rfl⟩
    · refine .inr (lt_of_le_of_lt (h.val_strictMono.monotone (show _ ≤ k by omega)) (lt_of_le_of_ne low fun e => ht ?_))
      have gap : h.val (k + 1) - h.val k ≠ 0 := (sub_pos.mpr (h.val_strictMono (Nat.lt_succ_self k))).ne'
      rw [← e, left_eq_add, mul_eq_zero] at hq
      exact hq.resolve_right gap
    · rcases Nat.eq_zero_or_pos (min k' (top f h)) with hz | hpos
      · exact .inl hz
      · refine .inr (lt_of_lt_of_le (h.val_strictMono (show _ < k' by omega)) low)

/-- The code nearest to a magnitude, the even one of two, cut to the first one that is not finite. -/
theorem roundsTo_nearest (hk : k' = k + 1 ∧ (1 / 2 < t ∨ t = 1 / 2 ∧ k % 2 = 1) ∨ k' = k ∧ ¬ (1 / 2 < t ∨ t = 1 / 2 ∧ k % 2 = 1)) (j : Nat)
    (hj : j ≤ top f h) : |q - h.val (min k' (top f h))| < |q - h.val j| ∨
      (|q - h.val (min k' (top f h))| = |q - h.val j| ∧ (j = min k' (top f h) ∨ min k' (top f h) % 2 = 0)) := by
  obtain ⟨low, high⟩ := val_part h0 h1 hq
  have mono {i j : Nat} (hij : i ≤ j) : h.val i ≤ h.val j := h.val_strictMono.monotone hij
  have under {j : Nat} (hj : j ≤ k) : |q - h.val j| = q - h.val j := abs_of_nonneg (sub_nonneg.mpr ((mono hj).trans low))
  have above {j : Nat} (hj : k + 1 ≤ j) : |q - h.val j| = h.val j - q := by
    rw [abs_sub_comm]
    exact abs_of_nonneg (sub_nonneg.mpr (high.le.trans (mono hj)))
  obtain ⟨g, hg⟩ : ∃ g, h.val (k + 1) = h.val k + g := ⟨_, (add_sub_cancel _ _).symm⟩
  have gap : 0 < g := by
    have := h.val_strictMono (Nat.lt_succ_self k)
    linarith
  rw [hg, add_sub_cancel_left] at hq
  rcases Nat.lt_or_ge (top f h) k' with hlt | hge
  · have hk0 : top f h ≤ k := by omega
    rw [Nat.min_eq_right hlt.le, under hk0, under (hj.trans hk0)]
    rcases hj.lt_or_eq with hj | rfl
    · exact .inl (sub_lt_sub_left (h.val_strictMono hj) q)
    · exact .inr ⟨rfl, .inl rfl⟩
  · rw [Nat.min_eq_left hge]
    rcases hk with ⟨rfl, hr⟩ | ⟨rfl, hr⟩
    · rw [above (le_refl _)]
      rcases Nat.lt_or_ge k j with hkj | hkj
      · rw [above hkj]
        rcases Nat.eq_or_lt_of_le hkj with rfl | hkj
        · exact .inr ⟨rfl, .inl rfl⟩
        · exact .inl (sub_lt_sub_right (h.val_strictMono hkj) q)
      · rw [under hkj, hg]
        have hv := mono hkj
        rcases hr with ht | ⟨rfl, hodd⟩
        · have := mul_lt_mul_of_pos_right ht gap
          exact .inl (by linarith)
        · rcases lt_or_eq_of_le hv with hv | hv
          · exact .inl (by linarith)
          · exact .inr ⟨by linarith, .inr (by omega)⟩
    · rw [under (le_refl _)]
      rcases Nat.lt_or_ge k' j with hkj | hkj
      · rw [above hkj]
        have hv := mono hkj
        rw [hg] at hv
        rcases lt_trichotomy t (1 / 2) with ht | rfl | ht
        · have := mul_lt_mul_of_pos_right ht gap
          exact .inl (by linarith)
        · have even : k' % 2 = 0 := by
            by_contra hodd
            exact hr (.inr ⟨rfl, by omega⟩)
          rcases lt_or_eq_of_le hv with hv | hv
          · exact .inl (by linarith)
          · exact .inr ⟨by linarith, .inr even⟩
        · exact absurd (.inl ht) hr
      · rw [under hkj]
        rcases Nat.eq_or_lt_of_le hkj with rfl | hkj
        · exact .inr ⟨rfl, .inl rfl⟩
        · exact .inl (sub_lt_sub_left (h.val_strictMono hkj) _)

/-- A magnitude of a code and a part of the distance to the next one is rounded to one of the two. -/
theorem roundsTo_of_part (parity : a % 2 = k % 2) (hk : k' = k + 1 ∧ RoundsAway rnd neg a t ∨ k' = k ∧ ¬ RoundsAway rnd neg a t) :
    RoundsTo f h rnd neg q (min k' (top f h)) := by
  refine ⟨Nat.min_le_right _ _, ?_⟩
  have below (hk : k' = k) := hk ▸ roundsTo_below (f := f) h0 h1 hq
  have above (hk : k' = k + 1 ∧ t ≠ 0 ∨ k' = k ∧ t = 0) := roundsTo_above (f := f) h0 h1 hq hk
  cases rnd with
  | rne =>
    rw [RoundsAway, parity] at hk
    exact roundsTo_nearest h0 h1 hq hk
  | rz =>
    obtain ⟨-, ⟨⟩⟩ | ⟨hk, -⟩ := hk
    exact below hk
  | ru =>
    cases neg
    · exact above (by simpa [RoundsAway] using hk)
    · exact below (by simpa [RoundsAway] using hk)
  | rd =>
    cases neg
    · exact below (by simpa [RoundsAway] using hk)
    · exact above (by simpa [RoundsAway] using hk)
end

/-- A magnitude that a code has is rounded to it. -/
theorem roundsTo_exact {f : Fmt} {h : Shape} {rnd : Rnd} {neg : Bool} {j k : Nat} (hj : j < top f h) (hr : RoundsTo f h rnd neg (h.val j) k) : k = j := by
  obtain ⟨hk, hr⟩ := hr
  have lt {i j : Nat} : h.val i < h.val j ↔ i < j := h.val_strictMono.lt_iff_lt
  have le {i j : Nat} : h.val i ≤ h.val j ↔ i ≤ j := h.val_strictMono.le_iff_le
  have below (hr : h.val k ≤ h.val j ∧ (k = top f h ∨ h.val j < h.val (k + 1))) : k = j := by
    rw [le, lt] at hr
    omega
  have above (hr : (h.val j ≤ h.val k ∨ k = top f h) ∧ (k = 0 ∨ h.val (k - 1) < h.val j)) : k = j := by
    rw [le, lt] at hr
    omega
  cases rnd with
  | rne =>
    obtain ⟨dist, -⟩ := (hr j hj.le).resolve_left fun hlt => by
      rw [sub_self, abs_zero] at hlt
      exact absurd (abs_nonneg _) (not_le.mpr hlt)
    rw [sub_self, abs_zero, abs_eq_zero, sub_eq_zero] at dist
    exact (h.val_strictMono.injective dist).symm
  | rz => exact below hr
  | ru => cases neg <;> [exact above hr; exact below hr]
  | rd => cases neg <;> [exact below hr; exact above hr]

/-! ### The rounding of a magnitude -/

/-- A magnitude lies between two powers of two. -/
theorem bitLen_bounds {m : Nat} (hm : m ≠ 0) (e : Int) : ∃ ex, e + bitLen m - 1 = ex ∧ (2 : ℚ) ^ ex ≤ m * 2 ^ e ∧ (m : ℚ) * 2 ^ e < 2 ^ (ex + 1) := by
  obtain ⟨l, hl, hlow, hhigh⟩ := bitLen_spec hm
  refine ⟨e + l, by omega, ?_, ?_⟩
  · rw [add_comm, zpow_add₀ two_ne_zero, zpow_natCast]
    exact mul_le_mul_of_nonneg_right (by exact_mod_cast hlow) (two_zpow_pos e).le
  · rw [show e + l + 1 = ((l + 1 : Nat) : Int) + e by omega, zpow_add₀ two_ne_zero, zpow_natCast]
    exact mul_lt_mul_of_pos_right (by exact_mod_cast hhigh) (two_zpow_pos e)

/-- What is subtracted from the least normal magnitude to tell what is tiny is at most half of it. -/
theorem tiny_margin {k : Nat} (hk : 1 ≤ k) : 0 < (2 : ℚ) ^ (-k : Int) ∧ (2 : ℚ) ^ (-k : Int) ≤ 2⁻¹ :=
  ⟨two_zpow_pos _, le_trans (zpow_le_zpow_right₀ one_le_two (show (-k : Int) ≤ -1 by omega)) (by norm_num)⟩

/-- Less than half of the least normal magnitude is tiny. -/
theorem tiny_of_lt {h : Shape} {rnd : Rnd} {neg : Bool} {q : ℚ} (hq : q < 2 ^ (1 - h.bias : Int) * 2⁻¹) : Tiny h rnd neg q := by
  have pos := two_zpow_pos (1 - h.bias)
  obtain ⟨-, one⟩ := tiny_margin (k := h.fb + 1) (by omega)
  obtain ⟨-, half⟩ := tiny_margin (k := h.fb + 2) (by omega)
  push_cast at one half
  have below : q < 2 ^ (1 - h.bias : Int) := by linarith
  have away : q ≤ 2 ^ (1 - h.bias : Int) * (1 - 2 ^ (-(h.fb + 1) : Int)) := hq.le.trans (mul_le_mul_of_nonneg_left (by linarith) pos.le)
  cases rnd with
  | rne => exact lt_of_lt_of_le hq (mul_le_mul_of_nonneg_left (by linarith) pos.le)
  | rz => exact below
  | ru => cases neg <;> [exact away; exact below]
  | rd => cases neg <;> [exact below; exact away]

/-- A normal magnitude is not tiny. -/
theorem not_tiny_of_le {h : Shape} {rnd : Rnd} {neg : Bool} {q : ℚ} (hq : 2 ^ (1 - h.bias : Int) ≤ q) : ¬ Tiny h rnd neg q := by
  have pos := two_zpow_pos (1 - h.bias)
  obtain ⟨one, -⟩ := tiny_margin (k := h.fb + 1) (by omega)
  obtain ⟨half, -⟩ := tiny_margin (k := h.fb + 2) (by omega)
  push_cast at one half
  have below : ¬ q < 2 ^ (1 - h.bias : Int) := not_lt.mpr hq
  have away : ¬ q ≤ 2 ^ (1 - h.bias : Int) * (1 - 2 ^ (-(h.fb + 1) : Int)) := by
    have := mul_pos pos one
    rw [mul_one_sub]
    linarith
  cases rnd with
  | rne =>
    have := mul_pos pos half
    rw [Tiny, mul_one_sub]
    linarith
  | rz => exact below
  | ru => cases neg <;> [exact away; exact below]
  | rd => cases neg <;> [exact below; exact away]

/-- The least normal magnitude is `2 ^ (fb + 1)` units of the binade below it; a magnitude of that binade is tiny when it is not rounded up to it. -/
theorem tiny_units {h : Shape} {rnd : Rnd} {neg : Bool} {a r : Nat} {t u : ℚ} (hu : 0 < u) (least : (2 : ℚ) ^ (1 - h.bias : ℤ) = 2 ^ (h.fb + 1) * u)
    (ht0 : 0 ≤ t) (ht1 : t < 1) (hlt : (a + t : ℚ) < 2 ^ (h.fb + 1))
    (hr : r = a + 1 ∧ RoundsAway rnd neg a t ∨ r = a ∧ ¬ RoundsAway rnd neg a t) : r ≠ 2 ^ (h.fb + 1) ↔ Tiny h rnd neg ((a + t) * u) := by
  have half : (2 : ℚ) ^ (1 - h.bias : ℤ) * (1 - 2 ^ (-(h.fb + 2) : ℤ)) = (2 ^ (h.fb + 1) - 1 / 2) * u := by
    rw [least, zpow_neg, show (h.fb : Int) + 2 = (h.fb + 2 : Nat) by push_cast; rfl, zpow_natCast]
    field_simp
    ring
  have one : (2 : ℚ) ^ (1 - h.bias : ℤ) * (1 - 2 ^ (-(h.fb + 1) : ℤ)) = (2 ^ (h.fb + 1) - 1) * u := by
    rw [least, zpow_neg, show (h.fb : Int) + 1 = (h.fb + 1 : Nat) by push_cast; rfl, zpow_natCast]
    field_simp
  have even : 2 ^ (h.fb + 1) = 2 * 2 ^ h.fb := pow_succ' _ _
  have cast : ((2 ^ (h.fb + 1) : Nat) : ℚ) = 2 ^ (h.fb + 1) := by push_cast; rfl
  simp only [Tiny, half, one]
  simp only [least, mul_lt_mul_iff_left₀ hu, mul_le_mul_iff_left₀ hu]
  rw [← cast] at hlt ⊢
  generalize 2 ^ (h.fb + 1) = p at *
  have hap : a < p := by
    have : (a : ℚ) < p := by linarith
    exact_mod_cast this
  have last : a + 1 = p ∨ ((a : ℚ) + 2 ≤ p ∧ a + 1 ≠ p) := by
    rcases Nat.eq_or_lt_of_le hap with h | h
    · exact .inl h
    · exact .inr ⟨by exact_mod_cast h, by omega⟩
  have down (hr : r = a) : r ≠ p ↔ a + t < (p : ℚ) := iff_of_true (by omega) hlt
  have away (hr : r = a + 1 ∧ t ≠ 0 ∨ r = a ∧ t = 0) : r ≠ p ↔ a + t ≤ (p : ℚ) - 1 := by
    rcases hr with ⟨rfl, ht⟩ | ⟨rfl, rfl⟩
    · have pos : 0 < t := lt_of_le_of_ne ht0 (Ne.symm ht)
      rcases last with rfl | ⟨h2, hne⟩
      · push_cast
        exact iff_of_false (not_not.mpr rfl) (by linarith)
      · exact iff_of_true hne (by linarith)
    · refine iff_of_true hap.ne ?_
      have : ((r + 1 : Nat) : ℚ) ≤ p := by exact_mod_cast hap
      push_cast at this
      linarith
  cases rnd with
  | rne =>
    rcases hr with ⟨rfl, hr⟩ | ⟨rfl, hr⟩
    · rcases last with rfl | ⟨h2, hne⟩
      · push_cast
        refine iff_of_false (not_not.mpr rfl) ?_
        rcases hr with hr | ⟨hr, -⟩ <;> linarith
      · exact iff_of_true hne (by linarith)
    · refine iff_of_true hap.ne ?_
      rcases last with rfl | ⟨h2, -⟩
      · have : t < 1 / 2 := lt_of_not_ge fun hge => hr (hge.lt_or_eq.imp_right fun e => ⟨e.symm, by omega⟩)
        push_cast
        linarith
      · linarith
  | rz =>
    obtain ⟨-, ⟨⟩⟩ | ⟨hr, -⟩ := hr
    exact down hr
  | ru =>
    cases neg
    · exact away (by simpa [RoundsAway] using hr)
    · exact down (by simpa [RoundsAway] using hr)
  | rd =>
    cases neg
    · exact down (by simpa [RoundsAway] using hr)
    · exact away (by simpa [RoundsAway] using hr)

theorem roundNum_fin (ff : FloatFmt) (rnd : Rnd) (sat neg : Bool) {m : Nat} (hm : m ≠ 0) (e : Int) :
    ff.roundNum rnd sat (.fin neg m e) = ff.round rnd sat neg ⟨m, e, false⟩ := by
  obtain ⟨k, rfl⟩ := Nat.exists_eq_succ_of_ne_zero hm
  rfl

section
variable {f : Fmt} {ff : FloatFmt} {h : Shape} (hf : FloatOf f ff h)
include hf

/-- The code of a significand in a binade; a significand may be the first of the next binade. -/
theorem FloatOf.pack_eq (neg : Bool) {i sig : Nat} (hi : i = 0 ∨ 2 ^ h.fb ≤ sig) :
    ff.pack neg sig (h.qmin + i) = h.code neg (i * 2 ^ h.fb + sig) := by
  have pos : 0 < 2 ^ h.fb := Nat.two_pow_pos _
  have succ : 2 ^ (h.fb + 1) = 2 * 2 ^ h.fb := pow_succ' _ _
  have exponent (j : Nat) : (h.qmin + j + h.fb + 1 - ff.emin).toNat = j + 1 := by
    rw [hf.emin, Shape.qmin]
    omega
  have sign : h.eb + (h.fb + 1) - 1 = h.eb + h.fb := rfl
  simp only [FloatFmt.pack, hf.eb, hf.prec, Nat.add_sub_cancel, Shape.code, sign]
  congr 1
  by_cases hnext : sig = 2 ^ (h.fb + 1)
  · have half : sig / 2 = 2 ^ h.fb := by omega
    rw [if_pos hnext]
    simp only [half, lt_irrefl, if_false, Nat.sub_self]
    rw [hnext, succ, add_assoc h.qmin, show (i : Int) + 1 = (i + 1 : Nat) by push_cast; rfl, exponent]
    ring
  · rw [if_neg hnext]
    split
    · next hlt =>
      obtain rfl : i = 0 := hi.resolve_right (Nat.not_le.mpr hlt)
      simp
    · next hge =>
      rw [exponent, Nat.add_mul]
      omega

/-- The binade of the largest finite value. -/
theorem FloatOf.top_binade : ∃ i : Nat, ff.maxQ = h.qmin + i ∧ 1 ≤ i ∧ top f h = i * 2 ^ h.fb + ff.maxSig + 1 := by
  obtain ⟨i, hi⟩ : ∃ i : Nat, ff.maxQ - h.qmin = i := ⟨(ff.maxQ - h.qmin).toNat, by have := hf.maxQ; omega⟩
  have units := hf.top_units
  rw [hi] at units
  exact ⟨i, by omega, by have := hf.maxQ; omega, by exact_mod_cast units⟩

theorem FloatOf.maxBits_eq (neg : Bool) : ff.maxBits neg = h.code neg (top f h - 1) := by
  obtain ⟨i, hq, -, ht⟩ := hf.top_binade
  rw [FloatFmt.maxBits, hq, hf.pack_eq neg (.inr hf.maxSig.1), ht, Nat.add_sub_cancel]

theorem FloatOf.infBits_eq (neg : Bool) (he : f ≠ .e4m3x4) : ff.infBits neg = h.code neg (top f h) := by
  obtain ⟨i, hq, -, ht⟩ := hf.top_binade
  have sig : ff.maxSig = 2 ^ (h.fb + 1) - 1 := by rw [FloatFmt.maxSig, if_neg (mt hf.e4m3.mp he), hf.prec]
  have pos : 0 < 2 ^ h.fb := Nat.two_pow_pos _
  have succ : 2 ^ (h.fb + 1) = 2 * 2 ^ h.fb := pow_succ' _ _
  rw [FloatFmt.infBits, hq, hf.prec, Nat.add_sub_cancel, add_assoc, show (i : Int) + 1 = (i + 1 : Nat) by push_cast; rfl,
    hf.pack_eq neg (.inr (le_refl _)), ht, sig, Nat.add_mul]
  congr 1
  omega

/-- A significand is past the largest finite value when its code is. -/
theorem FloatOf.exceeds_iff {i sig : Nat} (hs : sig ≤ 2 ^ (h.fb + 1)) (hi : i = 0 ∨ 2 ^ h.fb ≤ sig) :
    (decide (ff.maxQ < h.qmin + i) || (h.qmin + i == ff.maxQ && decide (ff.maxSig < sig))) = true ↔ top f h ≤ i * 2 ^ h.fb + sig := by
  obtain ⟨j, hq, hj, ht⟩ := hf.top_binade
  obtain ⟨hm1, hm2⟩ := hf.maxSig
  have succ : 2 ^ (h.fb + 1) = 2 * 2 ^ h.fb := pow_succ' _ _
  have shape : (decide (ff.maxQ < h.qmin + i) || (h.qmin + i == ff.maxQ && decide (ff.maxSig < sig))) = true ↔ j < i ∨ (i = j ∧ ff.maxSig < sig) := by
    simp [hq]
  rw [shape, ht]
  rcases lt_trichotomy i j with hij | rfl | hij
  · have := Nat.mul_le_mul_right (2 ^ h.fb) hij
    rw [Nat.succ_mul] at this
    omega
  · omega
  · have := Nat.mul_le_mul_right (2 ^ h.fb) hij
    rw [Nat.succ_mul] at this
    omega
/-- The binade in which a magnitude is rounded. -/
theorem FloatOf.binade_of {m : Nat} (hm : m ≠ 0) (e : Int) : ∃ i : Nat, max (e + bitLen m - 1) ff.emin - (ff.prec - 1 : Nat) = h.qmin + i ∧
    (m : ℚ) * 2 ^ e < 2 ^ (h.fb + 1) * 2 ^ (h.qmin + i) ∧ (i = 0 ∨ 2 ^ h.fb * 2 ^ (h.qmin + i) ≤ (m : ℚ) * 2 ^ e) := by
  obtain ⟨ex, hex, hlow, hhigh⟩ := bitLen_bounds hm e
  have least : ff.emin = h.qmin + h.fb := by rw [hf.emin, Shape.qmin]; ring
  have unit (k : Nat) (q : Int) : (2 : ℚ) ^ k * 2 ^ q = 2 ^ (q + k) := by rw [add_comm, zpow_add₀ two_ne_zero, zpow_natCast]
  rw [hex, hf.prec, least, Nat.add_sub_cancel]
  refine ⟨(max ex (h.qmin + h.fb) - (h.qmin + h.fb)).toNat, by omega, ?_, ?_⟩
  · rw [unit]
    exact lt_of_lt_of_le hhigh (zpow_le_zpow_right₀ one_le_two (by omega))
  · rcases le_or_gt ex (h.qmin + h.fb) with hle | hgt
    · exact .inl (by omega)
    · right
      rw [unit]
      exact le_trans (zpow_le_zpow_right₀ one_le_two (by omega)) hlow

theorem FloatOf.tiny_iff (rnd : Rnd) (neg : Bool) {m : Nat} (hm : m ≠ 0) (e : Int) :
    (decide (e + bitLen m - 1 < ff.emin - 1) || (e + bitLen m - 1 == ff.emin - 1 &&
      (roundAt rnd neg ⟨m, e, false⟩ (e + bitLen m - 1 - (ff.prec - 1 : Nat))).1 != 2 ^ ff.prec)) = true ↔ Tiny h rnd neg (m * 2 ^ e) := by
  obtain ⟨ex, hex, hlow, hhigh⟩ := bitLen_bounds hm e
  rw [hex, hf.prec, hf.emin, Nat.add_sub_cancel]
  rcases lt_trichotomy ex (1 - h.bias - 1) with hlt | rfl | hgt
  · have : (m : ℚ) * 2 ^ e < 2 ^ (1 - h.bias - 1 : Int) := lt_of_lt_of_le hhigh (zpow_le_zpow_right₀ one_le_two (by omega))
    rw [zpow_sub_one₀ two_ne_zero] at this
    rw [decide_eq_true hlt, Bool.true_or]
    exact iff_of_true rfl (tiny_of_lt this)
  · obtain ⟨a, t, ht0, ht1, hx, -, hr⟩ := roundAt_spec rnd neg m e (1 - h.bias - 1 - h.fb)
    have least : (2 : ℚ) ^ (1 - h.bias : Int) = 2 ^ (h.fb + 1) * 2 ^ (1 - h.bias - 1 - h.fb : Int) := by
      rw [← zpow_natCast, ← zpow_add₀ two_ne_zero]
      congr 1
      push_cast
      ring
    have units : (a + t : ℚ) < 2 ^ (h.fb + 1) := by
      rw [sub_add_cancel, least, hx] at hhigh
      exact (mul_lt_mul_iff_left₀ (two_zpow_pos _)).mp hhigh
    rw [hx, ← tiny_units (two_zpow_pos _) least ht0 ht1 units hr]
    simp
  · have : (2 : ℚ) ^ (1 - h.bias : Int) ≤ m * 2 ^ e := le_trans (zpow_le_zpow_right₀ one_le_two (by omega)) hlow
    rw [decide_eq_false hgt.not_gt, beq_eq_false_iff_ne.mpr hgt.ne', Bool.false_and, Bool.or_self]
    exact iff_of_false Bool.false_ne_true (not_tiny_of_le this)
/-- The significand to which a magnitude is rounded in its binade is that of the code to which it is rounded. -/
theorem FloatOf.roundAt_binade (rnd : Rnd) (neg : Bool) {m : Nat} (hm : m ≠ 0) (e : Int) : ∃ (i sig : Nat) (inexact : Bool),
    max (e + bitLen m - 1) ff.emin - (ff.prec - 1 : Nat) = h.qmin + i ∧ roundAt rnd neg ⟨m, e, false⟩ (h.qmin + i) = (sig, inexact) ∧
    sig ≤ 2 ^ (h.fb + 1) ∧ (i = 0 ∨ 2 ^ h.fb ≤ sig) ∧ (h.val (i * 2 ^ h.fb + sig) = m * 2 ^ e ↔ inexact = false) ∧
    RoundsTo f h rnd neg (m * 2 ^ e) (min (i * 2 ^ h.fb + sig) (top f h)) := by
  obtain ⟨i, hi, hhigh, hlow⟩ := hf.binade_of hm e
  obtain ⟨a, t, ht0, ht1, hx, hinex, hr⟩ := roundAt_spec rnd neg m e (h.qmin + i)
  have unit := two_zpow_pos (h.qmin + i)
  have ha : a < 2 ^ (h.fb + 1) := by
    rw [hx, mul_lt_mul_iff_left₀ unit] at hhigh
    have : (a : ℚ) < (2 ^ (h.fb + 1) : Nat) := by push_cast; linarith
    exact_mod_cast this
  have ha' : i = 0 ∨ 2 ^ h.fb ≤ a := hlow.imp_right fun hlow => by
    rw [hx, mul_le_mul_iff_left₀ unit] at hlow
    have : ((2 ^ h.fb : Nat) : ℚ) < a + 1 := by push_cast; linarith
    exact Nat.lt_succ_iff.mp (by exact_mod_cast this)
  have part : (m : ℚ) * 2 ^ e = h.val (i * 2 ^ h.fb + a) + t * (h.val (i * 2 ^ h.fb + a + 1) - h.val (i * 2 ^ h.fb + a)) := by
    rw [h.val_succ ha ha', h.val_binade ha.le ha', hx]
    ring
  have parity : a % 2 = (i * 2 ^ h.fb + a) % 2 := by
    obtain ⟨b, hb⟩ : ∃ b, h.fb = b + 1 := ⟨h.fb - 1, by have := hf.fb; omega⟩
    rw [hb, pow_succ, ← Nat.mul_assoc]
    omega
  rcases hp : roundAt rnd neg ⟨m, e, false⟩ (h.qmin + i) with ⟨sig, inexact⟩
  rw [hp] at hr hinex
  refine ⟨i, sig, inexact, hi, hp, ?_⟩
  rcases hr with ⟨rfl, hr⟩ | ⟨rfl, hr⟩
  · have ht : t ≠ 0 := fun h0 => not_roundsAway_zero _ _ _ (h0 ▸ hr)
    refine ⟨ha, ha'.imp_right Nat.le_succ_of_le, ?_, roundsTo_of_part ht0 ht1 part parity (.inl ⟨rfl, hr⟩)⟩
    exact iff_of_false (val_part ht0 ht1 part).2.ne' (Bool.not_eq_false _ ▸ hinex.mpr ht)
  · refine ⟨ha.le, ha', ?_, roundsTo_of_part ht0 ht1 part parity (.inr ⟨rfl, hr⟩)⟩
    rw [h.val_binade ha.le ha', hx, mul_left_inj' unit.ne', left_eq_add, ← Bool.not_eq_true, hinex, not_not]

/-- A magnitude that is not zero is rounded once. -/
theorem FloatOf.round_mag (rnd : Rnd) (sat neg : Bool) {m : Nat} (hm : m ≠ 0) (e : Int) :
    let toInf : Bool := match rnd with | .rne => true | .rz => false | .ru => !neg | .rd => neg
    let r := ff.round rnd sat neg ⟨m, e, false⟩
    ∃ k, RoundsTo f h rnd neg (m * 2 ^ e) k ∧
      (k = top f h → r =
        if toInf && sat then (h.code neg (k - 1), fSAT ||| fNX)
        else if toInf && f == .e4m3x4 then (canonicalNaN f, fIV ||| fOF ||| fNX)
        else if toInf then (h.code neg k, fOF ||| fNX)
        else (h.code neg (k - 1), fOF ||| fNX)) ∧
      (k < top f h → r.1 = h.code neg k ∧
        (h.val k = m * 2 ^ e → r.2 = 0) ∧ (h.val k ≠ m * 2 ^ e → Tiny h rnd neg (m * 2 ^ e) → r.2 = fNX ||| fUF) ∧
        (h.val k ≠ m * 2 ^ e → ¬ Tiny h rnd neg (m * 2 ^ e) → r.2 = fNX)) := by
  intro toInf r
  have tiny := hf.tiny_iff rnd neg hm e
  obtain ⟨i, sig, inexact, hi, hr, hs, hs', exact_iff, rounds⟩ := hf.roundAt_binade rnd neg hm e
  refine ⟨_, rounds, fun hk => ?_, fun hk => ?_⟩
  · have exceeds := (hf.exceeds_iff hs hs').mpr (by omega)
    rw [hk]
    have e4m3 : (f == .e4m3x4) = decide (ff = .e4m3) := by rw [beq_eq_decide]; exact decide_eq_decide.mpr hf.e4m3.symm
    simp only [r, FloatFmt.round, hi, hr, exceeds, if_true, hf.maxBits_eq, hf.nan, e4m3, Bool.and_eq_true, decide_eq_true_eq]
    change (if toInf = true then _ else _) = _
    clear_value toInf
    cases toInf
    · rfl
    · cases sat
      · by_cases he : ff = .e4m3
        · simp only [he, if_true, if_false, Bool.false_eq_true, and_true, and_false]
        · simp only [he, if_true, if_false, Bool.false_eq_true, and_false, hf.infBits_eq neg (mt hf.e4m3.mpr he)]
      · simp only [if_true, and_self]
  · have hlt : i * 2 ^ h.fb + sig < top f h := by omega
    have exceeds := Bool.eq_false_iff.mpr (mt (hf.exceeds_iff hs hs').mp (Nat.not_le.mpr hlt))
    simp only [r, FloatFmt.round, hi, hr, exceeds, Bool.false_eq_true, if_false, hf.pack_eq neg hs', Nat.min_eq_left hlt.le, ne_eq, exact_iff]
    refine ⟨trivial, fun hi => ?_, fun hi ht => ?_, fun hi ht => ?_⟩
    · simp [hi, flagIf]
    · rw [tiny.mpr ht, (Bool.not_eq_false _).mp hi]
      rfl
    · rw [Bool.eq_false_iff.mpr (mt tiny.mp ht), (Bool.not_eq_false _).mp hi]
      rfl
/-! ### The rounding of a value -/

theorem FloatOf.round_eq (rnd : Rnd) (sat fromFloat : Bool) (x : Num) : f.round rnd sat fromFloat x = ff.roundNum rnd sat x := by
  simp [Fmt.round, hf.float]

theorem FloatOf.roundNum_zero (rnd : Rnd) (sat neg : Bool) (e : Int) : ff.roundNum rnd sat (.fin neg 0 e) = (h.code neg 0, 0) := by
  have pos : 0 < 2 ^ h.fb := Nat.two_pow_pos _
  have sign : h.eb + (h.fb + 1) - 1 = h.eb + h.fb := rfl
  have ne : ¬ 0 = 2 ^ (h.fb + 1) := (Nat.two_pow_pos _).ne
  simp only [FloatFmt.roundNum, FloatFmt.pack, hf.eb, hf.prec, Nat.add_sub_cancel, sign, ne, if_false, pos, if_true, Shape.code]

/-- A NaN or NaR gives the canonical NaN. -/
theorem FloatOf.round_nan (rnd : Rnd) (sat fromFloat : Bool) {x : Num} (hx : x.isNaN = true) :
    f.round rnd sat fromFloat x = (canonicalNaN f, 0) := by
  rw [hf.round_eq, ← hf.nan]
  cases x with
  | nan | nar => rfl
  | fin | inf => exact absurd hx Bool.false_ne_true

theorem FloatOf.round_inf (rnd : Rnd) (sat fromFloat neg : Bool) : f.round rnd sat fromFloat (.inf neg) =
    if f = .e4m3x4 then (if sat then (h.code neg 0x7E, fSAT) else (0x7F, fIV)) else (h.code neg (top f h), 0) := by
  rw [hf.round_eq]
  by_cases he : f = .e4m3x4
  · have last : h.code neg (top f h - 1) = h.code neg 0x7E := by rw [(hf.last_code he).1]
    have nan : ff.nanBits = 0x7F := by rw [hf.nan, he]; rfl
    simp only [FloatFmt.roundNum, he, hf.e4m3.mpr he, if_true]
    rw [← hf.e4m3.mpr he, hf.maxBits_eq, last, nan]
  · simp only [FloatFmt.roundNum, he, mt hf.e4m3.mp he, if_false, hf.infBits_eq neg he]

/-- A finite value is rounded once; a zero keeps its sign. -/
theorem FloatOf.rounded_fin (rnd : Rnd) (sat fromFloat neg zneg : Bool) (m : Nat) (e : Int) (hz : m = 0 → zneg = neg) :
    Rounded f h rnd sat (withSign neg (m * 2 ^ e)) zneg (f.round rnd sat fromFloat (.fin neg m e)) := by
  rw [hf.round_eq]
  by_cases hm : m = 0
  · obtain rfl := hz hm
    subst hm
    rw [hf.roundNum_zero]
    exact ⟨fun _ => rfl, fun hq => absurd (by simp) hq⟩
  · have pos := mul_two_zpow_pos (e := e) hm
    have sign := withSign_lt_zero (s := neg) pos
    refine ⟨fun hq => absurd (mul_two_zpow_eq_zero.mp (withSign_eq_zero.mp hq)) hm, fun _ => ?_⟩
    rw [roundNum_fin ff rnd sat neg hm, abs_withSign pos.le, sign]
    exact hf.round_mag rnd sat neg hm e

/-- The value of a signed integer at a scale is rounded once; `zneg` is the sign of a zero. -/
theorem FloatOf.rounded_ofInt (rnd : Rnd) (sat fromFloat zneg : Bool) (v k : Int) :
    Rounded f h rnd sat (v * 2 ^ k) zneg (f.round rnd sat fromFloat (Num.ofInt v k zneg)) := by
  by_cases hv : v = 0
  · have := hf.rounded_fin rnd sat fromFloat zneg zneg 0 0 fun _ => rfl
    simpa [hv, Num.ofInt_zero] using this
  · obtain ⟨s, m, e, hn, hq⟩ := Num.ofInt_fin v k zneg
    rw [hn, ← hq]
    refine hf.rounded_fin rnd sat fromFloat s zneg m e fun hm => absurd ?_ hv
    rw [hm, Nat.cast_zero, zero_mul, withSign_zero] at hq
    simpa [two_zpow_ne_zero] using hq.symm

/-- A code's value is rounded to the code. -/
theorem FloatOf.round_value (rnd : Rnd) (sat fromFloat neg : Bool) {j : Nat} (hj : j < top f h) {m : Nat} {e : Int} (hv : h.val j = m * 2 ^ e) :
    f.round rnd sat fromFloat (.fin neg m e) = (h.code neg j, 0) := by
  obtain ⟨zero, nonzero⟩ := hf.rounded_fin rnd sat fromFloat neg neg m e fun _ => rfl
  rw [← hv] at zero nonzero
  by_cases h0 : j = 0
  · subst h0
    exact zero (by simp)
  · have pos : 0 < h.val j := lt_of_le_of_ne (h.val_nonneg j) (Ne.symm (mt h.val_eq_zero.mp h0))
    obtain ⟨k, hr, -, fin⟩ := nonzero (mt withSign_eq_zero.mp pos.ne')
    rw [abs_withSign pos.le, withSign_lt_zero pos] at hr
    obtain rfl := roundsTo_exact hj hr
    obtain ⟨code, flags, -⟩ := fin hj
    rw [withSign_lt_zero pos] at code
    rw [abs_withSign pos.le] at flags
    exact Prod.ext code (flags rfl)
end

end Sys2Proof.Claims
end

section
/-! PROOF of O22: what the float codes stand for, their rounding, and the element operations, reductions and dot products. -/

namespace Sys2Proof.Claims
open Sys2Proof.Machine

/-! ### Codes and rounding -/

theorem floatReads : FloatReads := by
  intro f h hs neg k hk
  obtain ⟨ff, hf⟩ := floatOf_of_shape hs
  exact ⟨hf.finite_code neg, hf.special_code neg hk⟩

theorem floatRounding : FloatRounding := by
  intro f h hs rnd sat fromFloat
  obtain ⟨ff, hf⟩ := floatOf_of_shape hs
  exact ⟨fun neg m e => hf.rounded_fin rnd sat fromFloat neg neg m e fun _ => rfl, hf.round_inf rnd sat fromFloat,
    fun b => hf.round_nan rnd sat fromFloat rfl, hf.round_nan rnd sat fromFloat rfl⟩

/-! ### Arithmetic -/

theorem read_ne_nar (ff : FloatFmt) (a : Nat) : ff.read a ≠ .nar := by
  simp only [FloatFmt.read]
  split
  · split
    · exact Num.noConfusion
    · split <;> exact Num.noConfusion
  · split
    · split <;> exact Num.noConfusion
    · split <;> exact Num.noConfusion

/-- An operation on elements that read without a flag is the exact result rounded. -/
theorem elem_unflagged {f : Fmt} {o : NumOp} {rnd : Rnd} {sat : Bool} {a b c : Nat} {x y z r : Num} {fr : Flags} (hx : f.value a = (x, 0))
    (hy : f.value b = (y, 0)) (hz : f.value c = (z, 0)) (ho : o ≠ .mulhi) (hr : o.exact rnd x y z = (r, fr)) :
    o.elem f rnd sat a b c = ((f.round rnd (o.saturates sat) false r).1, (f.round rnd (o.saturates sat) false r).2 ||| fr) := by
  rw [NumOp.elem_eq hx hy hz ho hr]
  simp

/-- The same where the exact result has no flag. -/
theorem elem_exact {f : Fmt} {o : NumOp} {rnd : Rnd} {sat : Bool} {a b c : Nat} {x y z r : Num} (hx : f.value a = (x, 0))
    (hy : f.value b = (y, 0)) (hz : f.value c = (z, 0)) (ho : o ≠ .mulhi) (hr : o.exact rnd x y z = (r, 0)) :
    o.elem f rnd sat a b c = f.round rnd (o.saturates sat) false r := by
  rw [elem_unflagged hx hy hz ho hr]
  simp

section
variable {f : Fmt} {ff : FloatFmt} {h : Shape} (hf : FloatOf f ff h)
include hf

/-- E4M3 has no infinities. -/
theorem FloatOf.ne_e4m3_of_inf {a : Nat} {n : Bool} (ha : f.value a = (.inf n, 0)) : f ≠ .e4m3x4 := by
  intro he
  rw [hf.value_eq, Prod.mk.injEq] at ha
  obtain ⟨read, -⟩ := ha
  simp only [FloatFmt.read, hf.e4m3.mpr he, if_true] at read
  split at read
  · exact Num.noConfusion read
  · split at read <;> exact Num.noConfusion read

/-- An operation whose exact result is a NaN. -/
theorem FloatOf.elem_nan {o : NumOp} {rnd : Rnd} {sat : Bool} {a b c : Nat} {x y z r : Num} {fr : Flags} (hx : f.value a = (x, 0))
    (hy : f.value b = (y, 0)) (hz : f.value c = (z, 0)) (ho : o ≠ .mulhi) (hr : o.exact rnd x y z = (r, fr)) (hn : r.isNaN = true) :
    o.elem f rnd sat a b c = (canonicalNaN f, fr) := by
  rw [elem_unflagged hx hy hz ho hr, hf.round_nan rnd _ false hn]
  simp

/-- An operation whose exact result is an infinity. -/
theorem FloatOf.elem_inf {o : NumOp} {rnd : Rnd} {sat : Bool} {a b c : Nat} {x y z : Num} {n : Bool} (he : f ≠ .e4m3x4) (hx : f.value a = (x, 0))
    (hy : f.value b = (y, 0)) (hz : f.value c = (z, 0)) (ho : o ≠ .mulhi) (hr : o.exact rnd x y z = (.inf n, 0)) :
    o.elem f rnd sat a b c = (h.code n (top f h), 0) := by
  rw [elem_exact hx hy hz ho hr, hf.round_inf, if_neg he]
end

/-- The operations of two operands on a NaN. -/
theorem exact_nan {o : NumOp} (ho : o ∈ [NumOp.add, .sub, .mul, .min, .max]) (rnd : Rnd) {x y : Num} (z : Num) (h : (x.isNaN || y.isNaN) = true) :
    o.exact rnd x y z = (.nan false, flagIf (x.signals || y.signals) fIV) ∧ o ≠ .mulhi := by
  have neg : y.negate.isNaN = y.isNaN ∧ y.negate.signals = y.signals := by cases y <;> exact ⟨rfl, rfl⟩
  simp only [List.mem_cons, List.not_mem_nil, or_false] at ho
  rcases ho with rfl | rfl | rfl | rfl | rfl <;>
    simp only [NumOp.exact, Num.add, Num.mul, minMax, neg, h, if_true, ne_eq, reduceCtorEq, not_false_eq_true, and_self]

/-- The operation of an instruction that saturates when it asks for it. -/
theorem saturates_eq {o : NumOp} (hmin : o ≠ .min) (hmax : o ≠ .max) (sat : Bool) : o.saturates sat = sat := by
  rw [NumOp.saturates, bne_iff_ne.mpr hmin, bne_iff_ne.mpr hmax, Bool.and_true, Bool.and_true]

section
variable {f : Fmt} {ff : FloatFmt} {h : Shape} (hf : FloatOf f ff h)
include hf

/-- Sums, products and fused products of finite elements are the exact rational rounded once. -/
theorem FloatOf.elem_finite (rnd : Rnd) (sat : Bool) {a b c : Nat} {na nb nc : Bool} {x y z : ℚ} (ha : Finite f a na x) (hb : Finite f b nb y)
    (hc : Finite f c nc z) :
    Rounded f h rnd sat (x + y) (zeroSign rnd na nb) (NumOp.add.elem f rnd sat a b c) ∧
    Rounded f h rnd sat (x - y) (zeroSign rnd na !nb) (NumOp.sub.elem f rnd sat a b c) ∧
    Rounded f h rnd sat (x * y) (na != nb) (NumOp.mul.elem f rnd sat a b c) ∧
    Rounded f h rnd sat (x * y + z) (zeroSign rnd (na != nb) nc) (NumOp.fma.elem f rnd sat a b c) := by
  obtain ⟨m, e, ha, rfl⟩ := ha
  obtain ⟨n, g, hb, rfl⟩ := hb
  obtain ⟨l, d, hc, rfl⟩ := hc
  refine ⟨?_, ?_, ?_, ?_⟩
  · obtain ⟨v, k, hr, hq⟩ := Num.add_fin rnd na nb m n e g
    rw [elem_exact (o := .add) ha hb hc (by decide) hr, saturates_eq (by decide) (by decide), ← hq]
    exact hf.rounded_ofInt rnd sat false _ v k
  · obtain ⟨v, k, hr, hq⟩ := Num.add_fin rnd na (!nb) m n e g
    rw [elem_exact (o := .sub) ha hb hc (by decide) hr, saturates_eq (by decide) (by decide), sub_eq_add_neg, ← withSign_not, ← hq]
    exact hf.rounded_ofInt rnd sat false _ v k
  · obtain ⟨k, hr, hq⟩ := Num.mul_fin na nb m n e g
    rw [elem_exact (o := .mul) ha hb hc (by decide) hr, saturates_eq (by decide) (by decide), ← hq]
    exact hf.rounded_fin rnd sat false _ _ _ k fun _ => rfl
  · obtain ⟨k, hp, hpq⟩ := Num.mul_fin na nb m n e g
    obtain ⟨v, j, hr, hq⟩ := Num.add_fin rnd (na != nb) nc (m * n) l k d
    have fma : (Num.fin na m e).fma rnd (.fin nb n g) (.fin nc l d) = (Num.ofInt v j (zeroSign rnd (na != nb) nc), 0) := by
      simp only [Num.fma, Num.isNaN, Bool.or_self, Bool.false_eq_true, if_false, hp, hr]
    rw [elem_exact (o := .fma) ha hb hc (by decide) fma, saturates_eq (by decide) (by decide), ← hpq, ← hq]
    exact hf.rounded_ofInt rnd sat false _ v j

/-- The operations of two operands on a NaN give the canonical one, and flag a signalling one. -/
theorem FloatOf.elem_of_nan {o : NumOp} (ho : o ∈ [NumOp.add, .sub, .mul, .min, .max]) (rnd : Rnd) (sat : Bool) {a b c : Nat} {sig : Bool} {x : Num}
    (ha : f.value a = (.nan sig, 0)) (hb : f.value b = (x, 0)) :
    o.elem f rnd sat a b c = (canonicalNaN f, if sig = true ∨ x = .nan true then fIV else 0) ∧
      o.elem f rnd sat b a c = (canonicalNaN f, if sig = true ∨ x = .nan true then fIV else 0) := by
  have hx : x ≠ .nar := by
    rw [hf.value_eq, Prod.mk.injEq] at hb
    exact hb.1 ▸ read_ne_nar ff b
  have flag : flagIf (sig || x.signals) fIV = if sig = true ∨ x = .nan true then fIV else 0 := by
    cases x with
    | nar => exact absurd rfl hx
    | nan s => simp [Num.signals, flagIf]
    | fin | inf => simp [Num.signals, flagIf]
  obtain ⟨hr, hne⟩ := exact_nan ho rnd (x := .nan sig) (y := x) (ff.read c) rfl
  obtain ⟨hr', -⟩ := exact_nan ho rnd (x := x) (y := .nan sig) (ff.read c) (by simp [Num.isNaN])
  rw [Bool.or_comm] at hr'
  rw [← flag]
  exact ⟨hf.elem_nan ha hb (hf.value_eq c) hne hr rfl, hf.elem_nan hb ha (hf.value_eq c) hne hr' rfl⟩
end

theorem floatArithmetic : FloatArithmetic := by
  intro f h hs rnd sat a b c
  obtain ⟨ff, hf⟩ := floatOf_of_shape hs
  have hz := hf.value_eq c
  refine ⟨fun na nb nc x y z ha hb hc => hf.elem_finite rnd sat ha hb hc, fun sig ha o ho x hb => hf.elem_of_nan ho rnd sat ha hb, fun sig ha => ?_,
    fun n ha => ?_⟩
  · exact ⟨hf.elem_nan ha (hf.value_eq b) hz (by decide) rfl rfl, hf.elem_nan ha (hf.value_eq b) hz (by decide) rfl rfl⟩
  · have he := hf.ne_e4m3_of_inf ha
    have nan {o : NumOp} {y : Num} (hb : f.value b = (y, 0)) (ho : o ≠ .mulhi) (hr : o.exact rnd (.inf n) y (ff.read c) = (.nan false, fIV)) :
        o.elem f rnd sat a b c = (canonicalNaN f, fIV) := hf.elem_nan ha hb hz ho hr rfl
    refine ⟨?_, fun hb => ⟨?_, ?_⟩, fun hb => ?_⟩
    · rintro nb y ⟨m, e, hb, rfl⟩
      refine ⟨hf.elem_inf he ha hb hz (by decide) rfl, hf.elem_inf he ha hb hz (by decide) rfl, fun hy => ?_, fun hy => ?_⟩
      · rw [withSign_eq_zero, mul_two_zpow_eq_zero] at hy
        subst hy
        exact nan hb (by decide) rfl
      · rw [ne_eq, withSign_eq_zero, mul_two_zpow_eq_zero] at hy
        obtain ⟨k, rfl⟩ := Nat.exists_eq_succ_of_ne_zero hy
        exact hf.elem_inf he ha hb hz (by decide) rfl
    · exact hf.elem_inf he ha hb hz (by decide) (by simp [NumOp.exact, Num.add, Num.isNaN])
    · exact nan hb (by decide) (by cases n <;> rfl)
    · exact nan hb (by decide) (by cases n <;> rfl)

/-! ### Selection -/

/-- The lesser or greater of two values that are no NaN: the order decides, and of equal values the negative one is the lesser. -/
theorem minMax_extended {v q r : ℚ} {x y : Num} {s t : Bool} (hx : Extended v x s q) (hy : Extended v y t r) (hv : 0 < v) (greater : Bool) :
    minMax greater x y =
      (if (decide (withSign s q < withSign t r) || (decide (withSign s q = withSign t r) && s && !t)) != greater then x else y, 0) := by
  simp only [minMax, hx.isNaN_eq, hy.isNaN_eq, hx.neg_eq, hy.neg_eq, hx.cmp_eq hv hy, Bool.or_self, Bool.false_eq_true, if_false]
  rcases lt_trichotomy (withSign s q) (withSign t r) with h | h | h
  · simp [h.cmp_eq_lt, h]
  · simp [h]
  · simp [h.cmp_eq_gt, h.not_gt, h.ne']

/-- A code that is no NaN is what its value is rounded to. -/
theorem FloatOf.round_extended {f : Fmt} {ff : FloatFmt} {h : Shape} (hf : FloatOf f ff h) (rnd : Rnd) {x : Num} {s : Bool} {k : Nat}
    (hk : k ≤ if f = .e4m3x4 then top f h - 1 else top f h) (hx : Extended (h.val (top f h)) x s (h.val k)) :
    f.round rnd false false x = (h.code s k, 0) := by
  obtain ⟨m, e, rfl, hq, hlt⟩ | ⟨rfl, hq⟩ := hx
  · exact hf.round_value rnd false false s (h.val_strictMono.lt_iff_lt.mp hlt) hq
  · obtain rfl := h.val_strictMono.injective hq
    have he : f ≠ .e4m3x4 := fun he => by
      have := hf.top_pos
      rw [if_pos he] at hk
      omega
    rw [hf.round_inf, if_neg he]

theorem floatSelection : FloatSelection := by
  intro f h hs rnd sat na nb j k c last a b x y hj hk
  obtain ⟨ff, hf⟩ := floatOf_of_shape hs
  obtain ⟨u, ha, hu⟩ := hf.extended_code na hj
  obtain ⟨w, hb, hw⟩ := hf.extended_code nb hk
  have pos : 0 < h.val (top f h) := by
    rw [← h.val_zero]
    exact h.val_strictMono hf.top_pos
  have hz := hf.value_eq c
  obtain ⟨less, hless⟩ : ∃ less, less = (decide (x < y) || (decide (x = y) && na && !nb)) := ⟨_, rfl⟩
  have rounds (left : Bool) : f.round rnd false false (if left then u else w) = (if left then a else b, 0) := by
    cases left
    · exact hf.round_extended rnd hk hw
    · exact hf.round_extended rnd hj hu
  have min : NumOp.min.elem f rnd sat a b c = (if less then a else b, 0) := by
    have sat' : NumOp.min.saturates sat = false := by cases sat <;> rfl
    rw [elem_exact (o := .min) ha hb hz (by decide) (minMax_extended hu hw pos false), sat', rounds, ← hless, Bool.bne_false]
  have max : NumOp.max.elem f rnd sat a b c = (if less then b else a, 0) := by
    have sat' : NumOp.max.saturates sat = false := by cases sat <;> rfl
    rw [elem_exact (o := .max) ha hb hz (by decide) (minMax_extended hu hw pos true), sat', rounds, ← hless]
    cases less <;> rfl
  have same (hxy : x = y) (hn : na = nb) : a = b := by
    subst hn
    exact congrArg (h.code na) (h.val_strictMono.injective (withSign_inj.mp hxy))
  refine ⟨fun hlt => ?_, fun hlt => ?_, fun hj => ?_⟩
  · rw [min, max]
    rcases hlt with hlt | ⟨heq, hn⟩
    · rw [decide_eq_true hlt, Bool.true_or] at hless
      rw [hless]
      exact ⟨rfl, rfl⟩
    · rw [decide_eq_false (not_lt.mpr heq.ge), decide_eq_true heq, hn, Bool.false_or, Bool.true_and, Bool.true_and] at hless
      rw [hless]
      cases hnb : nb
      · exact ⟨rfl, rfl⟩
      · rw [same heq (hn.trans hnb.symm)]
        exact ⟨rfl, rfl⟩
  · rw [min, max]
    have : less = false := by
      rcases hlt with hlt | ⟨heq, hn⟩
      · rw [hless, decide_eq_false hlt.not_gt, decide_eq_false hlt.ne', Bool.false_and, Bool.false_and, Bool.or_self]
      · rw [hless, decide_eq_false (not_lt.mpr heq.ge), hn, Bool.and_false, Bool.false_and, Bool.or_self]
    rw [this]
    exact ⟨rfl, rfl⟩
  · obtain ⟨m, e, rfl, hq, -⟩ | ⟨-, hq⟩ := hu
    · rw [elem_exact (o := .abs) ha hb hz (by decide) rfl, elem_exact (o := .neg) ha hb hz (by decide) rfl]
      exact ⟨hf.round_value rnd _ false false hj hq, hf.round_value rnd _ false (!na) hj hq⟩
    · exact absurd (h.val_strictMono.injective hq) hj.ne

end Sys2Proof.Claims
end

section
/-! PROOF of O22, continued: reductions and dot products are the exact sum rounded once (02/R68, R80, 05/R168, R169). -/

namespace Sys2Proof
open Claims (withSign)

/-! ### Exact sums -/

/-- A value is finite. -/
def Num.IsFin (x : Num) : Prop := ∃ s m e, x = .fin s m e

theorem Num.IsInt.isFin {x : Num} {v : Int} (h : x.IsInt v) : x.IsFin := by
  obtain ⟨s, m, rfl, -⟩ := h
  exact ⟨s, m, 0, rfl⟩

theorem Num.IsInt.unique {x : Num} {v u : Int} (hv : x.IsInt v) (hu : x.IsInt u) : v = u := by
  obtain ⟨s, m, rfl, rfl⟩ := hv
  obtain ⟨t, n, h, rfl⟩ := hu
  obtain ⟨rfl, rfl, -⟩ := Num.fin.inj h
  rfl

section
variable {xs : List Num} (hx : ∀ x ∈ xs, x.IsFin)
include hx

/-- No special value is among finite ones. -/
theorem any_of_isFin : xs.any Num.isNaN = false ∧ ∀ b, (xs.any (· == .inf b)) = false := by
  refine ⟨List.any_eq_false.mpr fun x h => ?_, fun b => List.any_eq_false.mpr fun x h => ?_⟩
  · obtain ⟨s, m, e, rfl⟩ := hx x h
    exact Bool.false_ne_true
  · obtain ⟨s, m, e, rfl⟩ := hx x h
    simp

/-- A sum of finite values is exact. -/
theorem exactSum_of_isFin (rnd : Rnd) : exactSum xs rnd = (Num.ofInt (sumFin xs).1 (sumFin xs).2
    ((xs.all fun x => x.isZero && x.neg) || (rnd == .rd && !(xs.all fun x => x.isZero && !x.neg))), 0) := by
  obtain ⟨nan, inf⟩ := any_of_isFin hx
  simp only [exactSum, nan, inf, Bool.false_eq_true, if_false, Bool.and_self]

/-- The elements of a zero sum are zeros when all have one sign. -/
theorem isZero_of_sum_eq_zero (s : Bool) (hs : (xs.map Num.rat).sum = 0) (hn : ∀ x ∈ xs, x.neg = s) : ∀ x ∈ xs, x.isZero = true := by
  intro x h
  have magnitude : ∀ x ∈ xs, ∃ m e, x = .fin s m e ∧ withSign s x.rat = m * 2 ^ e := by
    intro x h
    obtain ⟨t, m, e, rfl⟩ := hx x h
    obtain rfl : t = s := hn _ h
    exact ⟨m, e, rfl, by cases t <;> simp [withSign]⟩
  have nonneg : ∀ q ∈ xs.map fun x => withSign s x.rat, 0 ≤ q := by
    intro q hq
    obtain ⟨y, hy, rfl⟩ := List.mem_map.mp hq
    obtain ⟨m, e, -, hm⟩ := magnitude y hy
    rw [hm]
    exact mul_nonneg (Nat.cast_nonneg m) (two_zpow_pos e).le
  have sum : (xs.map fun x => withSign s x.rat).sum = 0 := by
    cases s
    · exact hs
    · rw [← neg_eq_zero, List.sum_neg, List.map_map] at hs
      exact hs
  have zero := List.all_zero_of_le_zero_le_of_sum_eq_zero nonneg sum (List.mem_map_of_mem h)
  obtain ⟨m, e, rfl, hm⟩ := magnitude x h
  rw [hm] at zero
  obtain rfl := mul_two_zpow_eq_zero.mp zero
  rfl

/-- The sign of a zero sum: negative zeros alone give a negative one, and in mode RD any negative element does. -/
theorem exactSum_zero_sign (rnd : Rnd) (hs : (xs.map Num.rat).sum = 0) :
    ((xs.all fun x => x.isZero && x.neg) || (rnd == .rd && !(xs.all fun x => x.isZero && !x.neg))) =
      (xs.all Num.neg || (rnd == .rd && xs.any Num.neg)) := by
  have negative : (xs.all fun x => x.isZero && x.neg) = xs.all Num.neg := by
    rw [Bool.eq_iff_iff, List.all_eq_true, List.all_eq_true]
    refine ⟨fun h x hm => (Bool.and_eq_true _ _ ▸ h x hm).2, fun h x hm => ?_⟩
    rw [isZero_of_sum_eq_zero hx true hs h x hm, h x hm]
    rfl
  have positive : (xs.all fun x => x.isZero && !x.neg) = !xs.any Num.neg := by
    rw [Bool.eq_iff_iff, List.all_eq_true, Bool.not_eq_true', List.any_eq_false]
    refine ⟨fun h x hm hn => ?_, fun h x hm => ?_⟩
    · have := h x hm
      simp [hn] at this
    · rw [isZero_of_sum_eq_zero hx false hs (fun x hm => Bool.eq_false_iff.mpr (h x hm)) x hm, Bool.eq_false_iff.mpr (h x hm)]
      rfl
  rw [negative, positive, Bool.not_not]

/-- The exact sum is rounded once. -/
theorem exactSum_rat (rnd : Rnd) : ∃ v k z, exactSum xs rnd = (Num.ofInt v k z, 0) ∧ (v : ℚ) * 2 ^ k = (xs.map Num.rat).sum ∧
    ((xs.map Num.rat).sum = 0 → z = (xs.all Num.neg || (rnd == .rd && xs.any Num.neg))) :=
  ⟨_, _, _, exactSum_of_isFin hx rnd, sumFin_rat xs, exactSum_zero_sign hx rnd⟩
end

/-- The exact sum of integers is their sum. -/
theorem sumFin_isInt {α : Type} (g : α → Num) (u : α → Int) (es : List α) (hu : ∀ e ∈ es, (g e).IsInt (u e)) :
    sumFin (es.map g) = ((es.map u).sum, 0) := by
  induction es with
  | nil => rfl
  | cons e es ih =>
    obtain ⟨s, m, he, hm⟩ := hu e List.mem_cons_self
    rw [List.map_cons, List.map_cons, List.sum_cons, ← hm, he, sumFin, ih fun e h => hu e (List.mem_cons_of_mem _ h)]
    by_cases h0 : m = 0
    · cases s <;> simp [h0, signed]
    · by_cases hv : (es.map u).sum = 0
      · simp [h0, hv]
      · simp [h0, hv, scaleTo]

theorem exactSum_isInt {α : Type} (g : α → Num) (u : α → Int) (es : List α) (hu : ∀ e ∈ es, (g e).IsInt (u e)) (rnd : Rnd) :
    ∃ r, exactSum (es.map g) rnd = (r, 0) ∧ r.IsInt (es.map u).sum := by
  have fin : ∀ x ∈ es.map g, x.IsFin := fun x h => by
    obtain ⟨e, he, rfl⟩ := List.mem_map.mp h
    exact (hu e he).isFin
  refine ⟨_, exactSum_of_isFin fin rnd, ?_⟩
  rw [sumFin_isInt g u es hu]
  exact Num.isInt_ofInt _ _

end Sys2Proof

namespace Sys2Proof.Claims
open Sys2Proof.Machine

/-! ### Reductions (05/R169) -/

/-- The sign of a zero is asked for where the rational is zero. -/
theorem Rounded.congr_sign {f : Fmt} {h : Shape} {rnd : Rnd} {sat : Bool} {q : ℚ} {z z' : Bool} {r : Nat × Flags}
    (hr : Rounded f h rnd sat q z r) (hz : q = 0 → z = z') : Rounded f h rnd sat q z' r := by
  refine ⟨fun hq => ?_, hr.2⟩
  rw [← hz hq]
  exact hr.1 hq

/-- An exact sum of finite values, given by their signs and rationals, is rounded once. -/
theorem FloatOf.rounded_exactSum {f : Fmt} {ff : FloatFmt} {h : Shape} (hf : FloatOf f ff h) (rnd : Rnd) (sat fromFloat : Bool) {α : Type}
    (g : α → Num) (n : α → Bool) (q : α → ℚ) (es : List α)
    (he : ∀ e ∈ es, ∃ (m : Nat) (k : Int), g e = .fin (n e) m k ∧ q e = withSign (n e) (m * 2 ^ k)) :
    (exactSum (es.map g) rnd).2 = 0 ∧ Rounded f h rnd sat (es.map q).sum (es.all n || (rnd == .rd && es.any n))
      (f.round rnd sat fromFloat (exactSum (es.map g) rnd).1) := by
  have fin : ∀ x ∈ es.map g, x.IsFin := by
    intro x hx
    obtain ⟨e, hm, rfl⟩ := List.mem_map.mp hx
    obtain ⟨m, k, hv, -⟩ := he e hm
    exact ⟨n e, m, k, hv⟩
  have rats : (es.map g).map Num.rat = es.map q := by
    rw [List.map_map]
    refine List.map_congr_left fun e hm => ?_
    obtain ⟨m, k, hv, hq⟩ := he e hm
    rw [Function.comp_apply, hv, hq, Num.rat_fin]
  have signs : (es.map g).map Num.neg = es.map n := by
    rw [List.map_map]
    refine List.map_congr_left fun e hm => ?_
    obtain ⟨m, k, hv, -⟩ := he e hm
    rw [Function.comp_apply, hv, Num.neg]
  have all : (es.map g).all Num.neg = es.all n := by simpa [List.all_map] using congrArg (List.all · id) signs
  have any : (es.map g).any Num.neg = es.any n := by simpa [List.any_map] using congrArg (List.any · id) signs
  obtain ⟨v, k, z, hs, hq, hz⟩ := exactSum_rat fin rnd
  rw [all, any, rats] at hz
  rw [hs, ← rats, ← hq]
  exact ⟨rfl, (hf.rounded_ofInt rnd sat fromFloat z v k).congr_sign fun h0 => hz (by rw [← rats, ← hq, h0])⟩

/-- A sum of elements that has no flag is rounded. -/
theorem redElem_sum {f : Fmt} {rnd : Rnd} {sat : Bool} {es : List Nat} (hs : (exactSum (es.map fun e => (f.value e).1) rnd).2 = 0) :
    redElem 0 f rnd sat es = f.round rnd sat false (exactSum (es.map fun e => (f.value e).1) rnd).1 := by
  simp [redElem, hs]

theorem redElem_float {f : Fmt} {h : Shape} (hs : shape f = some h) (rnd : Rnd) (sat : Bool) {es : List (Nat × Bool × ℚ)}
    (he : ∀ e ∈ es, Finite f e.1 e.2.1 e.2.2) :
    Rounded f h rnd sat (es.map (·.2.2)).sum (es.all (·.2.1) || (rnd == .rd && es.any (·.2.1))) (redElem 0 f rnd sat (es.map (·.1))) := by
  obtain ⟨ff, hf⟩ := floatOf_of_shape hs
  obtain ⟨flag, rounded⟩ := hf.rounded_exactSum rnd sat false (fun e => (f.value e.1).1) (·.2.1) (·.2.2) es fun e hm => by
    obtain ⟨m, k, hv, hq⟩ := he e hm
    exact ⟨m, k, by rw [hv], hq⟩
  have codes : es.map (fun e => (f.value e.1).1) = (es.map (·.1)).map fun e => (f.value e).1 := by rw [List.map_map]; rfl
  rw [codes] at flag rounded
  rwa [redElem_sum flag]

/-- One step of VRED MIN and MAX, which keeps the flags. -/
def minMaxStep (greater : Bool) (r : Num × Flags) (v : Num) : Num × Flags := ((minMax greater r.1 v).1, r.2 ||| (minMax greater r.1 v).2)

/-- A number is the greater of two, or the lesser. -/
def Extreme (greater : Bool) (r v : Int) : Prop := if greater then v ≤ r else r ≤ v

theorem Extreme.trans {greater : Bool} {a b c : Int} (hab : Extreme greater a b) (hbc : Extreme greater b c) : Extreme greater a c := by
  cases greater
  · exact le_trans (show a ≤ b from hab) hbc
  · exact le_trans (show c ≤ b from hbc) hab

section
variable {f : Fmt} {w : Nat} {lo hi : Int} (hs : intShape f = some (w, lo, hi))
include hs

theorem redElem_int (rnd : Rnd) (sat : Bool) {es : List Nat} (he : ∀ e ∈ es, e < 2 ^ w) :
    Narrowed f w lo hi sat (es.map (intOf f w)).sum (redElem 0 f rnd sat es) := by
  have hf := intFmt_of_shape hs
  obtain ⟨r, hr, hi⟩ := exactSum_isInt (fun e => (f.value e).1) (intOf f w) es (fun e hm => by
    obtain ⟨x, hx, hxi⟩ := isInt_value hs (he e hm)
    rwa [hx]) rnd
  rw [redElem_sum (congrArg Prod.snd hr), hr, round_of_isInt hf rnd sat hi]
  exact narrowed_wrap hf sat _

/-- The lesser or greater of two elements is one of them. -/
theorem minMax_code (greater : Bool) {a e : Nat} (ha : a < 2 ^ w) (he : e < 2 ^ w) : ∃ r, (r = a ∨ r = e) ∧
    minMax greater (f.value a).1 (f.value e).1 = ((f.value r).1, 0) ∧ Extreme greater (intOf f w r) (intOf f w a) ∧
    Extreme greater (intOf f w r) (intOf f w e) := by
  obtain ⟨x, hx, hxi⟩ := isInt_value hs ha
  obtain ⟨y, hy, hyi⟩ := isInt_value hs he
  obtain ⟨r, hr, hri, hor⟩ := hxi.minMax hyi greater
  have bound {v : Int} (hv : (if greater then max (intOf f w a) (intOf f w e) else min (intOf f w a) (intOf f w e)) = v) :
      Extreme greater v (intOf f w a) ∧ Extreme greater v (intOf f w e) := by
    subst hv
    cases greater
    · exact ⟨min_le_left _ _, min_le_right _ _⟩
    · exact ⟨le_max_left _ _, le_max_right _ _⟩
  rw [hx, hy, hr]
  rcases hor with rfl | rfl
  · exact ⟨a, .inl rfl, by rw [hx], bound (hri.unique hxi)⟩
  · exact ⟨e, .inr rfl, by rw [hy], bound (hri.unique hyi)⟩

/-- The least or greatest of a list of elements is one of them. -/
theorem foldl_minMax (greater : Bool) (es : List Nat) (a : Nat) (ha : ∀ e ∈ a :: es, e < 2 ^ w) : ∃ r ∈ a :: es,
    (es.map fun e => (f.value e).1).foldl (minMaxStep greater) ((f.value a).1, 0) = ((f.value r).1, 0) ∧
    ∀ e ∈ a :: es, Extreme greater (intOf f w r) (intOf f w e) := by
  induction es generalizing a with
  | nil => exact ⟨a, List.mem_cons_self, rfl, fun e h => by rw [List.mem_singleton.mp h]; cases greater <;> exact le_refl _⟩
  | cons b es ih =>
    rw [List.forall_mem_cons, List.forall_mem_cons] at ha
    obtain ⟨ha, hb, hes⟩ := ha
    obtain ⟨c, hc, hm, hca, hcb⟩ := minMax_code hs greater ha hb
    have hc' : c < 2 ^ w := by rcases hc with rfl | rfl <;> assumption
    obtain ⟨r, hr, hfold, hall⟩ := ih c (List.forall_mem_cons.mpr ⟨hc', hes⟩)
    rw [List.forall_mem_cons] at hall
    refine ⟨r, ?_, ?_, ?_⟩
    · rcases List.mem_cons.mp hr with rfl | hr
      · rcases hc with rfl | rfl <;> simp
      · simp [hr]
    · simpa only [List.map_cons, List.foldl_cons, minMaxStep, hm, BitVec.or_self] using hfold
    · rw [List.forall_mem_cons, List.forall_mem_cons]
      exact ⟨hall.1.trans hca, hall.1.trans hcb, hall.2⟩

/-- VRED MIN and MAX of integers give the least and the greatest element. -/
theorem redElem_minMax (greater : Bool) (rnd : Rnd) (sat : Bool) (hf : f ≠ .s4x8) {es : List Nat} (hne : es ≠ []) (he : ∀ e ∈ es, e < 2 ^ w) :
    ∃ r ∈ es, redElem (if greater then 2 else 1) f rnd sat es = (r, 0) ∧ ∀ e ∈ es, Extreme greater (intOf f w r) (intOf f w e) := by
  obtain ⟨a, es, rfl⟩ := List.exists_cons_of_ne_nil hne
  have ha := (List.forall_mem_cons.mp he).1
  obtain ⟨r, hr, hfold, hall⟩ := foldl_minMax hs greater (a :: es) a (List.forall_mem_cons.mpr ⟨ha, he⟩)
  rw [List.forall_mem_cons] at hall
  have hr : r ∈ a :: es := by simpa using hr
  refine ⟨r, hr, ?_, hall.2⟩
  obtain ⟨x, hx, hxi⟩ := isInt_value hs (he r hr)
  have round : f.round .rne false false (f.value r).1 = (r, 0) := by
    rw [hx, round_of_isInt (intFmt_of_shape hs) .rne false hxi, wrap_intOf hs hf (he r hr)]
  have fold : redElem (if greater then 2 else 1) f rnd sat (a :: es) = ((f.round .rne false false
      (((a :: es).map fun e => (f.value e).1).foldl (minMaxStep greater) ((f.value a).1, 0)).1).1,
      (((a :: es).map fun e => (f.value e).1).foldl (minMaxStep greater) ((f.value a).1, 0)).2) := by cases greater <;> rfl
  rw [fold, hfold, round]
end

/-! The bitwise reductions, bit by bit. -/

theorem testBit_foldl_and (es : List Nat) (x j : Nat) : (es.foldl (· &&& ·) x).testBit j = (x.testBit j && es.all (·.testBit j)) := by
  induction es generalizing x with
  | nil => simp
  | cons e es ih => rw [List.foldl_cons, ih, Nat.testBit_and, List.all_cons, Bool.and_assoc]

theorem testBit_foldl_or (es : List Nat) (x j : Nat) : (es.foldl (· ||| ·) x).testBit j = (x.testBit j || es.any (·.testBit j)) := by
  induction es generalizing x with
  | nil => simp
  | cons e es ih => rw [List.foldl_cons, ih, Nat.testBit_or, List.any_cons, Bool.or_assoc]

theorem testBit_foldl_xor (es : List Nat) (x j : Nat) :
    (es.foldl (· ^^^ ·) x).testBit j = (x.testBit j ^^ decide ((es.filter (·.testBit j)).length % 2 = 1)) := by
  induction es generalizing x with
  | nil => simp
  | cons e es ih =>
    rw [List.foldl_cons, ih, Nat.testBit_xor, Bool.xor_assoc, List.filter_cons]
    congr 1
    cases e.testBit j
    · simp
    · rw [if_pos rfl, List.length_cons, Bool.true_xor, ← decide_not]
      exact decide_eq_decide.mpr (by omega)

/-! ### Dot products (05/R168) -/

/-- The product of element i of two words. -/
abbrev dotProduct (fa fb : Fmt) (x y i : Nat) : Num × Flags := (fa.value (fa.elem x i)).1.mul (fb.value (fb.elem y i)).1

theorem dotSum_fin {fa fb fc : Fmt} {x y c : Nat} (ha : (fc.value c).1.IsFin) (hp : ∀ i, i < 4 → (dotProduct fa fb x y i).1.IsFin) :
    dotSum fa fb fc x y c = exactSum ((fc.value c).1 :: (List.range 4).map fun i => (dotProduct fa fb x y i).1) := by
  have fin : ∀ p ∈ (List.range 4).map fun i => (dotProduct fa fb x y i).1, p.IsFin := by
    intro p h
    obtain ⟨i, hi, rfl⟩ := List.mem_map.mp h
    exact hp i (List.mem_range.mp hi)
  obtain ⟨nan, inf⟩ := any_of_isFin fin
  have acc : (fc.value c).1.isNaN = false := by
    obtain ⟨s, m, e, h⟩ := ha
    rw [h]
    rfl
  simp only [dotSum, nan, inf, acc, Bool.false_eq_true, if_false, Bool.or_self, Bool.and_self]

/-- A product that is a NaN makes the sum one. -/
theorem dotSum_nan {fa fb fc : Fmt} {x y c i : Nat} (hi : i < 4) (hp : (dotProduct fa fb x y i).1.isNaN = true) :
    dotSum fa fb fc x y c = (.nan false, fIV) := by
  have nan : ((List.range 4).map fun i => (dotProduct fa fb x y i).1).any Num.isNaN = true :=
    List.any_eq_true.mpr ⟨_, List.mem_map_of_mem (List.mem_range.mpr hi), hp⟩
  simp only [dotSum, nan, Bool.true_or, if_true]

/-- The integer of a two's complement code is that of the bits from which it was taken. -/
theorem intOf_mod {f : Fmt} (h : f ≠ .n32) (h' : f ≠ .s4x8) (w v : Nat) : intOf f w (v % 2 ^ w) = (BitVec.ofNat w v).toInt := by
  have : BitVec.ofNat w (v % 2 ^ w) = BitVec.ofNat w v := BitVec.eq_of_toNat_eq (by simp)
  simp only [intOf, h, h', if_false, false_and, this]

/-- The dot product of bytes is the exact sum, narrowed. -/
theorem dotSum_bytes (x y c : Nat) (sat : Bool) :
    let r := dotSum .s8x4 .s8x4 .s32 x y (c % 2 ^ 32)
    let byte (v i : Nat) : Int := (BitVec.ofNat 8 (v / 2 ^ (8 * i))).toInt
    r.2 = 0 ∧ Narrowed .s32 32 (-(2 ^ 31)) (2 ^ 31 - 1) sat
      ((BitVec.ofNat 32 c).toInt + ((List.range 4).map fun i => byte x i * byte y i).sum) (Fmt.round .s32 .rne sat false r.1) := by
  intro r byte
  have word : intShape .s32 = some (32, -(2 ^ 31), 2 ^ 31 - 1) := rfl
  have bytes : intShape .s8x4 = some (8, -128, 127) := rfl
  have acc : (Fmt.value .s32 (c % 2 ^ 32)).1.IsInt (BitVec.ofNat 32 c).toInt := by
    obtain ⟨p, hp, hpi⟩ := isInt_value word (Nat.mod_lt c (Nat.two_pow_pos 32))
    rwa [hp, ← intOf_mod (f := .s32) (by decide) (by decide) 32 c]
  have element (v i : Nat) : (Fmt.value .s8x4 (Fmt.elem .s8x4 v i)).1.IsInt (byte v i) := by
    obtain ⟨p, hp, hpi⟩ := isInt_value bytes (Nat.mod_lt (v / 2 ^ (8 * i)) (Nat.two_pow_pos 8))
    rw [intOf_mod (by decide) (by decide)] at hpi
    rwa [show Fmt.elem .s8x4 v i = v / 2 ^ (8 * i) % 2 ^ 8 from rfl, hp]
  have product (i : Nat) : (dotProduct .s8x4 .s8x4 x y i).1.IsInt (byte x i * byte y i) := by
    obtain ⟨p, hp, hpi⟩ := (element x i).mul (element y i)
    rwa [dotProduct, hp]
  obtain ⟨p, hp, hpi⟩ := exactSum_isInt Prod.fst Prod.snd
    (((Fmt.value .s32 (c % 2 ^ 32)).1, (BitVec.ofNat 32 c).toInt) ::
      (List.range 4).map fun i => ((dotProduct .s8x4 .s8x4 x y i).1, byte x i * byte y i))
    (List.forall_mem_cons.mpr ⟨acc, fun e h => by
      obtain ⟨i, -, rfl⟩ := List.mem_map.mp h
      exact product i⟩) .rne
  rw [List.map_cons, List.map_map] at hp
  rw [List.map_cons, List.map_map, List.sum_cons] at hpi
  have sum : r = (p, 0) := (dotSum_fin acc.isFin fun i _ => (product i).isFin).trans hp
  rw [sum, round_of_isInt (intFmt_of_shape word) .rne sat hpi]
  exact ⟨rfl, narrowed_wrap (intFmt_of_shape word) sat _⟩

/-- The formats of a dot product that has an F32 result. -/
theorem dotAccepts_bits {fa fb : Fmt} (h : dotAccepts fa fb .f32 = true) : fa.bits = 8 ∧ fb.bits = 8 := by
  simp only [dotAccepts, Bool.or_eq_true, Bool.and_eq_true, beq_iff_eq] at h
  rcases h with ⟨rfl, rfl⟩ | ⟨rfl | rfl, rfl | rfl⟩ <;> exact ⟨rfl, rfl⟩

/-- The product of finite elements is exact. -/
theorem dotProduct_finite {fa fb : Fmt} {x y i : Nat} {na nb : Bool} {p q : ℚ} (ha : Finite fa (fa.elem x i) na p) (hb : Finite fb (fb.elem y i) nb q) :
    ∃ (m : Nat) (k : Int), (dotProduct fa fb x y i).1 = .fin (na != nb) m k ∧ p * q = withSign (na != nb) (m * 2 ^ k) := by
  obtain ⟨m, e, hv, rfl⟩ := ha
  obtain ⟨n, g, hv', rfl⟩ := hb
  obtain ⟨k, hr, hq⟩ := Num.mul_fin na nb m n e g
  exact ⟨m * n, k, by rw [dotProduct, hv, hv', hr], hq.symm⟩

/-- A product with a NaN is a NaN. -/
theorem mul_isNaN {x y : Num} (h : (x.isNaN || y.isNaN) = true) : (x.mul y).1.isNaN = true := by
  have e : x.mul y = (.nan false, flagIf (x.signals || y.signals) fIV) := by simp only [Num.mul, h, if_true]
  rw [e]
  rfl

/-- The product of an infinity and a zero is a NaN. -/
theorem mul_inf_zero (s t : Bool) (e : Int) : ((Num.inf s).mul (.fin t 0 e)).1.isNaN = true ∧ ((Num.fin t 0 e).mul (.inf s)).1.isNaN = true := ⟨rfl, rfl⟩

/-- An element that reads as zero. -/
theorem zero_of_finite {f : Fmt} {a : Nat} {n : Bool} (h : Finite f a n 0) : ∃ e, (f.value a).1 = .fin n 0 e := by
  obtain ⟨m, e, hv, hq⟩ := h
  obtain rfl := mul_two_zpow_eq_zero.mp (withSign_eq_zero.mp hq.symm)
  exact ⟨e, by rw [hv]⟩

theorem sumsOnce : SumsOnce := by
  refine ⟨fun f h rnd sat es hs _ he => redElem_float hs rnd sat he,
    fun f w lo hi rnd sat es hs hf hne he => ⟨redElem_int hs rnd sat he, redElem_minMax hs false rnd sat hf hne he,
      redElem_minMax hs true rnd sat hf hne he⟩, fun f rnd sat es j hj _ => ?_, dotSum_bytes, fun fa fb x y c sat hacc => ?_⟩
  · refine ⟨?_, ?_, ?_, fun op hop => ?_⟩
    · rw [redElem, testBit_foldl_and, Nat.testBit_two_pow_sub_one, decide_eq_true hj, Bool.true_and]
    · rw [redElem, testBit_foldl_or, Nat.zero_testBit, Bool.false_or]
    · rw [redElem, testBit_foldl_xor, Nat.zero_testBit, Bool.false_xor]
    · simp only [List.mem_cons, List.not_mem_nil, or_false] at hop
      rcases hop with rfl | rfl | rfl <;> rfl
  · obtain ⟨ha, hb⟩ := dotAccepts_bits hacc
    obtain ⟨ff, hf⟩ := floatOf_of_shape (f := .f32) rfl
    have elemA (v i : Nat) : v / 2 ^ (8 * i) % 2 ^ 8 = fa.elem v i := by rw [Fmt.elem, ha]
    have elemB (v i : Nat) : v / 2 ^ (8 * i) % 2 ^ 8 = fb.elem v i := by rw [Fmt.elem, hb]
    refine ⟨fun nc z ps hc hps => ?_, fun i s hi hn => ?_⟩
    · beta_reduce at hps
      simp only [elemA x, elemB y] at hps
      have product (i : Nat) (hi : i < 4) := dotProduct_finite (hps i hi).1 (hps i hi).2
      obtain ⟨m, k, hv, hz⟩ := hc
      have acc : (Fmt.value .f32 c).1 = .fin nc m k := by rw [hv]
      have sum : dotSum fa fb .f32 x y c = _ := dotSum_fin ⟨nc, m, k, acc⟩ fun i hi => by
        obtain ⟨m, k, hp, -⟩ := product i hi
        exact ⟨_, m, k, hp⟩
      have rounded := hf.rounded_exactSum .rne sat false (α := Num × Bool × ℚ) (·.1) (·.2.1) (·.2.2)
        (((Fmt.value .f32 c).1, nc, z) ::
          (List.range 4).map fun i => ((dotProduct fa fb x y i).1, (ps i).1 != (ps i).2.2.1, (ps i).2.1 * (ps i).2.2.2))
        (List.forall_mem_cons.mpr ⟨⟨m, k, acc, hz⟩, fun e h => by
          obtain ⟨i, hi, rfl⟩ := List.mem_map.mp h
          exact product i (List.mem_range.mp hi)⟩)
      rw [sum]
      have rne : (Rnd.rne == Rnd.rd) = false := rfl
      simpa [List.map_map, List.all_map, Function.comp_def, rne] using rounded
    · beta_reduce at hn
      rw [elemA x, elemB y] at hn
      have nan : (dotProduct fa fb x y i).1.isNaN = true := by
        rcases hn with hn | hn | ⟨hs, n, hz⟩ | ⟨hs, n, hz⟩
        · exact mul_isNaN (by rw [hn, Bool.true_or])
        · exact mul_isNaN (by rw [hn, Bool.or_true])
        · obtain ⟨e, he⟩ := zero_of_finite hz
          rw [dotProduct, hs, he]
          exact (mul_inf_zero s n e).1
        · obtain ⟨e, he⟩ := zero_of_finite hz
          rw [dotProduct, hs, he]
          exact (mul_inf_zero s n e).2
      have sum : dotSum fa fb .f32 x y c = (.nan false, fIV) := dotSum_nan hi nan
      rw [sum]
      exact ⟨rfl, hf.round_nan .rne sat false rfl⟩

/-- Settles O22: a value is rounded once, to one of the two codes between which it lies, and the operations hand an exact rational to it. -/
theorem floatElements : Obligations.FloatElements := ⟨floatReads, floatRounding, floatArithmetic, floatSelection, sumsOnce⟩

end Sys2Proof.Claims
end

section
/-! SUPPORT for the encoding: the fields of a word that is put together from its parts, and what a decoder's answer says (03/R90 to R101). -/

namespace Sys2Proof

/-! ### Words and their parts -/

/-- `x` stands in `w` with its least significant bit at `lo`. -/
def At (w : Word) (lo : Nat) {n : Nat} (x : BitVec n) : Prop := field w lo n = x

@[simp] theorem field_word (w : Word) : field w 0 32 = w := BitVec.extractLsb'_eq_self

theorem at_word {w v : Word} : At w 0 v ↔ w = v := by rw [At, field_word]

/-- Two parts stand together where the low one stands and the high one just above it. -/
theorem at_append {m n lo : Nat} {x : BitVec m} {y : BitVec n} {w : Word} : At w lo (x ++ y) ↔ At w (lo + n) x ∧ At w lo y := by
  have parts : field w lo (m + n) = field w (lo + n) m ++ field w lo n :=
    (BitVec.extractLsb'_append_extractLsb'_eq_extractLsb' rfl).symm
  rw [At, parts]
  refine ⟨fun h => ?_, fun ⟨hx, hy⟩ => by rw [hx, hy]⟩
  have high := congrArg (BitVec.extractLsb' n m) h
  have low := congrArg (BitVec.extractLsb' 0 n) h
  simp only [BitVec.extractLsb'_append_eq_of_le, BitVec.extractLsb'_append_eq_of_add_le, le_refl, Nat.sub_self, zero_add,
    BitVec.extractLsb'_eq_self] at high low
  exact ⟨high, low⟩

@[simp] theorem DWord.hi_append_lo (x : DWord) : x.hi ++ x.lo = x :=
  (BitVec.extractLsb'_append_extractLsb'_eq_extractLsb' rfl).trans BitVec.extractLsb'_eq_self

@[simp] theorem DWord.lo_append (x y : Word) : DWord.lo (x ++ y) = y :=
  (BitVec.extractLsb'_append_eq_of_add_le (by decide)).trans BitVec.extractLsb'_eq_self

@[simp] theorem DWord.hi_append (x y : Word) : DWord.hi (x ++ y) = x :=
  (BitVec.extractLsb'_append_eq_of_le (by decide)).trans BitVec.extractLsb'_eq_self

/-! ### The decoder's answers -/

theorem zeros_eq_ok {ok : Bool} {i j : Instr} : zeros ok i = .ok j ↔ ok = true ∧ i = j := by
  cases ok <;> simp [zeros]

/-- An OP or LEN that the opcode map does not list (03/R107). -/
theorem decodeRaw_unlisted {w0 w1 w2 w3 w4 : Word} (h : lenListed (wordP w0) (wordOp w0) (wordLen w0) = false) :
    decodeRaw w0 w1 w2 w3 w4 = .ok (.unassignedOpcode w0) := by simp [decodeRaw, h]

/-- The decoder that LEN and P choose (03/R90, R91). -/
abbrev decodeBy (len p op : Nat) (w0 w1 w2 w3 w4 : Word) : Decoded :=
  match len, p with
  | 0, 0 => decodeOneS op w0
  | 0, _ => decodeOneV op w0
  | 1, 0 => decodeExtS op w0 w1 w2
  | 1, _ => decodeExtV op w0 w1 w2
  | 2, 0 => decodeLitS op w0 w1 w2
  | 2, _ => decodeLitV op w0 w1 w2
  | _, 0 => decodeExtLitS op w0 w1 w2 w3 w4
  | _, _ => decodeExtLitV op w0 w1 w2 w3 w4

theorem decodeRaw_listed {w0 w1 w2 w3 w4 : Word} (h : lenListed (wordP w0) (wordOp w0) (wordLen w0) = true) :
    decodeRaw w0 w1 w2 w3 w4 = decodeBy (wordLen w0) (wordP w0) (wordOp w0) w0 w1 w2 w3 w4 := if_pos h

/-- An instruction is decoded when it is read and its form is right (03/R108). -/
theorem decodeWords_eq_ok {w0 w1 w2 w3 w4 : Word} {i : Instr} :
    decodeWords w0 w1 w2 w3 w4 = .ok i ↔ decodeRaw w0 w1 w2 w3 w4 = .ok i ∧ i.wellFormed = true := by
  unfold decodeWords checkForm
  cases decodeRaw w0 w1 w2 w3 w4 with
  | error r => simp
  | ok j =>
    cases hj : j.wellFormed
    · simpa [hj] using fun h : j = i => h ▸ hj
    · simpa [hj] using fun h : j = i => h ▸ hj

end Sys2Proof
end

section
/-! PROOF of O1: what each decoder reads from the words that `encode` lays out. -/

namespace Sys2Proof.Claims

/-- Whatever words follow an instruction's own, it is read from them. -/
def ReadBack (i : Instr) : Prop :=
  ∀ rest, let ws := encode i ++ rest
    decodeRaw (nth ws 0) (nth ws 1) (nth ws 2) (nth ws 3) (nth ws 4) = .ok i

/-- A listed first word sends the words to the decoder that its LEN and P choose. -/
theorem readBack_of {i : Instr} {x : BitVec 21} {op : BitVec 8} {p : BitVec 1} {l : BitVec 2} {us : List Word}
    (he : encode i = (x ++ op ++ p ++ l : BitVec 32) :: us) (hl : lenListed p.toNat op.toNat l.toNat = true)
    (hd : ∀ rest, decodeBy l.toNat p.toNat op.toNat (x ++ op ++ p ++ l : BitVec 32) (nth (us ++ rest) 0) (nth (us ++ rest) 1)
      (nth (us ++ rest) 2) (nth (us ++ rest) 3) = .ok i) : ReadBack i := by
  intro rest
  obtain ⟨hlen, hp, hop⟩ := Laws.firstWord_fields x op p l
  rw [he]
  refine (decodeRaw_listed (w0 := (x ++ op ++ p ++ l : BitVec 32)) (by rw [hlen, hp, hop, hl])).trans ?_
  rw [hlen, hp, hop]
  exact hd rest

/-- Every instruction with words is read back from them: what is left of each is that the fields of its words are the parts they were put
together from. -/
theorem readBack {i : Instr} (hw : i.wellFormed = true) (hn : encode i ≠ []) : ReadBack i := by
  cases i
  any_goals exact absurd rfl hn
  case unassignedOpcode w =>
    intro rest
    have unlisted : (!lenListed (wordP w) (wordOp w) (wordLen w)) = true := hw
    exact decodeRaw_unlisted (w0 := w) (by simpa using unlisted)
  case commitBV => exact readBack_of rfl rfl fun _ => rfl
  case' commit => refine readBack_of rfl rfl fun _ => (if_neg ?_).trans (zeros_eq_ok.mpr ?_)
  any_goals refine readBack_of rfl rfl fun _ => zeros_eq_ok.mpr ?_
  all_goals simp only [vxOf, mxOf, msOf, mlOf, nth, List.append_eq, List.cons_append, List.nil_append, List.getD_cons_zero, List.getD_cons_succ,
    DWord.hi_append_lo, field, BitVec.extractLsb'_append_eq_of_le, BitVec.extractLsb'_append_eq_of_add_le, Nat.reduceLeDiff, Nat.reduceSub, BitVec.extractLsb'_eq_self,
    beq_self_eq_true, Bool.and_self, and_self, BitVec.reduceEq, not_false_eq_true]

/-- Settles O1: an instruction is read back from its words, and its form is right. -/
theorem decodeOfEncode : Obligations.DecodeOfEncode :=
  fun _ rest hw hn => decodeWords_eq_ok.mpr ⟨readBack hw hn rest, hw⟩

end Sys2Proof.Claims
end

section
/-! PROOF of O2: what each decoder answers is laid out by `encode` as the words it was read from. -/

namespace Sys2Proof

/-- The words of an instruction begin a list of words. -/
structure Spells (i : Instr) (ws : List Word) : Prop where
  nonempty : encode i ≠ []
  begins : encode i <+: ws

theorem Spells.eq_take {i : Instr} {ws : List Word} (h : Spells i ws) : encode i = ws.take (encode i).length :=
  List.prefix_iff_eq_take.mp h.begins

theorem spells_of_eq {i : Instr} {w : Word} {vs us ws : List Word} (he : encode i = w :: vs) (hw : ws = w :: vs ++ us) : Spells i ws :=
  ⟨by simp [he], us, by rw [he, hw]⟩

theorem spells_unassigned {w0 : Word} {i : Instr} {ws : List Word} (h : (.ok (.unassignedOpcode w0) : Decoded) = .ok i) :
    Spells i (w0 :: ws) := by
  obtain rfl := Except.ok.inj h
  exact spells_of_eq rfl rfl

/-! ### Answers of one, three and five words -/

section
variable {ok : Bool} {i j : Instr} {w0 w1 w2 w3 w4 v0 v1 v2 v3 v4 : Word} (h : zeros ok i = .ok j)
include h

theorem spells_one (he : encode i = [v0]) (hv : ok = true → At w0 0 v0) : Spells j [w0, w1, w2, w3, w4] := by
  obtain ⟨hok, rfl⟩ := zeros_eq_ok.mp h
  obtain rfl := at_word.mp (hv hok)
  exact spells_of_eq he rfl

theorem spells_three (he : encode i = [v0, v1, v2]) (hv : ok = true → At w0 0 v0 ∧ At w1 0 v1 ∧ At w2 0 v2) :
    Spells j [w0, w1, w2, w3, w4] := by
  obtain ⟨hok, rfl⟩ := zeros_eq_ok.mp h
  simp only [at_word] at hv
  obtain ⟨rfl, rfl, rfl⟩ := hv hok
  exact spells_of_eq he rfl

theorem spells_five (he : encode i = [v0, v1, v2, v3, v4])
    (hv : ok = true → At w0 0 v0 ∧ At w1 0 v1 ∧ At w2 0 v2 ∧ At w3 0 v3 ∧ At w4 0 v4) : Spells j [w0, w1, w2, w3, w4] := by
  obtain ⟨hok, rfl⟩ := zeros_eq_ok.mp h
  simp only [at_word] at hv
  obtain ⟨rfl, rfl, rfl, rfl, rfl⟩ := hv hok
  exact spells_of_eq (us := []) he rfl

end

/-- COMMIT and COMMIT.B.V share an OP, and bit 14 tells them apart (03/R105). -/
theorem zeros_of_bit {b : BitVec 1} {ok ok' : Bool} {i i' j : Instr} (h : (if b = 1#1 then zeros ok i else zeros ok' i') = .ok j) :
    zeros (ok && b == 1#1) i = .ok j ∨ zeros (ok' && b == 0#1) i' = .ok j := by
  rcases BitVec.eq_zero_or_eq_one b with rfl | rfl
  · exact .inr (by simpa using h)
  · exact .inl (by simpa using h)

/-! ### One lemma for each LEN and pipe -/

section
variable {op : Nat} {w0 w1 w2 w3 w4 : Word} {i : Instr} (hop : field w0 3 8 = BitVec.ofNat 8 op)
include hop

theorem spells_oneS (hlen : field w0 0 2 = 0#2) (hp : field w0 2 1 = 0#1) (h : decodeOneS op w0 = .ok i) :
    Spells i [w0, w1, w2, w3, w4] := by
  unfold decodeOneS at h
  split at h
  on_goal -1 => exact spells_unassigned h
  -- the row of COMMIT and COMMIT.B.V
  on_goal 76 => rcases zeros_of_bit h with h | h
  all_goals
    refine spells_one h rfl ?_
    simp only [at_append]
    simp +contextual [At, hop, hlen, hp]

theorem spells_oneV (hlen : field w0 0 2 = 0#2) (hp : field w0 2 1 = 1#1) (h : decodeOneV op w0 = .ok i) :
    Spells i [w0, w1, w2, w3, w4] := by
  unfold decodeOneV at h
  split at h
  on_goal -1 => exact spells_unassigned h
  all_goals
    refine spells_one h rfl ?_
    simp only [at_append]
    simp +contextual [At, hop, hlen, hp]

theorem spells_extS (hlen : field w0 0 2 = 1#2) (hp : field w0 2 1 = 0#1) (h : decodeExtS op w0 w1 w2 = .ok i) :
    Spells i [w0, w1, w2, w3, w4] := by
  unfold decodeExtS at h
  split at h
  on_goal -1 => exact spells_unassigned h
  all_goals
    refine spells_three h rfl ?_
    simp only [at_append]
    simp +contextual [At, msOf, mlOf, hop, hlen, hp]

theorem spells_extV (hlen : field w0 0 2 = 1#2) (hp : field w0 2 1 = 1#1) (h : decodeExtV op w0 w1 w2 = .ok i) :
    Spells i [w0, w1, w2, w3, w4] := by
  unfold decodeExtV at h
  split at h
  on_goal -1 => exact spells_unassigned h
  all_goals
    refine spells_three h rfl ?_
    simp only [at_append]
    simp +contextual [At, vxOf, mxOf, hop, hlen, hp]

theorem spells_litS (hlen : field w0 0 2 = 2#2) (hp : field w0 2 1 = 0#1) (h : decodeLitS op w0 w1 w2 = .ok i) :
    Spells i [w0, w1, w2, w3, w4] := by
  unfold decodeLitS at h
  split at h
  on_goal -1 => exact spells_unassigned h
  all_goals
    refine spells_three h rfl ?_
    simp only [at_append]
    simp +contextual [At, hop, hlen, hp]

theorem spells_litV (hlen : field w0 0 2 = 2#2) (hp : field w0 2 1 = 1#1) (h : decodeLitV op w0 w1 w2 = .ok i) :
    Spells i [w0, w1, w2, w3, w4] := by
  unfold decodeLitV at h
  split at h
  on_goal -1 => exact spells_unassigned h
  all_goals
    refine spells_three h rfl ?_
    simp only [at_append]
    simp +contextual [At, hop, hlen, hp]

theorem spells_extLitS (hlen : field w0 0 2 = 3#2) (hp : field w0 2 1 = 0#1) (h : decodeExtLitS op w0 w1 w2 w3 w4 = .ok i) :
    Spells i [w0, w1, w2, w3, w4] := by
  unfold decodeExtLitS at h
  split at h
  on_goal -1 => exact spells_unassigned h
  all_goals
    refine spells_five h rfl ?_
    simp only [at_append]
    simp +contextual [At, msOf, hop, hlen, hp]

theorem spells_extLitV (hlen : field w0 0 2 = 3#2) (hp : field w0 2 1 = 1#1) (h : decodeExtLitV op w0 w1 w2 w3 w4 = .ok i) :
    Spells i [w0, w1, w2, w3, w4] := by
  unfold decodeExtLitV at h
  split at h
  on_goal -1 => exact spells_unassigned h
  all_goals
    refine spells_five h rfl ?_
    simp only [at_append]
    simp +contextual [At, mxOf, hop, hlen, hp]

end

/-! ### O2 -/

/-- LEN and P send a listed first word to its decoder (03/R90, R91). -/
theorem spells_of_decodeRaw {w0 w1 w2 w3 w4 : Word} {i : Instr} (h : decodeRaw w0 w1 w2 w3 w4 = .ok i) : Spells i [w0, w1, w2, w3, w4] := by
  cases listed : lenListed (wordP w0) (wordOp w0) (wordLen w0)
  · exact spells_unassigned ((decodeRaw_unlisted listed).symm.trans h)
  · have hop : field w0 3 8 = BitVec.ofNat 8 (wordOp w0) := ((BitVec.ofNat_toNat ..).trans (BitVec.setWidth_eq _)).symm
    have lens : ∀ l : BitVec 2, l = 0 ∨ l = 1 ∨ l = 2 ∨ l = 3 := by decide
    have len : wordLen w0 = (field w0 0 2).toNat := rfl
    have pipe : wordP w0 = (field w0 2 1).toNat := rfl
    rw [decodeRaw, if_pos listed, len, pipe] at h
    rcases lens (field w0 0 2) with hlen | hlen | hlen | hlen <;> rcases BitVec.eq_zero_or_eq_one (field w0 2 1) with hp | hp <;>
      rw [hlen, hp] at h
    · exact spells_oneS hop hlen hp h
    · exact spells_oneV hop hlen hp h
    · exact spells_extS hop hlen hp h
    · exact spells_extV hop hlen hp h
    · exact spells_litS hop hlen hp h
    · exact spells_litV hop hlen hp h
    · exact spells_extLitS hop hlen hp h
    · exact spells_extLitV hop hlen hp h

namespace Claims

/-- Settles O2: each decoder's answer is laid out as the words it was read from, and the decoder lets only right forms through. -/
theorem encodeOfDecode : Obligations.EncodeOfDecode := by
  intro w0 w1 w2 w3 w4 i h
  obtain ⟨raw, hw⟩ := decodeWords_eq_ok.mp h
  have spells := spells_of_decodeRaw raw
  exact ⟨hw, spells.nonempty, spells.eq_take⟩

end Claims

end Sys2Proof
end

section
/-! SUPPORT for the fetch: where it ends, and what the wave in focus then does (03/R108, 06/R187). -/

namespace Sys2Proof.Machine

/-! ### The words of an instruction -/

/-- The words at the pc decode to what the decoder reads from their list. -/
theorem State.fetch_ok {s : State} {w0 : Word} {ws : List Word} (h0 : s.codeWord s.w.pc = .ok w0)
    (hs : s.moreWords (wordsAsked w0) (s.w.pc + 4) = .ok ws) : s.fetch = .ok (w0, Claims.decodeList (w0 :: ws)) := by
  rw [State.fetch, h0]
  show (s.moreWords (wordsAsked w0) (s.w.pc + 4) >>= _) = _
  rw [hs]
  rfl

/-- The address of word `k`, counted from the word after `va`. -/
theorem address_succ (va : DWord) (k : Nat) : va + 4 + BitVec.ofNat 64 (4 * k) = va + BitVec.ofNat 64 (4 * (k + 1)) := by
  rw [Nat.mul_succ, BitVec.ofNat_add, BitVec.add_assoc, BitVec.add_comm (4 : DWord)]
  rfl

/-- The first of the words after word 0 that cannot be read stops them. -/
theorem State.moreWords_error {s : State} {h : Halt} {n k : Nat} {va : DWord} (hk : k < n)
    (before : ∀ j, j < k → ∃ x, s.codeWord (va + BitVec.ofNat 64 (4 * j)) = .ok x)
    (at_k : s.codeWord (va + BitVec.ofNat 64 (4 * k)) = .error h) : s.moreWords n va = .error h := by
  induction n generalizing k va with
  | zero => exact absurd hk (Nat.not_lt_zero k)
  | succ n ih =>
    rw [State.moreWords]
    cases k with
    | zero => rw [show s.codeWord va = .error h by simpa using at_k]; rfl
    | succ k =>
      obtain ⟨x, hx⟩ := before 0 k.succ_pos
      rw [show s.codeWord va = .ok x by simpa using hx]
      show (s.moreWords n (va + 4) >>= _) = _
      rw [ih (k := k) (by omega) (fun j hj => address_succ va j ▸ before (j + 1) (by omega)) (address_succ va k ▸ at_k)]
      rfl

/-- The first word of an instruction that cannot be read stops its fetch: word 0, or one that word 0 asks for. -/
theorem State.fetch_error {s : State} {h : Halt} {k : Nat} (asked : k = 0 ∨ ∃ w0, s.codeWord s.w.pc = .ok w0 ∧ k ≤ wordsAsked w0)
    (before : ∀ j, j < k → ∃ x, s.codeWord (s.w.pc + BitVec.ofNat 64 (4 * j)) = .ok x)
    (at_k : s.codeWord (s.w.pc + BitVec.ofNat 64 (4 * k)) = .error h) : s.fetch = .error h := by
  rw [State.fetch]
  cases k with
  | zero => rw [show s.codeWord s.w.pc = .error h by simpa using at_k]; rfl
  | succ k =>
    obtain ⟨w0, h0, hk⟩ := asked.resolve_left k.succ_ne_zero
    rw [h0]
    show (s.moreWords (wordsAsked w0) (s.w.pc + 4) >>= _) = _
    rw [s.moreWords_error (k := k) hk (fun j hj => address_succ s.w.pc j ▸ before (j + 1) (by omega)) (address_succ s.w.pc k ▸ at_k)]
    rfl

/-! ### What the wave in focus does -/

theorem stepWave_idle {s : State} (hr : s.runnable = false) : stepWave s = .next s := by simp [stepWave, State.todo, hr]

theorem stepWave_held {s : State} {i : Instr} (hr : s.runnable = true) (hi : s.heldInstr = some i) : stepWave s = exec i s := by
  simp [stepWave, State.todo, hr, hi]

section
variable {s : State} (hr : s.runnable = true) (hn : s.heldInstr = none)
include hr hn

theorem stepWave_fetched {w0 : Word} {i : Instr} (hf : s.fetch = .ok (w0, .ok i)) : stepWave s = exec i s := by
  simp [stepWave, State.todo, hr, hn, hf]

theorem stepWave_rejected {w0 : Word} {r : Reject} (hf : s.fetch = .ok (w0, .error r)) :
    stepWave s = .next (if isMloop w0 && s.loopsFull then s.await .mbusy else s.illop (wordP w0 == 1)) := by
  cases hm : isMloop w0 && s.loopsFull <;> simp [stepWave, State.todo, hr, hn, hf, hm]

theorem stepWave_unfetched {h : Halt} (hf : s.fetch = .error h) : stepWave s = exec .instructionFetchFailure s := by
  simp [stepWave, State.todo, hr, hn, hf]

/-- A fetch that fails ends in its stop (03/R108). -/
theorem exec_instructionFetchFailure {h : Halt} (hf : s.fetch = .error h) : exec .instructionFetchFailure s = .next (s.halted h) := by
  show execInstructionFetchFailure s = _
  simp [execInstructionFetchFailure, hr, hn, hf]

end

theorem State.heldInstr_eq_some {s : State} {i : Instr} (hb : s.w.life.blocked = true) (hi : s.w.issued = some i) : s.heldInstr = some i := by
  simp [State.heldInstr, hb, hi]

theorem State.heldInstr_eq_none {s : State} (h : s.w.life.blocked = false ∨ s.w.issued = none) : s.heldInstr = none := by
  rcases h with h | h <;> simp [State.heldInstr, h]

/-- With nothing on the agenda it is the wave in focus that has its turn. -/
theorem step_of_agenda_nil {s : State} (h : s.agenda = []) : step s = stepWave (Claims.begun s) := by
  cases s
  cases h
  rfl

end Sys2Proof.Machine
end

section
/-! PROOF of O4: a step with an empty agenda, by what the wave in focus holds and what its fetch answers; then a turn of the agenda. -/

namespace Sys2Proof.Claims

open Sys2Proof.Machine

theorem stepRunsFetched : StepRunsDecoded := by
  intro s w0 ha hr
  rw [step_of_agenda_nil ha]
  refine ⟨fun i hb hi => stepWave_held hr (State.heldInstr_eq_some (s := begun s) hb hi), fun idle => ?_⟩
  have hn : (begun s).heldInstr = none := State.heldInstr_eq_none (s := begun s) idle
  refine ⟨fun ws i h0 hs hd => ?_, fun ws r h0 hs hd => ?_, fun h he => ?_, fun h k h0 _ hk before at_k => ?_⟩
  · exact stepWave_fetched hr hn ((State.fetch_ok (s := begun s) h0 hs).trans (by rw [hd]))
  · exact stepWave_rejected hr hn ((State.fetch_ok (s := begun s) h0 hs).trans (by rw [hd]))
  · exact stepWave_unfetched hr hn (State.fetch_error (k := 0) (.inl rfl) nofun (by simpa [begun] using he))
  · exact stepWave_unfetched hr hn (State.fetch_error (s := begun s) (.inr ⟨w0, h0, hk⟩) before at_k)

theorem stepRunsAgenda : StepRunsAgenda := by
  refine fun s ts => ⟨fun i f ha he => ?_, fun k ha => ?_⟩
  · cases s
    cases ha
    exact if_pos he
  · cases s
    cases ha
    rfl

/-- Each reason to issue nothing is one conjunct of `State.runnable` that fails. -/
theorem idleStep : IdleStep := by
  intro s ha hw
  rw [step_of_agenda_nil ha]
  refine stepWave_idle ?_
  change s.runnable = false
  rcases hw with h | h | h | h | h | ⟨p, h⟩ | h
  · exact s.not_runnable_of_stopped (s.stopped_iff.mpr (.inl h))
  · exact s.not_runnable_of_stopped (State.stopped_of_unpowered h)
  all_goals simp [State.runnable, h]

/-- Settles O4: a step is the turn of the wave in focus, or of the event on the agenda. -/
theorem stepRunsDecoded : Obligations.StepRunsDecoded := ⟨stepRunsFetched, stepRunsAgenda, idleStep⟩

end Sys2Proof.Claims
end

section
/-! PROOF of O17: the state that ILLOP leaves, the words that cannot be read, and the instructions whose form is wrong. -/

namespace Sys2Proof.Machine

/-! ### Trap entry -/

/-- A trap that finds its handler enters it, and changes nothing but the trap state, HM and the pc (04/R147). -/
theorem State.trapEntry_handled {s : State} (h : Claims.CanHandle s) (t : TrapInfo) (tpc : DWord) :
    Claims.Handled s (s.trapEntry t tpc) t.cause t.arg tpc t.taddr t.lanes ∧ (s.trapEntry t tpc).w.seqno = s.w.seqno := by
  obtain ⟨hhm, h0, h4⟩ := h
  have hmBit (k : Nat) : stHM.getLsbD k = decide (k = 1) := by
    rw [show stHM = BitVec.twoPow 32 1 from rfl, BitVec.getLsbD_twoPow]
    simp [eq_comm]
  rw [State.trapEntry_handler s t tpc hhm h0 h4]
  refine ⟨⟨rfl, rfl, rfl, rfl, rfl, ?_, fun k hk => ?_, rfl, ⟨rfl, rfl, rfl, rfl, rfl⟩, ⟨rfl, rfl, rfl⟩, fun _ => rfl⟩, rfl⟩
  · simp [State.hm, hmBit]
  · simp [hmBit, hk]

/-- ILLOP names the active lanes for a vector instruction, and none for a scalar one (04/R146). -/
theorem State.illop_eq (s : State) (w : Word) : s.illop (wordP w == 1) =
    s.trapEntry { cause := .illop, lanes := if wordP w = 1 then s.exec3 else noLanes } s.w.pc := by
  cases h : wordP w == 1
  · rw [State.illop, if_neg (by decide), if_neg (by simpa using h)]
  · rw [State.illop, if_pos rfl, if_pos (by simpa using h)]

theorem wordP_eq_one (w : Word) : wordP w = 1 ↔ w.getLsbD 2 = true := by
  rw [BitVec.getLsbD_eq_extractLsb', beq_iff_eq]
  exact BitVec.toNat_inj (y := 1#1)

/-! ### Words that cannot be read -/

/-- A word whose place is not found. -/
theorem State.codeWord_of_place {s : State} {va : DWord} {h : Halt} (hp : s.codePlace va = .error h) : s.codeWord va = .error h := by
  rw [State.codeWord, hp]
  rfl

/-- A word whose first byte cannot be read. -/
theorem State.codeWord_of_byte {s : State} {va : DWord} {a dev pa : Nat} {h : Halt} (hp : s.codePlace va = .ok (a, dev, pa))
    (hb : s.codeByte va a dev pa = .error h) : s.codeWord va = .error h := by
  rw [State.codeWord, hp]
  show (s.codeByte va a dev pa >>= _) = _
  rw [hb]
  rfl

/-- FETCH with the address of the word (03/R108). -/
def fetchTrap (va : DWord) : Halt := .trap { cause := .fetch, taddr := va }

/-- The park of a word whose home does not answer (13/R362). -/
def fetchAway (va : DWord) : Halt := .park { cause := .page, addr := va, access := 4, link := true }

section
variable {s : State} {va : DWord}

theorem State.codePlace_denied (h : s.leftRegion s.w.ctx s.w.pc va = true ∨ (∃ e, s.regionCheck s.w.ctx { r := true } va 4 = .error (.prot e))) :
    s.codePlace va = .error (fetchTrap va) := by
  by_cases hl : s.leftRegion s.w.ctx s.w.pc va = true
  · simp [State.codePlace, hl, fetchTrap]
  · obtain ⟨e, he⟩ := h.resolve_left hl
    simp [State.codePlace, he, fetchTrap]

theorem State.codePlace_heldRegion {dev line : Nat} (hl : s.leftRegion s.w.ctx s.w.pc va = false)
    (hr : s.regionCheck s.w.ctx { r := true } va 4 = .error (.held dev line)) : s.codePlace va = .error (.recall dev line) := by
  simp [State.codePlace, hl, hr]

/-- Inside its region, a word lies where its address translates to (13/R353). -/
theorem State.codePlace_translate {a : Nat} (hl : s.leftRegion s.w.ctx s.w.pc va = false)
    (hr : s.regionCheck s.w.ctx { r := true } va 4 = .ok a) : s.codePlace va = match s.translate s.w.ctx a with
      | .poison => .error (fetchTrap va)
      | .held dev line => .error (.recall dev line)
      | .away => .error (fetchAway va)
      | .absent m => .error (.park { cause := .page, addr := va, access := 4, malf := m })
      | .leaf l => if l.r && l.x then .ok (a, l.dev, l.pa a) else .error (fetchTrap va) := by
  simp only [State.codePlace, hl, hr]
  rfl

/-- A byte that neither the wave nor its core holds comes from its home (08/R245, 14/R392, 15/R405). -/
theorem State.codeByte_home (a dev pa : Nat) (hd : s.w.decoded = []) (hf : s.w.fetched = []) (hi : s.co.icache = []) :
    s.codeByte va a dev pa =
      if dev ≠ s.dev.devnum ∧ s.reachable dev = false then .error (fetchAway va)
      else if s.heldLine dev (lineOf pa) then .error (.recall dev (lineOf pa))
      else if s.homePoison dev pa then .error (fetchTrap va)
      else .ok (BitVec.ofNat 8 (s.homeValue dev pa 1)) := by
  simp [State.codeByte, Core.codeByte, hd, hf, hi, fetchAway, fetchTrap]

end

end Sys2Proof.Machine

namespace Sys2Proof.Claims

open Sys2Proof.Machine

/-! ### Unassigned opcodes and fetches that fail -/

theorem unassignedOpcodeTraps : UnassignedOpcodeTraps := by
  intro s w h
  refine ⟨_, congrArg Host.Outcome.next (s.illop_eq w), ?_⟩
  simp only [← wordP_eq_one]
  exact State.trapEntry_handled h _ _

theorem fetchFails : FetchFails := by
  intro s hr
  refine ⟨fun held => ?_, fun hn k p hp asked before => ?_⟩
  · show execInstructionFetchFailure s = _
    exact if_neg fun h => held h.2
  have stops {h : Halt} (hw : s.codeWord p = .error h) : exec .instructionFetchFailure s = .next (s.halted h) :=
    exec_instructionFetchFailure hr hn (State.fetch_error asked before (hp ▸ hw))
  refine ⟨fun h => stops (State.codeWord_of_place (State.codePlace_denied h)),
    fun dev line hl h => stops (State.codeWord_of_place (State.codePlace_heldRegion hl h)), fun a hl ha => ?_⟩
  have place := State.codePlace_translate hl ha
  refine ⟨fun h => ?_, fun m h => ?_, fun h => ?_, fun dev line h => ?_, fun l h hlr hlx hd hf hi => ?_⟩
  · refine stops (h := fetchTrap p) (State.codeWord_of_place ?_)
    rcases h with h | ⟨l, h, hx⟩
    · rw [place, h]
    · rw [place, h]
      exact if_neg (by simp [hx])
  · exact stops (State.codeWord_of_place (by rw [place, h]))
  · exact stops (h := fetchAway p) (State.codeWord_of_place (by rw [place, h]))
  · exact stops (State.codeWord_of_place (by rw [place, h]))
  rw [h] at place
  replace place : s.codePlace p = .ok (a, l.dev, l.pa a) := place.trans (if_pos (by simp [hlr, hlx]))
  have byte := State.codeByte_home (va := p) a l.dev (l.pa a) hd hf hi
  refine ⟨fun away => ?_, fun near held => ?_, fun near free bad => ?_⟩
  · exact stops (h := fetchAway p) (State.codeWord_of_byte place (byte.trans (if_pos away)))
  · exact stops (State.codeWord_of_byte place (by rw [byte, if_neg near, if_pos held]))
  · exact stops (h := fetchTrap p) (State.codeWord_of_byte place (by rw [byte, if_neg near, if_neg (by simp [free]), if_pos bad]))

/-! ### Instructions whose form is wrong (03/R94, R108) -/

/-- An instruction whose form is wrong raises ILLOP with the lanes of its pipe, unless it is an MLOOP that does not issue. -/
def TrapsIllFormed (i : Instr) : Prop :=
  ∀ s : State, (∀ m, i = .mloop m → s.co.loops.length < 8) → exec i s = .next (s.illop (wordP (nth (encode i) 0) == 1))

/-- The pipe of a first word, from the parts it is put together from. -/
theorem trapsIllFormed_of_pipe {i : Instr} {x : BitVec 29} {p : BitVec 1} {l : BitVec 2} {ws : List Word}
    (he : encode i = (x ++ p ++ l : BitVec 32) :: ws)
    (hx : ∀ s : State, (∀ m, i = .mloop m → s.co.loops.length < 8) → exec i s = .next (s.illop (p.toNat == 1))) : TrapsIllFormed i := by
  intro s hm
  rw [he, hx s hm, ← wordP_append x p l]
  rfl

/-- An instruction that looks at its form first, and whose claim is of the pipe that its first word names. -/
theorem trapsIllFormed_of {i : Instr} {x : BitVec 29} {p : BitVec 1} {l : BitVec 2} {ws : List Word} {act : State → Out} {vector : Bool}
    (hw : i.wellFormed = false) (he : encode i = (x ++ p ++ l : BitVec 32) :: ws)
    (hx : ∀ s, exec i s = if i.wellFormed then act s else .next (s.illop vector)) (hv : vector = (p.toNat == 1)) : TrapsIllFormed i :=
  trapsIllFormed_of_pipe he fun s _ => (hx s).trans (by rw [hw, hv, if_neg Bool.false_ne_true])

theorem loadClaim_isVector (vec : Bool) (lvl : Nat) : (loadClaim vec lvl).isVector = vec := by
  unfold loadClaim
  cases vec <;> split <;> rfl

/-- Each instruction looks at its form before it acts, and the claim of its pipe is the one of P in its first word. -/
theorem trapsIllFormed {i : Instr} (hw : i.wellFormed = false) : TrapsIllFormed i := by
  cases i
  any_goals cases hw
  case unassignedOpcode => exact fun _ _ => rfl
  case vld | vldOffset64 => exact trapsIllFormed_of hw (p := 1#1) rfl (fun _ => rfl) (loadClaim_isVector ..)
  case sld | sldMs | sldOffset64 => exact trapsIllFormed_of hw (p := 0#1) rfl (fun _ => rfl) (loadClaim_isVector ..)
  case mloop m =>
    refine trapsIllFormed_of_pipe (p := 0#1) rfl fun s hm => (if_neg ?_).trans (run_illop _ _ _ s hw)
    have room : s.co.loops.length < 8 := hm m rfl
    exact fun full => room.not_ge (of_decide_eq_true (p := 8 ≤ s.co.loops.length) full)
  all_goals exact trapsIllFormed_of hw rfl (fun _ => rfl) rfl

theorem illFormedTraps : IllFormedTraps := by
  intro s i hw hm
  have traps := (trapsIllFormed hw s hm).trans (congrArg Host.Outcome.next (s.illop_eq _))
  exact ⟨traps, fun h => ⟨_, traps, State.trapEntry_handled h _ _⟩⟩

/-- Settles O17: what is not assigned, what is ill-formed and what cannot be fetched. -/
theorem illegalInstructions : Obligations.IllegalInstructions := ⟨unassignedOpcodeTraps, illFormedTraps, fetchFails⟩

end Sys2Proof.Claims
end

section
/-! PROOF of O19: the bit, move, select and exchange instructions, each by what its one act answers, and their completion over no
pending spill. -/

namespace Sys2Proof.Machine

/-- What a bit and move instruction gives to its write: the lanes that `f` names, under va's tag. -/
theorem bitwise_window {v : VOp} {srcs : List Nat} {s : State} (f : State → Nat → Word) (hwin : Claims.InWindow s (v.vd :: srcs)) :
    bitwise v srcs f s = writeResult v.vd (s.vreg v.va).fmt (s.vreg v.va).bnd false true 0
      (s.active.map fun l => (l, (f s l).toNat)) s := by
  rw [bitwise, get_bind]
  exact Act.bind_ok _ _ _ _ _ (window_ok hwin)

/-- A bit and move instruction that is run writes its lanes and raises no flag (05/R156). -/
theorem bitsInto {v : VOp} {srcs : List Nat} {f : State → Nat → Word} {s u : State} {i : Instr} {n : Nat} (hs : Claims.Calm s)
    (hu : Claims.Calm u) (he : exec i s = run i .vpipe (bitwise v srcs f) s) (hn : i.size = n) :
    Claims.BitsInto s u n v.vd v.va srcs (f s) i := by
  intro hw hwin hsp hb
  have done := (bitwise_window f hwin).trans (writeResult_unbound hsp hb fun _ => rfl)
  have next := run_written he hn hs hu hw done
  rwa [State.raise_zero] at next

/-- Both forms of a two-operand bit instruction (05/R157, R163). -/
theorem bits2 {f : Word → Word → Word} {vd va vb : BitVec 7} {x : VX} {s u : State} {i j : Instr} (hs : Claims.Calm s) (hu : Claims.Calm u)
    (hi : exec i s = run i .vpipe (bitwise2 f (v3Op vd va vb)) s) (hj : exec j s = run j .vpipe (bitwise2 f (vxOp x)) s)
    (ni : i.size = 4) (nj : j.size = 12) : Claims.Bits2 s u vd va vb x f i j := by
  refine ⟨bitsInto hs hu hi ni, ?_⟩
  have long := bitsInto hs hu hj nj
  simp only [VOp.bword, vxOp] at long
  by_cases h : x.i = 1#1
  · simpa only [h, if_true, Option.isSome_some, Option.getD_some] using long
  · simpa only [h, if_false, Option.isSome_none, Bool.false_eq_true, Option.getD_none] using long

/-- Both forms of a one-operand bit instruction (05/R163). -/
theorem bits1 {f : Word → Word} {vd va : BitVec 7} {x : VX} {s u : State} {i j : Instr} (hs : Claims.Calm s) (hu : Claims.Calm u)
    (hi : exec i s = run i .vpipe (bitwise1 f (v3Op vd va 0)) s) (hj : exec j s = run j .vpipe (bitwise1 f (vxOp x)) s)
    (ni : i.size = 4) (nj : j.size = 12) : Claims.Bits1 s u vd va x f i j :=
  ⟨bitsInto hs hu hi ni, bitsInto hs hu hj nj⟩

/-- The one bits of a word are as many as the places that hold one. -/
theorem popCount_eq (a : Word) : popCount a = BitVec.ofNat 32 ((List.range 32).filter fun k => a.getLsbD k).length := by
  rw [popCount, List.countP_eq_length_filter]

/-- A bit and move instruction whose result is written over no pending spill completes. -/
theorem bitsComplete {s : State} {n vd va : Nat} {srcs regs : List Nat} {val : Nat → Word} {i : Instr}
    (h : Claims.BitsInto s s n vd va srcs val i) (hsub : ∀ m ∈ srcs, m ∈ va :: regs) : Claims.BitsComplete s n vd va regs i := by
  intro hw hwin hp hb
  have inWindow : Claims.InWindow s (vd :: srcs) :=
    List.forall_mem_cons.mpr ⟨hwin vd List.mem_cons_self, fun m hm => hwin m (List.mem_cons_of_mem _ (hsub m hm))⟩
  have next := h hw inWindow (spilled_of_noPend hp) hb
  rw [← State.raise_zero (Claims.written ..)] at next
  exact completes_written next

end Sys2Proof.Machine

namespace Sys2Proof.Claims
open Sys2Proof.Machine

/-! ### O19 -/

theorem bitsAndMoves : VectorBits := by
  intro s u vd va vb x hs hu
  have bfe : exec (.vbfe x) s = run (.vbfe x) .vpipe (bitwise1 _ (vxOp x)) s := rfl
  have bfi : exec (.vbfi x) s = run (.vbfi x) .vpipe (bitwise (vxOp x) _ _) s := rfl
  rw [← funext popCount_eq]
  exact ⟨bits2 hs hu rfl rfl rfl rfl, bits2 hs hu rfl rfl rfl rfl, bits2 hs hu rfl rfl rfl rfl, bits2 hs hu rfl rfl rfl rfl,
    bits2 hs hu rfl rfl rfl rfl, bits2 hs hu rfl rfl rfl rfl, bits2 hs hu rfl rfl rfl rfl, bits1 hs hu rfl rfl rfl rfl,
    bits1 hs hu rfl rfl rfl rfl, bits1 hs hu rfl rfl rfl rfl, bitsInto hs hu bfe rfl, bitsInto hs hu bfi rfl⟩

theorem selectAndExchange : VectorSelectAndExchange := by
  intro s u vd va vb x hs hu chosen w d j
  have sel : exec (.vsel vd va vb) s = run (.vsel vd va vb) .vpipe (vselect (v3Op vd va vb)) s := rfl
  have selVx : exec (.vselVx x) s = run (.vselVx x) .vpipe (vselect (vxOp x)) s := rfl
  have shfl : exec (.vshfl x) s = run (.vshfl x) .vpipe (exchange (vxOp x) _ _) s := rfl
  have bcast : exec (.vbcast x) s = run (.vbcast x) .vpipe (exchange (vxOp x) _ _) s := rfl
  refine ⟨bitsInto hs hu sel rfl, bitsInto hs hu selVx rfl, ?_, ?_⟩
  · have lane (l : Nat) : shflLane x s l = l / w * w + j (l % w) l := by
      rw [Nat.div_mul_self_eq_mod_sub_self]
      simp only [shflLane, j, ← not_lt, ite_not] <;> rfl
    have srcs : (if x.f = 0 then [x.va.toNat, x.vb.toNat] else [x.va.toNat]) = [x.va.toNat] ++ if x.f = 0#4 then [x.vb.toNat] else [] := by
      by_cases h : x.f = 0#4 <;> simp [h]
    simp only [← lane, srcs]
    exact bitsInto hs hu shfl rfl
  · have lane (l : Nat) : l - l % x.width + x.delta = l / w * w + d := by rw [Nat.div_mul_self_eq_mod_sub_self]; rfl
    simp only [← lane]
    exact bitsInto hs hu bcast rfl

theorem bitsCompleted : VectorBitsComplete := by
  intro s d a b x hs two one long
  have va : ∀ m ∈ [x.va.toNat], m ∈ [x.va.toNat, x.vb.toNat] := by simp
  have oneOf (p : Prop) [Decidable p] (ms ns : List Nat) (hm : ms ⊆ [x.va.toNat, x.vb.toNat]) (hn : ns ⊆ [x.va.toNat, x.vb.toNat]) :
      (if p then ms else ns) ⊆ [x.va.toNat, x.vb.toNat] := by split <;> assumption
  have binary {f : Word → Word → Word} {i j : Instr} (h : Bits2 s s d a b x f i j) : two i ∧ long j :=
    ⟨bitsComplete h.1 fun _ => id, bitsComplete h.2 (oneOf _ _ _ va fun _ => id)⟩
  have unary {f : Word → Word} {i j : Instr} (h : Bits1 s s d a x f i j) : one i ∧ long j :=
    ⟨bitsComplete h.1 fun _ => id, bitsComplete h.2 va⟩
  obtain ⟨vand, vor, vxor, vandn, vshl, vshr, vsar, vpop, vclz, vmov, vbfe, vbfi⟩ := bitsAndMoves s s d a b x hs hs
  obtain ⟨vsel, vselVx, vshfl, vbcast⟩ := selectAndExchange s s d a b x hs hs
  exact ⟨binary vand, binary vor, binary vxor, binary vandn, binary vshl, binary vshr, binary vsar, unary vpop, unary vclz, unary vmov,
    ⟨bitsComplete vsel fun _ => id, bitsComplete vselVx fun _ => id⟩, bitsComplete vbfe va, bitsComplete vbfi va,
    bitsComplete vshfl (oneOf _ _ _ (fun _ => id) va), bitsComplete vbcast va⟩

/-- Settles O19: one act writes the lanes that each instruction names, and over no pending spill it completes. -/
theorem vectorBits : Obligations.VectorBits :=
  ⟨bitsAndMoves, selectAndExchange, fun _ _ _ => spilled_of_noPend, bitsCompleted⟩

end Sys2Proof.Claims
end

section
/-! PROOF of O28: what a bit and move or lane-exchange instruction that retires leaves alone. Any of them is one act, which traps or
writes the lanes that its bound leaves. -/

namespace Sys2Proof.Machine

/-! ### A trap retires nothing (04/R147, R149) -/

@[simp] theorem State.entrust_w (s : State) (c : CoreId) (k : WaveKey) (dev : Nat) (n : Sent) (bs : List (Nat × Byte)) :
    (s.entrust c k dev n bs).w = s.w := by
  unfold State.entrust
  split <;> rfl

@[simp] theorem State.orphan_w (s : State) (c : CoreId) (k : WaveKey) (p : Place) : (s.orphan c k p).w = s.w := by
  unfold State.orphan
  induction p.lines generalizing s with
  | nil => rfl
  | cons b bs ih =>
    rw [List.foldl_cons, ih]
    cases b.sent with
    | none => rfl
    | some q => exact s.entrust_w c k b.dev q _

theorem State.killWave_seqno (s : State) (cause : Nat) (tpc : DWord) : (s.killWave cause tpc).w.seqno = s.w.seqno := by
  simp [State.killWave, State.setCx, State.setCtx, State.endWave, Wave.ending, State.errorRecord, State.setCo, State.setCore,
    State.abandon]

theorem State.trapEntry_seqno (s : State) (t : TrapInfo) (tpc : DWord) : (s.trapEntry t tpc).w.seqno = s.w.seqno := by
  unfold State.trapEntry
  split
  · exact s.killWave_seqno _ _
  · split
    · exact s.killWave_seqno _ _
    · rfl

/-! ### The one act of a bit and move instruction -/

/-- What a bound answers for results by lane: BOUND where there is a lane, or the results that it leaves. -/
theorem boundCheck_map (c : Ctx) (f : Fmt) (b : BitVec 4) (ls : List Nat) (val : Nat → Nat) :
    (ls ≠ [] ∧ ∃ t, boundCheck c f b (ls.map fun l => (l, val l)) = .error t) ∨
      ∃ (out : Nat → Nat) (hit : Bool), boundCheck c f b (ls.map fun l => (l, val l)) = .ok (ls.map fun l => (l, out l), hit) ∧
        (ls = [] → hit = false) := by
  by_cases off : (c.bound b).action = 0 ∨ f = .b32
  · exact .inr ⟨val, false, if_pos off, fun _ => rfl⟩
  · obtain ⟨ha, hf⟩ := not_or.mp off
    rw [boundCheck_on ls val rfl hf ha]
    split
    · next h => exact .inl ⟨fun e => h.1 (by rw [e]; rfl), _, rfl⟩
    · exact .inr ⟨_, _, rfl, fun e => by rw [e]; rfl⟩

/-- A bit and move instruction traps and leaves the state, or writes lanes under va's tag and notes a bound that was crossed. -/
theorem bitwise_cases {v : VOp} {s u : State} (srcs : List Nat) (f : State → Nat → Word) (hs : Claims.Spilled s u v.vd 1) :
    (∃ t, bitwise v srcs f s = .error (.trap t, s)) ∨
      ∃ out hit, bitwise v srcs f s = .ok ((), (Claims.written s u v.vd false (some ((s.vreg v.va).fmt, (s.vreg v.va).bnd)) out).setBnd
        (s.vreg v.va).bnd hit) ∧ (s.active = [] → hit = false) := by
  by_cases hwin : Claims.InWindow s (v.vd :: srcs)
  · rw [bitwise_window f hwin]
    rcases boundCheck_map s.bounds (comparedAs (s.vreg v.va).fmt false) (s.vreg v.va).bnd s.active fun l => (f s l).toNat with
      ⟨ha, t, stops⟩ | ⟨out, hit, goes, hn⟩
    · exact .inl ⟨t, writeResult_trap (mt List.map_eq_nil_iff.mp ha) stops⟩
    · have done := writeResult_ok (flags := 0) (setTag := true) hs goes fun h => ⟨rfl, hn h⟩
      rw [State.raise_zero] at done
      exact .inr ⟨out, hit, done, hn⟩
  · rw [bitwise, get_bind]
    exact .inl ⟨_, Act.bind_error _ _ _ _ (window_trap hwin)⟩

/-- Every instruction of the bit and move class and of lane exchange is that act. -/
theorem exec_bitClass {i : Instr} {vd : Nat} (h : Claims.bitClass i = some vd) (s : State) :
    ∃ v srcs f, v.vd = vd ∧ exec i s = run i .vpipe (bitwise v srcs f) s := by
  unfold Claims.bitClass at h
  split at h
  all_goals cases h
  all_goals
    refine ⟨_, _, _, ?_, rfl⟩
    rfl

/-- An instruction of those classes that retires has written lanes of its register (04/R147, 05/R156). -/
theorem retires_of_bitClass {i : Instr} {vd : Nat} {s u t : State} (h : Claims.bitClass i = some vd) (hs : Claims.Calm s) (hu : Claims.Calm u)
    (hw : i.wellFormed = true) (hsp : Claims.Spilled s u vd 1) (he : exec i s = .next t) (hn : t.w.seqno = s.w.seqno + 1) :
    ∃ tag out b hit, t = ((Claims.written s u vd false tag out).setBnd b hit).retire i.size ∧ (s.active = [] → hit = false) := by
  obtain ⟨v, srcs, f, rfl, runs⟩ := exec_bitClass h s
  rw [runs] at he
  rcases bitwise_cases srcs f hsp with ⟨x, stops⟩ | ⟨out, hit, goes, hh⟩
  · rw [run_trap _ _ _ _ _ _ hw stops] at he
    obtain rfl := Host.Outcome.next.inj he
    rw [State.trapEntry_seqno] at hn
    exact absurd hn (by simp)
  · rw [run_next _ _ _ _ _ hw goes ?_] at he
    · exact ⟨_, out, _, hit, (Host.Outcome.next.inj he).symm, hh⟩
    · rw [State.setBnd_w_errinj]
      exact calm_written _ _ _ _ hs hu

/-! ### What the write leaves alone -/

@[simp] theorem State.setBnd_true (s : State) (b : BitVec 4) :
    s.setBnd b true = { s with w := { s.w with bndst := s.w.bndst ||| (1#32 <<< b.toNat) } } := rfl

/-- All but the lanes `ls` and the tag of vN, BNDST, and what a retirement advances is as before. -/
def LeavesRest (v t : State) (vd : Nat) (ls : List Nat) : Prop :=
  (∀ m, v.vidx m ≠ v.vidx vd → t.vreg m = v.vreg m) ∧ (∀ l, l < 96 → l ∉ ls → t.vlane vd l = v.vlane vd l) ∧
    t.w.sregs = v.w.sregs ∧ t.w.status = v.w.status ∧ (∀ a, t.mem.read a = v.mem.read a) ∧ Claims.OnlyVector v t

/-- Lanes of a register written, a bound noted, and the retirement: all else stands (05/R154). -/
theorem leavesRest_lanePut (v : State) (vd n : Nat) (ls : List Nat) (tag : Option (Fmt × BitVec 4)) (val : Nat → Word) (b : BitVec 4)
    (hit : Bool) :
    LeavesRest v (((Claims.lanePut v vd ls tag val).setBnd b hit).retire n) vd ls := by
  have vreg (m : Nat) : (((Claims.lanePut v vd ls tag val).setBnd b hit).retire n).vreg m =
      (Claims.lanePut v vd ls tag val).vreg m := by cases hit <;> rfl
  refine ⟨fun m hm => ?_, fun l hl ho => ?_, ?_⟩
  · rw [vreg, Claims.lanePut, State.vreg_setVreg_other _ _ _ _ hm.symm]
  · rw [State.vlane, vreg, Claims.lanePut, State.vreg_setVreg_same]
    simp [State.vlane, hl, ho]
  · cases hit
    · exact ⟨rfl, rfl, fun _ => rfl, rfl⟩
    · rw [State.setBnd_true]
      exact ⟨rfl, rfl, fun _ => rfl, rfl⟩

/-- A retirement alone changes no register. -/
theorem leavesRest_retire (v : State) (vd n : Nat) (ls : List Nat) : LeavesRest v (v.retire n) vd ls :=
  ⟨fun _ _ => rfl, fun _ _ _ => rfl, rfl, rfl, fun _ => rfl, rfl⟩

end Sys2Proof.Machine

namespace Sys2Proof.Claims
open Sys2Proof.Machine

/-- Settles O28: the one act of these instructions traps, which retires nothing, or writes lanes of its register alone. -/
theorem vectorFrame : Obligations.VectorFrame := by
  intro s u t i vd hs hu hw hi hsp he hn v
  obtain ⟨tag, out, b, hit, rfl, hh⟩ := retires_of_bitClass hi hs hu hw hsp he hn
  by_cases ha : s.active = []
  · obtain rfl := hh ha
    simp only [v, written, ha, if_true, State.setBnd_false]
    exact leavesRest_retire s vd i.size []
  · simp only [v, written, ha, if_false, Bool.false_eq_true]
    exact leavesRest_lanePut u vd i.size s.active tag _ b hit

end Sys2Proof.Claims
end

section
/-! PROOF of O20: VMOVS, VLANE, VTAG, and the moves of one lane. -/

namespace Sys2Proof.Machine

/-- An instruction that does its act, which moves neither the pc nor SEQNO, completes. -/
theorem completes_of_does {i : Instr} {n : Nat} {s t : State} (h : Claims.Does i n s t) (ht : t.w.pc = s.w.pc ∧ t.w.seqno = s.w.seqno) :
    Claims.Completes i n s :=
  ⟨_, h, congrArg (· + BitVec.ofNat 64 n) ht.1, congrArg (· + 1) ht.2⟩

/-- A register that awaits no spill has none to store (04/R451). -/
theorem spill_none {s : State} {n : Nat} (h : (s.vreg n).pend = false) : spill n s = .ok ((), s) := by
  rw [spill, get_bind]
  simp [h]

/-- Lanes written under vd's own tag, which is kept, under no bound (05/R164). -/
theorem keepTag_ok {s u : State} {vd : Nat} (val : Nat → Nat) (hs : Claims.Spilled s u vd 1) (hb : Claims.Unbound s (s.vreg vd).bnd) :
    keepTag vd (s.active.map fun l => (l, val l)) s = .ok ((), Claims.written s u vd false none val) := by
  rw [keepTag, get_bind]
  have done := writeResult_unbound (pair := false) (f := (s.vreg vd).fmt) (setTag := false) (flags := 0) (val := val) hs hb fun _ => rfl
  rwa [State.raise_zero] at done

/-- Lanes of one register written after its spill, its tag kept. -/
theorem writeLanes_one {s u : State} {vd : Nat} (ls : List Nat) (val : Nat → Nat) (hs : spill vd s = .ok ((), u)) :
    writeLanes vd 1 none (ls.map fun l => (l, val l)) s = .ok ((), Claims.lanePut u vd ls none fun l => BitVec.ofNat 32 (val l)) := by
  have spills : (List.range 1).forM (fun k => spill (vd + k)) s = .ok ((), u) := Act.bind_ok _ _ _ _ _ hs
  rw [writeLanes, Act.bind_ok _ _ _ _ _ spills, Act.modify_run]
  simp [VReg.withLanes_map, Claims.lanePut]

/-- One lane written under vd's own tag, under no bound, whatever EXEC holds (05/R173). -/
theorem keepTag_lane {s u : State} {vd : Nat} (n : Nat) (x : Word) (hs : spill vd s = .ok ((), u)) (hb : Claims.Unbound s (s.vreg vd).bnd) :
    keepTag vd [(n, x.toNat)] s = .ok ((), Claims.lanePut u vd [n] none fun _ => x) := by
  have writes := writeLanes_one [n] (fun _ => x.toNat) hs
  simp only [BitVec.ofNat_toNat, BitVec.setWidth_eq] at writes
  rw [keepTag, get_bind, writeResult, if_pos (List.cons_ne_nil _ _), get_bind, boundCheck_off _ _ hb]
  simp only [State.setBnd_false, State.raise_zero]
  exact Act.bind_ok _ _ _ _ _ writes

/-- One register in the window passes (03/R103). -/
theorem window_one {s : State} {n : Nat} (h : n < s.w.valloc) : window [(n, 1)] s = .ok ((), s) :=
  window_ok (ns := [n]) fun _ hm => List.mem_singleton.mp hm ▸ h

theorem getLane_ok {s : State} {va n : Nat} (sd : SReg) (hwin : va < s.w.valloc) (hn : n < 96) :
    getLane sd va n s = .ok ((), s.setS sd (s.vlane va n)) := by
  rw [getLane, Act.bind_ok _ _ _ _ _ (window_one hwin), if_neg (Nat.not_le.mpr hn)]
  rfl

/-- A lane number of 96 or more raises ILLOP with TMASK zero (05/R173). -/
theorem getLane_trap {s : State} {va n : Nat} (sd : SReg) (hwin : va < s.w.valloc) (hn : 96 ≤ n) :
    getLane sd va n s = .error (.trap { cause := .illop }, s) := by
  rw [getLane, Act.bind_ok _ _ _ _ _ (window_one hwin), if_pos hn]
  rfl

theorem setLane_ok {s u : State} {vd n : Nat} (x : Word) (hwin : vd < s.w.valloc) (hn : n < 96) (hs : spill vd s = .ok ((), u))
    (hb : Claims.Unbound s (s.vreg vd).bnd) : setLane vd x n s = .ok ((), Claims.lanePut u vd [n] none fun _ => x) := by
  rw [setLane, Act.bind_ok _ _ _ _ _ (window_one hwin), if_neg (Nat.not_le.mpr hn)]
  exact keepTag_lane n x hs hb

@[inherit_doc getLane_trap] theorem setLane_trap {s : State} {vd n : Nat} (x : Word) (hwin : vd < s.w.valloc) (hn : 96 ≤ n) :
    setLane vd x n s = .error (.trap { cause := .illop }, s) := by
  rw [setLane, Act.bind_ok _ _ _ _ _ (window_one hwin), if_pos hn]
  rfl

end Sys2Proof.Machine

namespace Sys2Proof.Claims
open Sys2Proof.Machine

/-! ### O20 -/

theorem lanesMoved : LaneMoves := by
  intro s u vd va sd sa sb lit x hs hu hl
  have litOk : litWord lit = true := beq_iff_eq.mpr hl
  refine ⟨fun hwin hb => ⟨fun hsp => ?_, fun hsp => ?_⟩, fun hwin hw f hf => ?_, fun hwin => ?_⟩
  · have into {i : Instr} {n : Nat} {tag : Option (Fmt × BitVec 4)} {val : Nat → Nat} {act : Act PUnit}
        (he : exec i s = run i .vpipe (window [(vd.toNat, 1)] >>= fun _ => act) s) (hn : i.size = n) (hw : i.wellFormed = true)
        (hact : act s = .ok ((), written s u vd.toNat false tag val)) : Does i n s (written s u vd.toNat false tag val) := by
      rw [Does, he, ← hn]
      exact run_next _ _ _ _ _ hw ((Act.bind_ok _ _ _ _ _ (window_one hwin)).trans hact) (calm_written _ _ _ _ hs hu)
    refine ⟨into rfl rfl rfl (keepTag_ok _ hsp hb), into rfl rfl litOk (keepTag_ok _ hsp hb), into rfl rfl rfl ?_⟩
    have done := writeResult_unbound (pair := false) (f := .n32) (setTag := true) (flags := 0) (val := id) hsp hb fun _ => rfl
    rwa [State.raise_zero] at done
  · refine ⟨fun hn => ?_, fun hn => ?_⟩
    · exact run_next (.vsetl vd sa sb) .vpipe _ _ _ rfl (setLane_ok (s.sreg sa) hwin hn hsp hb) hu
    · exact run_next (.vsetlLiteral vd sa lit) .vpipe _ _ _ litOk (setLane_ok (s.sreg sa) hwin hn hsp hb) hu
  · refine run_next (.vtag x) .vpipe _ _ _ hw ((Act.bind_ok _ _ _ _ _ (window_one hwin)).trans ?_) (by split <;> exact hs)
    simp only [hf]
    by_cases ha : s.active = []
    · rw [if_pos ha, if_neg (not_not_intro ha)]
      rfl
    · rw [if_neg ha, if_pos ha]
      rfl
  · refine ⟨fun hn => ?_, fun hn => ?_, fun hn => ⟨?_, ?_⟩⟩
    · exact run_next (.vgetl sd va sb) .vpipe _ _ _ rfl (getLane_ok sd hwin hn) hs
    · exact run_next (.vgetlLiteral sd va lit) .vpipe _ _ _ litOk (getLane_ok sd hwin hn) hs
    · exact run_trap (.vgetl sd va sb) .vpipe _ _ _ _ rfl (getLane_trap sd hwin hn)
    · exact run_trap (.vsetl va sa sb) .vpipe _ _ _ _ rfl (setLane_trap _ hwin hn)

theorem laneMovesCompleted : LaneMovesComplete := by
  intro s d a sd sa sb lit x hs hl
  obtain ⟨writes, tags, lanes⟩ := lanesMoved s s d a sd sa sb lit x hs hs hl
  refine ⟨fun hwin hb hp => ?_, fun hwin => ?_, fun hw hwin hf => ?_⟩
  · obtain ⟨active, one⟩ := writes hwin hb
    obtain ⟨vmovs, vmovsLiteral, vlane⟩ := active (spilled_of_noPend hp)
    obtain ⟨vsetl, vsetlLiteral⟩ := one (spill_none (hp 0 Nat.one_pos))
    exact ⟨completes_of_does vmovs (written_pc_seqno ..), completes_of_does vmovsLiteral (written_pc_seqno ..),
      completes_of_does vlane (written_pc_seqno ..), fun hn => completes_of_does (vsetl hn) ⟨rfl, rfl⟩,
      fun hn => completes_of_does (vsetlLiteral hn) ⟨rfl, rfl⟩⟩
  · obtain ⟨vgetl, vgetlLiteral, -⟩ := lanes hwin
    exact ⟨fun hn => completes_of_does (vgetl hn) ⟨rfl, rfl⟩, fun hn => completes_of_does (vgetlLiteral hn) ⟨rfl, rfl⟩⟩
  · obtain ⟨f, hf⟩ := Option.isSome_iff_exists.mp hf
    exact completes_of_does (tags hwin hw f hf) (by split <;> exact ⟨rfl, rfl⟩)

/-- Settles O20: the lanes written under vd's own tag or N32, the tag alone, and one lane whatever EXEC holds. -/
theorem laneMoves : Obligations.LaneMoves := ⟨lanesMoved, laneMovesCompleted⟩

end Sys2Proof.Claims
end

section
/-! PROOF of O21: a numeric instruction passes its checks in their order and writes its elements. -/

namespace Sys2Proof.Machine

/-- What holds of every source of a numeric instruction: va, vb unless it is absent or an immediate, and the addend (05/R159). -/
theorem forall_numericSrcs {o : NumOp} {v : VOp} {p : Nat → Prop} :
    (∀ n ∈ numericSrcs o v, p n) ↔ p v.va ∧ (o.unary = false → v.imm = none → p v.vb) ∧ (o.ternary = true → p v.vc) := by
  cases hu : o.unary <;> cases hi : v.imm <;> cases ht : o.ternary <;> simp [numericSrcs, hu, hi, ht]

/-- The registers of a numeric instruction are among those that its conditions name. -/
theorem numericRegs_subset (o : NumOp) (v : VOp) :
    v.vd :: numericSrcs o v ⊆ v.vd :: v.va :: v.vb :: (if o.ternary then [v.vc] else []) := by
  refine List.cons_subset_cons _ (forall_numericSrcs.mpr ⟨by simp, fun _ _ => by simp, fun ht => by simp [ht]⟩)

/-- A numeric instruction on operands that it accepts writes its elements and raises their flags together (05/R159). -/
theorem numeric_ok {o : NumOp} {v : VOp} {s u : State} (h : Claims.NumericOk o v s)
    (hs : Claims.Spilled s u v.vd (if (s.vreg v.va).fmt.isPair then 2 else 1)) :
    numeric o v s = .ok ((), (Claims.written s u v.vd (s.vreg v.va).fmt.isPair (some ((s.vreg v.va).fmt, v.bnd s))
        fun l => (s.vreg v.va).fmt.pack ((Claims.numericElems o v s l).map (·.1))).raise
      (orFlags (s.active.flatMap fun l => (Claims.numericElems o v s l).map (·.2)))) := by
  obtain ⟨window, accepted, ⟨sameB, sameC⟩, ⟨rnd, sat⟩, pairs, pairTags, unbound⟩ := h
  have hwin : Claims.InWindow s (v.vd :: numericSrcs o v) := fun n hn => window n (numericRegs_subset o v hn)
  have ha : Claims.refuses o (s.vreg v.va).fmt = false := by simpa [accepts_eq_not_refuses] using accepted
  have hsame : ∀ n ∈ numericSrcs o v, (s.vreg n).fmt = (s.vreg v.va).fmt := forall_numericSrcs.mpr ⟨rfl, sameB, sameC⟩
  have hone (hp : (s.vreg v.va).fmt.isPair = true) : ∀ n ∈ numericSrcs o v, (s.vreg n).fmt = (s.vreg (n + 1)).fmt :=
    forall_numericSrcs.mpr (pairTags hp)
  have tags := numeric_tags_ok hsame fun hp n hn _ => (hone hp n hn).symm.trans (hsame n hn)
  have fits : pairOk (s.vreg v.va).fmt.isPair (v.vd :: numericSrcs o v) s = .ok ((), s) :=
    pairOk_ok fun hp n hn => pairs hp n (numericRegs_subset o v hn)
  have fields : ((v.rnd != 0#2 && !(s.vreg v.va).fmt.isFloat) || (v.sat && o.unary && (s.vreg v.va).fmt.isFloat)) = false := by
    simp only [Bool.or_eq_false_iff, Bool.and_eq_false_imp, bne_iff_ne, Bool.not_eq_false', Bool.and_eq_true, and_imp]
    exact ⟨rnd, sat⟩
  rw [numeric_accepted hwin ha hsame]
  refine (Act.bind_ok _ _ _ _ _ tags).trans ((Act.bind_ok _ _ _ _ _ fits).trans ?_)
  exact (congrFun (if_neg (Bool.eq_false_iff.mp fields)) s).trans (writeResult_elems (Claims.numericElems o v s) hs unbound)

/-- A numeric instruction that is run. -/
theorem numericInto {o : NumOp} {v : VOp} {s u : State} {i : Instr} {n : Nat} (hs : Claims.Calm s) (hu : Claims.Calm u)
    (he : exec i s = run i .vpipe (numeric o v) s) (hn : i.size = n) : Claims.NumericInto o v s u n i :=
  fun hw hok hsp => run_written he hn hs hu hw (numeric_ok hok hsp)

/-- A numeric instruction over no pending spill completes. -/
theorem numericCompletes {o : NumOp} {v : VOp} {s : State} {i : Instr} {n : Nat} (h : Claims.NumericInto o v s s n i) :
    Claims.NumericCompletes o v s n i :=
  fun hw hok hp => completes_written (h hw hok (spilled_of_noPend fun k hk => hp k (hk.trans_le (by split <;> decide))))

end Sys2Proof.Machine

namespace Sys2Proof.Claims
open Sys2Proof.Machine

/-! ### O21 -/

theorem numericWritten : VectorNumeric := by
  intro s u vd va vb x hs hu short short1 long
  have both {o : NumOp} {i j : Instr} (hi : exec i s = run i .vpipe (numeric o (v3Op vd va vb)) s)
      (hj : exec j s = run j .vpipe (numeric o (vxOp x)) s) (ni : i.size = 4) (nj : j.size = 12) : short o i ∧ long o j :=
    ⟨numericInto hs hu hi ni, numericInto hs hu hj nj⟩
  have sign {o : NumOp} {i j : Instr} (hi : exec i s = run i .vpipe (numeric o (v3Op vd va 0)) s)
      (hj : exec j s = run j .vpipe (numeric o (vxOp x)) s) (ni : i.size = 4) (nj : j.size = 12) : short1 o i ∧ long o j :=
    ⟨numericInto hs hu hi ni, numericInto hs hu hj nj⟩
  exact ⟨both rfl rfl rfl rfl, both rfl rfl rfl rfl, both rfl rfl rfl rfl, both rfl rfl rfl rfl, both rfl rfl rfl rfl,
    both rfl rfl rfl rfl, both rfl rfl rfl rfl, both rfl rfl rfl rfl, sign rfl rfl rfl rfl, sign rfl rfl rfl rfl⟩

theorem numericCompleted : VectorNumericComplete := by
  intro s d a b x hs both sign
  obtain ⟨add, sub, mul, fma, mad, mulhi, min, max, abs, neg⟩ := numericWritten s s d a b x hs hs
  have complete {o p : NumOp} {v w : VOp} {m n : Nat} {i j : Instr} (h : NumericInto o v s s m i ∧ NumericInto p w s s n j) :
      NumericCompletes o v s m i ∧ NumericCompletes p w s n j := h.imp numericCompletes numericCompletes
  exact ⟨complete add, complete sub, complete mul, complete fma, complete mad, complete mulhi, complete min, complete max,
    complete abs, complete neg⟩

/-- Settles O21: on operands that it accepts an instruction passes every check, and one write takes all its elements. -/
theorem vectorNumeric : Obligations.VectorNumeric := ⟨numericWritten, numericCompleted⟩

end Sys2Proof.Claims
end

section
/-! PROOF of O25: the mask of a list of lanes, and what a compare answers. -/

namespace Sys2Proof.Machine

/-! ### Masks of lanes (01/R25) -/

theorem testBit_sum_two_pow {ks : List Nat} (h : ks.Nodup) (k : Nat) : (ks.map fun j => 2 ^ j).sum.testBit k = decide (k ∈ ks) := by
  rw [Bool.eq_iff_iff, ← Nat.mem_bitIndices, ← List.sum_toFinset _ h, ← List.mem_toFinset, Finset.toFinset_bitIndices_sum_two_pow]
  simp

/-- The bits of a mask's word are the lanes of its part of the list. -/
theorem maskWord_getLsbD {ls : List Nat} (h : ls.Nodup) (w : Nat) {k : Nat} (hk : k < 32) :
    (maskWord ls w).getLsbD k = decide (32 * w + k ∈ ls) := by
  have part : (ls.filter fun l => l / 32 = w).map (· % 32) |>.Nodup := by
    refine (h.filter _).map_on fun a ha b hb hab => ?_
    simp only [List.mem_filter, decide_eq_true_eq] at ha hb
    omega
  have sum : ((ls.filter fun l => l / 32 = w).map fun l => 2 ^ (l % 32)) =
      ((ls.filter fun l => l / 32 = w).map (· % 32)).map fun j => 2 ^ j := by simp
  rw [maskWord, sum, BitVec.getLsbD_ofNat, decide_eq_true hk, Bool.true_and, testBit_sum_two_pow part, decide_eq_decide]
  simp only [List.mem_map, List.mem_filter, decide_eq_true_eq]
  refine ⟨fun ⟨l, ⟨hl, hw⟩, hm⟩ => ?_, fun hl => ⟨_, ⟨hl, by omega⟩, by omega⟩⟩
  obtain rfl : l = 32 * w + k := by omega
  exact hl

/-- The mask of a list holds its lanes. -/
theorem maskBit_lanesMask {ls : List Nat} (h : ls.Nodup) {l : Nat} (hl : l < 96) : maskBit (lanesMask ls) l = ls.contains l := by
  have word (w k : Nat) (hk : k < 32) (e : 32 * w + k = l) : (maskWord ls w).getLsbD k = ls.contains l := by
    rw [maskWord_getLsbD h w hk, e, List.contains_eq_mem]
  unfold maskBit
  split
  · exact word 0 l (by omega) (by omega)
  · split
    · exact word 1 (l - 32) (by omega) (by omega)
    · exact word 2 (l - 64) (by omega) (by omega)

theorem State.active_nodup (s : State) : s.active.Nodup := List.nodup_range.filter _

/-! ### Compares (05/R161) -/

/-- The element compares of a lane. -/
def compareElems (c : Nat) (v : VOp) (s : State) (l : Nat) : List (Bool × Flags) :=
  let f := (s.vreg v.va).fmt
  (List.range f.count).map fun k => compareElem c f ((f.elems (s.vval f.isPair v.va l)).getD k 0) ((f.elems (v.bval s f l)).getD k 0)

/-- The active lanes all of whose elements pass. -/
def passingLanes (c : Nat) (v : VOp) (s : State) : List Nat := s.active.filter fun l => (compareElems c v s l).all (·.1)

theorem maskBit_passingLanes (c : Nat) (v : VOp) (s : State) {l : Nat} (hl : l < 96) :
    maskBit (lanesMask (passingLanes c v s)) l = (s.active.contains l && (compareElems c v s l).all (·.1)) := by
  rw [passingLanes, maskBit_lanesMask (s.active_nodup.filter _) hl, Bool.eq_iff_iff]
  simp

/-- What holds of every source of a compare: va, and vb unless it is an immediate. -/
theorem forall_compareSrcs {v : VOp} {p : Nat → Prop} : (∀ n ∈ compareSrcs v, p n) ↔ p v.va ∧ (v.imm = none → p v.vb) := by
  cases hi : v.imm <;> simp [compareSrcs, hi]

/-- A compare on operands that it accepts writes CMASK and raises its flags. -/
theorem vcompare_ok {c : Nat} {v : VOp} {s : State} (hwin : Claims.InWindow s (compareSrcs v)) (hb : (s.vreg v.va).fmt ≠ .b32)
    (hz : (s.vreg v.va).fmt ≠ .z4x8) (hsame : ∀ n ∈ compareSrcs v, (s.vreg n).fmt = (s.vreg v.va).fmt)
    (hp : (s.vreg v.va).fmt.isPair = true → ∀ n ∈ compareSrcs v, PairFits s n ∧ (s.vreg (n + 1)).fmt = (s.vreg v.va).fmt) :
    vcompare c v s = .ok ((), (s.setTriple rCMASK (lanesMask (passingLanes c v s))).raise
      (orFlags (s.active.flatMap fun l => (compareElems c v s l).map (·.2)))) := by
  have fmts : ((s.vreg v.va).fmt == .b32 || (s.vreg v.va).fmt == .z4x8 ||
      (compareSrcs v).any fun n => (s.vreg n).fmt != (s.vreg v.va).fmt) = false := by
    simpa [hb, hz] using hsame
  have tags : pairTags (s.vreg v.va).fmt.isPair (compareSrcs v) s = .ok ((), s) :=
    pairTags_ok fun h n hn _ => (hsame n hn).trans (hp h n hn).2.symm
  have fits : pairOk (s.vreg v.va).fmt.isPair (compareSrcs v) s = .ok ((), s) := pairOk_ok fun h n hn => (hp h n hn).1
  rw [vcompare, get_bind]
  refine (Act.bind_ok _ _ _ _ _ (window_ok hwin)).trans ?_
  refine (congrFun (if_neg (Bool.eq_false_iff.mp fmts)) s).trans ?_
  refine (Act.bind_ok _ _ _ _ _ tags).trans ((Act.bind_ok _ _ _ _ _ fits).trans ?_)
  rw [Act.modify_run, ← orFlags_map_orFlags]
  simp only [List.map_map, List.filter_map, Function.comp_def, List.map_id', passingLanes, compareElems]

end Sys2Proof.Machine

namespace Sys2Proof.Claims
open Sys2Proof.Machine

/-- Settles O25: a compare passes its checks, and the mask of the lanes that pass has their bits and no others. -/
theorem vectorCompare : Obligations.VectorCompare := by
  intro s c va vb x hs ok each out
  have compares {n : Nat} {i : Instr} {cond : Nat} {v : VOp} (he : exec i s = run i .vpipe (vcompare cond v) s) (hn : i.size = n) :
      out n i cond v := by
    rintro hw ⟨hwin, hb, hz, hsame, hp⟩
    obtain ⟨ha, hvb⟩ : v.va < s.w.valloc ∧ v.vb < s.w.valloc := by simpa [InWindow] using hwin
    have done := vcompare_ok (c := cond) (v := v) (forall_compareSrcs.mpr ⟨ha, fun _ => hvb⟩) hb hz (forall_compareSrcs.mpr ⟨rfl, hsame⟩)
      fun h => by
        obtain ⟨even, fits, tag, other⟩ := hp h
        refine forall_compareSrcs.mpr ⟨⟨⟨even, fits⟩, tag⟩, fun hi => ?_⟩
        obtain ⟨even, fits, tag⟩ := other hi
        exact ⟨⟨even, fits⟩, tag⟩
    have next := he.trans (run_next _ _ _ _ _ hw done (by simpa using hs))
    rw [hn] at next
    exact ⟨_, lanesMask (passingLanes cond v s), next, rfl, fun l hl => maskBit_passingLanes cond v s hl⟩
  exact ⟨compares rfl rfl, compares rfl rfl⟩

end Sys2Proof.Claims
end

section
/-! PROOF of O52, the steps of placement: what a change of a gang or a launch leaves to be found, the gang that starts, the block that is put on
a core, and pre-emption. -/

namespace Sys2Proof.Machine

/-! ### What is found under a name -/

section
variable {α κ : Type} [DecidableEq κ] (key : α → κ) {l : List α} {k : κ}

theorem key_replaced (x y : α) : key (if key y = key x then x else y) = key y := by
  split
  · next h => exact h.symm
  · rfl

/-- What takes the place of the element found under a name is found under it. -/
theorem find?_replace {v x : α} (h : l.find? (fun y => key y = k) = some v) (hx : key x = key v) :
    (l.map fun y => if key y = key x then x else y).find? (fun y => key y = key x) = some x := by
  obtain rfl : key x = k := by simpa [hx] using List.find?_some h
  rw [List.find?_map]
  simp only [Function.comp_def, key_replaced, h, Option.map_some]
  exact congrArg some (if_pos hx.symm)

/-- Under another name what was found before is found. -/
theorem find?_replace_other {x : α} (hx : key x ≠ k) :
    (l.map fun y => if key y = key x then x else y).find? (fun y => key y = k) = l.find? (fun y => key y = k) := by
  rw [List.find?_map]
  simp only [Function.comp_def, key_replaced]
  cases h : l.find? (fun y => key y = k) with
  | none => rfl
  | some y =>
    have hy : key y = k := by simpa using List.find?_some h
    simp [hy, Ne.symm hx]

end

theorem State.findGang_key {s : State} {g : Gang} {k : GangKey} (h : s.findGang k = some g) : g.key = k := by
  simpa using List.find?_some h

theorem State.findGang_mem {s : State} {g : Gang} {k : GangKey} (h : s.findGang k = some g) : g ∈ s.allGangs := List.mem_of_find?_eq_some h

theorem State.findGang_congr {s t : State} (h : t.allGangs = s.allGangs) (k : GangKey) : t.findGang k = s.findGang k := by
  rw [State.findGang, h]
  rfl

/-- The only gang of a name is found under it. -/
theorem State.findGang_of_unique {s : State} {g : Gang} (hg : g ∈ s.allGangs) (h : ∀ x ∈ s.allGangs, x.key = g.key → x = g) :
    s.findGang g.key = some g := by
  have found : (s.findGang g.key).isSome := List.find?_isSome.mpr ⟨g, hg, decide_eq_true rfl⟩
  obtain ⟨x, hx⟩ := Option.isSome_iff_exists.mp found
  rw [hx, h x (State.findGang_mem hx) (State.findGang_key hx)]

theorem State.findGang_setGang {s : State} {v x : Gang} {k : GangKey} (h : s.findGang k = some v) (hx : x.key = v.key) :
    (s.setGang x).findGang x.key = some x := find?_replace (l := s.allGangs) Gang.key h hx
theorem State.findGang_setGang_other (s : State) {x : Gang} {k : GangKey} (hx : x.key ≠ k) : (s.setGang x).findGang k = s.findGang k :=
  find?_replace_other (l := s.allGangs) Gang.key hx
theorem State.findBlock_setBlock {s : State} {v x : Block} {k : BlockKey} (h : s.findBlock k = some v) (hx : x.key = v.key) :
    (s.setBlock x).findBlock x.key = some x := find?_replace (l := s.allBlocks) Block.key h hx
theorem State.findLaunch_setLaunch {s : State} {v x : Launch} {k : Nat} (h : s.findLaunch k = some v) (hx : x.id = v.id) :
    (s.setLaunch x).findLaunch x.id = some x := find?_replace (l := s.allLaunches) Launch.id h hx

/-! ### A gang that starts (12/R336) -/

/-- The new gang joins the list, in Placing, and the launch takes note of it. -/
theorem execGangStart_fresh {s : State} {l : Launch} {q : QuadId} (h : s.nextStart false s.candidates = some (.fresh l, q)) :
    ∃ t g, execGangStart s = .next t ∧ t.gangs = s.gangs ++ [g] ∧ g.key.launch = l.id ∧ g.quad = q ∧ g.state = .placing ∧ g.placed = 0 ∧
      g.blocks = l.record.blocks ∧ g.gcap = 16 * l.record.gbuf ∧ g.place = Place.empty ∧ t.mem = s.mem := by
  simp only [execGangStart, h]
  exact ⟨_, _, rfl, rfl, rfl, rfl, rfl, rfl, rfl, rfl, rfl, rfl⟩

/-! ### A block put on a core (06/R183) -/

/-- The wave of each role that has a place. -/
theorem newWaves_mem (mk : Nat → Role × Nat → Nat × Nat × Nat → Nat → Wave) {xs : List ((Role × Nat) × Nat × Nat × Nat)} {j : Nat}
    (hj : j < xs.length) (i : Nat) (c : Core) : ∃ stamp, mk (i + j) xs[j].1 xs[j].2 stamp ∈ (newWaves mk i xs c).1 := by
  induction xs generalizing i j c with
  | nil => exact absurd hj (Nat.not_lt_zero j)
  | cons x xs ih =>
    cases j with
    | zero => exact ⟨_, List.mem_cons_self⟩
    | succ j =>
      obtain ⟨stamp, hm⟩ := ih (Nat.lt_of_succ_lt_succ hj) (i + 1) (c.takeStamp (BitVec.ofNat 2 x.2.1)).2
      rw [Nat.succ_add_eq_add_succ i j] at hm
      exact ⟨stamp, List.mem_cons_of_mem _ hm⟩

/-- The stamps that new waves take leave the start pointer as it was. -/
theorem newWaves_start (mk : Nat → Role × Nat → Nat × Nat × Nat → Nat → Wave) (xs : List ((Role × Nat) × Nat × Nat × Nat)) (i : Nat)
    (c : Core) : (newWaves mk i xs c).2.start = c.start := by
  induction xs generalizing i c with
  | nil => rfl
  | cons x xs ih => exact ih (i + 1) (c.takeStamp (BitVec.ofNat 2 x.2.1)).2

/-- When a gang is placed, its Created waves become Ready, and blocks, cores and memory stay. -/
theorem State.gangPlaced_keeps (s : State) (g : Gang) : (s.gangPlaced g).blocks = s.blocks ∧ (s.gangPlaced g).cores = s.cores ∧
    (s.gangPlaced g).mem = s.mem ∧
    (s.gangPlaced g).waves = s.waves.map fun w => if w.key.gangKey = g.key ∧ w.life = .created then { w with life := .ready } else w := by
  unfold State.gangPlaced
  dsimp only
  split
  · exact ⟨rfl, rfl, rfl, rfl⟩
  · split <;> exact ⟨rfl, rfl, rfl, rfl⟩

/-- The state in which a block has been put on a core, before the gang counts it. -/
def State.withBlock (s : State) (l : Launch) (g : Gang) (c : CoreId) (ps : List (Nat × Nat × Nat)) (spad : Nat) : State :=
  let new := newWaves (fun i role at_ stamp => newWave l g (s.ctxOf l.ctx) c g.placed i role at_ ((s.freeSlices l.ctx).getD i 0) stamp) 0
    (List.zip l.record.waves ps) (s.core c)
  (State.setCore { s with waves := s.waves ++ new.1, blocks := s.blocks ++ [newBlock l g c g.placed spad] } c
    { new.2 with start := new.2.start + BitVec.ofNat 2 l.record.waves.length }).chargeClass l.record l.record.waves.length

theorem State.putBlock_eq (s : State) (l : Launch) (g : Gang) (c : CoreId) (ps : List (Nat × Nat × Nat)) (spad : Nat) :
    s.putBlock l g c ps spad =
      if g.placed + 1 = g.blocks then (s.withBlock l g c ps spad).gangPlaced { g with placed := g.placed + 1 }
      else (s.withBlock l g c ps spad).setGang { g with placed := g.placed + 1 } := rfl

/-- Whether or not its gang is placed whole with it: the block is in the list, its waves are Created or Ready, and the core's start pointer goes
on. -/
theorem State.putBlock_keeps (s : State) (l : Launch) (g : Gang) (c : CoreId) (ps : List (Nat × Nat × Nat)) (spad : Nat) :
    let u := s.withBlock l g c ps spad
    let t := s.putBlock l g c ps spad
    t.blocks = u.blocks ∧ t.cores = u.cores ∧ t.mem = u.mem ∧
      ∀ w ∈ u.waves, w.life = .created → w ∈ t.waves ∨ { w with life := .ready } ∈ t.waves := by
  intro u t
  have eq : t = _ := s.putBlock_eq l g c ps spad
  split at eq
  · obtain ⟨hb, hc, hm, hw⟩ := u.gangPlaced_keeps { g with placed := g.placed + 1 }
    rw [eq]
    refine ⟨hb, hc, hm, fun w hmem created => ?_⟩
    rw [hw]
    by_cases mine : w.key.gangKey = g.key
    · exact .inr (List.mem_map.mpr ⟨w, hmem, if_pos ⟨mine, created⟩⟩)
    · exact .inl (List.mem_map.mpr ⟨w, hmem, if_neg fun h => mine h.1⟩)
  · rw [eq]
    exact ⟨rfl, rfl, rfl, fun w hmem _ => .inl hmem⟩

section
variable (s : State) (l : Launch) (g : Gang) (c : CoreId) (ps : List (Nat × Nat × Nat)) (spad : Nat)

theorem State.putBlock_mem : (s.putBlock l g c ps spad).mem = s.mem := by
  obtain ⟨-, -, mem, -⟩ := s.putBlock_keeps l g c ps spad
  exact mem

theorem State.newBlock_mem_putBlock : newBlock l g c g.placed spad ∈ (s.putBlock l g c ps spad).blocks := by
  obtain ⟨blocks, -⟩ := s.putBlock_keeps l g c ps spad
  rw [blocks]
  exact List.mem_append_right _ List.mem_cons_self

theorem State.putBlock_start : ((s.putBlock l g c ps spad).core c).start = (s.core c).start + BitVec.ofNat 2 l.record.waves.length := by
  obtain ⟨-, cores, -⟩ := s.putBlock_keeps l g c ps spad
  rw [State.core, cores]
  refine (congrArg Core.start (State.core_setCore_same _ c _)).trans ?_
  exact congrArg (· + _) (newWaves_start ..)

/-- A wave of each role that has a place: on the core, at CODE, and Created or Ready. -/
theorem State.putBlock_wave {k : Nat} (hw : k < l.record.waves.length) (hp : k < ps.length) :
    ∃ w ∈ (s.putBlock l g c ps spad).waves, w.key = ⟨l.id, g.key.gang, g.placed, k⟩ ∧ w.core = c ∧ w.pc = l.record.code ∧
      w.tvec = l.record.tvec ∧ (w.life = .created ∨ w.life = .ready) := by
  have hk : k < (List.zip l.record.waves ps).length := by
    rw [List.length_zip]
    exact lt_min hw hp
  obtain ⟨stamp, hm⟩ := newWaves_mem
    (fun i role at_ stamp => newWave l g (s.ctxOf l.ctx) c g.placed i role at_ ((s.freeSlices l.ctx).getD i 0) stamp) hk 0 (s.core c)
  rw [Nat.zero_add] at hm
  obtain ⟨-, -, -, new⟩ := s.putBlock_keeps l g c ps spad
  obtain kept | ready := new _ (List.mem_append_right _ hm) rfl
  · exact ⟨_, kept, rfl, rfl, rfl, rfl, .inl rfl⟩
  · exact ⟨_, ready, rfl, rfl, rfl, rfl, .inr rfl⟩

end

theorem execBlockDispatch_eq {s : State} {g : Gang} {l : Launch} {c : CoreId} {o : Occ} {ps : List (Nat × Nat × Nat)} {spad : Nat}
    (hg : s.reserving s.facts.quad = some g) (hl : s.findLaunch g.key.launch = some l) (hx : (s.ctxOf l.ctx).switchedOut = false)
    (hs : l.record.waves.length ≤ (s.freeSlices l.ctx).length) (hp : pickCore l.record (s.quadOcc s.facts.quad) = some (c, o, ps, spad)) :
    execBlockDispatch s = .next (if s.budgetOk l.record c then s.putBlock l g c ps spad else s) := by
  simp [execBlockDispatch, hg, hl, hx, hp, Nat.not_lt.mpr hs]

/-! ### Candidates that have waited (12/R337) -/

theorem execCandidateAged_gang {s : State} {g : Gang} (h : s.findGang s.facts.gangKey = some g) (h0 : g.key.launch ≠ 0) (hs : g.state = .saved) :
    execCandidateAged s = .next (s.setGang { g with aged := true }) := by
  simp [execCandidateAged, h, h0, hs]

theorem execCandidateAged_launch {s : State} {l : Launch} (hg : s.findGang s.facts.gangKey = none) (h : s.findLaunch s.facts.launch = some l)
    (h0 : l.id ≠ 0) (hs : l.state = .placing) (hu : l.unplaced = true) : execCandidateAged s = .next (s.setLaunch { l with aged := true }) := by
  simp [execCandidateAged, hg, h, h0, hs, hu]

/-! ### Pre-emption (12/R343) -/

/-- The order in which gangs are saved is a permutation of them. -/
theorem insertYoung_perm (g : Gang) (gs : List Gang) : (insertYoung g gs).Perm (g :: gs) := by
  induction gs with
  | nil => exact .refl _
  | cons h hs ih =>
    unfold insertYoung
    split
    · exact (ih.cons h).trans (.swap g h hs)
    · exact .refl _

/-- No gang stands before a younger one. -/
def YoungestFirst (gs : List Gang) : Prop := gs.Pairwise fun x y => y.started ≤ x.started

theorem insertYoung_youngestFirst (g : Gang) {gs : List Gang} (h : YoungestFirst gs) : YoungestFirst (insertYoung g gs) := by
  induction gs with
  | nil => exact List.pairwise_singleton _ _
  | cons x xs ih =>
    obtain ⟨first, rest⟩ := List.pairwise_cons.mp h
    unfold insertYoung
    split
    · next older =>
      refine List.pairwise_cons.mpr ⟨fun y hy => ?_, ih rest⟩
      rcases List.mem_cons.mp ((insertYoung_perm g xs).mem_iff.mp hy) with rfl | hy
      · exact older
      · exact first y hy
    · next younger =>
      refine List.pairwise_cons.mpr ⟨fun y hy => ?_, h⟩
      rcases List.mem_cons.mp hy with rfl | hy
      · exact Nat.le_of_not_le younger
      · exact (first y hy).trans (Nat.le_of_not_le younger)

theorem foldr_insertYoung_perm (gs : List Gang) : (gs.foldr insertYoung []).Perm gs := by
  induction gs with
  | nil => exact .refl _
  | cons g gs ih => exact (insertYoung_perm g _).trans (ih.cons g)

theorem foldr_insertYoung_youngestFirst (gs : List Gang) : YoungestFirst (gs.foldr insertYoung []) := by
  induction gs with
  | nil => exact List.Pairwise.nil
  | cons g gs ih => exact insertYoung_youngestFirst g ih

/-- Gangs of which no two started at once have one order from the youngest to the oldest. -/
theorem foldr_insertYoung_eq {gs low : List Gang} (perm : gs.Perm low) (young : gs.Pairwise fun x y => y.started < x.started) :
    low.foldr insertYoung [] = gs := by
  have distinct : ∀ x ∈ gs, ∀ y ∈ gs, x.started = y.started → x = y := by
    have apart : (gs.map Gang.started).Nodup := List.pairwise_map.mpr (young.imp Nat.ne_of_gt)
    exact fun x hx y hy => List.inj_on_of_nodup_map apart hx hy
  have sorted := (foldr_insertYoung_perm low).trans perm.symm
  refine List.Perm.eq_of_pairwise (fun x y hx hy hxy hyx => ?_) (foldr_insertYoung_youngestFirst low) (young.imp Nat.le_of_lt) sorted
  exact distinct x (sorted.mem_iff.mp hx) y hy (Nat.le_antisymm hyx hxy)

/-- The state after the saves of the first `j` gangs of a list have been requested. -/
def State.savesOf (s : State) (gs : List Gang) (j : Nat) : State := (gs.take j).foldl State.requestSave s

/-- Saves are requested until the candidate fits. -/
theorem makeRoom_fits {c : Cand} {q : QuadId} {gs : List Gang} {s : State} {k : Nat} (hk : k ≤ gs.length)
    (before : ∀ j, j < k → (s.savesOf gs j).fitsAfter c q = false) (fits : (s.savesOf gs k).fitsAfter c q = true) :
    makeRoom c q gs s = some (s.savesOf gs k) := by
  induction gs generalizing s k with
  | nil =>
    obtain rfl : k = 0 := Nat.le_zero.mp hk
    exact if_pos fits
  | cons g gs ih =>
    cases k with
    | zero => exact if_pos fits
    | succ k =>
      have no : s.fitsAfter c q = false := before 0 k.succ_pos
      refine (if_neg (Bool.eq_false_iff.mp no)).trans ?_
      exact ih (Nat.le_of_succ_le_succ hk) (fun j hj => before (j + 1) (Nat.succ_lt_succ hj)) fits

/-- No save is requested when the candidate would not fit after all of them. -/
theorem makeRoom_none {c : Cand} {q : QuadId} {gs : List Gang} {s : State}
    (never : ∀ j, j ≤ gs.length → (s.savesOf gs j).fitsAfter c q = false) : makeRoom c q gs s = none := by
  induction gs generalizing s with
  | nil => exact if_neg (Bool.eq_false_iff.mp (never 0 (Nat.le_refl 0)))
  | cons g gs ih =>
    refine (if_neg (Bool.eq_false_iff.mp (never 0 (Nat.zero_le _)))).trans ?_
    exact ih fun j hj => never (j + 1) (Nat.succ_le_succ hj)

@[simp] theorem State.mem_focusOn (s : State) (k : WaveKey) : (s.focusOn k).mem = s.mem := by
  unfold State.focusOn
  dsimp only
  split <;> rfl

@[simp] theorem State.unplace_mem (s : State) (g : Gang) : (s.unplace g).mem = s.mem := by
  by_cases home : s.w.key.launch = 0
  · simp only [State.unplace, home, reduceIte]
    split <;> rfl
  · simp only [State.unplace, home, reduceIte, State.mem_focusOn]
    split <;> rfl

@[simp] theorem State.requestSave_mem (s : State) (g : Gang) : (s.requestSave g).mem = s.mem := by
  unfold State.requestSave
  split
  · exact s.unplace_mem g
  · split <;> rfl

theorem State.savesOf_mem (s : State) (gs : List Gang) (j : Nat) : (s.savesOf gs j).mem = s.mem :=
  List.foldlRecOn (motive := fun t : State => t.mem = s.mem) _ _ rfl fun t ht g _ => (t.requestSave_mem g).trans ht

/-- A save requested of a resident gang changes that gang and no other. -/
theorem State.requestSave_resident (s : State) {g : Gang} (h : g.state = .resident) (k : GangKey) :
    (s.requestSave g).findGang k = (s.setGang { g with state := .saving }).findGang k := by
  simp only [State.requestSave, h, reduceIte]
  rfl

/-- After the saves of resident gangs have been requested, those of them that are in the list are saving, and the others as they were. -/
theorem State.findGang_savesOf {s : State} {gs : List Gang} {j : Nat} (resident : ∀ x ∈ gs, x ∈ s.allGangs ∧ x.state = .resident)
    (unique : ∀ x ∈ s.allGangs, ∀ y ∈ s.allGangs, x.key = y.key → x = y) {g : Gang} (hg : g ∈ s.allGangs) :
    (s.savesOf gs j).findGang g.key = some (if g ∈ gs.take j then { g with state := .saving } else g) := by
  induction j with
  | zero => exact State.findGang_of_unique hg fun x hx => unique x hx g hg
  | succ j ih =>
    rcases Nat.lt_or_ge j gs.length with hj | hj
    · obtain ⟨listed, hres⟩ := resident _ (List.getElem_mem hj)
      have taken := List.take_succ_eq_append_getElem hj
      have next : s.savesOf gs (j + 1) = (s.savesOf gs j).requestSave gs[j] := by
        rw [State.savesOf, taken, List.foldl_concat]
        rfl
      rw [next, State.requestSave_resident _ hres, taken]
      by_cases same : gs[j].key = g.key
      · obtain rfl := unique _ listed g hg same
        rw [if_pos (List.mem_append_right _ List.mem_cons_self)]
        exact State.findGang_setGang ih (by split <;> rfl)
      · rw [State.findGang_setGang_other (s.savesOf gs j) (x := { gs[j] with state := .saving }) same, ih]
        have other : g ≠ gs[j] := fun e => same (congrArg Gang.key e).symm
        simp only [List.mem_append, List.mem_singleton, other, or_false]
    · rwa [List.take_of_length_le (Nat.le_succ_of_le hj), State.savesOf, List.take_of_length_le (Nat.le_succ_of_le hj),
        ← List.take_of_length_le hj]

/-- The first aged candidate of priority 7 that cannot start. -/
def State.barredCandidate (s : State) : Option Cand := s.candidates.find? fun c => c.aged && c.launch.record.prio == 7 && (s.placeOf c).isNone

/-- The gangs on a quad that pre-emption may save. -/
def State.lowGangs (s : State) (q : QuadId) : List Gang :=
  s.residentGangs.filter fun g => g.quad == q && decide ((s.recordOf g.key.launch).prio ≤ 3)

theorem State.lowGangs_mem {s : State} {q : QuadId} {g : Gang} (h : g ∈ s.lowGangs q) : g ∈ s.allGangs :=
  (List.mem_filter.mp (List.mem_filter.mp h).1).1

theorem execPriorityPreemption_off {s : State} (h : s.barredCandidate = none ∨ s.dev.featack[0].getLsbD 2 = false ∨ s.fwHolds = true) :
    execPriorityPreemption s = .next s := by
  unfold execPriorityPreemption
  dsimp only
  split
  · rfl
  · next c hc => exact if_pos (by simpa [State.barredCandidate, hc] using h)

theorem execPriorityPreemption_on {s : State} {c : Cand} (hc : s.barredCandidate = some c) (hf : s.dev.featack[0].getLsbD 2 = true)
    (hw : s.fwHolds = false) :
    execPriorityPreemption s = .next ((makeRoom c s.facts.quad ((s.lowGangs s.facts.quad).foldr insertYoung []) s).getD s) := by
  unfold State.barredCandidate at hc
  simp only [execPriorityPreemption, hc, hf, hw, Bool.not_true, Bool.false_eq_true, or_self, reduceIte]
  rfl

end Sys2Proof.Machine

namespace Sys2Proof.Claims
open Sys2Proof.Machine

/-- A gang starts, a block is dispatched, a candidate ages and an estimate is taken. -/
theorem placementSteps : PlacementSteps := by
  intro s
  refine ⟨fun l q h => execGangStart_fresh h, fun g l c o ps spad hg hl hx hs hp => ?_, fun g h h0 hs => ?_, fun l hg h h0 hs hu => ?_,
    ⟨_, rfl, ?_⟩⟩
  · have dispatch := execBlockDispatch_eq hg hl hx hs hp
    refine ⟨fun no => ?_, fun yes => ?_⟩
    · rwa [if_neg (Bool.eq_false_iff.mp no)] at dispatch
    · rw [if_pos yes] at dispatch
      exact ⟨_, dispatch, ⟨_, s.newBlock_mem_putBlock l g c ps spad, rfl, rfl, rfl, rfl, rfl⟩,
        fun k hw hk => s.putBlock_wave l g c ps spad hw hk, s.putBlock_start l g c ps spad, s.putBlock_mem l g c ps spad⟩
  · exact ⟨_, execCandidateAged_gang h h0 hs, State.findGang_setGang (x := { g with aged := true }) h rfl, rfl⟩
  · exact ⟨_, execCandidateAged_launch hg h h0 hs hu, State.findLaunch_setLaunch (x := { l with aged := true }) h rfl, rfl⟩
  · have used := pick_put_same s.dev.budgets s.facts.id
      { pick s.dev.budgets s.facts.id with usedBw := s.facts.size, usedPwr := s.facts.num } (by decide)
    exact ⟨congrArg Budget.usedBw used, congrArg Budget.usedPwr used, rfl, rfl⟩

end Sys2Proof.Claims
end

section
/-! PROOF of O52, how gangs move on: what the focus and the moves of a gang that holds nothing leave as it was, retirement, save and restore. -/

namespace Sys2Proof.Machine

/-! ### The focus, and places that are emptied -/

/-- The state without the waves, blocks, gangs and launches. -/
def State.unlisted (s : State) : State :=
  { s with w := Wave.absent, blk := Block.absent, gang := Gang.absent, launch := Launch.absent, waves := [], blocks := [], gangs := [], launches := [] }

/-- With its place emptied. -/
def Block.emptied (b : Block) : Block := { b with place := Place.empty }
@[inherit_doc Block.emptied] def Gang.emptied (g : Gang) : Gang := { g with place := Place.empty }

/-- A state that differs from another in the focus, and in places and stack caches that have been emptied; launch 0 is no launch. -/
structure Drained (s t : State) : Prop where
  waves : ∀ x ∈ t.allWaves, x.key.launch ≠ 0 → ∃ y ∈ s.allWaves, y.key = x.key ∧
    (x.stk = y.stk ∨ x.stk = []) ∧ (x.wbuf = y.wbuf ∨ x.wbuf = Place.empty)
  blocks : ∀ x ∈ t.allBlocks, x.key.launch ≠ 0 → ∃ y ∈ s.allBlocks, x = y ∨ x = y.emptied
  findBlock : ∀ k b, k.launch ≠ 0 → s.findBlock k = some b → t.findBlock k = some b ∨ t.findBlock k = some b.emptied
  findGang : ∀ k g, k.launch ≠ 0 → s.findGang k = some g → t.findGang k = some g ∨ t.findGang k = some g.emptied
  rest : t.unlisted = s.unlisted

theorem Drained.trans {s t u : State} (h : Drained s t) (h' : Drained t u) : Drained s u where
  waves x hx h0 := by
    obtain ⟨y, hy, ky, sy, wy⟩ := h'.waves x hx h0
    obtain ⟨z, hz, kz, sz, wz⟩ := h.waves y hy (ky ▸ h0)
    exact ⟨z, hz, kz.trans ky, sy.elim (fun e => sz.imp e.trans e.trans) .inr, wy.elim (fun e => wz.imp e.trans e.trans) .inr⟩
  blocks x hx h0 := by
    obtain ⟨y, hy, e⟩ := h'.blocks x hx h0
    have key : y.key = x.key := by rcases e with rfl | rfl <;> rfl
    obtain ⟨z, hz, e'⟩ := h.blocks y hy (key ▸ h0)
    refine ⟨z, hz, ?_⟩
    rcases e with rfl | rfl <;> rcases e' with rfl | rfl <;> simp [Block.emptied]
  findBlock k b h0 hb := by
    rcases h.findBlock k b h0 hb with e | e
    · exact h'.findBlock k b h0 e
    · exact .inr ((h'.findBlock k _ h0 e).elim id id)
  findGang k g h0 hg := by
    rcases h.findGang k g h0 hg with e | e
    · exact h'.findGang k g h0 e
    · exact .inr ((h'.findGang k _ h0 e).elim id id)
  rest := h'.rest.trans h.rest

section
variable {s t : State} (h : Drained s t)
include h

theorem Drained.mem : t.mem = s.mem := (congrArg State.mem h.rest :)
theorem Drained.dev : t.dev = s.dev := (congrArg State.dev h.rest :)

/-- Nothing comes to stand between the device and its memory. -/
theorem Drained.isOpen (ho : Claims.Open s) : Claims.Open t := by
  obtain ⟨⟨hparts, hsnaps, hrest⟩, hwait⟩ := ho
  refine ⟨⟨(congrArg State.parts h.rest :).trans hparts, (congrArg State.snaps h.rest :).trans hsnaps,
    (congrArg State.restores h.rest :).trans hrest⟩, ?_⟩
  have : t.poolWait = s.poolWait := (congrArg State.poolWait h.rest :)
  unfold Claims.NoCombining
  rwa [this]

end

/-- With the lists kept, up to what is launch 0 and up to which of several of one name is named first. -/
theorem Drained.of_lists {s t : State} (hw : ∀ x ∈ t.allWaves, x.key.launch ≠ 0 → x ∈ s.allWaves)
    (hb : ∀ x ∈ t.allBlocks, x.key.launch ≠ 0 → x ∈ s.allBlocks) (hfb : ∀ k : BlockKey, k.launch ≠ 0 → t.findBlock k = s.findBlock k)
    (hfg : ∀ k : GangKey, k.launch ≠ 0 → t.findGang k = s.findGang k) (hr : t.unlisted = s.unlisted) : Drained s t where
  waves x hx h0 := ⟨x, hw x hx h0, rfl, .inl rfl, .inl rfl⟩
  blocks x hx h0 := ⟨x, hb x hx h0, .inl rfl⟩
  findBlock k _ h0 e := .inl ((hfb k h0).trans e)
  findGang k _ h0 e := .inl ((hfg k h0).trans e)
  rest := hr

theorem Drained.refl (s : State) : Drained s s :=
  .of_lists (fun _ h _ => h) (fun _ h _ => h) (fun _ _ => rfl) (fun _ _ => rfl) rfl

/-! #### Taking into focus -/

section
variable {α κ : Type} [DecidableEq κ] {key : α → κ} {k : κ}

/-- What is absent is not found. -/
theorem find?_cons_absent {a : α} (l : List α) (ha : key a ≠ k) : (a :: l).find? (fun y => key y = k) = l.find? (fun y => key y = k) :=
  List.find?_cons_of_neg (by simpa using ha)

/-- The first of its name, or one that is not found, stands in front in place of what is absent, and none but others of its name leave the list. -/
theorem find?_focused {l : List α} {a z : α} {p : α → Bool} (hz : key z ≠ k)
    (first : key a = k → (z :: l).find? (fun y => key y = k) = some a) (stays : ∀ y ∈ l, key y = k → key a ≠ k → p y = true) :
    (a :: l.filter p).find? (fun y => key y = k) = (z :: l).find? (fun y => key y = k) := by
  by_cases ha : key a = k
  · rw [first ha]
    exact List.find?_cons_of_pos (by simpa using ha)
  · rw [find?_cons_absent _ ha, find?_cons_absent _ hz, List.find?_filter]
    refine List.find?_congr fun y hy => ?_
    by_cases hk : key y = k
    · simp [hk, stays y hy hk ha]
    · simp [hk]

variable {l : List α} {j : κ} {a : α}

/-- What has been taken for the element of one name is the first of its own name. -/
theorem find?_of_getD (absent : key a ≠ k) (hk : key ((l.find? fun y => key y = j).getD a) = k) :
    l.find? (fun y => key y = k) = some ((l.find? fun y => key y = j).getD a) := by
  cases h : l.find? (fun y => key y = j) with
  | none =>
    rw [h] at hk
    exact absurd hk absent
  | some x =>
    rw [h] at hk
    have hj : key x = j := by simpa using List.find?_some h
    obtain rfl : j = k := hj.symm.trans hk
    exact h

/-- An element of another name than what has been taken for a name does not have that name. -/
theorem ne_of_getD {y : α} (hy : y ∈ l) (hk : key y = k) (other : key ((l.find? fun y => key y = j).getD a) ≠ k) : key y ≠ j := by
  intro e
  have found : (l.find? fun y => key y = j).isSome := List.find?_isSome.mpr ⟨y, hy, decide_eq_true e⟩
  obtain ⟨x, hx⟩ := Option.isSome_iff_exists.mp found
  have hj : key x = j := by simpa using List.find?_some hx
  rw [hx] at other
  exact other (hj.trans (e.symm.trans hk))

/-- What has been taken for a name has it, or is what is absent. -/
theorem key_of_getD : key ((l.find? fun y => key y = j).getD a) = j ∨ (l.find? fun y => key y = j).getD a = a := by
  cases h : l.find? (fun y => key y = j) with
  | none => exact .inr rfl
  | some x => exact .inl (by simpa using List.find?_some h)

/-- What has been taken for a name is of the list, or what is absent. -/
theorem mem_of_getD_find? {p : α → Bool} : (l.find? p).getD a ∈ l ∨ (l.find? p).getD a = a := by
  cases h : l.find? p with
  | none => exact .inr rfl
  | some x => exact .inl (List.mem_of_find?_eq_some h)

end

theorem Block.absent_ne {k : BlockKey} (h : k.launch ≠ 0) : Block.absent.key ≠ k := fun e => h (e ▸ rfl)
theorem Gang.absent_ne {k : GangKey} (h : k.launch ≠ 0) : Gang.absent.key ≠ k := fun e => h (e ▸ rfl)

section
variable (s : State)

theorem State.findBlock_unfocus {k : BlockKey} (h : k.launch ≠ 0) : s.unfocus.findBlock k = s.findBlock k := by
  refine (find?_cons_absent (key := Block.key) _ (Block.absent_ne h)).trans ?_
  by_cases h0 : s.blk.key.launch = 0
  · have : s.blk.key ≠ k := fun e => h (e ▸ h0)
    simp only [State.unfocus, h0, reduceIte]
    exact (find?_cons_absent (key := Block.key) _ this).symm
  · simp only [State.unfocus, h0, reduceIte]
    rfl

theorem State.findGang_unfocus {k : GangKey} (h : k.launch ≠ 0) : s.unfocus.findGang k = s.findGang k := by
  refine (find?_cons_absent (key := Gang.key) _ (Gang.absent_ne h)).trans ?_
  by_cases h0 : s.gang.key.launch = 0
  · have : s.gang.key ≠ k := fun e => h (e ▸ h0)
    simp only [State.unfocus, h0, reduceIte]
    exact (find?_cons_absent (key := Gang.key) _ this).symm
  · simp only [State.unfocus, h0, reduceIte]
    rfl

theorem State.unfocus_drained : Drained s s.unfocus := by
  refine .of_lists (fun x hx h0 => ?_) (fun x hx h0 => ?_) (fun k h => s.findBlock_unfocus h) (fun k h => s.findGang_unfocus h) rfl
  · rcases List.mem_cons.mp hx with rfl | hx
    · exact absurd rfl h0
    · simp only [State.unfocus] at hx
      split at hx
      · exact List.mem_cons_of_mem _ hx
      · exact hx
  · rcases List.mem_cons.mp hx with rfl | hx
    · exact absurd rfl h0
    · simp only [State.unfocus] at hx
      split at hx
      · exact List.mem_cons_of_mem _ hx
      · exact hx

end

theorem State.focusOn_drained (s : State) (k : WaveKey) : Drained s (s.focusOn k) := by
  refine s.unfocus_drained.trans ?_
  have hb : s.unfocus.blk = Block.absent := rfl
  have hg : s.unfocus.gang = Gang.absent := rfl
  unfold State.focusOn
  generalize s.unfocus = u at hb hg
  dsimp only
  split
  · exact .refl u
  · next w hw =>
    refine .of_lists (fun x hx _ => ?_) (fun x hx h0 => ?_) (fun j h0 => ?_) (fun j h0 => ?_) rfl
    · rcases List.mem_cons.mp hx with rfl | hx
      · exact List.mem_cons_of_mem _ (List.mem_of_find?_eq_some hw)
      · exact List.mem_cons_of_mem _ (List.mem_filter.mp hx).1
    · rcases List.mem_cons.mp hx with rfl | hx
      · exact mem_of_getD_find?.elim id fun e => absurd (congrArg (·.key.launch) e) h0
      · exact List.mem_cons_of_mem _ (List.mem_filter.mp hx).1
    · refine find?_focused (key := Block.key) (hb ▸ Block.absent_ne h0) (find?_of_getD (key := Block.key) (Block.absent_ne h0)) ?_
      exact fun y hy hk other => decide_eq_true (ne_of_getD (key := Block.key) (List.mem_cons_of_mem _ hy) hk other)
    · refine find?_focused (key := Gang.key) (hg ▸ Gang.absent_ne h0) (find?_of_getD (key := Gang.key) (Gang.absent_ne h0)) ?_
      exact fun y hy hk other => decide_eq_true (ne_of_getD (key := Gang.key) (List.mem_cons_of_mem _ hy) hk other)

theorem State.focusOn_w (s : State) (k : WaveKey) : (s.focusOn k).w.key = k ∨ (s.focusOn k).w = Wave.absent := by
  unfold State.focusOn
  dsimp only
  split
  · exact .inr rfl
  · next w hw => exact .inl (by simpa using List.find?_some hw)

/-- The focus put back on the wave it was on. -/
def State.refocus (s : State) (home : WaveKey) : State := if home.launch = 0 then s.unfocus else s.focusOn home

theorem State.refocus_drained (s : State) (home : WaveKey) : Drained s (s.refocus home) := by
  unfold State.refocus
  split
  · exact s.unfocus_drained
  · exact s.focusOn_drained home

/-! #### The acts of a wave and of the device -/

/-- An act of a wave that goes through, and drains what the wave sees, drains the state. -/
theorem State.inWave_drained {s u : State} {k : WaveKey} {a : Act Unit} (h : s.seenAs k a = .ok ((), u))
    (hd : Drained (s.seenAs k id) u) : ∃ t, s.inWave k a = (none, t) ∧ Drained s t := by
  have seen : Drained s (s.seenAs k id) := by
    unfold State.seenAs
    split
    · exact .refl s
    · exact s.focusOn_drained k
  refine ⟨if s.w.key = k then u else u.refocus s.w.key, ?_, (seen.trans hd).trans ?_⟩
  · simp only [State.inWave, State.asWave, h]
    rfl
  · split
    · exact .refl u
    · exact u.refocus_drained _

/-- What the device sees that acts on a core with a block and its gang. -/
def State.deviceFocus (s : State) (c : CoreId) (cx : CtxId) (b : Option BlockKey) (k : GangKey) : State :=
  let t := s.unfocus
  let blk := (b.bind t.findBlock).getD Block.absent
  let gang := (t.findGang k).getD Gang.absent
  { t with
    w := { Wave.absent with core := c, ctx := cx }
    blk := blk
    gang := gang
    blocks := t.blocks.filter fun x => x.key.launch = 0 || x.key != blk.key
    gangs := t.gangs.filter fun x => x.key.launch = 0 || x.key != gang.key }

theorem State.deviceFocus_drained (s : State) (c : CoreId) (cx : CtxId) (b : Option BlockKey) (k : GangKey) :
    Drained s (s.deviceFocus c cx b k) := by
  refine s.unfocus_drained.trans ?_
  have hb : s.unfocus.blk = Block.absent := rfl
  have hg : s.unfocus.gang = Gang.absent := rfl
  unfold State.deviceFocus
  generalize s.unfocus = u at hb hg
  refine .of_lists (fun x hx h0 => ?_) (fun x hx h0 => ?_) (fun j h0 => ?_) (fun j h0 => ?_) rfl
  · rcases List.mem_cons.mp hx with rfl | hx
    · exact absurd rfl h0
    · exact List.mem_cons_of_mem _ hx
  · rcases List.mem_cons.mp hx with rfl | hx
    · cases b with
      | none => exact absurd rfl h0
      | some b => exact mem_of_getD_find?.elim id fun e => absurd (congrArg (·.key.launch) e) h0
    · exact List.mem_cons_of_mem _ (List.mem_filter.mp hx).1
  · refine find?_focused (key := Block.key) (hb ▸ Block.absent_ne h0) (fun hk => ?_) fun y _ hk other => ?_
    · cases b with
      | none => exact absurd hk (Block.absent_ne h0)
      | some b => exact find?_of_getD (key := Block.key) (Block.absent_ne h0) hk
    · rw [← hk] at other
      simp [Ne.symm other]
  · refine find?_focused (key := Gang.key) (hg ▸ Gang.absent_ne h0) (find?_of_getD (key := Gang.key) (Gang.absent_ne h0)) ?_
    intro y _ hk other
    rw [← hk] at other
    simp [Ne.symm other]

theorem State.deviceFocus_blk (s : State) (c : CoreId) (cx : CtxId) (b : BlockKey) (k : GangKey) :
    (s.deviceFocus c cx (some b) k).blk.key = b ∨ (s.deviceFocus c cx (some b) k).blk = Block.absent := key_of_getD (key := Block.key)
theorem State.deviceFocus_gang (s : State) (c : CoreId) (cx : CtxId) (b : Option BlockKey) (k : GangKey) :
    (s.deviceFocus c cx b k).gang.key = k ∨ (s.deviceFocus c cx b k).gang = Gang.absent := key_of_getD (key := Gang.key)

/-- An act of the device that goes through, and drains what it sees, drains the state. -/
theorem State.asDevice_drained {s u : State} {c : CoreId} {cx : CtxId} {b : Option BlockKey} {k : GangKey} {a : Act Unit}
    (h : a (s.deviceFocus c cx b k) = .ok ((), u)) (hd : Drained (s.deviceFocus c cx b k) u) :
    ∃ t, s.asDevice c cx b k a = (none, t) ∧ Drained s t := by
  refine ⟨if s.w.key.launch = 0 then u.unfocus else u.unfocus.focusOn s.w.key, ?_, ((s.deviceFocus_drained c cx b k).trans hd).trans ?_⟩
  · unfold State.deviceFocus at h
    simp only [State.asDevice, h]
  · split
    · exact u.unfocus_drained
    · exact u.unfocus_drained.trans (u.unfocus.focusOn_drained _)

/-! #### Moves out of places that hold nothing (07/R205) -/

theorem putLinesD_nil (s : State) : putLinesD [] s = .ok ((), s) := rfl

theorem sendFar_nil (unit : UnitId) (keep : State → List BLine → State) (s : State) : sendFar unit [] keep s = .ok ((), s) := rfl

theorem moveGD_of_empty {s : State} (h : s.gang.place.lines = []) : moveGD s = .ok ((), s.setG Place.empty) := by
  have lines : s.ownLines s.gang.place = [] ∧ s.farLines s.gang.place = [] := by simp [State.ownLines, State.farLines, h]
  have same : s.setG { s.gang.place with lines := [] } = s := by rw [← h]; rfl
  simp [moveGD, Act.bind_run, whole, lines, putLinesD_nil, same, h, sendFar_nil, Place.empty]

theorem moveBG_of_empty {s : State} (h : s.blk.place.lines = []) : moveBG s = .ok ((), s.setB Place.empty) := by
  have lines : s.ownLines s.blk.place = [] ∧ s.farLines s.blk.place = [] := by simp [State.ownLines, State.farLines, h]
  have same : s.setB { s.blk.place with lines := [] } = s := by rw [← h]; rfl
  cases hp : s.passesG with
  | true => simp [moveBG, Act.bind_run, whole, hp, lines, putLinesD_nil, same, h, sendFar_nil]
  | false => simp [moveBG, Act.bind_run, keepMove, together, hp, h]

theorem moveWB_of_empty {s : State} (h : s.w.wbuf.lines = []) : moveWB s = .ok ((), s.setW Place.empty) := by
  have lines : s.ownLines s.w.wbuf = [] ∧ s.farLines s.w.wbuf = [] := by simp [State.ownLines, State.farLines, h]
  have same : s.setW { s.w.wbuf with lines := [] } = s := by rw [← h]; rfl
  by_cases hp : s.passesB = true ∧ s.passesG = true
  · simp [moveWB, Act.bind_run, whole, hp, lines, putLinesD_nil, same, h, sendFar_nil]
  · simp [moveWB, Act.bind_run, keepMove, together, hp, h]

/-- What is found when the first element has been changed under its name: the same, or the changed one. -/
theorem find?_head_changed {α κ : Type} [DecidableEq κ] {key : α → κ} {l : List α} {a b x : α} {k : κ} (hk : key b = key a)
    (h : (a :: l).find? (fun y => key y = k) = some x) :
    (b :: l).find? (fun y => key y = k) = some x ∨ x = a ∧ (b :: l).find? (fun y => key y = k) = some b := by
  by_cases ha : key a = k
  · rw [List.find?_cons_of_pos (by simpa using ha)] at h
    exact .inr ⟨(Option.some.inj h).symm, List.find?_cons_of_pos (by simpa [hk] using ha)⟩
  · rw [find?_cons_absent l ha] at h
    exact .inl ((find?_cons_absent l (hk ▸ ha)).trans h)

theorem State.setB_drained (s : State) : Drained s (s.setB Place.empty) where
  waves x hx _ := ⟨x, hx, rfl, .inl rfl, .inl rfl⟩
  blocks x hx _ := by
    rcases List.mem_cons.mp hx with rfl | hx
    · exact ⟨s.blk, List.mem_cons_self, .inr rfl⟩
    · exact ⟨x, List.mem_cons_of_mem _ hx, .inl rfl⟩
  findBlock k b _ h := by
    refine (find?_head_changed (key := Block.key) (a := s.blk) (b := s.blk.emptied) rfl h).imp id ?_
    rintro ⟨rfl, e⟩
    exact e
  findGang k g _ h := .inl h
  rest := rfl

theorem State.setG_drained (s : State) : Drained s (s.setG Place.empty) where
  waves x hx _ := ⟨x, hx, rfl, .inl rfl, .inl rfl⟩
  blocks x hx _ := ⟨x, hx, .inl rfl⟩
  findBlock k b _ h := .inl h
  findGang k g _ h := by
    refine (find?_head_changed (key := Gang.key) (a := s.gang) (b := s.gang.emptied) rfl h).imp id ?_
    rintro ⟨rfl, e⟩
    exact e
  rest := rfl

theorem State.setWave_drained (s : State) {w : Wave} (key : w.key = s.w.key) (stk : w.stk = s.w.stk ∨ w.stk = [])
    (wbuf : w.wbuf = s.w.wbuf ∨ w.wbuf = Place.empty) : Drained s { s with w := w } where
  waves x hx _ := by
    rcases List.mem_cons.mp hx with rfl | hx
    · exact ⟨s.w, List.mem_cons_self, key.symm, stk, wbuf⟩
    · exact ⟨x, List.mem_cons_of_mem _ hx, rfl, .inl rfl, .inl rfl⟩
  blocks x hx _ := ⟨x, hx, .inl rfl⟩
  findBlock k b _ h := .inl h
  findGang k g _ h := .inl h
  rest := rfl

/-- The part of a save that acts on a wave which holds nothing. -/
theorem saveWave_of_empty {s : State} (hs : s.w.stk = []) (hw : s.w.wbuf.lines = []) : ∃ u, saveWave s = .ok ((), u) ∧ Drained s u := by
  have flushed : flushStack s.w s = .ok ((), s) := by rw [flushStack, hs]; rfl
  cases hm : s.w.wbuf.marked with
  | true =>
    refine ⟨{ s with w := { s.w with stk := [] } }, ?_, s.setWave_drained rfl (.inr rfl) (.inl rfl)⟩
    simp [saveWave, Act.bind_run, flushed, hm]
  | false =>
    refine ⟨State.setW { s with w := { s.w with stk := [] } } Place.empty, ?_, s.setWave_drained rfl (.inr rfl) (.inr rfl)⟩
    have moved := moveWB_of_empty (s := { s with w := { s.w with stk := [] } }) hw
    simp [saveWave, Act.bind_run, flushed, hm, moved]

/-! ### A gang that holds nothing -/

/-- The waves of a gang, its blocks and its own place hold no line and no stack byte. -/
structure HoldsNothing (s : State) (k : GangKey) : Prop where
  waves : ∀ w ∈ s.allWaves, w.key.gangKey = k → w.stk = [] ∧ w.wbuf.lines = []
  blocks : ∀ b ∈ s.allBlocks, b.key.gangKey = k → b.place.lines = []
  gang : ∃ g, s.findGang k = some g ∧ g.place.lines = []

section
variable {s t : State} {k : GangKey} (h0 : k.launch ≠ 0)
include h0

/-- A gang whose place holds no line. -/
theorem Drained.gang_empty (h : Drained s t) (hg : ∃ g, s.findGang k = some g ∧ g.place.lines = []) :
    ∃ g, t.findGang k = some g ∧ g.place.lines = [] := by
  obtain ⟨g, hg, lines⟩ := hg
  rcases h.findGang k g h0 hg with e | e
  · exact ⟨g, e, lines⟩
  · exact ⟨g.emptied, e, rfl⟩

/-- Blocks whose places hold no line. -/
theorem Drained.blocks_empty (h : Drained s t) {p : BlockKey → Prop} (hp : ∀ b, p b → b.gangKey = k)
    (hb : ∀ b ∈ s.allBlocks, p b.key → b.place.lines = []) : ∀ b ∈ t.allBlocks, p b.key → b.place.lines = [] := by
  intro x hx hk
  have hx0 : x.key.launch ≠ 0 := fun e => h0 (hp _ hk ▸ e)
  obtain ⟨y, hy, rfl | rfl⟩ := h.blocks x hx hx0
  · exact hb x hy hk
  · rfl

/-- It holds nothing afterwards. -/
theorem Drained.holdsNothing (h : Drained s t) (hn : HoldsNothing s k) : HoldsNothing t k where
  waves x hx hk := by
    have hx0 : x.key.launch ≠ 0 := fun e => h0 (hk ▸ e)
    obtain ⟨y, hy, key, stk, wbuf⟩ := h.waves x hx hx0
    obtain ⟨nostk, nolines⟩ := hn.waves y hy (key ▸ hk)
    exact ⟨stk.elim (·.trans nostk) id, wbuf.elim (fun e => e ▸ nolines) (fun e => e ▸ rfl)⟩
  blocks := h.blocks_empty h0 (p := fun b => b.gangKey = k) (fun _ => id) hn.blocks
  gang := h.gang_empty h0 hn.gang

/-- Move(G, D) of a gang whose place holds no line, by the device. -/
theorem State.asDevice_moveGD (hg : ∃ g, s.findGang k = some g ∧ g.place.lines = []) (c : CoreId) (cx : CtxId) (b : Option BlockKey) :
    ∃ t, s.asDevice c cx b k moveGD = (none, t) ∧ Drained s t := by
  have empty : (s.deviceFocus c cx b k).gang.place.lines = [] := by
    obtain ⟨g, hg, lines⟩ := (s.deviceFocus_drained c cx b k).gang_empty h0 hg
    rcases s.deviceFocus_gang c cx b k with hk | absent
    · have first : (s.deviceFocus c cx b k).findGang k = some (s.deviceFocus c cx b k).gang :=
        List.find?_cons_of_pos (by simpa using hk)
      rwa [← Option.some.inj (hg.symm.trans first)]
    · rw [absent]
      rfl
  exact State.asDevice_drained (moveGD_of_empty empty) (State.setG_drained _)

/-- Move(B, G) of a block whose place holds no line, by the device. -/
theorem State.asDevice_moveBG {b : BlockKey} (hk : b.gangKey = k) (hb : ∀ x ∈ s.allBlocks, x.key = b → x.place.lines = []) (c : CoreId)
    (cx : CtxId) : ∃ t, s.asDevice c cx (some b) k moveBG = (none, t) ∧ Drained s t := by
  have empty : (s.deviceFocus c cx (some b) k).blk.place.lines = [] := by
    rcases s.deviceFocus_blk c cx b k with key | absent
    · exact (s.deviceFocus_drained c cx (some b) k).blocks_empty h0 (p := (· = b)) (fun _ e => e ▸ hk) hb _ List.mem_cons_self key
    · rw [absent]
      rfl
  exact State.asDevice_drained (moveBG_of_empty empty) (State.setB_drained _)

/-- What the save does to one of its waves. -/
theorem State.inWave_saveWave (hn : HoldsNothing s k) {w : WaveKey} (hw : w.gangKey = k) :
    ∃ t, s.inWave w saveWave = (none, t) ∧ Drained s t := by
  have empty : (s.seenAs w id).w.stk = [] ∧ (s.seenAs w id).w.wbuf.lines = [] := by
    unfold State.seenAs
    split
    · next home => exact hn.waves s.w List.mem_cons_self (home ▸ hw)
    · rcases s.focusOn_w w with key | absent
      · exact ((s.focusOn_drained w).holdsNothing h0 hn).waves _ List.mem_cons_self ((congrArg WaveKey.gangKey key).trans hw)
      · refine absent ▸ ⟨rfl, rfl⟩
  obtain ⟨u, hu, drained⟩ := saveWave_of_empty empty.1 empty.2
  exact State.inWave_drained hu drained

end

/-! ### The save of a gang that holds nothing (07/R214, 12/R344) -/

/-- The moves of a save up to a wave's: the save of the next wave, unless a move has stopped. -/
def saveNextWave (r : Option (Halt × UnitId) × State) (w : Wave) : Option (Halt × UnitId) × State :=
  match r.1 with
  | some _ => r
  | none => if w.life == .ended then r else match r.2.inWave w.key saveWave with
    | (none, s) => (none, s)
    | (some h, s) => (some (h, wholeCore w.core), s)

/-- The move of the next block, unless a move has stopped. -/
def saveNextBlock (k : GangKey) (r : Option (Halt × UnitId) × State) (b : Block) : Option (Halt × UnitId) × State :=
  match r.1 with
  | some _ => r
  | none => if b.place.marked then r else match r.2.asDevice b.core b.ctx (some b.key) k moveBG with
    | (none, s) => (none, s)
    | (some h, s) => (some (h, wholeCore b.core), s)

/-- What follows the moves of the waves and blocks: the gang's own place, and then the save slot. -/
def saveAbove (g : Gang) (r : Option (Halt × UnitId) × State) : Option (Halt × UnitId) × State :=
  match r.1 with
  | some _ => r
  | none =>
    let r := if g.place.marked then r else match r.2.asDevice (g.quad ++ 0#2) g.ctx none g.key moveGD with
      | (none, s) => (none, s)
      | (some h, s) => (some (h, wholeQuad g.quad), s)
    match r.1 with
    | some _ => r
    | none =>
      let x := r.2.writeSlot g
      (x.1.map fun h => (h, wholeQuad g.quad), x.2)

theorem State.saveMoves_eq (s : State) (g : Gang) :
    s.saveMoves g = saveAbove g ((s.liveBlocks g.key).foldl (saveNextBlock g.key) ((s.gangWaves g.key).foldl saveNextWave (none, s))) := rfl

/-- No move has stopped, and the gang held nothing. -/
def Saving (s : State) (r : Option (Halt × UnitId) × State) : Prop := r.1 = none ∧ Drained s r.2

section
variable {s : State} {k : GangKey} (h0 : k.launch ≠ 0) (hn : HoldsNothing s k) {r : Option (Halt × UnitId) × State} (hr : Saving s r)
include h0 hn hr

theorem saveNextWave_drained {w : Wave} (hw : w.key.gangKey = k) : Saving s (saveNextWave r w) := by
  obtain ⟨going, drained⟩ := hr
  obtain ⟨t, ht, dt⟩ := State.inWave_saveWave h0 (drained.holdsNothing h0 hn) hw
  simp only [saveNextWave, going, ht]
  split
  · exact ⟨going, drained⟩
  · exact ⟨rfl, drained.trans dt⟩

theorem saveNextBlock_drained {b : Block} (hb : b.key.gangKey = k) : Saving s (saveNextBlock k r b) := by
  obtain ⟨going, drained⟩ := hr
  obtain ⟨t, ht, dt⟩ := State.asDevice_moveBG h0 hb
    (fun x hx e => (drained.holdsNothing h0 hn).blocks x hx (e ▸ hb)) b.core b.ctx
  simp only [saveNextBlock, going, ht]
  split
  · exact ⟨going, drained⟩
  · exact ⟨rfl, drained.trans dt⟩

/-- The gang's own place is left as it is, or moved, and its save slot is written. -/
theorem saveAbove_drained {g : Gang} (hg : g.key = k) : ∃ t, Drained s t ∧
    saveAbove g r = ((t.writeSlot g).1.map fun h => (h, wholeQuad g.quad), (t.writeSlot g).2) := by
  obtain ⟨going, drained⟩ := hr
  subst hg
  cases hm : g.place.marked with
  | true => exact ⟨r.2, drained, by simp [saveAbove, going, hm]⟩
  | false =>
    obtain ⟨t, ht, dt⟩ := State.asDevice_moveGD h0 (drained.holdsNothing h0 hn).gang (g.quad ++ 0#2) g.ctx none
    exact ⟨t, drained.trans dt, by simp [saveAbove, going, hm, ht]⟩

end

theorem State.gangWaves_gangKey {s : State} {k : GangKey} {w : Wave} (h : w ∈ s.gangWaves k) : w.key.gangKey = k := by
  have := (List.mem_filter.mp h).2
  simp_all

theorem State.liveBlocks_gangKey {s : State} {k : GangKey} {b : Block} (h : b ∈ s.liveBlocks k) : b.key.gangKey = k := by
  obtain ⟨i, -, hi⟩ := List.mem_filterMap.mp h
  have := List.find?_some hi
  simp_all [BlockKey.gangKey]

/-- A line of a save slot goes to memory where nothing stands in its way. -/
theorem State.writeSlotLine_of_open {s : State} (ho : Claims.Open s) (line : Nat) (bs : List (Nat × Byte)) :
    ∃ t, s.writeSlotLine line bs = (none, t) ∧ t.frame = s.frame := by
  obtain ⟨clear, wait⟩ := ho
  have nothing : s.recallFor s.dev.devnum line = .ok s := by
    obtain ⟨hparts, -, hrest⟩ := clear
    have free : (s.poolWait.any fun e => e.2 == .combine line) = false := by
      simpa using fun c e he => wait (c, e) he line
    simp [State.recallFor, State.homeHeld, State.restoring, State.partsAway, hparts, hrest, free, State.recallLine, Except.mapError]
  obtain ⟨t, ht, ft⟩ := State.homeWrite_of_clear clear (some hostAgent) none line bs
  unfold State.writeSlotLine
  split
  · exact ⟨s, rfl, rfl⟩
  · exact ⟨t, by simp only [nothing, ht], ft⟩

theorem State.open_of_frame {s t : State} (h : t.frame = s.frame) (ho : Claims.Open s) : Claims.Open t := by
  have wait : t.poolWait = s.poolWait := by simpa [State.frame] using congrArg State.poolWait h
  refine ⟨State.clear_of_frame h ho.1, ?_⟩
  unfold Claims.NoCombining
  rw [wait]
  exact ho.2

/-- The save slot is written where nothing stands in the way. -/
theorem State.writeSlot_of_open {s : State} (ho : Claims.Open s) (g : Gang) :
    ∃ t, s.writeSlot g = (none, t) ∧ t.frame = s.frame := by
  have all : (s.writeSlot g).1 = none ∧ (s.writeSlot g).2.frame = s.frame := by
    refine List.foldlRecOn (motive := fun r : Option Halt × State => r.1 = none ∧ r.2.frame = s.frame) _ _ ⟨rfl, rfl⟩ fun r hr i _ => ?_
    obtain ⟨going, fr⟩ := hr
    simp only [going]
    obtain ⟨t, ht, ft⟩ := State.writeSlotLine_of_open (State.open_of_frame fr ho)
      (lineOf ((s.ctxOf g.ctx).savebase + (s.ctxOf g.ctx).savesize * g.saveSlot) + i) _
    rw [ht]
    exact ⟨rfl, ft.trans fr⟩
  exact ⟨_, Prod.ext all.1 rfl, all.2⟩

/-- The moves of the save of a gang that holds nothing go through, and the gang stands where it stood. -/
theorem State.saveMoves_of_empty {s : State} {g : Gang} (h0 : g.key.launch ≠ 0) (hn : HoldsNothing s g.key) (ho : Claims.Open s) :
    ∃ u x, s.saveMoves g = (none, u) ∧ u.findGang g.key = some x ∧ u.dev = s.dev := by
  have waves : Saving s ((s.gangWaves g.key).foldl saveNextWave (none, s)) :=
    List.foldlRecOn _ _ ⟨rfl, .refl s⟩ fun r hr w hw => saveNextWave_drained h0 hn hr (State.gangWaves_gangKey hw)
  have blocks : Saving s ((s.liveBlocks g.key).foldl (saveNextBlock g.key) ((s.gangWaves g.key).foldl saveNextWave (none, s))) :=
    List.foldlRecOn _ _ waves fun r hr b hb => saveNextBlock_drained h0 hn hr (State.liveBlocks_gangKey hb)
  obtain ⟨t, dt, moves⟩ := saveAbove_drained h0 hn blocks (g := g) rfl
  obtain ⟨u, hu, fu⟩ := State.writeSlot_of_open (dt.isOpen ho) g
  obtain ⟨x, hx, -⟩ := (dt.holdsNothing h0 hn).gang
  have same : u.findGang g.key = t.findGang g.key := by
    have gang : u.gang = t.gang := by simpa [State.frame] using congrArg State.gang fu
    have gangs : u.gangs = t.gangs := by simpa [State.frame] using congrArg State.gangs fu
    exact State.findGang_congr (by rw [State.allGangs, gang, gangs]; rfl) g.key
  refine ⟨u, x, ?_, same.trans hx, (State.frame_dev fu).trans dt.dev⟩
  rw [State.saveMoves_eq, moves, hu]
  rfl

/-! #### Changes of waves, blocks and cores leave the gangs and memory as they were -/

section
variable (s : State)

@[simp] theorem State.allGangs_setCore (c : CoreId) (x : Core) : (s.setCore c x).allGangs = s.allGangs := rfl
@[simp] theorem State.allGangs_setWave (w : Wave) : (s.setWave w).allGangs = s.allGangs := rfl
@[simp] theorem State.setWave_mem (w : Wave) : (s.setWave w).mem = s.mem := rfl
@[simp] theorem State.setWave_dev (w : Wave) : (s.setWave w).dev = s.dev := rfl
@[simp] theorem State.allGangs_setBlock (b : Block) : (s.setBlock b).allGangs = s.allGangs := rfl
@[simp] theorem State.setBlock_mem (b : Block) : (s.setBlock b).mem = s.mem := rfl
@[simp] theorem State.setBlock_dev (b : Block) : (s.setBlock b).dev = s.dev := rfl
@[simp] theorem State.allGangs_acquire (c : CoreId) (x : Bool) : (s.acquire c x).allGangs = s.allGangs := rfl
@[simp] theorem State.acquire_mem (c : CoreId) (x : Bool) : (s.acquire c x).mem = s.mem := rfl
@[simp] theorem State.allGangs_chargeClass (r : Rec) (n : Nat) : (s.chargeClass r n).allGangs = s.allGangs := rfl
@[simp] theorem State.chargeClass_mem (r : Rec) (n : Nat) : (s.chargeClass r n).mem = s.mem := rfl
@[simp] theorem State.setGang_mem (g : Gang) : (s.setGang g).mem = s.mem := rfl
@[simp] theorem State.allGangs_takeTicket : s.takeTicket.2.allGangs = s.allGangs := rfl
@[simp] theorem State.takeTicket_mem : s.takeTicket.2.mem = s.mem := rfl

end

/-- The state when the waves and blocks of a gang have given up what they hold on their cores. -/
def State.vacate (s : State) (g : Gang) : State :=
  let s := (s.gangWaves g.key).foldl (init := s) fun s w =>
    if w.life == .ended then s
    else
      let s := s.setWave (s.savedWave w)
      let free (t : Slot) : Slot := if t.owner == some w.key then Slot.bound none else t
      s.setCore w.core { s.core w.core with slots := (s.core w.core).slots.map free }
  (s.liveBlocks g.key).foldl (init := s) fun s b => s.setBlock { b with place := b.place.toPool (s.poolFree b.ctx) }

theorem State.vacate_keeps (s : State) (g : Gang) :
    (s.vacate g).allGangs = s.allGangs ∧ (s.vacate g).mem = s.mem ∧ (s.vacate g).dev = s.dev := by
  refine List.foldlRecOn (motive := fun t : State => t.allGangs = s.allGangs ∧ t.mem = s.mem ∧ t.dev = s.dev) _ _ ?_ fun _ ht _ _ => by
    simpa using ht
  refine List.foldlRecOn (motive := fun t : State => t.allGangs = s.allGangs ∧ t.mem = s.mem ∧ t.dev = s.dev) _ _ ⟨rfl, rfl, rfl⟩ ?_
  intro t ht w _
  split
  · exact ht
  · simpa using ht

/-- A gang as its save slot holds it. -/
def Gang.inSlot (g : Gang) (s : State) : Gang :=
  { g with state := .saved, place := g.place.toPool (s.takeTicket.2.poolFree g.ctx), waitFrom := s.dev.ticket, aged := false }

theorem State.enterSlot_eq {s : State} {g x : Gang} (h : (s.vacate g).findGang g.key = some x) :
    s.enterSlot g = (s.vacate g).takeTicket.2.setGang (x.inSlot (s.vacate g)) := by
  have enters : s.enterSlot g = match (s.vacate g).takeTicket.2.findGang g.key with
      | none => (s.vacate g).takeTicket.2
      | some x => (s.vacate g).takeTicket.2.setGang (x.inSlot (s.vacate g)) := rfl
  have found : (s.vacate g).takeTicket.2.findGang g.key = some x :=
    (State.findGang_congr (s.vacate g).allGangs_takeTicket g.key).trans h
  rw [enters, found]

/-- The gang enters its save slot. -/
theorem State.enterSlot_saved {s : State} {g x : Gang} (hx : s.findGang g.key = some x) :
    ∃ y, (s.enterSlot g).findGang g.key = some y ∧ y.state = .saved ∧ y.waitFrom = s.dev.ticket ∧ (s.enterSlot g).mem = s.mem := by
  obtain ⟨gangs, mem, dev⟩ := s.vacate_keeps g
  have left : (s.vacate g).findGang g.key = some x := (State.findGang_congr gangs g.key).trans hx
  have found : (s.vacate g).takeTicket.2.findGang g.key = some x :=
    (State.findGang_congr (s.vacate g).allGangs_takeTicket g.key).trans left
  have key : (x.inSlot (s.vacate g)).key = g.key := (State.findGang_key hx : x.key = g.key)
  rw [State.enterSlot_eq left, ← key]
  refine ⟨x.inSlot (s.vacate g), State.findGang_setGang found rfl, rfl, congrArg Device.ticket dev, ?_⟩
  rw [State.setGang_mem, State.takeTicket_mem, mem]

theorem State.releaseSwitch_keeps (s : State) (cx : CtxId) : (s.releaseSwitch cx).allGangs = s.allGangs ∧ (s.releaseSwitch cx).mem = s.mem := by
  unfold State.releaseSwitch State.startHeld
  split
  · split <;> exact ⟨rfl, rfl⟩
  · exact ⟨rfl, rfl⟩

theorem execGangSave_moved {s u : State} {g : Gang} (hp : s.dev.powered = true) (hg : s.findGang s.facts.gangKey = some g)
    (h0 : g.key.launch ≠ 0) (hs : g.state = .saving) (hr : s.gangRestoring g.key = false)
    (hb : (s.busyWork fun k => k.gangKey == g.key) = false) (hm : s.saveMoves g = (none, u)) :
    execGangSave s = .next ((u.enterSlot g).releaseSwitch g.ctx) := by
  simp [execGangSave, hg, h0, hp, hs, hr, hb, hm]

/-- Once its moves have gone through, the gang is saved, and its wait begins. -/
theorem execGangSave_saved {s u : State} {g x : Gang} (hp : s.dev.powered = true) (hg : s.findGang s.facts.gangKey = some g)
    (h0 : g.key.launch ≠ 0) (hs : g.state = .saving) (hr : s.gangRestoring g.key = false)
    (hb : (s.busyWork fun k => k.gangKey == g.key) = false) (hm : s.saveMoves g = (none, u)) (hx : u.findGang g.key = some x) :
    ∃ t y, execGangSave s = .next t ∧ t.findGang g.key = some y ∧ y.state = .saved ∧ y.waitFrom = u.dev.ticket ∧ t.mem = u.mem := by
  obtain ⟨y, hy, saved, since, mem⟩ := State.enterSlot_saved hx
  obtain ⟨gangs, mem'⟩ := (u.enterSlot g).releaseSwitch_keeps g.ctx
  refine ⟨(u.enterSlot g).releaseSwitch g.ctx, y, execGangSave_moved hp hg h0 hs hr hb hm, ?_, saved, since, mem'.trans mem⟩
  exact (State.findGang_congr gangs g.key).trans hy

/-! ### Restore (12/R346) -/

theorem State.restoreWave_keeps (s : State) (w : Wave) (c : CoreId) (at_ : Nat × Nat × Nat) :
    (s.restoreWave w c at_).allGangs = s.allGangs ∧ (s.restoreWave w c at_).mem = s.mem := by
  simp [State.restoreWave]

theorem State.restoreBlock_keeps (s : State) (n : Nat) (b : Block) (c : CoreId) (ps : List (Nat × Nat × Nat)) (spad : Nat) :
    (s.restoreBlock n b c ps spad).allGangs = s.allGangs ∧ (s.restoreBlock n b c ps spad).mem = s.mem := by
  simp only [State.restoreBlock, State.allGangs_setCore, State.setCore_mem]
  refine List.foldlRecOn (motive := fun t : State => t.allGangs = s.allGangs ∧ t.mem = s.mem) _ _ ⟨rfl, rfl⟩ fun t ht w _ => ?_
  obtain ⟨gangs, mem⟩ := t.restoreWave_keeps w c (ps.getD w.key.wid (0, 0, 0))
  exact ⟨gangs.trans ht.1, mem.trans ht.2⟩

theorem State.restamp_keeps (s : State) (k : GangKey) : (s.restamp k).allGangs = s.allGangs ∧ (s.restamp k).mem = s.mem :=
  List.foldlRecOn (motive := fun t : State => t.allGangs = s.allGangs ∧ t.mem = s.mem) _ _ ⟨rfl, rfl⟩ fun _ ht _ _ => ht

/-- The state when the blocks of a saved gang, with their waves, stand on the cores of a quad's plan. -/
def State.restoredBlocks (s : State) (l : Launch) (g : Gang) (q : QuadId) : State :=
  ((s.restorePlan l g q).getD []).foldl (init := s) fun s x => s.restoreBlock l.record.waves.length x.1 x.2.1 x.2.2.1 x.2.2.2

theorem State.restoredBlocks_keeps (s : State) (l : Launch) (g : Gang) (q : QuadId) :
    (s.restoredBlocks l g q).allGangs = s.allGangs ∧ (s.restoredBlocks l g q).mem = s.mem := by
  refine List.foldlRecOn (motive := fun t : State => t.allGangs = s.allGangs ∧ t.mem = s.mem) _ _ ⟨rfl, rfl⟩ fun t ht x _ => ?_
  obtain ⟨gangs, mem⟩ := t.restoreBlock_keeps l.record.waves.length x.1 x.2.1 x.2.2.1 x.2.2.2
  exact ⟨gangs.trans ht.1, mem.trans ht.2⟩

/-- The same with the new stamps of the waves and the class's estimate. -/
def State.restored (s : State) (l : Launch) (g : Gang) (q : QuadId) : State :=
  ((s.restoredBlocks l g q).restamp g.key).chargeClass l.record (l.record.waves.length * ((s.restorePlan l g q).getD []).length)

theorem State.restored_keeps (s : State) (l : Launch) (g : Gang) (q : QuadId) :
    (s.restored l g q).allGangs = s.allGangs ∧ (s.restored l g q).mem = s.mem := by
  obtain ⟨gangs, mem⟩ := s.restoredBlocks_keeps l g q
  obtain ⟨gangs', mem'⟩ := (s.restoredBlocks l g q).restamp_keeps g.key
  simp only [State.restored, State.allGangs_chargeClass, State.chargeClass_mem]
  exact ⟨gangs'.trans gangs, mem'.trans mem⟩

theorem execGangRestore_eq {s : State} {l : Launch} {g : Gang} {q : QuadId} (h : s.nextStart false s.candidates = some (.saved l g, q)) :
    execGangRestore s = .next ((s.restored l g q).setGang
      { g with quad := q, state := .resident, place := g.place.fromPool g.gcap, aged := false }) := by
  simp only [execGangRestore, h, State.restored, State.restoredBlocks]

/-- The next candidate, a saved gang, is resident again on its quad. -/
theorem execGangRestore_saved {s : State} {l : Launch} {g x : Gang} {q : QuadId} (h : s.nextStart false s.candidates = some (.saved l g, q))
    (hx : s.findGang g.key = some x) :
    ∃ t y, execGangRestore s = .next t ∧ t.findGang g.key = some y ∧ y.state = .resident ∧ y.quad = q ∧ t.mem = s.mem := by
  obtain ⟨gangs, mem⟩ := s.restored_keeps l g q
  have found : (s.restored l g q).findGang g.key = some x := (State.findGang_congr gangs g.key).trans hx
  refine ⟨_, { g with quad := q, state := .resident, place := g.place.fromPool g.gcap, aged := false }, execGangRestore_eq h, ?_, rfl, rfl,
    (State.setGang_mem _ _).trans mem⟩
  exact State.findGang_setGang found (State.findGang_key hx).symm

end Sys2Proof.Machine
end

section
/-! PROOF of O52, retirement, and the obligation. -/

namespace Sys2Proof.Machine

/-! ### Retirement (06/R188, 07/R215) -/

/-- A block that has retired. -/
def Block.closed (b : Block) : Block := { b with retired := true, scratch := [], poison := [], tags := [], place := Place.empty }
/-- A gang that has retired. -/
def Gang.closed (g : Gang) : Gang := { g with state := .retired, place := Place.empty }

/-- The gang's launch counts it. -/
def State.countGang (s : State) (g : Gang) : State :=
  match (s.setGang g.closed).findLaunch g.key.launch with
  | some l => (s.setGang g.closed).setLaunch { l with retired := l.retired + 1 }
  | none => s.setGang g.closed

/-- The block has retired, and its gang with its last block. -/
def State.closeBlock (s : State) (b : Block) (g : Gang) (i : Instr) : State :=
  match (s.setBlock b.closed).findGang g.key with
  | some g => if (s.setBlock b.closed).blocksRetired g then (s.setBlock b.closed).retireGang g i else s.setBlock b.closed
  | none => s.setBlock b.closed

theorem State.countGang_keeps (s : State) (g : Gang) : (s.countGang g).allGangs = (s.setGang g.closed).allGangs ∧
    (s.countGang g).allBlocks = s.allBlocks ∧ (s.countGang g).mem = s.mem := by
  unfold State.countGang
  split <;> exact ⟨rfl, rfl, rfl⟩

section
variable {s : State} {g : Gang}

theorem State.retireGang_killed (h : g.killed = true) (i : Instr) : s.retireGang g i = s.countGang g :=
  (if_pos h).trans rfl
theorem State.retireGang_moved {t : State} (i : Instr) (h : g.killed = false)
    (hm : s.asDevice (g.quad ++ 0#2) g.ctx none g.key moveGD = (none, t)) : s.retireGang g i = t.countGang g := by
  refine (if_neg (Bool.eq_false_iff.mp h)).trans ?_
  rw [hm]
  rfl

theorem State.retireBlock_killed (h : g.killed = true) (b : Block) (i : Instr) : s.retireBlock b g i = s.closeBlock b g i :=
  (if_pos h).trans rfl
theorem State.retireBlock_moved {b : Block} {t : State} (i : Instr) (h : g.killed = false)
    (hm : s.asDevice b.core b.ctx (some b.key) g.key moveBG = (none, t)) : s.retireBlock b g i = t.closeBlock b g i := by
  refine (if_neg (Bool.eq_false_iff.mp h)).trans ?_
  rw [hm]
  rfl

end

/-- A block whose waves have ended and whose work is done retires. -/
theorem execBlockRetirement_retires {s : State} {b : Block} {g : Gang} (hp : s.dev.powered = true) (hb : s.findBlock s.facts.block = some b)
    (hg : s.findGang b.key.gangKey = some g) (h0 : b.key.launch ≠ 0) (hs : g.state = .resident) (hr : b.retired = false)
    (hw : ∀ w ∈ s.allWaves, w.key.block = b.key → w.life = .ended) (hk : (s.busyWork fun k => k.block == b.key) = false) :
    execBlockRetirement s = .next (s.retireBlock b g .blockRetirement) := by
  have ended : (s.allWaves.any fun w => w.key.block == b.key && w.life != .ended) = false := by simpa using hw
  simp [execBlockRetirement, hb, hg, h0, hp, hs, hr, ended, hk]

/-- The gang of which every block has retired is moved out, or was killed, and its launch counts it. -/
theorem State.retireGang_drained {s : State} {g : Gang} (h0 : g.key.launch ≠ 0) (hg : s.findGang g.key = some g)
    (h : g.killed = true ∨ g.place.lines = []) (i : Instr) : ∃ t, Drained s t ∧ s.retireGang g i = t.countGang g := by
  cases hk : g.killed with
  | true => exact ⟨s, .refl s, State.retireGang_killed hk i⟩
  | false =>
    obtain ⟨t, ht, dt⟩ := State.asDevice_moveGD h0 ⟨g, hg, by simpa [hk] using h⟩ (g.quad ++ 0#2) g.ctx none
    exact ⟨t, dt, State.retireGang_moved i hk ht⟩

/-- The block's own move into G goes through, or its gang was killed. -/
theorem State.retireBlock_drained {s : State} {b : Block} {g : Gang} (h0 : g.key.launch ≠ 0) (hk : b.key.gangKey = g.key)
    (hb : ∀ x ∈ s.allBlocks, x.key = b.key → x = b) (h : g.killed = true ∨ b.place.lines = []) (i : Instr) :
    ∃ t, Drained s t ∧ s.retireBlock b g i = t.closeBlock b g i := by
  cases hg : g.killed with
  | true => exact ⟨s, .refl s, State.retireBlock_killed hg b i⟩
  | false =>
    have empty : b.place.lines = [] := by simpa [hg] using h
    obtain ⟨t, ht, dt⟩ := State.asDevice_moveBG h0 hk (fun x hx e => hb x hx e ▸ empty) b.core b.ctx
    exact ⟨t, dt, State.retireBlock_moved i hg ht⟩

/-- Every block of the gang has retired when the others have and this one does. -/
theorem State.blocksRetired_setBlock {s t : State} {b : Block} {g : Gang} (hd : Drained s t) (hp : g.placed = g.blocks)
    (h : ∀ y ∈ s.allBlocks, y.key.launch ≠ 0 → y.key.gangKey = g.key → y.key ≠ b.key → y.retired = true) :
    (t.setBlock b.closed).blocksRetired g = true := by
  have all : ∀ x ∈ (t.setBlock b.closed).allBlocks, x.key.launch ≠ 0 → x.key.gangKey = g.key → x.retired = true := by
    intro x hx h0 hk
    obtain ⟨y, hy, rfl⟩ : ∃ y ∈ t.allBlocks, (if y.key = b.key then b.closed else y) = x := List.mem_map.mp hx
    by_cases same : y.key = b.key
    · rw [if_pos same]
      rfl
    · rw [if_neg same] at h0 hk ⊢
      obtain ⟨z, hz, rfl | rfl⟩ := hd.blocks y hy h0
      · exact h y hz h0 hk same
      · exact h z hz h0 hk same
  simpa [State.blocksRetired, hp, or_iff_not_imp_left] using all

/-- The block stands as it has retired, also after its gang's move. -/
theorem Drained.findBlock_closed {s t : State} (hd : Drained s t) {b : Block} (h0 : b.key.launch ≠ 0) (h : s.findBlock b.key = some b.closed) :
    t.findBlock b.key = some b.closed := (hd.findBlock b.key b.closed h0 h).elim id id

/-- A gang is found as it was, or with its place emptied. -/
theorem Drained.gang_found {s t : State} (hd : Drained s t) {k : GangKey} {g : Gang} (h0 : k.launch ≠ 0) (h : s.findGang k = some g) :
    ∃ v, t.findGang k = some v ∧ (v = g ∨ v = g.emptied) :=
  (hd.findGang k g h0 h).elim (fun e => ⟨g, e, .inl rfl⟩) fun e => ⟨g.emptied, e, .inr rfl⟩

/-- What becomes of the gang `v` that is found when one of its blocks has retired. -/
theorem State.closeBlock_found {u : State} {b : Block} {g v : Gang} (h0 : g.key.launch ≠ 0) (hk : b.key.gangKey = g.key)
    (hb : (u.setBlock b.closed).findBlock b.key = some b.closed) (hv : u.findGang g.key = some v) (h : v.killed = true ∨ v.place.lines = [])
    (i : Instr) : (u.closeBlock b g i).mem = u.mem ∧ (u.closeBlock b g i).findBlock b.key = some b.closed ∧
      (u.closeBlock b g i).findGang g.key = some (if (u.setBlock b.closed).blocksRetired v then v.closed else v) := by
  have hb0 : b.key.launch ≠ 0 := fun e => h0 (hk ▸ e)
  have found : (u.setBlock b.closed).findGang g.key = some v := hv
  have key : v.key = g.key := State.findGang_key hv
  have closes : u.closeBlock b g i =
      if (u.setBlock b.closed).blocksRetired v then (u.setBlock b.closed).retireGang v i else u.setBlock b.closed := by
    simp only [State.closeBlock, found]
  rw [closes]
  cases (u.setBlock b.closed).blocksRetired v with
  | false => exact ⟨rfl, hb, found⟩
  | true =>
    obtain ⟨t, dt, ht⟩ := State.retireGang_drained (s := u.setBlock b.closed) (g := v) (key ▸ h0) (key ▸ found) h i
    obtain ⟨gangs, blocks, mem⟩ := t.countGang_keeps v
    obtain ⟨y, hy, same⟩ := dt.gang_found h0 found
    simp only [reduceIte, ht]
    refine ⟨mem.trans dt.mem, ?_, ?_⟩
    · rw [State.findBlock, blocks]
      exact dt.findBlock_closed hb0 hb
    · rw [State.findGang, gangs, ← key]
      exact State.findGang_setGang (x := v.closed) hy (by rcases same with rfl | rfl <;> rfl)

/-- A block retires once nothing of it is left, and the gang with its last block. -/
theorem execBlockRetirement_closes {s : State} {b : Block} {g : Gang} (hp : s.dev.powered = true) (hf : s.facts.block = b.key)
    (hb : s.findBlock b.key = some b) (one : ∀ x ∈ s.allBlocks, x.key = b.key → x = b) (hk : b.key.gangKey = g.key)
    (hg : s.findGang g.key = some g) (h0 : g.key.launch ≠ 0) (hs : g.state = .resident) (hr : b.retired = false)
    (hw : ∀ w ∈ s.allWaves, w.key.block = b.key → w.life = .ended) (hbusy : (s.busyWork fun k => k.block == b.key) = false)
    (hl : g.killed = true ∨ b.place.lines = [] ∧ g.place.lines = []) :
    ∃ u v, Drained s u ∧ (v = g ∨ v = g.emptied) ∧ ∃ t, execBlockRetirement s = .next t ∧ t.mem = s.mem ∧
      t.findBlock b.key = some b.closed ∧ t.findGang g.key = some (if (u.setBlock b.closed).blocksRetired v then v.closed else v) := by
  have hb0 : b.key.launch ≠ 0 := fun e => h0 (hk ▸ e)
  obtain ⟨u, du, hu⟩ := State.retireBlock_drained h0 hk one (hl.imp_right And.left) .blockRetirement
  obtain ⟨v, hv, same⟩ := du.gang_found h0 hg
  have empty : v.killed = true ∨ v.place.lines = [] := by
    rcases same with rfl | rfl
    · exact hl.imp_right And.right
    · exact .inr rfl
  have closed : (u.setBlock b.closed).findBlock b.key = some b.closed :=
    (du.findBlock b.key b hb0 hb).elim (fun e => State.findBlock_setBlock (x := b.closed) e rfl)
      fun e => State.findBlock_setBlock (x := b.closed) e rfl
  obtain ⟨mem, block, gang⟩ := State.closeBlock_found h0 hk closed hv empty .blockRetirement
  refine ⟨u, v, du, same, u.closeBlock b g .blockRetirement, ?_, mem.trans du.mem, block, gang⟩
  rw [execBlockRetirement_retires hp (hf ▸ hb) (hk ▸ hg) hb0 hs hr hw hbusy, hu]

end Sys2Proof.Machine

namespace Sys2Proof.Claims
open Sys2Proof.Machine

/-- A block retires, a gang is saved and restored, and pre-emption saves the youngest gangs that make room. -/
theorem gangsMoveOn : GangsMoveOn := by
  intro s hp
  refine ⟨fun b g hb hg h0 hs hr hw hk killed unplaced => ?_, fun g u hg h0 hs hr hk hm hx => ?_, fun l g q h hx => ?_, fun off => ?_,
    fun c gs k hc hf hw perm young => ?_⟩
  · have key : g.key = b.key.gangKey := State.findGang_key hg
    have retire := execBlockRetirement_retires hp hb hg h0 hs hr hw hk
    have remains : (s.setBlock b.closed).blocksRetired g = false := by simp [State.blocksRetired, unplaced]
    have found : (s.setBlock b.closed).findGang g.key = some g := key ▸ hg
    have closes : s.closeBlock b g .blockRetirement = s.setBlock b.closed := by simp [State.closeBlock, found, remains]
    rw [State.retireBlock_killed killed, closes] at retire
    exact ⟨_, retire, State.findBlock_setBlock (x := b.closed) hb rfl, rfl, rfl⟩
  · obtain ⟨x, hx⟩ := hx
    exact execGangSave_saved hp hg h0 hs hr hk hm hx
  · obtain ⟨x, hx⟩ := hx
    exact execGangRestore_saved h hx
  · exact execPriorityPreemption_off off
  · have turn := execPriorityPreemption_on hc hf hw
    have order : (s.lowGangs s.facts.quad).foldr insertYoung [] = gs := foldr_insertYoung_eq perm young
    rw [order] at turn
    refine ⟨fun hk before fits => ⟨?_, s.savesOf_mem gs k, fun resident unique g hg => ?_⟩, fun never => ?_⟩
    · rw [makeRoom_fits hk before fits] at turn
      exact turn
    · refine State.findGang_savesOf (fun x hx => ?_) unique (List.mem_filter.mp hg).1
      have low := perm.mem_iff.mp hx
      exact ⟨State.lowGangs_mem low, resident x low⟩
    · rw [makeRoom_none never] at turn
      exact turn

/-- A block and a gang of which nothing is left retire, and a gang that holds nothing enters its save slot. -/
theorem gangsComplete : GangsComplete := by
  intro s g hp h0 hg _
  refine ⟨fun b hf hb one hk hs hr hw hbusy hl => ?_, fun hf hs hr hbusy waves blocks place ho => ?_⟩
  · obtain ⟨u, v, du, same, t, ht, mem, block, gang⟩ := execBlockRetirement_closes hp hf hb one hk hg h0 hs hr hw hbusy hl
    refine ⟨t, _, ht, mem, gang, block, fun unplaced => ?_, fun placed others => ?_⟩
    · have remains : (u.setBlock b.closed).blocksRetired v = false := by
        rcases same with rfl | rfl <;> simp [State.blocksRetired, Gang.emptied, unplaced]
      rw [remains]
      rcases same with rfl | rfl <;> exact hs
    · have all : (u.setBlock b.closed).blocksRetired v = true := by
        rcases same with rfl | rfl <;> exact State.blocksRetired_setBlock du placed others
      rw [all]
      exact ⟨rfl, rfl⟩
  · have listed (w : Wave) (hw : w ∈ s.allWaves) (hk : w.key.gangKey = g.key) : w ∈ s.gangWaves g.key := by
      have hw0 : w.key.launch ≠ 0 := fun e => h0 (hk ▸ e)
      exact List.mem_filter.mpr ⟨hw, by simp [hk, hw0]⟩
    have holds : HoldsNothing s g.key := ⟨fun w hw hk => waves w (listed w hw hk), blocks, g, hg, place⟩
    obtain ⟨u, x, hm, hx, dev⟩ := State.saveMoves_of_empty h0 holds ho
    obtain ⟨t, y, ht, hy, saved, since, -⟩ := execGangSave_saved hp (hf ▸ hg) h0 hs hr hbusy hm hx
    exact ⟨t, y, ht, hy, saved, since.trans (congrArg Device.ticket dev)⟩

/-- Settles O52: each event by what it does to the gangs that are found under their names; a gang that holds nothing is moved without a trace. -/
theorem placement : Obligations.Placement := ⟨placementSteps, gangsMoveOn, gangsComplete⟩

end Sys2Proof.Claims
end

section
/-! PROOF of O29: XLD and XINV, and the words that XINV's OP begins. -/

namespace Sys2Proof.Machine

/-- The word of OP 0x84 with an xt and an sa, by its fields (03/R100, R105). -/
theorem xinvWord_eq (r : BitVec 3) (sa : BitVec 6) :
    (0x420#32 ||| r.setWidth 32 <<< 11 ||| sa.setWidth 32 <<< 17 : Word) = (0#9 ++ sa ++ 0#3 ++ r) ++ 0x84#8 ++ 0#1 ++ 0#2 := by
  decide +revert

/-- Such a word is read as XINV, but for its bits 31:14, which must be zero. -/
theorem decodeRaw_xinvWord (r : BitVec 3) (sa : BitVec 6) :
    decodeRaw ((0#9 ++ sa ++ 0#3 ++ r) ++ 0x84#8 ++ 0#1 ++ 0#2) 0 0 0 0 = zeros (sa == 0) (.xinv r) := by
  obtain ⟨hlen, hp, hop⟩ := Laws.firstWord_fields (0#9 ++ sa ++ 0#3 ++ r : BitVec 21) 0x84#8 0#1 0#2
  refine (decodeRaw_listed (w0 := (0#9 ++ sa ++ 0#3 ++ r : BitVec 21) ++ 0x84#8 ++ 0#1 ++ 0#2) (by rw [hlen, hp, hop]; rfl)).trans ?_
  rw [hlen, hp, hop]
  show zeros _ _ = zeros _ _
  congr 1
  · decide +revert
  · simp only [field, BitVec.extractLsb'_append_eq_of_le, BitVec.extractLsb'_append_eq_of_add_le, Nat.reduceLeDiff, Nat.reduceSub,
      BitVec.extractLsb'_eq_self]

/-- The word decodes to XINV where sa is zero, and is refused for a reserved field else. -/
theorem decodeList_xinvWord (r : BitVec 3) (sa : BitVec 6) :
    Claims.decodeList [0x420#32 ||| r.setWidth 32 <<< 11 ||| sa.setWidth 32 <<< 17] =
      if sa = 0 then .ok (.xinv r) else .error .reservedField := by
  have raw := decodeRaw_xinvWord r sa
  rw [xinvWord_eq]
  show decodeWords ((0#9 ++ sa ++ 0#3 ++ r) ++ 0x84#8 ++ 0#1 ++ 0#2) 0 0 0 0 = _
  rw [decodeWords, raw]
  split_ifs with h
  · rw [h]; rfl
  · rw [beq_eq_false_iff_ne.mpr h]; rfl

/-- XLD with no line of its tables to wait for (08/R226). -/
theorem execXld_next {s : State} {r : BitVec 3} {sa : SReg} (hs : Claims.Calm s) (even : sa.toNat % 2 = 0) (free : s.xtHeld (s.spair sa) = none) :
    Claims.Does (.xld r sa) 4 s (s.setXt r (s.xtLoad (s.spair sa))) := by
  refine run_next (.xld r sa) .spipe _ _ _ (beq_iff_eq.mpr even) ?_ hs
  simp only [Act.bind_run, Act.get_run, free, Act.set_run]

/-- XLD for which a line of its tables must come first (07/R222, 08/R245; log 14). -/
theorem execXld_held {s : State} {r : BitVec 3} {sa : SReg} {x : Nat × Nat} (even : sa.toNat % 2 = 0) (held : s.xtHeld (s.spair sa) = some x) :
    exec (.xld r sa) s = .next ((s.halted (.recall x.1 x.2)).holds (.xld r sa)) := by
  refine run_halted (.xld r sa) .spipe _ _ _ _ (beq_iff_eq.mpr even) ?_
  simp only [Act.bind_run, Act.get_run, held, Act.stop_run]

/-- XINV keeps all of the register but VALID (08/R227). -/
theorem execXinv_next {s : State} {r : BitVec 3} (hs : Claims.Calm s) : Claims.Does (.xinv r) 4 s (s.setXt r { s.xt r with valid := false }) := by
  have act : (modify fun s => s.setXt r { s.xt r with valid := false } : Act PUnit) s = .ok ((), s.setXt r { s.xt r with valid := false }) := rfl
  exact run_next (.xinv r) .spipe _ _ _ rfl act hs

theorem State.xtLoad_vbase (s : State) (p : DWord) : (s.xtLoad p).vbase = p ∧ (s.xtLoad p).valid = true := by
  unfold State.xtLoad
  split <;> exact ⟨rfl, rfl⟩

theorem State.xtLoad_limit {s : State} {p : DWord} (h : s.runAt s.w.ctx p = none) : (s.xtLoad p).limit = 0 := by
  simp only [State.xtLoad, h]
  rfl

end Sys2Proof.Machine

namespace Sys2Proof.Claims
open Sys2Proof.Machine

/-- Settles O29: XLD by whether a line of its tables must come first, XINV by its one write, and XINV's word by its fields. -/
theorem translationRegisters : Obligations.TranslationRegisters := by
  intro s r sa hs
  obtain ⟨vbase, valid⟩ := s.xtLoad_vbase (s.spair sa)
  exact ⟨fun even => ⟨execXld_next hs even, fun x => execXld_held even⟩, execXinv_next hs, vbase, valid, State.xtLoad_limit,
    decodeList_xinvWord r sa⟩

end Sys2Proof.Claims
end

section
/-! PROOF of O35: the moves that a commit makes, what they leave of the places, and ABORT, MARK and ACQ. -/

namespace Sys2Proof.Machine

/-! ### Sequences of acts that answer -/

/-- A sequence answers when both its acts do. -/
theorem Act.bind_eq_ok {α β : Type} {a : Act α} {f : α → Act β} {s : State} {r : β × State} :
    (a >>= f) s = .ok r ↔ ∃ x t, a s = .ok (x, t) ∧ f x t = .ok r := by
  rw [Act.bind_run]
  cases h : a s with
  | error e => simp
  | ok y => simp [Prod.ext_iff]

/-- What every act of a list leaves alone, the list leaves alone. -/
theorem Act.forM_keeps {α β : Type} {a : α → Act Unit} (f : State → β) (h : ∀ x s t, a x s = .ok ((), t) → f t = f s) {l : List α} {s t : State}
    (e : (l.forM a : Act Unit) s = .ok ((), t)) : f t = f s := by
  induction l generalizing s with
  | nil => cases e; rfl
  | cons x l ih =>
    obtain ⟨_, u, hu, e⟩ := Act.bind_eq_ok.mp e
    exact (ih e).trans (h _ _ _ hu)

/-! ### What a move leaves of its place (07/R205, 15/R406) -/

theorem moveWB_leaves {s u : State} (h : moveWB s = .ok ((), u)) : u.w.wbuf = Place.empty := by
  rw [moveWB, get_bind] at h
  split at h
  · obtain ⟨_, t, -, h⟩ := Act.bind_eq_ok.mp h
    rw [get_bind] at h
    obtain ⟨_, v, -, h⟩ := Act.bind_eq_ok.mp h
    cases h
    rfl
  · obtain ⟨_, t, -, h⟩ := Act.bind_eq_ok.mp h
    cases h
    rfl

theorem moveBG_leaves {s u : State} (h : moveBG s = .ok ((), u)) : u.blk.place = Place.empty := by
  rw [moveBG, get_bind] at h
  split at h
  · obtain ⟨_, t, -, h⟩ := Act.bind_eq_ok.mp h
    rw [get_bind] at h
    obtain ⟨_, v, -, h⟩ := Act.bind_eq_ok.mp h
    cases h
    rfl
  · obtain ⟨_, t, -, h⟩ := Act.bind_eq_ok.mp h
    cases h
    rfl

/-- Lines sent on to their homes have all left when the act answers. -/
theorem sendFar_leaves {unit : UnitId} {far : List BLine} {keep : State → List BLine → State} {s t : State}
    (h : sendFar unit far keep s = .ok ((), t)) : (far = [] ∧ t = s) ∨ ∃ v, t = keep v [] := by
  by_cases hf : far = []
  · subst hf
    cases h
    exact .inl ⟨rfl, rfl⟩
  · right
    rw [sendFar, if_pos hf, get_bind] at h
    obtain ⟨_, v, hv, h⟩ := Act.bind_eq_ok.mp h
    cases hv
    split at h
    · cases h
    · next left =>
      cases h
      exact ⟨_, by rw [not_not.mp left]⟩

theorem moveGD_leaves {s u : State} (h : moveGD s = .ok ((), u)) : u.gang.place = Place.empty := by
  obtain ⟨_, t, -, h⟩ := Act.bind_eq_ok.mp h
  rw [get_bind] at h
  obtain ⟨_, v, hv, h⟩ := Act.bind_eq_ok.mp h
  cases h
  rcases sendFar_leaves hv with ⟨none, rfl⟩ | ⟨x, rfl⟩
  · exact congrArg (Place.mk · false) none
  · rfl

/-! ### What a commit at X leaves of the gang (13/R373) -/

theorem State.apart_writeBack {s t : State} {c : CoreId} {line : Nat} (h : s.writeBack c line = .ok t) : t.apart = s.apart := by
  unfold State.writeBack at h
  dsimp only at h
  split at h
  · cases h; rfl
  · cases hb : s.beforeWrite none line with
    | error e => rw [hb] at h; cases h
    | ok u =>
      rw [hb] at h
      cases h
      refine (State.apart_of_frame ?_).trans (State.apart_beforeWrite hb)
      exact (State.frame_setCore (by rw [State.core_putDirty]; rfl)).trans (u.frame_putDirty ..)

theorem apart_recallAct {s t : State} {line : Nat} (h : recallAct s.dev.devnum line s = .ok ((), t)) : t.apart = s.apart := by
  unfold recallAct at h
  split at h
  · cases h; rfl
  · split at h
    · cases h
    · cases hr : s.recallLine s.dev.devnum line with
      | error c => rw [hr] at h; cases h
      | ok u =>
        rw [hr] at h
        cases h
        exact State.apart_recallLine hr

theorem poolStop_ne_ok {c : CtxId} {va : DWord} {access : Nat} {lanes : Vector Word 3} {s : State} {r : Unit × State} :
    poolStop c va access lanes s ≠ .ok r := by
  intro h
  rw [poolStop, get_bind] at h
  split at h <;> cases h

theorem withPool_eq_ok {f : State → Except CtxId State} {va : DWord} {access : Nat} {s t : State} :
    withPool f va access noLanes s = .ok ((), t) ↔ f s = .ok t := by
  unfold withPool
  cases f s with
  | error c => simpa using poolStop_ne_ok
  | ok u => simp

theorem apart_atHome {s t : State} {line : Nat} {bs : List (Nat × Byte)} {f : State → Except CtxId State} {va : DWord} {access : Nat}
    (hf : ∀ u v, f u = .ok v → v.apart = u.apart) (h : atHome line bs f va access s = .ok ((), t)) : t.apart = s.apart := by
  rw [atHome, get_bind] at h
  split at h
  · cases h
  · obtain ⟨_, u, hu, h⟩ := Act.bind_eq_ok.mp h
    exact (hf _ _ (withPool_eq_ok.mp h)).trans (apart_recallAct hu)

theorem moveDX_gang {s t : State} (h : moveDX s = .ok ((), t)) : t.gang = s.gang := by
  have apart : t.apart = s.apart := Act.forM_keeps State.apart (fun line u v => apart_atHome fun _ _ => State.apart_writeBack) h
  exact (congrArg State.gang apart :)

/-! ### Commit (07/R205) -/

/-- The moves of a commit, one after another. -/
theorem commitTo_eq_ok {l : Nat} {s u : State} : commitTo l s = .ok ((), u) ↔ ∃ w b g,
    (if 1 ≤ l then moveWB else pure ()) s = .ok ((), w) ∧ (if 2 ≤ l then moveBG else pure ()) w = .ok ((), b) ∧
      (if 3 ≤ l then moveGD else pure ()) b = .ok ((), g) ∧ (if 4 ≤ l then moveDX else pure ()) g = .ok ((), u) := by
  have moves : commitTo l = ((if 1 ≤ l then moveWB else pure ()) >>= fun _ => (if 2 ≤ l then moveBG else pure ()) >>= fun _ =>
      (if 3 ≤ l then moveGD else pure ()) >>= fun _ => if 4 ≤ l then moveDX else pure ()) := by
    unfold commitTo
    split_ifs <;> rfl
  rw [moves, Act.bind_eq_ok]
  simp only [Act.bind_eq_ok]
  constructor
  · rintro ⟨_, w, hw, _, b, hb, _, g, hg, hu⟩
    exact ⟨w, b, g, hw, hb, hg, hu⟩
  · rintro ⟨w, b, g, hw, hb, hg, hu⟩
    exact ⟨(), w, hw, (), b, hb, (), g, hg, hu⟩

/-- With no dirty byte in the core there is nothing to move to X. -/
theorem moveDX_of_noDirty {s : State} (h : Claims.NoDirty s) : moveDX s = .ok ((), s) := by
  have none : ((s.co.cache ++ s.co.ckc).filter fun l => l.dev == s.dev.devnum && l.dirty != []) = [] := by
    refine List.filter_eq_nil_iff.mpr fun l hl => ?_
    by_cases hd : l.dev = s.dev.devnum
    · simp [h l hl hd]
    · simp [hd]
  rw [moveDX, get_bind]
  simp only [none]
  rfl

/-- A commit over places that hold no line empties them, and no more. -/
theorem commitTo_of_noLines {l : Nat} {s : State} (h : Claims.NoLines s) (hx : 4 ≤ l → Claims.NoDirty s) :
    commitTo l s = .ok ((), Claims.emptiedTo l s) := by
  obtain ⟨hw, hb, hg⟩ := h
  refine commitTo_eq_ok.mpr ⟨if 1 ≤ l then s.setW Place.empty else s,
    if 2 ≤ l then (if 1 ≤ l then s.setW Place.empty else s).setB Place.empty else if 1 ≤ l then s.setW Place.empty else s, Claims.emptiedTo l s,
    ?_, ?_, ?_, ?_⟩
  · split
    · exact moveWB_of_empty hw
    · rfl
  · split
    · exact moveBG_of_empty (by split <;> exact hb)
    · rfl
  · simp only [Claims.emptiedTo]
    split
    · exact moveGD_of_empty (by split_ifs <;> exact hg)
    · rfl
  · split
    · next h4 =>
      refine moveDX_of_noDirty ?_
      simp only [Claims.emptiedTo]
      split_ifs <;> exact hx h4
    · rfl

/-! ### Acts that claim no unit, and discarded places -/

/-- A run whose act answers completes, where ERRINJ names no unit of its claim. -/
theorem run_untargeted {i : Instr} {c : Claim} {body : Act PUnit} {s t : State} (hc : c.target = none) (hw : i.wellFormed = true)
    (hb : body s = .ok ((), t)) : run i c body s = .next (t.retire i.size) := by
  simp [run, hw, hb, State.claim_untargeted _ _ _ hc]

/-- The endpoints keep what a discarded place has sent; nothing else of the state changes (15/R401). -/
theorem State.orphan_eq (s : State) (c : CoreId) (k : WaveKey) (p : Place) : ∃ cores, s.orphan c k p = { s with cores := cores } := by
  unfold State.orphan
  induction p.lines generalizing s with
  | nil => exact ⟨s.cores, rfl⟩
  | cons b bs ih =>
    rw [List.foldl_cons]
    cases b.sent with
    | none => exact ih s
    | some q =>
      have one (xs : List (Nat × Byte)) : ∃ cores, s.entrust c k b.dev q xs = { s with cores := cores } := by
        unfold State.entrust
        split
        · exact ⟨s.cores, rfl⟩
        · exact ⟨_, rfl⟩
      obtain ⟨cores, h⟩ := one (b.bytes.map fun x => (64 * b.line + x.1, x.2))
      dsimp only
      rw [h]
      exact ih { s with cores := cores }

/-- ABORT of each level: the place empty, what it has sent with the endpoints, and the notice (07/R209, R210). -/
theorem State.abortAt_eq (s : State) : ∃ c₀ c₁ c₂,
    s.abortAt 0 = (State.setW { s with cores := c₀ } Place.empty).clearSig ∧
    s.abortAt 1 = (State.setB { s with cores := c₁ } Place.empty).mapWaves
      (fun w => if w.key.block = s.w.key.block then { w with abtn := w.abtn ||| 2 } else w) ∧
    s.abortAt 2 = (State.setG { s with cores := c₂ } Place.empty).mapWaves
      (fun w => if w.key.gangKey = s.w.key.gangKey then { w with abtn := w.abtn ||| 4 } else w) := by
  obtain ⟨c₀, h₀⟩ := s.orphan_eq s.w.core s.w.key s.w.wbuf
  obtain ⟨c₁, h₁⟩ := s.orphan_eq s.blk.core s.w.key s.blk.place
  obtain ⟨c₂, h₂⟩ := s.orphan_eq (s.gang.quad ++ 0#2) s.w.key s.gang.place
  refine ⟨c₀, c₁, c₂, ?_, ?_, ?_⟩
  · rw [← h₀]; rfl
  · rw [← h₁]; rfl
  · rw [← h₂]; rfl

end Sys2Proof.Machine

namespace Sys2Proof.Claims
open Sys2Proof.Machine

theorem does_commit {s u : State} {lvl : BitVec 3} (h1 : 1 ≤ lvl.toNat) (h4 : lvl.toNat ≤ 4) (h : commitTo lvl.toNat s = .ok ((), u)) :
    Does (.commit lvl) 4 s u ∧ Does (.fence lvl) 4 s (u.acquireAt lvl.toNat) := by
  have level : decide (1 ≤ lvl.toNat ∧ lvl.toNat ≤ 4) = true := decide_eq_true ⟨h1, h4⟩
  exact ⟨run_untargeted (i := .commit lvl) (c := .scalar) rfl level h,
    run_untargeted (i := .fence lvl) (c := .scalar) rfl level ((Act.bind_ok _ _ _ _ _ h).trans (Act.modify_run ..))⟩

theorem commitAndFence : CommitAndFence := by
  intro s u lvl h1 h4 h
  obtain ⟨commit, fence⟩ := does_commit h1 h4 h
  obtain ⟨w, b, g, hw, hb, hg, hx⟩ := commitTo_eq_ok.mp h
  refine ⟨commit, fence, ?_, ?_, fun h3 => ?_⟩
  · rintro rfl
    cases hx
    cases hg
    cases hb
    exact moveWB_leaves hw
  · rintro rfl
    cases hx
    cases hg
    exact moveBG_leaves hb
  · rw [if_pos h3] at hg
    have gang : u.gang = g.gang := by
      split at hx
      · exact moveDX_gang hx
      · cases hx; rfl
    rw [gang]
    exact moveGD_leaves hg

/-- COMMIT.B.V with no conflict noted moves, and its signature is clear then (07/R208). -/
theorem does_commitBV {s u : State} (hu : Calm u) (hc : s.w.conflict = false) (h : moveWB s = .ok ((), u)) :
    Does .commitBV 4 s (u.clearSig.setScc true) := by
  have act : (moveWB >>= fun _ => modify fun s => s.clearSig.setScc true : Act PUnit) s = .ok ((), u.clearSig.setScc true) :=
    (Act.bind_ok _ _ _ _ _ h).trans (Act.modify_run ..)
  refine run_next .commitBV .spipe _ _ _ rfl ?_ hu
  rw [get_bind, hc]
  exact act

theorem validatedCommit : ValidatedCommit := by
  intro s u hs hu
  refine ⟨fun hc => ?_, fun hc h => ⟨does_commitBV hu hc h, rfl, rfl⟩⟩
  refine run_next .commitBV .spipe _ _ _ rfl ?_ hs
  rw [get_bind, hc]
  rfl

theorem commitsComplete : CommitsComplete := by
  intro s h
  have out (lvl : BitVec 3) {t : State} (h1 : 1 ≤ lvl.toNat) (h4 : lvl.toNat ≤ 4) (hx : 4 ≤ lvl.toNat → NoDirty s)
      (ht : emptiedTo lvl.toNat s = t) : Does (.commit lvl) 4 s t ∧ Does (.fence lvl) 4 s (t.acquireAt lvl.toNat) :=
    ht ▸ does_commit h1 h4 (commitTo_of_noLines h hx)
  have below {lvl : BitVec 3} (h3 : ¬ 4 ≤ lvl.toNat) : 4 ≤ lvl.toNat → NoDirty s := fun h4 => absurd h4 h3
  exact ⟨out 1 (by decide) (by decide) (below (by decide)) rfl, out 2 (by decide) (by decide) (below (by decide)) rfl,
    out 3 (by decide) (by decide) (below (by decide)) rfl, fun hx => out 4 (by decide) (by decide) (fun _ => hx) rfl,
    fun hs hc => does_commitBV hs hc (moveWB_of_empty h.1)⟩

theorem emptyMove : EmptyMove := fun _ => ⟨moveWB_of_empty, moveBG_of_empty, moveGD_of_empty⟩

/-- An instruction that is one change of the state, whatever ERRINJ holds. -/
theorem does_change {i : Instr} {f : State → State} {s : State} (he : exec i s = run i .scalar (modify f) s) (hn : i.size = 4)
    (hw : i.wellFormed = true) : Does i 4 s (f s) := by
  rw [Does, he, ← hn]
  exact run_untargeted rfl hw rfl

theorem abortMarkAcquire : AbortMarkAcquire := by
  intro s
  have abort (lvl : BitVec 3) (h : decide (lvl.toNat ≤ 2) = true) : Does (.abort lvl) 4 s (s.abortAt lvl.toNat) :=
    does_change (i := .abort lvl) (f := fun s => s.abortAt lvl.toNat) rfl rfl h
  have mark (lvl : BitVec 3) (h : decide (lvl.toNat ≤ 2) = true) : Does (.mark lvl) 4 s (s.markAt lvl.toNat) :=
    does_change (i := .mark lvl) (f := fun s => s.markAt lvl.toNat) rfl rfl h
  have acq (lvl : BitVec 3) (h : decide (1 ≤ lvl.toNat ∧ lvl.toNat ≤ 4) = true) : Does (.acq lvl) 4 s (s.acquireAt lvl.toNat) :=
    does_change (i := .acq lvl) (f := fun s => s.acquireAt lvl.toNat) rfl rfl h
  obtain ⟨c₀, c₁, c₂, place, block, gang⟩ := s.abortAt_eq
  refine ⟨⟨_, abort 0 rfl, ?_⟩, ⟨_, abort 1 rfl, ?_⟩, ⟨_, abort 2 rfl, ?_⟩, mark 0 rfl, mark 1 rfl, mark 2 rfl, acq 1 rfl, acq 2 rfl,
    acq 3 rfl, acq 4 rfl⟩
  · rw [show (0 : BitVec 3).toNat = 0 from rfl, place]
    exact ⟨rfl, rfl, rfl, rfl, rfl, rfl, fun _ => rfl⟩
  · rw [show (1 : BitVec 3).toNat = 1 from rfl, block]
    simp [State.mapWaves, State.setB, State.retire, State.retireTo, Wave.retired]
  · rw [show (2 : BitVec 3).toNat = 2 from rfl, gang]
    simp [State.mapWaves, State.setG, State.retire, State.retireTo, Wave.retired]

/-- Settles O35: a commit is its moves one after another, each of which leaves its place empty; the rest is one change of the state each. -/
theorem commits : Obligations.Commits := ⟨abortMarkAcquire, commitsComplete, commitAndFence, emptyMove, validatedCommit⟩

end Sys2Proof.Claims
end

section
/-! SUPPORT for the memory instructions: one execution of a form whose checks pass and whose lanes all perform, and the registers it writes. -/

namespace Sys2Proof.Machine

/-- An act that is made or left out, before the rest. -/
theorem Act.when_bind {β : Type} {c : Prop} [Decidable c] {a : Act Unit} {k : Act β} :
    (if c then (a >>= fun _ => k) else k) = ((if c then a else pure ()) >>= fun _ => k) := by
  split <;> rfl

theorem Mem.lane_put (m : Mem) (o : MemOps) (put : LaneVals → Act PUnit) (ln : Lane) (l : Loc) : m.lane { o with put := put } ln l = m.lane o ln l := rfl

theorem Mem.perform_put (m : Mem) (o : MemOps) (put : LaneVals → Act PUnit) (p : List (Lane × Loc)) (left : List Lane) :
    m.perform { o with put := put } p left = m.perform o p left := by
  induction p generalizing left with
  | nil => rfl
  | cons x p ih =>
    unfold Mem.perform
    simp only [ih, Mem.lane_put]

theorem Mem.refresh_ok {m : Mem} {s : State} (h : ∀ r, m.xt = some r → (s.xt r).valid = true ∨ s.xtHeld (s.xt r).vbase = none) :
    m.refresh s = .ok ((), Claims.fresh m s) := by
  unfold Mem.refresh Claims.fresh
  cases hx : m.xt with
  | none => rfl
  | some r =>
    have held : (if (s.xt r).valid = true then none else s.xtHeld (s.xt r).vbase) = none := by
      rcases h r hx with h | h <;> simp [h]
    simp only [get_bind, held, Act.set_run]

theorem Mem.release_ok {m : Mem} {o : MemOps} {dest : List Nat} {s b : State} (h : Claims.Released m o dest s b) :
    m.release o dest s = .ok ((), b) := by
  unfold Claims.Released at h
  rw [Mem.release, get_bind]
  by_cases hc : m.commits = true ∧ s.w.released = false
  · rw [if_pos hc] at h
    obtain ⟨p, d, c, hp, hd, hm, rfl⟩ := h
    have cond : (m.commits && !s.w.released) = true := by simp [hc.1, hc.2]
    rw [if_pos cond, hp]
    by_cases e : p.ok = []
    · rw [if_pos e] at hd
      subst hd
      simp only [e, bne_self_eq_false, Bool.false_eq_true, if_false, Act.bind_ok _ _ _ _ _ hm]
      rfl
    · rw [if_neg e] at hd
      have ne : (p.ok != []) = true := by simpa using e
      simp only [ne, if_true, Act.bind_ok _ _ _ _ _ hd, Act.bind_ok _ _ _ _ _ hm]
      rfl
  · rw [if_neg hc] at h
    have cond : ¬ ((m.commits && !s.w.released) = true) := by simpa using hc
    rw [if_neg cond, h]
    rfl

/-- What a pass does that leaves no lane over. -/
theorem Mem.pass_ok {m : Mem} {o : MemOps} {put : LaneVals → Act PUnit} {lanes : List Nat} {p : List (Lane × Loc)} {u w v : State} {vals : LaneVals}
    (hp : m.perform o p [] (m.post o p [] u) = .ok ((vals, []), w)) (hv : put vals w = .ok ((), v)) :
    m.pass { o with put := put } lanes ⟨p, []⟩ u = .ok ([], v) := by
  rw [← Mem.perform_put m o put] at hp
  have act : (modify (m.post { o with put := put } p []) >>= fun _ => m.perform { o with put := put } p [] >>= fun r =>
      put r.1 >>= fun _ => pure r.2 : Act (List Lane)) u = .ok ([], v) :=
    (Act.bind_ok _ _ _ _ _ (Act.modify_run ..)).trans ((Act.bind_ok _ _ _ _ _ hp).trans (Act.bind_ok _ _ _ _ _ hv))
  unfold Mem.pass
  dsimp only
  rw [List.map_nil, act]

theorem Mem.body_ok {m : Mem} {o : MemOps} {put : LaneVals → Act PUnit} {dest : List Nat} {s b u w v : State} {p : List (Lane × Loc)}
    {vals : LaneVals} (hr : Claims.Ready m o dest s b p) (hu : Claims.Prepared m o dest b p u)
    (hp : m.perform o p [] (m.post o p [] u) = .ok ((vals, []), w)) (hv : put vals w = .ok ((), v)) :
    m.body { o with put := put } dest s = .ok ((), Claims.acquired m v) := by
  obtain ⟨released, feature, table, checks, ranges, restores, clean⟩ := hr
  obtain ⟨d, hd, recalls⟩ := hu
  have featured : ¬ ((m.kind == Acc.update && rankOf m.lvl == 4 && !s.xupd) = true) := by
    intro h
    simp only [Bool.and_eq_true, beq_iff_eq, Bool.not_eq_true'] at h
    simp [feature h.1.1 h.1.2] at h
  have ranged : (m.loc && p.any fun x => b.rangeHeld (m.kind != .load) x.2.pa m.bytes) = false := by
    cases hl : m.loc
    · rfl
    · simpa using ranges hl
  have restored : (p.any fun x => !x.2.isLocal && b.restoring x.2.dev x.2.pa) = false := by
    simp only [List.any_eq_false, Bool.and_eq_true, Bool.not_eq_true', not_and, Bool.not_eq_true]
    exact restores
  have good : (p.filter fun x => m.meetsPoison b x.2) = [] := by
    simpa [List.filter_eq_nil_iff] using clean
  have release : m.release { o with put := put } dest (Claims.fresh m s) = .ok ((), b) := Mem.release_ok released
  have check : m.checks { o with put := put } b true = .ok ⟨p, []⟩ := checks
  have spills : (if (p != []) = true then dest.forM spill else pure ()) b = .ok ((), d) := by
    by_cases e : p = []
    · rw [if_pos e] at hd
      subst hd e
      rfl
    · rw [if_neg e] at hd
      rw [if_pos (by simpa using e), hd]
  have pass : m.pass { o with put := put } (m.lanes b) ⟨p, []⟩ u = .ok ([], v) := Mem.pass_ok hp hv
  have recalled : m.recalls { o with put := put } p (if m.isSc then d.stampOnce else d) = .ok ((), u) := recalls
  have stamped : (if m.isSc = true then modify State.stampOnce else pure () : Act Unit) d = .ok ((), if m.isSc then d.stampOnce else d) := by
    split <;> rfl
  unfold Mem.body
  rw [get_bind, if_neg featured]
  refine (Act.bind_ok _ _ _ _ _ (Mem.refresh_ok table)).trans ((Act.bind_ok _ _ _ _ _ release).trans ?_)
  rw [get_bind]
  simp only [check, ranged, restored, good, bne_self_eq_false, Bool.false_eq_true, if_false]
  refine (congrFun Act.when_bind b).trans ((Act.bind_ok _ _ _ _ _ spills).trans ?_)
  refine (congrFun Act.when_bind d).trans ((Act.bind_ok _ _ _ _ _ stamped).trans ?_)
  refine (Act.bind_ok _ _ _ _ _ recalled).trans ((Act.bind_ok _ _ _ _ _ pass).trans ?_)
  simp only [bne_self_eq_false, Bool.false_eq_true, if_false, Claims.acquired]
  split <;> rfl

/-! ### The forms of the memory instructions (08/R229) -/

theorem exec_scalarLoad {i : Instr} {m : MS} {off : DWord} {len : Nat} (h : Claims.scalarLoad i = some (m, off, len)) (s : State) :
    exec i s = run i (loadClaim false m.lvl.toNat)
      ((msMem m .load).body { Claims.loadOps m off with put := putScalar m.sd (2 ^ m.width.toNat) (m.sx == 1#1) }) s ∧ i.size = len := by
  unfold Claims.scalarLoad at h
  split at h <;> cases h <;> exact ⟨rfl, rfl⟩

theorem exec_scalarStore {i : Instr} {m : MS} {off : DWord} {len : Nat} (h : Claims.scalarStore i = some (m, off, len)) (s : State) :
    exec i s = run i .scalar ((msMem m .store).body { Claims.storeOps m off with put := fun _ => pure () }) s ∧ i.size = len := by
  unfold Claims.scalarStore at h
  split at h <;> cases h <;> exact ⟨rfl, rfl⟩

theorem exec_scalarAtomic {i : Instr} {m : MS} {off : DWord} {len : Nat} (h : Claims.scalarAtomic i = some (m, off, len)) (s : State) :
    exec i s = run i .scalar ((msMem m (atomicKind m.aop)).body { Claims.atomicOps m off with
      put := fun vals => if m.v = 1#1 then putScalar m.sd (2 ^ m.width.toNat) false vals else pure () }) s ∧ i.size = len := by
  unfold Claims.scalarAtomic at h
  split at h <;> cases h <;> exact ⟨rfl, rfl⟩

theorem exec_vectorLoad {i : Instr} {m : MX} {off : DWord} {len : Nat} (h : Claims.vectorLoad i = some (m, off, len)) (s : State) :
    exec i s = run i (loadClaim true m.lvl.toNat) (mxWindow m false >>= fun _ => (mxMem m .load).body
      { Claims.vloadOps m off with put := putLoad m.vt.toNat (2 ^ m.width.toNat) (m.sx == 1#1) } (Claims.runOf m)) s ∧ i.size = len := by
  unfold Claims.vectorLoad at h
  split at h <;> cases h <;> exact ⟨rfl, rfl⟩

theorem exec_vectorStore {i : Instr} {m : MX} {off : DWord} {len : Nat} (h : Claims.vectorStore i = some (m, off, len)) (s : State) :
    exec i s = run i .vector (mxWindow m false >>= fun _ =>
      (mxMem m .store).body { Claims.vstoreOps m off with put := fun _ => pure () }) s ∧ i.size = len := by
  unfold Claims.vectorStore at h
  split at h <;> cases h <;> exact ⟨rfl, rfl⟩

theorem exec_vectorAtomic {i : Instr} {m : MX} {off : DWord} {len : Nat} (h : Claims.vectorAtomic i = some (m, off, len)) (s : State) :
    exec i s = run i .vector (mxWindow m true >>= fun _ => (mxMem m (atomicKind m.aop)).body { Claims.vatomicOps m off with
      put := fun vals => if m.v = 1#1 ∧ vals ≠ [] then writeLanes m.vt.toNat (wordsOf (2 ^ m.width.toNat)) none vals else pure () }
      (if m.v = 1#1 then Claims.runOf m else [])) s ∧ i.size = len := by
  unfold Claims.vectorAtomic at h
  split at h <;> cases h <;> exact ⟨rfl, rfl⟩

/-- The window of a vector access's registers. -/
theorem mxWindow_ok {m : MX} {atomic : Bool} {s : State} (hoff : m.voff.toNat < s.w.valloc)
    (hvt : m.vt.toNat + (if atomic && isCas m.aop then 2 * wordsOf (2 ^ m.width.toNat) else wordsOf (2 ^ m.width.toNat)) ≤ s.w.valloc) :
    mxWindow m atomic s = .ok ((), s) := by
  rw [mxWindow, window, get_bind, if_neg]
  · rfl
  · simp only [List.any_cons, List.any_nil, Bool.or_false, Bool.or_eq_true, decide_eq_true_eq]
    omega

/-! ### What the forms leave when every lane performs (08/R236, R242) -/

section
variable {i : Instr} {off : DWord} {len : Nat} {s b u w v : State} {p : List (Lane × Loc)} {vals : LaneVals}

theorem scalarStore_next {m : MS} (h : Claims.scalarStore i = some (m, off, len)) (hw : i.wellFormed = true)
    (hr : Claims.Ready (msMem m .store) (Claims.storeOps m off) [] s b p) (hu : Claims.Prepared (msMem m .store) (Claims.storeOps m off) [] b p u)
    (hp : (msMem m .store).perform (Claims.storeOps m off) p [] ((msMem m .store).post (Claims.storeOps m off) p [] u) = .ok ((vals, []), w)) :
    exec i s = .next ((Claims.acquired (msMem m .store) w).retire len) := by
  obtain ⟨he, hn⟩ := exec_scalarStore h s
  rw [he, ← hn]
  exact run_untargeted rfl hw (Mem.body_ok hr hu hp rfl)

theorem vectorStore_next {m : MX} (h : Claims.vectorStore i = some (m, off, len)) (hw : i.wellFormed = true)
    (hoff : m.voff.toNat < s.w.valloc) (hvt : m.vt.toNat + wordsOf (mxMem m .store).bytes ≤ s.w.valloc)
    (hr : Claims.Ready (mxMem m .store) (Claims.vstoreOps m off) [] s b p) (hu : Claims.Prepared (mxMem m .store) (Claims.vstoreOps m off) [] b p u)
    (hp : (mxMem m .store).perform (Claims.vstoreOps m off) p [] ((mxMem m .store).post (Claims.vstoreOps m off) p [] u) = .ok ((vals, []), w)) :
    exec i s = .next ((Claims.acquired (mxMem m .store) w).retire len) := by
  obtain ⟨he, hn⟩ := exec_vectorStore h s
  rw [he, ← hn]
  exact run_untargeted rfl hw ((Act.bind_ok _ _ _ _ _ (mxWindow_ok (atomic := false) hoff hvt)).trans (Mem.body_ok hr hu hp rfl))

/-- An atomic posts nothing. -/
theorem Mem.post_of_not_store {m : Mem} (h : m.kind ≠ .store) (o : MemOps) (p : List (Lane × Loc)) (left : List Lane) (s : State) :
    m.post o p left s = s := if_pos (by simpa using h)

theorem atomicKind_ne_store (aop : BitVec 5) : atomicKind aop ≠ .store := by
  unfold atomicKind
  split <;> simp

theorem scalarAtomic_next {m : MS} (h : Claims.scalarAtomic i = some (m, off, len)) (hw : i.wellFormed = true)
    (hr : Claims.Ready (msMem m (atomicKind m.aop)) (Claims.atomicOps m off) [] s b p)
    (hu : Claims.Prepared (msMem m (atomicKind m.aop)) (Claims.atomicOps m off) [] b p u)
    (hp : (msMem m (atomicKind m.aop)).perform (Claims.atomicOps m off) p [] u = .ok ((vals, []), w))
    (hv : (if m.v = 1#1 then putScalar m.sd (2 ^ m.width.toNat) false vals else pure ()) w = .ok ((), v)) :
    exec i s = .next ((Claims.acquired (msMem m (atomicKind m.aop)) v).retire len) := by
  obtain ⟨he, hn⟩ := exec_scalarAtomic h s
  rw [← Mem.post_of_not_store (m := msMem m (atomicKind m.aop)) (atomicKind_ne_store _) (Claims.atomicOps m off) p [] u] at hp
  rw [he, ← hn]
  exact run_untargeted rfl hw (Mem.body_ok hr hu hp hv)

theorem vectorAtomic_next {m : MX} (h : Claims.vectorAtomic i = some (m, off, len)) (hw : i.wellFormed = true)
    (hoff : m.voff.toNat < s.w.valloc)
    (hvt : m.vt.toNat + (if isCas m.aop then 2 * wordsOf (mxMem m .load).bytes else wordsOf (mxMem m .load).bytes) ≤ s.w.valloc)
    (hr : Claims.Ready (mxMem m (atomicKind m.aop)) (Claims.vatomicOps m off) (if m.v = 1 then Claims.runOf m else []) s b p)
    (hu : Claims.Prepared (mxMem m (atomicKind m.aop)) (Claims.vatomicOps m off) (if m.v = 1 then Claims.runOf m else []) b p u)
    (hp : (mxMem m (atomicKind m.aop)).perform (Claims.vatomicOps m off) p [] u = .ok ((vals, []), w))
    (hv : (if m.v = 1#1 ∧ vals ≠ [] then writeLanes m.vt.toNat (wordsOf (2 ^ m.width.toNat)) none vals else pure ()) w = .ok ((), v)) :
    exec i s = .next ((Claims.acquired (mxMem m (atomicKind m.aop)) v).retire len) := by
  obtain ⟨he, hn⟩ := exec_vectorAtomic h s
  rw [← Mem.post_of_not_store (m := mxMem m (atomicKind m.aop)) (atomicKind_ne_store _) (Claims.vatomicOps m off) p [] u] at hp
  rw [he, ← hn]
  exact run_untargeted rfl hw ((Act.bind_ok _ _ _ _ _ (mxWindow_ok (atomic := true) hoff hvt)).trans (Mem.body_ok hr hu hp hv))

end

/-! ### Registers written with what the lanes answered -/

/-- An act that changes nothing for any element changes nothing for the list. -/
theorem Act.forM_same {α : Type} {a : α → Act Unit} {l : List α} {s : State} (h : ∀ x ∈ l, a x s = .ok ((), s)) : l.forM a s = .ok ((), s) := by
  induction l with
  | nil => rfl
  | cons x l ih => exact (Act.bind_ok _ _ _ _ _ (h x List.mem_cons_self)).trans (ih fun y hy => h y (List.mem_cons_of_mem _ hy))

theorem LaneVals.at_isSome (vals : LaneVals) (l : Nat) : (LaneVals.at_ vals l).isSome = (vals.map (·.1)).contains l := by
  induction vals with
  | nil => rfl
  | cons v vals ih =>
    by_cases h : v.1 = l
    · simp [LaneVals.at_, h]
    · have h' : (l == v.1) = false := by simpa using Ne.symm h
      have e : LaneVals.at_ (v :: vals) l = LaneVals.at_ vals l := by simp [LaneVals.at_, h]
      rw [e, ih, List.map_cons, List.contains_cons, h', Bool.false_or]

/-- The lanes of some results, put into one register of their run. -/
theorem lanePut_vals (s : State) (n k : Nat) (vals : LaneVals) : s.setVreg n ((s.vreg n).withLanes vals k) =
    Claims.lanePut s n (vals.map (·.1)) none fun l => BitVec.ofNat 32 ((LaneVals.at_ vals l).getD 0 / 2 ^ (32 * k)) := by
  have lane (l : Nat) (old : Word) : (match LaneVals.at_ vals l with | some x => BitVec.ofNat 32 (x / 2 ^ (32 * k)) | none => old) =
      if (vals.map (·.1)).contains l then BitVec.ofNat 32 ((LaneVals.at_ vals l).getD 0 / 2 ^ (32 * k)) else old := by
    rw [← LaneVals.at_isSome]
    cases LaneVals.at_ vals l <;> rfl
  exact congrArg (fun x => s.setVreg n { s.vreg n with lanes := Vector.ofFn x }) (funext fun i => lane i (s.vreg n).lanes[i])

/-- Results written to a run of registers none of which awaits a spill. -/
theorem writeLanes_vals {s : State} {n words : Nat} {vals : LaneVals} (h : ∀ k, k < words → (s.vreg (n + k)).pend = false) :
    writeLanes n words none vals s = .ok ((), (List.range words).foldl (init := s) fun x k =>
      Claims.lanePut x (n + k) (vals.map (·.1)) none fun l => BitVec.ofNat 32 ((LaneVals.at_ vals l).getD 0 / 2 ^ (32 * k))) := by
  rw [writeLanes, Act.bind_ok _ _ _ _ _ (Act.forM_same fun k hk => spill_none (h k (List.mem_range.mp hk))), Act.modify_run]
  simp only [lanePut_vals]

/-- With no lane nothing is put. -/
theorem lanePut_nil (s : State) (n : Nat) (val : Nat → Word) : Claims.lanePut s n [] none val = s := by
  have same : s.setVreg n (s.vreg n) = s := by
    have : put s.w.vregs (s.vidx n) (s.vreg n) = s.w.vregs := by
      unfold put State.vreg pick
      exact Vector.set_getElem_self _
    unfold State.setVreg
    rw [this]
  simp [Claims.lanePut, same]

theorem foldl_lanePut_nil (s : State) (n : Nat) (ks : List Nat) (val : Nat → Nat → Word) :
    (ks.foldl (init := s) fun x k => Claims.lanePut x (n + k) [] none (val k)) = s := by
  induction ks with
  | nil => rfl
  | cons k ks ih => rw [List.foldl_cons, lanePut_nil, ih]

/-- A scalar result: one value into sd, or into the pair. -/
theorem putScalar_one (r : SReg) (n : Nat) (sx : Bool) (v : Nat × Nat) (s : State) : putScalar r n sx [v] s =
    .ok ((), if n = 8 then s.setPair r (BitVec.ofNat 64 v.2) else s.setS r (BitVec.ofNat 32 (extended sx n v.2))) := rfl

theorem extended_false (n v : Nat) : extended false n v = v := by simp [extended]

end Sys2Proof.Machine

namespace Sys2Proof.Claims
open Sys2Proof.Machine

theorem storesComplete : StoresComplete := by
  intro i off len s b u w p vals hw
  exact ⟨fun m h => scalarStore_next h hw, fun m h => vectorStore_next h hw⟩

theorem atomicsComplete : AtomicsComplete := by
  intro i off len s b u w p vals hw
  constructor
  · intro m h a o hr hu hp hl old res
    refine scalarAtomic_next h hw hr hu hp ?_
    obtain ⟨x, rfl⟩ := List.length_eq_one_iff.mp hl
    rcases BitVec.eq_zero_or_eq_one m.v with hv | hv
    · simp only [res, hv]; rfl
    · simp only [res, old, hv, if_true, putScalar_one, extended_false]
      rfl
  · intro m h a o words hoff hvt hpend dest hr hu hp res
    refine vectorAtomic_next h hw hoff hvt hr hu hp ?_
    rcases BitVec.eq_zero_or_eq_one m.v with hv | hv
    · simp only [res, hv]; rfl
    · by_cases e : vals = []
      · rw [if_neg (fun x => x.2 e)]
        simp only [res, hv, e, List.map_nil, foldl_lanePut_nil]
        rfl
      · rw [if_pos ⟨hv, e⟩]
        refine (writeLanes_vals (words := wordsOf (2 ^ m.width.toNat)) (hpend hv)).trans ?_
        simp only [res, hv]
        rfl

end Sys2Proof.Claims
end

section
/-! PROOF of the local stores of O31: lanes one after another, what an acquire leaves alone, and the scratchpad. -/

namespace Sys2Proof.Machine

/-! ### Lanes one after another (08/R232) -/

theorem Mem.clash_nil (m : Mem) (ln : Lane) : m.clash [] ln = false := by simp [Mem.clash]

theorem Mem.perform_nil (m : Mem) (o : MemOps) (left : List Lane) (s : State) : m.perform o [] left s = .ok (([], left), s) := rfl

theorem Mem.perform_cons {m : Mem} {o : MemOps} {x : Lane × Loc} {rest : List (Lane × Loc)} {s t w : State} {v : Nat} {vals : LaneVals}
    (h : m.lane o x.1 x.2 s = .ok (some v, t)) (hr : m.perform o rest [] t = .ok ((vals, []), w)) :
    m.perform o (x :: rest) [] s = .ok (((x.1.lane, v) :: vals, []), w) := by
  rw [Mem.perform, Mem.clash_nil, if_neg Bool.false_ne_true]
  refine (Act.bind_ok _ _ _ _ _ h).trans ?_
  exact Act.bind_ok _ _ _ _ _ hr

/-- Lanes each of which performs from a state that `I` admits with the lanes that are still to come. -/
theorem Mem.perform_ok {m : Mem} {o : MemOps} (I : List (Lane × Loc) → State → Prop)
    (step : ∀ x rest s, I (x :: rest) s → ∃ v t, m.lane o x.1 x.2 s = .ok (some v, t) ∧ I rest t) (p : List (Lane × Loc)) {s : State} (h : I p s) :
    ∃ vals t, m.perform o p [] s = .ok ((vals, []), t) ∧ I [] t := by
  induction p generalizing s with
  | nil => exact ⟨[], s, rfl, h⟩
  | cons x rest ih =>
    obtain ⟨v, t, lane, ht⟩ := step x rest s h
    obtain ⟨vals, w, more, hw⟩ := ih ht
    exact ⟨_, w, Mem.perform_cons lane more, hw⟩

/-- A store of which no lane goes to a peer posts nothing. -/
theorem Mem.post_of_near {m : Mem} {p : List (Lane × Loc)} {s : State} (o : MemOps) (h : ∀ x ∈ p, m.goesFar s x.2 = false) :
    m.post o p [] s = s := by
  have none : (p.filter fun x => m.goesFar s x.2 && !m.clash [] x.1) = [] := by
    refine List.filter_eq_nil_iff.mpr fun x hx => ?_
    rw [h x hx]
    simp
  unfold Mem.post
  split
  · rfl
  · simp only [none]
    rfl

/-- A check that is made before others passes when they all do. -/
theorem Except.bind_eq_ok {ε α β : Type} {x : Except ε α} {f : α → Except ε β} {r : β} (h : (x >>= f) = .ok r) :
    ∃ a, x = .ok a ∧ f a = .ok r := by
  cases x with
  | error e => cases h
  | ok a => exact ⟨a, rfl, h⟩

/-- A place that a lane is found at is global. -/
theorem State.isLocal_of_findLane {s : State} {cx : CtxId} {xt : Option XtReg} {need : Perm} {n : Nat} {va : DWord} {tags : Bool} {l : Loc}
    (h : s.findLane cx xt need n va tags = .at_ l) : l.isLocal = false := by
  have leaf {a virt : Nat} {f : Leaf} (h : s.throughLeaf cx need n a virt va f tags = .at_ l) : l.isLocal = false := by
    unfold State.throughLeaf at h
    split at h
    · cases h
    · split at h
      · cases h
      · split at h <;> cases h
        rfl
  have walk (h : (match s.translate cx ((s.regionOf cx va).va va) with
      | .leaf f => s.throughLeaf cx need n ((s.regionOf cx va).va va) ((s.regionOf cx va).va va) va f tags
      | .absent m => .absent m | .poison => .poison | .held dev line => .held dev line | .away => .away) = Found.at_ l) : l.isLocal = false := by
    split at h
    · exact leaf h
    all_goals cases h
  unfold State.findLane at h
  dsimp only at h
  split at h
  · exact walk h
  · split at h
    · exact leaf h
    · exact walk h

/-- A local access has local lanes alone. -/
theorem Mem.isLocal_of_checks {m : Mem} {o : MemOps} {s : State} {tags : Bool} {p : List (Lane × Loc)} (h : m.checks o s tags = .ok ⟨p, []⟩) :
    ∀ x ∈ p, x.2.isLocal = m.loc := by
  unfold Mem.checks State.passChecks at h
  obtain ⟨_, -, h⟩ := Except.bind_eq_ok h
  obtain ⟨_, -, h⟩ := Except.bind_eq_ok h
  obtain ⟨_, -, h⟩ := Except.bind_eq_ok h
  obtain ⟨_, -, h⟩ := Except.bind_eq_ok h
  cases hl : m.loc with
  | true =>
    rw [hl, if_pos rfl] at h
    cases h
    simp
  | false =>
    rw [hl, if_neg Bool.false_ne_true] at h
    obtain ⟨_, -, h⟩ := Except.bind_eq_ok h
    obtain ⟨_, -, h⟩ := Except.bind_eq_ok h
    obtain ⟨_, -, h⟩ := Except.bind_eq_ok h
    obtain ⟨_, -, h⟩ := Except.bind_eq_ok h
    injection h with h
    injection h with h _
    intro x hx
    rw [← h] at hx
    obtain ⟨y, hy, hx⟩ := List.mem_filterMap.mp hx
    obtain ⟨ln, -, rfl⟩ := List.mem_map.mp hy
    dsimp only at hx
    split at hx
    · next l hf =>
      cases hx
      exact State.isLocal_of_findLane hf
    · cases hx

/-! ### Operands and what an acquire leaves alone -/

/-- Operands that are read from registers alone (08/R242). -/
def MemOps.ReadsRegs (o : MemOps) : Prop := ∀ s t : State, t.w.sregs = s.w.sregs → t.w.vregs = s.w.vregs → t.w.rot = s.w.rot →
  t.w.valloc = s.w.valloc → o.x t = o.x s ∧ o.c t = o.c s

theorem State.srun_congr {s t : State} (h : t.w.sregs = s.w.sregs) (r : SReg) (words : Nat) : t.srun r words = s.srun r words := by
  simp only [State.srun, State.spair, State.sreg, h]

theorem State.vreg_congr {s t : State} (hv : t.w.vregs = s.w.vregs) (hr : t.w.rot = s.w.rot) (ha : t.w.valloc = s.w.valloc) (n : Nat) :
    t.vreg n = s.vreg n := by
  simp only [State.vreg, State.vidx, hv, hr, ha]

theorem State.vrun_congr {s t : State} (hv : t.w.vregs = s.w.vregs) (hr : t.w.rot = s.w.rot) (ha : t.w.valloc = s.w.valloc) (n words l : Nat) :
    t.vrun n words l = s.vrun n words l := by
  simp only [State.vrun, State.vlane, State.vreg_congr hv hr ha]

theorem storeOps_readsRegs (m : MS) (off : DWord) : (Claims.storeOps m off).ReadsRegs := fun _ _ h _ _ _ =>
  ⟨funext fun _ => State.srun_congr h _ _, rfl⟩

theorem atomicOps_readsRegs (m : MS) (off : DWord) : (Claims.atomicOps m off).ReadsRegs := fun _ _ h _ _ _ =>
  ⟨funext fun _ => State.srun_congr h _ _, funext fun _ => State.srun_congr h _ _⟩

theorem vstoreOps_readsRegs (m : MX) (off : DWord) : (Claims.vstoreOps m off).ReadsRegs := fun _ _ _ hv hr ha =>
  ⟨funext fun _ => State.vrun_congr hv hr ha _ _ _, rfl⟩

theorem vatomicOps_readsRegs (m : MX) (off : DWord) : (Claims.vatomicOps m off).ReadsRegs := fun _ _ _ hv hr ha =>
  ⟨funext fun _ => State.vrun_congr hv hr ha _ _ _, funext fun _ => State.vrun_congr hv hr ha _ _ _⟩

/-- An acquire touches the core's caches and the old bound values alone (07/R220, 02/R89). -/
theorem acquired_eq (m : Mem) (t : State) : ∃ cores old,
    Claims.acquired m t = { t with cores := cores, w := { t.w with oldBounds := old } } := by
  unfold Claims.acquired State.acquireAt
  split
  · split
    · exact ⟨t.cores, [], rfl⟩
    · exact ⟨_, [], rfl⟩
  · exact ⟨t.cores, t.w.oldBounds, rfl⟩

/-! ### The scratchpad (07/R199, R207) -/

/-- A note of a write by the wave in focus changes no wave but others. -/
theorem State.noteB_eq (s : State) (loc : Bool) (dev line : Nat) : ∃ ws, s.noteB loc dev line = { s with waves := ws } := by
  exact ⟨(s.noteB loc dev line).waves, congrArg (fun w => { s.noteB loc dev line with w := w }) (if_neg fun h => h.2.1 rfl)⟩

theorem State.putScratch_eq (s : State) (bs : List (Nat × Byte)) :
    ∃ ws, s.putScratch bs = { s with blk := { s.blk with scratch := s.blk.scratch.writeAll bs }, waves := ws } := by
  have notes (gs : List (Nat × List (Nat × Byte))) (t : State) : ∃ ws, gs.foldl (fun s g => s.noteB true 0 g.1) t = { t with waves := ws } := by
    induction gs generalizing t with
    | nil => exact ⟨t.waves, rfl⟩
    | cons g gs ih =>
      obtain ⟨ws, h⟩ := t.noteB_eq true 0 g.1
      rw [List.foldl_cons, h]
      exact ih _
  exact notes _ _

/-- The bytes of one access by address. -/
theorem Loc.at_toLine (l : Loc) (bs : List Byte) : (l.toLine bs).at_ = placed l.pa bs := by
  unfold BLine.at_ Loc.toLine placed
  rw [List.map_map]
  refine List.map_congr_left fun b _ => ?_
  show (64 * lineOf l.pa + (l.pa % 64 + b.2), b.1) = (l.pa + b.2, b.1)
  unfold lineOf
  congr 1
  omega

theorem writeAt_local {lvl : Nat} {l : Loc} (bs : List Byte) (hl : l.isLocal = true) (hr : 1 ≤ rankOf lvl) (s : State) :
    writeAt lvl l bs s = .ok ((), s.putScratch (placed l.pa bs)) := by
  unfold writeAt
  simp only [hl, if_true, Nat.ne_of_gt hr, if_false, Loc.at_toLine, Act.modify_run]

theorem Mem.goesFar_of_local {m : Mem} {s : State} {l : Loc} (h : l.isLocal = true) : m.goesFar s l = false := by
  simp [Mem.goesFar, h]

/-- A lane of a store that does not go to a peer is a write at its level (08/R237). -/
theorem Mem.lane_store {m : Mem} {o : MemOps} {ln : Lane} {l : Loc} {s t : State} (hk : m.kind = .store) (hf : m.goesFar s l = false)
    (hw : writeAt m.lvl l (leBytes m.bytes (o.x s ln.lane)) s = .ok ((), t)) : m.lane o ln l s = .ok (some 0, t) := by
  unfold Mem.lane
  simp only [get_bind, hk, hf, Bool.false_eq_true, if_false]
  exact Act.bind_ok _ _ _ _ _ hw

theorem Memory.writeAll_append (m : Memory) (xs ys : List (Nat × Byte)) : m.writeAll (xs ++ ys) = (m.writeAll xs).writeAll ys :=
  List.foldl_append

/-- The bytes of the lanes of a store, lane after lane. -/
def storedBytes (m : Mem) (o : MemOps) (u : State) (p : List (Lane × Loc)) : List (Nat × Byte) :=
  p.flatMap fun x => placed x.2.pa (leBytes m.bytes (o.x u x.1.lane))

/-- A local store of which the lanes `rest` are still to perform: the scratchpad holds the bytes of the others. -/
def LocalLeft (m : Mem) (o : MemOps) (u : State) (p rest : List (Lane × Loc)) (t : State) : Prop :=
  (∀ x ∈ rest, x.2.isLocal = true) ∧ ∃ scratch ws, t = { u with blk := { u.blk with scratch := scratch }, waves := ws } ∧
    scratch.writeAll (storedBytes m o u rest) = u.blk.scratch.writeAll (storedBytes m o u p)

/-- The lanes of a local store at B or above leave their bytes in the scratchpad (07/R199). -/
theorem Mem.perform_localStore {m : Mem} {o : MemOps} {u : State} {p : List (Lane × Loc)} (hk : m.kind = .store) (ho : o.ReadsRegs)
    (hr : 1 ≤ rankOf m.lvl) (hl : ∀ x ∈ p, x.2.isLocal = true) : ∃ vals ws, m.perform o p [] (m.post o p [] u) =
      .ok ((vals, []), { u with blk := { u.blk with scratch := u.blk.scratch.writeAll (storedBytes m o u p) }, waves := ws }) := by
  rw [Mem.post_of_near o fun x hx => Mem.goesFar_of_local (hl x hx)]
  have step (x : Lane × Loc) (rest : List (Lane × Loc)) (t : State) (h : LocalLeft m o u p (x :: rest) t) :
      ∃ v t', m.lane o x.1 x.2 t = .ok (some v, t') ∧ LocalLeft m o u p rest t' := by
    obtain ⟨loc, scratch, ws, rfl, e⟩ := h
    have here := loc x List.mem_cons_self
    have lane := Mem.lane_store hk (Mem.goesFar_of_local here) (writeAt_local _ here hr { u with blk := { u.blk with scratch := scratch }, waves := ws })
      (o := o) (ln := x.1)
    rw [(ho u { u with blk := { u.blk with scratch := scratch }, waves := ws } rfl rfl rfl rfl).1] at lane
    obtain ⟨ws', put⟩ := State.putScratch_eq { u with blk := { u.blk with scratch := scratch }, waves := ws }
      (placed x.2.pa (leBytes m.bytes (o.x u x.1.lane)))
    exact ⟨0, _, lane, fun y hy => loc y (List.mem_cons_of_mem _ hy), _, ws', put, (Memory.writeAll_append ..).symm.trans e⟩
  obtain ⟨vals, t, perform, -, scratch, ws, rfl, e⟩ := Mem.perform_ok (LocalLeft m o u p) step p ⟨hl, _, u.waves, rfl, rfl⟩
  exact ⟨vals, ws, e ▸ perform⟩

end Sys2Proof.Machine

namespace Sys2Proof.Claims
open Sys2Proof.Machine

/-- What a local store leaves, once its lanes have performed. -/
theorem localStore_leaves (a : Mem) (u : State) (len : Nat) (scratch : Memory) (ws : List Wave) {t : State}
    (ht : t = (acquired a { u with blk := { u.blk with scratch := scratch }, waves := ws }).retire len) :
    t.blk.scratch = scratch ∧ t.w.sregs = u.w.sregs ∧ t.w.vregs = u.w.vregs ∧ SameBut u t len := by
  obtain ⟨cores, old, e⟩ := acquired_eq a { u with blk := { u.blk with scratch := scratch }, waves := ws }
  rw [e] at ht
  subst ht
  exact ⟨rfl, rfl, rfl, rfl, rfl, ⟨rfl, rfl, rfl, rfl, rfl, rfl, rfl⟩, ⟨rfl, rfl, rfl⟩, fun _ => rfl⟩

theorem localStores : LocalStores := by
  intro i m n off len s b u p hw placedAll out
  constructor
  · intro h a o hl hrank hr hu
    obtain ⟨vals, ws, perform⟩ := Mem.perform_localStore rfl (storeOps_readsRegs n off) hrank fun x hx => (Mem.isLocal_of_checks hr.2.checks x hx).trans hl
    exact ⟨_, scalarStore_next h hw hr hu perform, localStore_leaves a u len _ ws rfl⟩
  · intro h a o hoff hvt hl hrank hr hu
    obtain ⟨vals, ws, perform⟩ := Mem.perform_localStore rfl (vstoreOps_readsRegs m off) hrank fun x hx => (Mem.isLocal_of_checks hr.2.checks x hx).trans hl
    exact ⟨_, vectorStore_next h hw hoff hvt hr hu perform, localStore_leaves a u len _ ws rfl⟩

end Sys2Proof.Claims
end

section
/-! PROOF of the scratchpad's part of O33: atomics over places that hold no line, their operands, and scalar results. -/

namespace Sys2Proof.Machine

/-! ### Atomics over places that hold no line (07/R219) -/

theorem Place.byte_of_empty {p : Place} (h : p.lines = []) (loc : Bool) (dev pa : Nat) : p.byte loc dev pa = none := by
  simp [Place.byte, h]

theorem Place.strip_of_empty {p : Place} (h : p.lines = []) (l : Loc) (n : Nat) : p.strip l n = p := by
  unfold Place.strip
  rw [h]
  exact congrArg (Place.mk · p.marked) h.symm

/-- No place below a level holds a line that an access there would have to move. -/
def State.NothingBelow (s : State) (rank : Nat) (l : Loc) : Prop := ∀ p ∈ s.placesBelow rank l, p.lines = []

theorem State.nothingBelow_iff {s : State} {rank : Nat} {l : Loc} : s.NothingBelow rank l ↔ (1 ≤ rank → s.w.wbuf.lines = []) ∧
    (2 ≤ rank ∧ l.isLocal = false → s.blk.place.lines = []) ∧ (3 ≤ rank ∧ l.isLocal = false → s.gang.place.lines = []) := by
  have one (c : Prop) [Decidable c] (x : Place) : (∀ p ∈ if c then [x] else [], p.lines = []) ↔ (c → x.lines = []) := by
    split <;> simp [*]
  unfold State.NothingBelow State.placesBelow
  simp only [List.forall_mem_append, one, Bool.and_eq_true, decide_eq_true_eq, Bool.not_eq_true', and_assoc]

theorem State.ownBytes_of_nothingBelow {s : State} {rank : Nat} {l : Loc} (h : s.NothingBelow rank l) (n : Nat) : s.ownBytes rank l n = [] := by
  refine List.filterMap_eq_nil_iff.mpr fun i _ => ?_
  rw [List.findSome?_eq_none_iff.mpr fun p hp => Place.byte_of_empty (h p hp) ..]
  rfl

theorem State.ownPoison_of_nothingBelow {s : State} {rank : Nat} {l : Loc} (h : s.NothingBelow rank l) (n : Nat) :
    s.ownPoison rank l n = false := by
  refine List.any_eq_false.mpr fun p hp => ?_
  simp [Place.byte_of_empty (h p hp)]

theorem State.stripBelow_of_nothingBelow {s : State} {rank : Nat} {l : Loc} (h : s.NothingBelow rank l) (n : Nat) :
    s.stripBelow rank l n = s := by
  obtain ⟨hw, hb, hg⟩ := State.nothingBelow_iff.mp h
  have w : (if 1 ≤ rank then s.setW (s.w.wbuf.strip l n) else s) = s := by
    split
    · next c => rw [Place.strip_of_empty (hw c)]; rfl
    · rfl
  have b : (if 2 ≤ rank ∧ (!l.isLocal) = true then s.setB (s.blk.place.strip l n) else s) = s := by
    split
    · next c => rw [Place.strip_of_empty (hb ⟨c.1, by simpa using c.2⟩)]; rfl
    · rfl
  have g : (if 3 ≤ rank ∧ (!l.isLocal) = true then s.setG (s.gang.place.strip l n) else s) = s := by
    split
    · next c => rw [Place.strip_of_empty (hg ⟨c.1, by simpa using c.2⟩)]; rfl
    · rfl
  unfold State.stripBelow
  simp only [w, b, g]

/-- A line of no bytes has been seen by no wave. -/
theorem State.movedD_noBytes (s : State) {b : BLine} (h : b.bytes = []) : s.movedD [b] = s := by
  simp [State.movedD, State.movedFor, BLine.at_, h]

theorem liftOwn_of_nothingBelow {lvl : Nat} {l : Loc} {s : State} (h : s.NothingBelow (rankOf lvl) l) (n : Nat) :
    liftOwn lvl l n s = .ok ((), s) := by
  have lifted : (if (decide (3 ≤ rankOf lvl) && !l.isLocal) = true then s.liftD l n [] else s.stripBelow (rankOf lvl) l n) = s := by
    split
    · next c =>
      have c : 3 ≤ rankOf lvl ∧ l.isLocal = false := by simpa using c
      have h3 : s.NothingBelow 3 l := by
        rw [State.nothingBelow_iff] at h ⊢
        exact ⟨fun _ => h.1 (by omega), fun x => h.2.1 ⟨by omega, x.2⟩, fun x => h.2.2 ⟨by omega, x.2⟩⟩
      unfold State.liftD
      rw [State.stripBelow_of_nothingBelow h3, State.movedD_noBytes]
      rfl
    · exact State.stripBelow_of_nothingBelow h n
  unfold liftOwn
  simp only [get_bind, State.ownBytes_of_nothingBelow h, State.ownPoison_of_nothingBelow h, lifted]
  rfl

/-! ### The operands of an atomic -/

/-- Operands of words have no more than 32 bits. -/
def MemOps.FitsWidth (o : MemOps) (bytes : Nat) : Prop := bytes = 8 ∨ bytes = 4 ∧ ∀ s l, o.x s l < 2 ^ 32 ∧ o.c s l < 2 ^ 32

/-- The operation of a lane. -/
abbrev Mem.op (m : Mem) (o : MemOps) (s : State) (n : Nat) : AtomicOp := ⟨m.aop, m.bytes == 8, BitVec.ofNat 64 (o.x s n), BitVec.ofNat 64 (o.c s n)⟩

theorem Mem.op_apply {m : Mem} {o : MemOps} (h : o.FitsWidth m.bytes) (s : State) (n old : Nat) :
    (m.op o s n).bytes = m.bytes ∧ (m.op o s n).apply old =
      atomicValue m.aop (8 * m.bytes) old (o.x s n % 2 ^ (8 * m.bytes)) (o.c s n % 2 ^ (8 * m.bytes)) := by
  rcases h with h | ⟨h, fits⟩
  · simp [AtomicOp.bytes, AtomicOp.apply, h]
  · obtain ⟨hx, hc⟩ := fits s n
    have x64 : o.x s n % 2 ^ 64 = o.x s n := Nat.mod_eq_of_lt (hx.trans (by decide))
    have c64 : o.c s n % 2 ^ 64 = o.c s n := Nat.mod_eq_of_lt (hc.trans (by decide))
    simp only [AtomicOp.bytes, AtomicOp.apply, h, BitVec.toNat_ofNat, x64, c64, Nat.reduceMul, Nat.mod_eq_of_lt hx, Nat.mod_eq_of_lt hc]
    exact ⟨rfl, rfl⟩

/-! ### Atomics on the scratchpad (08/R241) -/

theorem State.readAt_local {s : State} {lvl : Nat} {l : Loc} (hl : l.isLocal = true) (hr : lvl ≠ 0) (fresh : Bool) (n : Nat) :
    (s.readAt lvl fresh l n).1 = s.blk.scratch.bytes l.pa n := by
  unfold State.readAt Memory.bytes
  dsimp only
  rw [List.map_map]
  refine List.map_congr_left fun i _ => ?_
  have none : s.placeByte lvl l.isLocal l.dev (l.pa + i) = none := by simp [State.placeByte, hl, hr]
  show (s.readByte lvl fresh l.isLocal l.dev (l.pa + i)).1 = _
  rw [State.readByte, none, hl]
  rfl

/-- A read of local bytes sees nothing at D and brings no line. -/
theorem State.afterRead_local {l : Loc} (hl : l.isLocal = true) (s : State) (lvl : Nat) (fresh : Bool) (n : Nat) : s.afterRead lvl fresh l n = s := by
  simp [State.afterRead, State.bytesFromD, hl]

theorem rankOf_zero : rankOf 0 = 0 := rfl

theorem lvl_ne_zero {lvl : Nat} (h : 1 ≤ rankOf lvl) : lvl ≠ 0 := by
  rintro rfl
  rw [rankOf_zero] at h
  omega

theorem atomicHere_local {lvl : Nat} {l : Loc} {s : State} (hl : l.isLocal = true) (hr : 1 ≤ rankOf lvl) (hb : s.NothingBelow (rankOf lvl) l)
    (op : AtomicOp) : atomicHere lvl l op s = .ok (s.blk.scratch.value l.pa op.bytes,
      s.putScratch (placed l.pa (leBytes op.bytes (op.apply (s.blk.scratch.value l.pa op.bytes))))) := by
  unfold atomicHere
  rw [Act.bind_ok _ _ _ _ _ (liftOwn_of_nothingBelow hb _)]
  simp only [hl, Bool.not_true, Bool.and_false, Bool.false_and, Bool.false_eq_true, if_false, get_bind, State.readAt_local hl (lvl_ne_zero hr)]
  rw [Act.bind_ok _ _ _ _ _ (Act.modify_run ..), State.afterRead_local hl]
  exact Act.bind_ok _ _ _ _ _ (writeAt_local _ hl hr s)

/-- A lane of an atomic that needs no peer. -/
theorem Mem.lane_atomic {m : Mem} {o : MemOps} {ln : Lane} {l : Loc} {s t : State} {v : Nat} (hk : m.kind = .atomic) (hf : m.goesFar s l = false)
    (hp : m.asksPeer s l = false) (h : atomicHere m.lvl l (m.op o s ln.lane) s = .ok (v, t)) : m.lane o ln l s = .ok (some v, t) := by
  unfold Mem.lane
  simp only [get_bind, hk, hf, hp, Bool.false_and, Bool.false_eq_true, if_false]
  show (some <$> atomicHere m.lvl l (m.op o s ln.lane)) s = _
  rw [map_eq_pure_bind]
  exact Act.bind_ok _ _ _ _ _ h

theorem Mem.asksPeer_of_local {m : Mem} {s : State} {l : Loc} (h : l.isLocal = true) : m.asksPeer s l = false := by
  simp [Mem.asksPeer, h]

/-! ### Fields of a memory instruction (03/R98) -/

theorem memWordOk_lvl {k : MemKind} {as : BitVec 2} {v : BitVec 1} {aop : BitVec 5} {order : BitVec 3} {sx : BitVec 1} {lvl width : BitVec 3}
    (h : memWordOk k as v aop order sx lvl width = true) : lvl ≠ 7 := by
  unfold memWordOk at h
  simp only [Bool.and_eq_true, bne_iff_ne] at h
  exact h.1.1.1.1.2

theorem memWordOk_atomic {as : BitVec 2} {v : BitVec 1} {aop : BitVec 5} {order : BitVec 3} {sx : BitVec 1} {lvl width : BitVec 3}
    (h : memWordOk .atomic as v aop order sx lvl width = true) : (width = 2 ∨ width = 3) ∧
      (updateOnly aop = true → v = 0 ∧ as = 0 ∧ (lvl = 3 ∨ lvl = 4)) := by
  unfold memWordOk at h
  simp only [Bool.and_eq_true, Bool.or_eq_true, beq_iff_eq, Bool.not_eq_true'] at h
  obtain ⟨-, ⟨-, width⟩, upd⟩ := h
  refine ⟨width, fun hu => ?_⟩
  rcases upd with upd | ⟨⟨⟨⟨hv, has⟩, hl⟩, -⟩, -⟩
  · rw [hu] at upd
    cases upd
  · exact ⟨hv, has, hl⟩

section
variable {i : Instr} {off : DWord} {len : Nat}

theorem scalarStore_wordOk {m : MS} (h : Claims.scalarStore i = some (m, off, len)) (hw : i.wellFormed = true) :
    memWordOk .store m.as m.v m.aop m.order m.sx m.lvl m.width = true := by
  unfold Claims.scalarStore at h
  split at h <;> cases h <;> simp only [Instr.wellFormed, MS.ok, Bool.and_eq_true] at hw
  · rfl
  · exact hw.1.1.1.1
  · exact hw.1.1.1.1.1

theorem scalarAtomic_wordOk {m : MS} (h : Claims.scalarAtomic i = some (m, off, len)) (hw : i.wellFormed = true) :
    memWordOk .atomic m.as m.v m.aop m.order m.sx m.lvl m.width = true := by
  unfold Claims.scalarAtomic at h
  split at h <;> cases h <;> simp only [Instr.wellFormed, MS.ok, Bool.and_eq_true] at hw
  · exact hw.1.1.1.1
  · exact hw.1.1.1.1.1

theorem vectorStore_wordOk {m : MX} (h : Claims.vectorStore i = some (m, off, len)) (hw : i.wellFormed = true) :
    memWordOk .store m.as m.v m.aop m.order m.sx m.lvl m.width = true := by
  unfold Claims.vectorStore at h
  split at h <;> cases h <;> simp only [Instr.wellFormed, MX.ok, Bool.and_eq_true] at hw
  · exact hw.1.1
  · exact hw.1.1.1

theorem vectorAtomic_wordOk {m : MX} (h : Claims.vectorAtomic i = some (m, off, len)) (hw : i.wellFormed = true) :
    memWordOk .atomic m.as m.v m.aop m.order m.sx m.lvl m.width = true := by
  unfold Claims.vectorAtomic at h
  split at h <;> cases h <;> simp only [Instr.wellFormed, MX.ok, Bool.and_eq_true] at hw
  · exact hw.1.1
  · exact hw.1.1.1

theorem scalarLoad_wordOk {m : MS} (h : Claims.scalarLoad i = some (m, off, len)) (hw : i.wellFormed = true) :
    memWordOk .load m.as m.v m.aop m.order m.sx m.lvl m.width = true := by
  unfold Claims.scalarLoad at h
  split at h <;> cases h <;> simp only [Instr.wellFormed, MS.ok, Bool.and_eq_true] at hw
  · rfl
  · exact hw.1.1.1.1
  · exact hw.1.1.1.1.1

theorem vectorLoad_wordOk {m : MX} (h : Claims.vectorLoad i = some (m, off, len)) (hw : i.wellFormed = true) :
    memWordOk .load m.as m.v m.aop m.order m.sx m.lvl m.width = true := by
  unfold Claims.vectorLoad at h
  split at h <;> cases h <;> simp only [Instr.wellFormed, MX.ok, Bool.and_eq_true] at hw
  · exact hw.1.1
  · exact hw.1.1.1

end

theorem atomicOps_fitsWidth {m : MS} (off : DWord) (h : m.width = 2 ∨ m.width = 3) : (Claims.atomicOps m off).FitsWidth (2 ^ m.width.toNat) := by
  rcases h with h | h
  · refine .inr ⟨by rw [h]; rfl, fun s l => ?_⟩
    have one (r : SReg) : s.srun r (wordsOf (2 ^ m.width.toNat)) < 2 ^ 32 := by
      rw [h]
      exact (s.sreg r).isLt
    exact ⟨one m.sb, one m.sd⟩
  · exact .inl (by rw [h]; rfl)

theorem vatomicOps_fitsWidth {m : MX} (off : DWord) (h : m.width = 2 ∨ m.width = 3) : (Claims.vatomicOps m off).FitsWidth (2 ^ m.width.toNat) := by
  rcases h with h | h
  · refine .inr ⟨by rw [h]; rfl, fun s l => ?_⟩
    have one (n : Nat) : s.vrun n (wordsOf (2 ^ m.width.toNat)) l < 2 ^ 32 := by
      have word : wordsOf (2 ^ m.width.toNat) = 1 := by rw [h]; rfl
      have := (s.vlane n l).isLt
      simpa [State.vrun, word] using this
    exact ⟨one _, one _⟩
  · exact .inl (by rw [h]; rfl)

/-! ### Scalar results -/

theorem State.sreg_setPair_other (s : State) {r q : SReg} (x : DWord) (h : q ≠ r) (h1 : q ≠ r + 1) : (s.setPair r x).sreg q = s.sreg q := by
  unfold State.setPair
  rw [State.sreg_setS_other _ _ _ _ (Ne.symm h1), State.sreg_setS_other _ _ _ _ (Ne.symm h)]

@[simp] theorem State.spair_setPair (s : State) (r : SReg) (x : DWord) : (s.setPair r x).spair r = x := by
  have ne : r + 1 ≠ r := by bv_omega
  unfold State.setPair State.spair
  rw [State.sreg_setS_same, State.sreg_setS_other _ _ _ _ ne, State.sreg_setS_same]
  show x.extractLsb' 32 32 ++ x.extractLsb' 0 32 = x
  refine BitVec.eq_of_getLsbD_eq fun i hi => ?_
  rw [BitVec.getLsbD_append]
  split
  · next h => simp [h]
  · next h => simp [Nat.add_sub_cancel' (Nat.le_of_not_lt h), show i - 32 < 32 by omega]

/-- What a scalar atomic leaves in its result register. -/
def answered (m : MS) (v : Nat) (w : State) : State :=
  if m.v = 1 then (if 2 ^ m.width.toNat = 8 then w.setPair m.sd (BitVec.ofNat 64 v) else w.setS m.sd (BitVec.ofNat 32 v)) else w

theorem answered_eq (m : MS) (v : Nat) (w : State) : ∃ sregs, answered m v w = { w with w := { w.w with sregs := sregs } } ∧
    (m.v = 0 → sregs = w.w.sregs) ∧
    (m.v = 1 → (if 2 ^ m.width.toNat = 8 then (answered m v w).spair m.sd = BitVec.ofNat 64 v else (answered m v w).sreg m.sd = BitVec.ofNat 32 v) ∧
      ∀ r : SReg, r ≠ m.sd → (2 ^ m.width.toNat = 8 → r ≠ m.sd + 1) → (answered m v w).sreg r = w.sreg r) := by
  unfold answered
  by_cases hv : m.v = 1
  · rw [if_pos hv]
    by_cases hn : 2 ^ m.width.toNat = 8
    · rw [if_pos hn]
      refine ⟨_, rfl, fun h0 => absurd (h0 ▸ hv) (by decide), fun _ => ⟨?_, fun r h h1 => State.sreg_setPair_other _ _ h (h1 hn)⟩⟩
      rw [if_pos hn, State.spair_setPair]
    · rw [if_neg hn]
      refine ⟨_, rfl, fun h0 => absurd (h0 ▸ hv) (by decide), fun _ => ⟨?_, fun r h _ => State.sreg_setS_other _ _ _ _ (Ne.symm h)⟩⟩
      rw [if_neg hn, State.sreg_setS_same]
  · rw [if_neg hv]
    exact ⟨w.w.sregs, rfl, fun _ => rfl, fun h => absurd h hv⟩

/-- A scalar atomic that returns a value, all of whose lanes perform (08/R242). -/
theorem scalarAtomic_answers {i : Instr} {m : MS} {off : DWord} {len : Nat} {s b u w : State} {p : List (Lane × Loc)} {ln : Lane} {l : Loc} {v : Nat}
    (h : Claims.scalarAtomic i = some (m, off, len)) (hw : i.wellFormed = true) (hup : updateOnly m.aop = false)
    (hr : Claims.Ready (msMem m .atomic) (Claims.atomicOps m off) [] s b p) (hu : Claims.Prepared (msMem m .atomic) (Claims.atomicOps m off) [] b p u)
    (hp : p = [(ln, l)]) (hl : (msMem m .atomic).lane (Claims.atomicOps m off) ln l u = .ok (some v, w)) :
    exec i s = .next ((Claims.acquired (msMem m .atomic) (answered m v w)).retire len) := by
  have kind : atomicKind m.aop = .atomic := if_neg (by rw [hup]; exact Bool.false_ne_true)
  have perform := Mem.perform_cons (x := (ln, l)) hl (Mem.perform_nil ..)
  rw [← hp] at perform
  have next := @scalarAtomic_next i off len s b u w (answered m v w) p [(ln.lane, v)] m h hw
  rw [kind] at next
  refine next hr hu perform ?_
  rcases BitVec.eq_zero_or_eq_one m.v with hv | hv
  · simp only [answered, hv]
    rfl
  · simp only [answered, hv, if_true, putScalar_one, extended_false]
    rfl

theorem State.noBytes_of_nothing {s : State} (h : s.w.wbuf.lines = []) {l : Loc} (hl : l.isLocal = true) (rank : Nat) : s.NothingBelow rank l :=
  State.nothingBelow_iff.mpr ⟨fun _ => h, fun c => absurd (hl.symm.trans c.2) (by decide), fun c => absurd (hl.symm.trans c.2) (by decide)⟩

@[simp] theorem leBytes_length (n x : Nat) : (leBytes n x).length = n := by
  induction n generalizing x with
  | zero => rfl
  | succ n ih => rw [leBytes, List.length_cons, ih]

end Sys2Proof.Machine

namespace Sys2Proof.Claims
open Sys2Proof.Machine

theorem localAtomics : LocalAtomics := by
  intro i m off len s b u ln l h hw hup a o hloc hrank hbuf hwf hr hu old new
  have local_ : l.isLocal = true := (Mem.isLocal_of_checks hr.2.checks _ List.mem_cons_self).trans hloc
  obtain ⟨width, -⟩ := memWordOk_atomic (scalarAtomic_wordOk h hw)
  obtain ⟨bytes, apply⟩ := Mem.op_apply (m := a) (atomicOps_fitsWidth off width) u ln.lane old
  have here := atomicHere_local local_ hrank (State.noBytes_of_nothing (by rw [hbuf]; rfl) local_ _) (a.op o u ln.lane)
  rw [bytes, apply] at here
  have lane := Mem.lane_atomic (m := a) (o := o) (ln := ln) rfl (Mem.goesFar_of_local local_) (Mem.asksPeer_of_local local_) here
  have next := scalarAtomic_answers h hw hup hr hu rfl lane
  obtain ⟨ws, put⟩ := State.putScratch_eq u (placed l.pa (leBytes a.bytes new))
  rw [show u.putScratch (placed l.pa (leBytes a.bytes (atomicValue a.aop (8 * a.bytes) old (o.x u ln.lane % 2 ^ (8 * a.bytes))
    (o.c u ln.lane % 2 ^ (8 * a.bytes))))) = _ from put] at next
  obtain ⟨sregs, answer, keeps, gives⟩ := answered_eq m old { u with blk := { u.blk with scratch := u.blk.scratch.writeAll (placed l.pa (leBytes a.bytes new)) }, waves := ws }
  obtain ⟨cores, olds, acq⟩ := acquired_eq a (answered m old { u with blk := { u.blk with scratch := u.blk.scratch.writeAll (placed l.pa (leBytes a.bytes new)) }, waves := ws })
  rw [answer] at acq gives
  refine ⟨_, next, ?_⟩
  rw [answer, acq]
  refine ⟨fun hv => (gives hv).1, keeps, fun k hk => ?_, fun c hc => ?_, fun _ => rfl, rfl, rfl, rfl⟩
  · exact Memory.read_placed hwf l.pa _ (by rwa [leBytes_length])
  · exact Memory.read_placed_other hwf l.pa _ (by rwa [leBytes_length])

end Sys2Proof.Claims
end

section
/-! PROOF of the operations of O33: atomic operations on integers and floats. -/

namespace Sys2Proof.Machine

/-! ### The operations of an atomic (08/R241) -/

/-- The operations on integers of a width, update-only forms alike. -/
structure IntegerOps (n : Nat) (m x c : BitVec n) : Prop where
  add : ∀ k : BitVec 5, k = 0x00 ∨ k = 0x10 → atomicValue k n m.toNat x.toNat c.toNat = (m + x).toNat
  smin : ∀ k : BitVec 5, k = 0x01 ∨ k = 0x11 → atomicValue k n m.toNat x.toNat c.toNat = (if x.toInt < m.toInt then x else m).toNat
  smax : ∀ k : BitVec 5, k = 0x02 ∨ k = 0x12 → atomicValue k n m.toNat x.toNat c.toNat = (if m.toInt < x.toInt then x else m).toNat
  umin : ∀ k : BitVec 5, k = 0x03 ∨ k = 0x13 → atomicValue k n m.toNat x.toNat c.toNat = (if x.toNat < m.toNat then x else m).toNat
  umax : ∀ k : BitVec 5, k = 0x04 ∨ k = 0x14 → atomicValue k n m.toNat x.toNat c.toNat = (if m.toNat < x.toNat then x else m).toNat
  and : ∀ k : BitVec 5, k = 0x05 ∨ k = 0x15 → atomicValue k n m.toNat x.toNat c.toNat = (m &&& x).toNat
  or : ∀ k : BitVec 5, k = 0x06 ∨ k = 0x16 → atomicValue k n m.toNat x.toNat c.toNat = (m ||| x).toNat
  xor : ∀ k : BitVec 5, k = 0x07 ∨ k = 0x17 → atomicValue k n m.toNat x.toNat c.toNat = (m ^^^ x).toNat
  swap : atomicValue 0x08 n m.toNat x.toNat c.toNat = x.toNat
  cas : atomicValue 0x09 n m.toNat x.toNat c.toNat = (if m = c then x else m).toNat

theorem toSigned_toNat {n : Nat} (hn : 0 < n) (x : BitVec n) : toSigned n x.toNat = x.toInt := by
  rw [toSigned_eq_toInt hn x.isLt, BitVec.ofNat_toNat, BitVec.setWidth_eq]

theorem integerOps {n : Nat} (hn : 0 < n) (m x c : BitVec n) : IntegerOps n m x c where
  add := by
    rintro k (rfl | rfl) <;> exact (BitVec.toNat_add m x).symm
  smin := by
    have signed : (if toSigned n x.toNat < toSigned n m.toNat then x.toNat else m.toNat) = (if x.toInt < m.toInt then x else m).toNat := by
      rw [toSigned_toNat hn, toSigned_toNat hn, apply_ite BitVec.toNat]
    rintro k (rfl | rfl) <;> exact signed
  smax := by
    have signed : (if toSigned n m.toNat < toSigned n x.toNat then x.toNat else m.toNat) = (if m.toInt < x.toInt then x else m).toNat := by
      rw [toSigned_toNat hn, toSigned_toNat hn, apply_ite BitVec.toNat]
    rintro k (rfl | rfl) <;> exact signed
  umin := by
    have least : min m.toNat x.toNat = (if x.toNat < m.toNat then x else m).toNat := by
      rw [apply_ite BitVec.toNat]
      split <;> omega
    rintro k (rfl | rfl) <;> exact least
  umax := by
    have greatest : max m.toNat x.toNat = (if m.toNat < x.toNat then x else m).toNat := by
      rw [apply_ite BitVec.toNat]
      split <;> omega
    rintro k (rfl | rfl) <;> exact greatest
  and := by
    rintro k (rfl | rfl) <;> exact (BitVec.toNat_and m x).symm
  or := by
    rintro k (rfl | rfl) <;> exact (BitVec.toNat_or m x).symm
  xor := by
    rintro k (rfl | rfl) <;> exact (BitVec.toNat_xor m x).symm
  swap := rfl
  cas := by
    rw [apply_ite BitVec.toNat]
    exact if_congr BitVec.toNat_inj rfl rfl

/-- A sum with a NaN among its operands is the canonical NaN. -/
theorem floatSum_nan {f : FloatFmt} {m x : Nat} (h : (f.read m).isNaN = true ∨ (f.read x).isNaN = true) : floatSum f m x = f.nanBits := by
  have nan : ((f.read m).add .rne (f.read x)).1 = .nan false := by
    unfold Num.add
    rw [if_pos (by simpa using h)]
  rw [floatSum, nan]
  rfl

end Sys2Proof.Machine

namespace Sys2Proof.Claims
open Sys2Proof.Machine

theorem atomicOperations : AtomicOperations := by
  intro m x c n y d op op2 sum wide float
  have words := integerOps (by decide) m x c
  have pairs := integerOps (by decide) n y d
  have both {f : BitVec 5 → Prop} {a b : BitVec 5} (h : ∀ k, k = a ∨ k = b → f k) : f a ∧ f b := ⟨h a (.inl rfl), h b (.inr rfl)⟩
  refine ⟨⟨both pairs.add, both pairs.smin, both pairs.smax, both pairs.umin, both pairs.umax, both pairs.and, both pairs.or, both pairs.xor,
    pairs.swap, pairs.cas⟩, ⟨?_, rfl, fun h => floatSum_nan (f := .f64) h⟩, both words.add, both words.smin, both words.smax, both words.umin, both words.umax,
    both words.and, both words.or, both words.xor, words.swap, words.cas⟩
  rintro k (rfl | rfl) <;> exact ⟨rfl, fun h => floatSum_nan (f := .f32) h⟩

end Sys2Proof.Claims
end

section
/-! SUPPORT for writes and reads at D on coherent pages of this device: what the home and the cores note of them. -/

namespace Sys2Proof.Machine

/-! ### A core that holds no dirty byte of this device (13/R373) -/

/-- No line of a device that the core holds is dirty. -/
def Core.CleanOf (c : Core) (dev : Nat) : Prop := ∀ l ∈ c.cache ++ c.ckc, l.dev = dev → l.dirty = []

/-- Cache lines made from others of their device, none of which has become dirty. -/
theorem Core.cleanOf_of_lines {c d : Core} {dev : Nat} (h : c.CleanOf dev)
    (hl : ∀ x ∈ d.cache ++ d.ckc, x.dev = dev → x.dirty = [] ∨ ∃ l ∈ c.cache ++ c.ckc, l.dev = dev ∧ (l.dirty = [] → x.dirty = [])) : d.CleanOf dev := by
  intro x hx hd
  rcases hl x hx hd with e | ⟨l, hm, ld, e⟩
  · exact e
  · exact e (h l hm ld)

theorem mem_dropIn {ls : List CacheLine} {dev line : Nat} {keep : Nat → Bool} {x : CacheLine} (h : x ∈ dropIn ls dev line keep) :
    ∃ l ∈ ls, l.dev = x.dev ∧ (l.dirty = [] → x.dirty = []) := by
  obtain ⟨l, hl, rfl⟩ := List.mem_map.mp (List.mem_filter.mp h).1
  refine ⟨l, hl, ?_⟩
  split
  · exact ⟨rfl, fun e => by simp [CacheLine.keep, e]⟩
  · exact ⟨rfl, id⟩

theorem Core.cleanOf_dropBytes {c : Core} {d : Nat} (h : c.CleanOf d) (dev line : Nat) (keep : Nat → Bool) : (c.dropBytes dev line keep).CleanOf d := by
  refine Core.cleanOf_of_lines h fun x hx hd => .inr ?_
  rcases List.mem_append.mp hx with hx | hx <;> obtain ⟨l, hl, e, hc⟩ := mem_dropIn hx
  · exact ⟨l, List.mem_append_left _ hl, e.trans hd, hc⟩
  · exact ⟨l, List.mem_append_right _ hl, e.trans hd, hc⟩

theorem Core.cleanOf_giveUp {c : Core} {d : Nat} (h : c.CleanOf d) (dev line : Nat) : (c.giveUp dev line).CleanOf d := by
  have kept {ls : List CacheLine} {x : CacheLine}
      (hx : x ∈ ls.filterMap fun l => if l.dev = dev ∧ l.line = line ∧ l.dirty = [] then none else some l) : x ∈ ls := by
    obtain ⟨l, hl, e⟩ := List.mem_filterMap.mp hx
    split at e <;> cases e
    exact hl
  refine fun x hx hd => h x ?_ hd
  rcases List.mem_append.mp hx with hx | hx
  · exact List.mem_append_left _ (kept hx)
  · exact List.mem_append_right _ (kept hx)

theorem mem_takeIn {ls : List CacheLine} {cap dev line now : Nat} {coh : Bool} {bs : List (Nat × Byte)} {va : DWord} {x : CacheLine}
    (h : x ∈ takeIn ls cap dev line coh false now bs va) : x.dirty = [] ∨ ∃ l ∈ ls, l.dev = x.dev ∧ (l.dirty = [] → x.dirty = []) := by
  unfold takeIn at h
  split at h
  · rcases List.mem_cons.mp h with rfl | h
    · cases e : lineIn ls dev line with
      | none => exact .inl rfl
      | some l => exact .inr ⟨l, List.mem_of_find?_eq_some e, rfl, id⟩
    · exact .inr ⟨x, (List.mem_filter.mp h).1, rfl, id⟩
  · exact .inr ⟨x, h, rfl, id⟩

/-- A line taken clean makes nothing dirty. -/
theorem Core.cleanOf_take {c : Core} {d : Nat} (h : c.CleanOf d) (dev line : Nat) (coh : Bool) (now : Nat) (bs : List (Nat × Byte)) (va : DWord) :
    (c.take dev line coh false now bs va).CleanOf d := by
  refine Core.cleanOf_of_lines h fun x hx hd => ?_
  rcases List.mem_append.mp hx with hx | hx <;> rcases mem_takeIn hx with e | ⟨l, hl, e, hc⟩
  · exact .inl e
  · exact .inr ⟨l, List.mem_append_left _ hl, e.trans hd, hc⟩
  · exact .inl e
  · exact .inr ⟨l, List.mem_append_right _ hl, e.trans hd, hc⟩

theorem Core.dirtyBytes_of_cleanOf {c : Core} {dev : Nat} (h : c.CleanOf dev) (line : Nat) : c.dirtyBytes dev line = [] := by
  have clean {ls : List CacheLine} (hls : ∀ l ∈ ls, l.dev = dev → l.dirty = []) : ∀ l, lineIn ls dev line = some l → l.dirty = [] := by
    intro l e
    have found := List.find?_some e
    simp only [Bool.and_eq_true, beq_iff_eq] at found
    exact hls l (List.mem_of_find?_eq_some e) found.1
  have cache := clean fun l hl => h l (List.mem_append_left _ hl)
  have ckc := clean fun l hl => h l (List.mem_append_right _ hl)
  unfold Core.dirtyBytes Core.checked Core.cached
  cases hc : lineIn c.cache dev line <;> cases hk : lineIn c.ckc dev line <;> simp_all

/-- A line of this device that the core holds has no dirty byte to go home. -/
theorem State.writeBack_of_noDirty {s : State} (h : Claims.NoDirty s) (line : Nat) : s.writeBack s.w.core line = .ok s :=
  if_pos (Core.dirtyBytes_of_cleanOf h line)

theorem State.makeRoom_of_noDirty {s : State} (h : Claims.NoDirty s) (dev line : Nat) : s.makeRoom s.w.core dev line = .ok s := by
  have second : (match s.dirtyVictim (s.core s.w.core).ckc Config.ckcLines dev line with
      | none => .ok s
      | some v => s.writeBack s.w.core v.line : Except CtxId State) = .ok s := by
    split
    · rfl
    · exact State.writeBack_of_noDirty h _
  unfold State.makeRoom
  dsimp only
  split
  · exact second
  · rw [State.writeBack_of_noDirty h]
    exact second

/-! ### Notes of a write or a read at the home -/

/-- What the home and the cores note of an access: memory stays, and the wave's core holds no dirty byte where it held none. -/
structure State.Notes (s t : State) : Prop where
  mem : t.mem = s.mem
  frame : t.frame = s.frame
  noDirty : Claims.NoDirty s → Claims.NoDirty t

theorem State.Notes.refl (s : State) : s.Notes s := ⟨rfl, rfl, id⟩

theorem State.Notes.trans {s t u : State} (h : s.Notes t) (k : t.Notes u) : s.Notes u :=
  ⟨k.mem.trans h.mem, k.frame.trans h.frame, fun c => k.noDirty (h.noDirty c)⟩

theorem State.Notes.foldl {α : Type} {f : State → α → State} (h : ∀ (s : State) (a : α), s.Notes (f s a)) (l : List α) (s : State) : s.Notes (l.foldl f s) := by
  induction l generalizing s with
  | nil => exact .refl s
  | cons a l ih => exact (h s a).trans (ih _)

theorem State.notes_setCore {s : State} {c : CoreId} {x : Core} (hb : x.bare = (s.core c).bare)
    (hc : (s.core c).CleanOf s.dev.devnum → x.CleanOf s.dev.devnum) : s.Notes (s.setCore c x) := by
  refine ⟨rfl, State.frame_setCore hb, fun h => ?_⟩
  show (pick (put s.cores c x) s.w.core).CleanOf s.dev.devnum
  rw [pick_put]
  split
  · next e => exact hc (e ▸ h)
  · exact h

theorem State.notes_dropWord (s : State) (agent pa : Nat) : s.Notes (s.dropWord agent pa) := by
  unfold State.dropWord
  split
  · exact State.notes_setCore rfl fun h => Core.cleanOf_dropBytes h _ _ _
  · exact .refl s

theorem State.notes_register (s : State) (agent pa : Nat) : s.Notes (s.register agent pa) := by
  have rest (t : State) (r : List (Nat × Nat)) (line : Nat) : t.Notes ((t.sendInvals agent line).setReg r line) := ⟨rfl, rfl, id⟩
  unfold State.register
  cases s.registrant pa with
  | none => exact (s.notes_dropWord ..).trans (rest ..)
  | some a => exact (s.notes_dropWord ..).trans ((State.notes_dropWord ..).trans (rest ..))

theorem State.notes_registerAll (s : State) (agent : Nat) (bs : List (Nat × Byte)) : s.Notes (s.registerAll agent bs) :=
  .foldl (fun s pa => s.notes_register agent pa) _ s

theorem State.notes_noteTaken (s : State) (c : CoreId) (dev line : Nat) (coh : Bool) : s.Notes (s.noteTaken c dev line coh) := by
  unfold State.noteTaken
  split <;> exact ⟨rfl, rfl, id⟩

theorem State.notes_evict (s : State) (c : CoreId) (v : Option CacheLine) : s.Notes (s.evict c v) := by
  cases v with
  | none => exact .refl s
  | some v =>
    have given : s.Notes (s.setCore c ((s.core c).giveUp v.dev v.line)) := State.notes_setCore rfl fun h => Core.cleanOf_giveUp h _ _
    unfold State.evict
    dsimp only
    split
    · exact given.trans ⟨rfl, rfl, id⟩
    · exact given

theorem State.notes_takeLine (s : State) (c : CoreId) (dev line : Nat) (coh : Bool) (bs : List (Nat × Byte)) (va : DWord) :
    s.Notes (s.takeLine c dev line coh false bs va) := by
  have room : s.Notes (s.evictFor c dev line) := (s.notes_evict ..).trans (State.notes_evict ..)
  refine room.trans (State.Notes.trans ?_ (State.notes_noteTaken ..))
  exact State.notes_setCore rfl fun h => Core.cleanOf_take h _ _ _ _ _ _

theorem State.notes_holdWords (s : State) (c : CoreId) (line : Nat) (bs : List (Nat × Byte)) : s.Notes (s.holdWords c line bs) :=
  s.notes_takeLine ..

/-! ### A write at D on a coherent page of this device (13/R367) -/

/-- A state in which bytes of this device's memory have been written, with the notes of the write. -/
structure State.Wrote (s : State) (bs : List (Nat × Byte)) (t : State) : Prop where
  mem : t.mem = s.mem.writeAll bs
  frame : t.frame = s.frame
  noDirty : Claims.NoDirty s → Claims.NoDirty t

theorem State.beforeWrite_of_none {s : State} (hp : s.parts = []) (hs : s.snaps = []) (but : Option CtxId) (line : Nat) :
    s.beforeWrite but line = .ok s := by
  unfold State.beforeWrite State.recallLine
  rw [if_pos hp]
  show s.copyOnWrite but line = _
  simp only [State.copyOnWrite, State.deepest, hs]
  rfl

theorem State.wrote_putBytes {s : State} {line : Nat} (hf : s.vaultFenced (64 * line) = false) (bs : List (Nat × Byte)) :
    s.Wrote bs (s.putBytes line bs) := by
  have open_ : s.putBytes line bs = { s.clearPoison line bs with mem := (s.clearPoison line bs).mem.writeAll bs } := by
    unfold State.putBytes
    rw [if_neg (by rw [hf]; exact Bool.false_ne_true)]
    refine if_neg ?_
    have : (s.clearPoison line bs).vaultFenced (64 * line) = s.vaultFenced (64 * line) := by
      unfold State.clearPoison
      split <;> rfl
    rw [this, hf]
    exact Bool.false_ne_true
  rw [open_]
  unfold State.clearPoison
  split <;> exact ⟨rfl, rfl, id⟩

theorem State.Wrote.notes {s t u : State} {bs : List (Nat × Byte)} (h : s.Wrote bs t) (k : t.Notes u) : s.Wrote bs u :=
  ⟨k.mem.trans h.mem, k.frame.trans h.frame, fun c => k.noDirty (h.noDirty c)⟩

theorem State.homeWrite_wrote {s : State} {line : Nat} (hp : s.parts = []) (hs : s.snaps = []) (hf : s.vaultFenced (64 * line) = false)
    (hr : s.makeRoom s.w.core s.dev.devnum line = .ok s) (bs : List (Nat × Byte)) :
    ∃ t, s.homeWrite (some s.w.core.toNat) none line bs = .ok t ∧ s.Wrote bs t := by
  have core : BitVec.ofNat 9 s.w.core.toNat = s.w.core := by simp
  unfold State.homeWrite
  rw [State.beforeWrite_of_none hp hs]
  show ∃ t, (if s.w.core.toNat < 512 then _ else _) = _ ∧ _
  rw [if_pos s.w.core.isLt, core, hr]
  exact ⟨_, rfl, ((State.wrote_putBytes hf bs).notes (State.notes_noteTaken ..)).notes ((State.notes_registerAll ..).trans (State.notes_holdWords ..))⟩

/-- An act at the home that no restore and no partial holds up. -/
theorem atHome_ok {s t : State} {line : Nat} {bs : List (Nat × Byte)} {f : State → Except CtxId State} {va : DWord} {access : Nat}
    (hr : ∀ b ∈ bs, s.restoring s.dev.devnum b.1 = false) (hp : s.parts = []) (hf : f s = .ok t) : atHome line bs f va access s = .ok ((), t) := by
  have free : ¬ ((bs.any fun b => s.restoring s.dev.devnum b.1) = true) := by simpa using hr
  have recalled : recallAct s.dev.devnum line s = .ok ((), s) := by simp [recallAct, hp]
  rw [atHome, get_bind, if_neg free]
  exact (Act.bind_ok _ _ _ _ _ recalled).trans (withPool_eq_ok.mpr hf)

/-! ### Lanes at D on coherent pages of this device (07/R201, R204) -/

/-- The state with the wave's notes of what it has seen at D. -/
def State.seen (s : State) (floors : List (Nat × Nat × Nat)) : State := { s with w := { s.w with floors := floors } }

theorem Wave.foldl_saw_eq {α : Type} (f : α → Nat) (g : α → Nat) (dev : Nat) (xs : List α) (w : Wave) :
    ∃ floors, xs.foldl (fun w x => w.saw dev (f x) (g x)) w = { w with floors := floors } := by
  induction xs generalizing w with
  | nil => exact ⟨w.floors, rfl⟩
  | cons x xs ih => exact ih (w.saw dev (f x) (g x))

theorem State.sawNow_eq (s : State) (dev : Nat) (pas : List Nat) : ∃ floors, s.sawNow dev pas = s.seen floors := by
  obtain ⟨floors, h⟩ := Wave.foldl_saw_eq id (fun _ => s.turn) dev pas s.w
  exact ⟨floors, congrArg (fun w => { s with w := w }) h⟩

theorem State.frame_seen {s t : State} (h : t.frame = s.frame) (floors : List (Nat × Nat × Nat)) : (t.seen floors).frame = (s.seen floors).frame :=
  congrArg (fun x => x.seen floors) h

/-- The lane's bytes at D go to memory, where nothing holds the write up. -/
theorem writeAt_home {a : Mem} {s : State} {ln : Lane} {l : Loc} {bs : List Byte} (h : Claims.AtHome a s [(ln, l)]) (hb : bs.length = a.bytes)
    (hp : s.parts = []) (hs : s.snaps = []) (hr : s.makeRoom s.w.core l.dev (lineOf l.pa) = .ok s) :
    ∃ t floors, writeAt 3 l bs s = .ok ((), t.seen floors) ∧ s.Wrote (placed l.pa bs) t := by
  obtain ⟨global, coherent, here, fence, free⟩ := h _ List.mem_cons_self
  dsimp only at global coherent here fence free
  rw [here] at hr
  obtain ⟨t, write, wrote⟩ := State.homeWrite_wrote hp hs fence hr (placed l.pa bs)
  obtain ⟨floors, saw⟩ := t.sawNow_eq l.dev ((l.toLine bs).at_.map (·.1))
  have unrestored : ∀ b ∈ (l.toLine bs).at_, s.restoring s.dev.devnum b.1 = false := by
    intro b hm
    rw [Loc.at_toLine] at hm
    obtain ⟨low, high⟩ := mem_placed hm
    have := free (b.1 - l.pa) (by omega)
    rwa [here, Nat.add_sub_cancel' low] at this
  have home : atHome (l.toLine bs).line (l.toLine bs).at_ (fun s => s.writeD (l.toLine bs).line (l.toLine bs).coh (l.toLine bs).at_ (l.toLine bs).va)
      (l.toLine bs).va 1 s = .ok ((), t) := by
    refine atHome_ok unrestored hp ?_
    rw [Loc.at_toLine]
    show s.writeD (lineOf l.pa) l.coh (placed l.pa bs) _ = _
    rw [coherent]
    exact write
  refine ⟨t, floors, ?_, wrote⟩
  unfold writeAt
  rw [global]
  refine (Act.bind_ok _ _ _ _ _ home).trans ?_
  rw [Act.modify_run, saw]

theorem Mem.goesFar_of_here {m : Mem} {s : State} {l : Loc} (h : l.dev = s.dev.devnum) : m.goesFar s l = false := by
  simp [Mem.goesFar, h]

theorem Mem.lane_storeAtHome {m : Mem} {o : MemOps} {s : State} {x : Lane × Loc} (hk : m.kind = .store) (hl : m.lvl = 3)
    (h : Claims.AtHome m s [x]) (hp : s.parts = []) (hs : s.snaps = []) (hr : s.makeRoom s.w.core x.2.dev (lineOf x.2.pa) = .ok s) :
    ∃ t floors, m.lane o x.1 x.2 s = .ok (some 0, t.seen floors) ∧
      s.Wrote (placed x.2.pa (leBytes m.bytes (o.x s x.1.lane))) t := by
  obtain ⟨t, floors, write, wrote⟩ := writeAt_home h (leBytes_length m.bytes (o.x s x.1.lane)) hp hs hr
  rw [← hl] at write
  exact ⟨t, floors, Mem.lane_store hk (Mem.goesFar_of_here (h x List.mem_cons_self).2.2.1) write, wrote⟩

end Sys2Proof.Machine
end

section
/-! PROOF of the stores at D of O32: their lanes one after another, and the byte that they leave at an address. -/

namespace Sys2Proof.Machine

/-! ### Stores at D, lane after lane (08/R232, R237) -/

/-- A store at D of which the lanes `rest` are still to perform: memory holds the bytes of the others. -/
structure HomeLeft (m : Mem) (o : MemOps) (u : State) (p rest : List (Lane × Loc)) (t : State) : Prop where
  home : Claims.AtHome m u rest
  clean : Claims.NoDirty t
  kept : ∃ floors, t.frame = (u.seen floors).frame
  mem : t.mem.writeAll (storedBytes m o u rest) = u.mem.writeAll (storedBytes m o u p)

/-- What the frame keeps of the state. -/
theorem State.frame_keeps {α : Type} (f : State → α) (hf : ∀ s : State, f s.frame = f s) {s t : State} (h : t.frame = s.frame) : f t = f s := by
  rw [← hf t, h, hf]

theorem atHome_of_frame {a : Mem} {u t : State} {p : List (Lane × Loc)} {floors : List (Nat × Nat × Nat)} (h : t.frame = (u.seen floors).frame)
    (ha : Claims.AtHome a u p) : Claims.AtHome a t p :=
  (State.frame_keeps (fun x => Claims.AtHome a x p) (fun _ => rfl) h).mpr ha

theorem MemOps.ReadsRegs.of_frame {o : MemOps} (ho : o.ReadsRegs) {u t : State} {floors : List (Nat × Nat × Nat)}
    (h : t.frame = (u.seen floors).frame) : o.x t = o.x u ∧ o.c t = o.c u := by
  have w : t.w = (u.seen floors).w := State.frame_w h
  exact ho u t (congrArg Wave.sregs w :) (congrArg Wave.vregs w :) (congrArg Wave.rot w :) (congrArg Wave.valloc w :)

theorem Mem.perform_homeStore {m : Mem} {o : MemOps} {u : State} {p : List (Lane × Loc)} (hk : m.kind = .store) (hl : m.lvl = 3) (ho : o.ReadsRegs)
    (hp : u.parts = []) (hs : u.snaps = []) (hd : Claims.NoDirty u) (ha : Claims.AtHome m u p) :
    ∃ vals t floors, m.perform o p [] (m.post o p [] u) = .ok ((vals, []), t) ∧ t.frame = (u.seen floors).frame ∧
      t.mem = u.mem.writeAll (storedBytes m o u p) := by
  rw [Mem.post_of_near o fun x hx => Mem.goesFar_of_here (ha x hx).2.2.1]
  have step (x : Lane × Loc) (rest : List (Lane × Loc)) (t : State) (h : HomeLeft m o u p (x :: rest) t) :
      ∃ v t', m.lane o x.1 x.2 t = .ok (some v, t') ∧ HomeLeft m o u p rest t' := by
    obtain ⟨home, clean, ⟨floors, kept⟩, mem⟩ := h
    have parts : t.parts = [] := (State.frame_keeps State.parts (fun _ => rfl) kept).trans hp
    have snaps : t.snaps = [] := (State.frame_keeps State.snaps (fun _ => rfl) kept).trans hs
    have here : Claims.AtHome m t [x] := atHome_of_frame kept fun y hy => home y (List.mem_singleton.mp hy ▸ List.mem_cons_self)
    obtain ⟨w, more, lane, wrote⟩ := Mem.lane_storeAtHome (o := o) hk hl here parts snaps (State.makeRoom_of_noDirty clean ..)
    rw [(ho.of_frame kept).1] at wrote
    refine ⟨0, _, lane, fun y hy => home y (List.mem_cons_of_mem _ hy), wrote.noDirty clean, ⟨more, ?_⟩, ?_⟩
    · exact State.frame_seen (wrote.frame.trans kept) more
    · refine Eq.trans ?_ mem
      show w.mem.writeAll _ = _
      rw [wrote.mem, ← Memory.writeAll_append]
      rfl
  obtain ⟨vals, t, perform, -, -, ⟨floors, kept⟩, mem⟩ := Mem.perform_ok (HomeLeft m o u p) step p ⟨ha, hd, ⟨u.w.floors, rfl⟩, rfl⟩
  exact ⟨vals, t, floors, perform, kept, mem⟩

/-! ### The byte that a store leaves at an address -/

/-- The byte of one lane's access at an address of a home or of the scratchpad. -/
def laneByte (m : Mem) (o : MemOps) (u : State) (loc : Bool) (dev pa : Nat) (x : Lane × Loc) : Option Byte :=
  if x.2.isLocal = loc ∧ x.2.dev = dev ∧ x.2.pa ≤ pa ∧ pa < x.2.pa + m.bytes then (leBytes m.bytes (o.x u x.1.lane))[pa - x.2.pa]? else none

/-- Of two lanes that write a byte the later one's stands. -/
theorem storedByte_cons (m : Mem) (o : MemOps) (u : State) (x : Lane × Loc) (p : List (Lane × Loc)) (loc : Bool) (dev pa : Nat) :
    Claims.storedByte m o u (x :: p) loc dev pa = (Claims.storedByte m o u p loc dev pa).orElse fun _ => laneByte m o u loc dev pa x := by
  show (x :: p).reverse.findSome? (laneByte m o u loc dev pa) = (p.reverse.findSome? (laneByte m o u loc dev pa)).orElse _
  rw [List.reverse_cons, List.findSome?_append, List.findSome?_singleton]
  cases p.reverse.findSome? (laneByte m o u loc dev pa) <;> rfl

theorem Memory.read_placed_getD {m : Memory} (h : Memory.wf m) (a : Nat) (bs : List Byte) (c : Nat) :
    (m.writeAll (placed a bs)).read c = (if a ≤ c ∧ c < a + bs.length then bs[c - a]? else none).getD (m.read c) := by
  split
  · next hc =>
    have := Memory.read_placed h a bs (k := c - a) (by omega)
    rw [Nat.add_sub_cancel' hc.1] at this
    rw [← this]
    rfl
  · next hc => exact Memory.read_placed_other h a bs (by omega)

/-- What memory holds after the lanes of a store that are all homed on one device. -/
theorem Memory.read_storedBytes {m : Mem} {o : MemOps} {u : State} {dev : Nat} {p : List (Lane × Loc)} {mem : Memory} (h : Memory.wf mem)
    (hp : ∀ x ∈ p, x.2.isLocal = false ∧ x.2.dev = dev) (pa : Nat) :
    (mem.writeAll (storedBytes m o u p)).read pa = (Claims.storedByte m o u p false dev pa).getD (mem.read pa) := by
  induction p generalizing mem with
  | nil => rfl
  | cons x p ih =>
    obtain ⟨global, here⟩ := hp x List.mem_cons_self
    have one : (mem.writeAll (placed x.2.pa (leBytes m.bytes (o.x u x.1.lane)))).read pa = (laneByte m o u false dev pa x).getD (mem.read pa) := by
      rw [Memory.read_placed_getD h, leBytes_length]
      simp [laneByte, global, here]
    rw [storedBytes, List.flatMap_cons, Memory.writeAll_append]
    refine (ih (Memory.wf_writeAll h _) fun y hy => hp y (List.mem_cons_of_mem _ hy)).trans ?_
    rw [one, storedByte_cons]
    cases Claims.storedByte m o u p false dev pa <;> rfl

end Sys2Proof.Machine

namespace Sys2Proof.Claims
open Sys2Proof.Machine

/-- What is left of a state whose frame is that of `u`, once the access has acquired and retired. -/
theorem frame_leaves (a : Mem) {u z t : State} {floors : List (Nat × Nat × Nat)} (len : Nat) (hz : z.frame = (u.seen floors).frame)
    (ht : t = (acquired a z).retire len) : t.mem = z.mem ∧ t.w.wbuf = u.w.wbuf ∧ t.blk = u.blk ∧ t.gang = u.gang ∧ RegsKept u t len := by
  obtain ⟨cores, old, e⟩ := acquired_eq a z
  have w : z.w = (u.seen floors).w := State.frame_w hz
  rw [e] at ht
  subst ht
  refine ⟨rfl, (congrArg Wave.wbuf w :), (State.frame_keeps State.blk (fun _ => rfl) hz :), (State.frame_keeps State.gang (fun _ => rfl) hz :),
    (congrArg Wave.sregs w :), (congrArg Wave.vregs w :), (congrArg Wave.status w :), (congrArg (fun w => w.pc + BitVec.ofNat 64 len) w :), (congrArg Wave.xts w :),
    (congrArg Wave.accs w :), (congrArg Wave.tvec w :), (congrArg Wave.bndst w :)⟩

theorem storesAtD : StoresAtD := by
  intro i m off len s b u ln l h hw hlvl a o hr hu global coherent here free hp hs fence hwf room
  have lvl : a.lvl = 3 := congrArg BitVec.toNat hlvl
  have home : AtHome a u [(ln, l)] := fun x hx => List.mem_singleton.mp hx ▸ ⟨global, coherent, here, fence, free⟩
  obtain ⟨w, floors, lane, wrote⟩ := Mem.lane_storeAtHome (o := o) rfl lvl home hp hs room
  have near : a.post o [(ln, l)] [] u = u := Mem.post_of_near o fun x hx => Mem.goesFar_of_here (home x hx).2.2.1
  have perform := Mem.perform_cons (x := (ln, l)) lane (Mem.perform_nil ..)
  rw [← near] at perform
  obtain ⟨mem, wbuf, blk, gang, sregs, vregs, status, pc, -⟩ := frame_leaves a len (State.frame_seen wrote.frame floors) rfl
  refine ⟨_, scalarStore_next h hw hr hu perform, fun c hc => ?_, fun k hk => ?_, sregs, vregs, wbuf, blk, gang, status, pc⟩
  · rw [mem]
    show w.mem.read c = _
    rw [wrote.mem]
    exact Memory.read_placed_other hwf l.pa _ (by rwa [leBytes_length])
  · rw [mem]
    show some (w.mem.read (l.pa + k)) = _
    rw [wrote.mem]
    exact Memory.read_placed hwf l.pa _ (by rwa [leBytes_length])

theorem storesAtHome : StoresAtHome := by
  intro i off len s b u p hw out
  have leaves {a : Mem} {o : MemOps} (hk : a.kind = .store) (ho : o.ReadsRegs)
      (next : ∀ vals w, a.perform o p [] (a.post o p [] u) = .ok ((vals, []), w) → Ready a o [] s b p → Prepared a o [] b p u →
        exec i s = .next ((acquired a w).retire len)) : out a o := by
    intro hlvl _ hr hu ha hp hs hd hwf
    obtain ⟨vals, z, floors, perform, kept, mem⟩ := Mem.perform_homeStore hk hlvl ho hp hs hd ha
    obtain ⟨memz, wbuf, blk, gang, regs⟩ := frame_leaves a len kept rfl
    refine ⟨_, next vals z perform hr hu, fun pa => ?_, wbuf, blk, gang, regs⟩
    rw [memz, mem]
    exact Memory.read_storedBytes hwf (fun x hx => ⟨(ha x hx).1, (ha x hx).2.2.1⟩) pa
  exact ⟨fun m h => leaves rfl (storeOps_readsRegs m off) fun vals w hp hr hu => scalarStore_next h hw hr hu hp,
    fun m h hoff hvt => leaves rfl (vstoreOps_readsRegs m off) fun vals w hp hr hu => vectorStore_next h hw hoff hvt hr hu hp⟩

end Sys2Proof.Claims
end

section
/-! PROOF of O33: atomics at D, lane after lane, and what they leave in their registers. -/

namespace Sys2Proof.Machine

/-! ### What a read at D answers where nothing dirty is held (07/R201, R204) -/

theorem State.ckSupply_of_noDirty {s : State} (h : Claims.NoDirty s) (pa : Nat) : s.ckSupply true s.dev.devnum pa = none := by
  unfold State.ckSupply
  split
  · next b dirty e =>
    unfold Core.ckByte at e
    simp only [Option.bind_eq_bind, Option.bind_eq_some_iff, Option.pure_def, Option.some.injEq, Prod.mk.injEq] at e
    obtain ⟨l, hl, c, -, rfl, rfl⟩ := e
    have found := List.find?_some hl
    simp only [Bool.and_eq_true, beq_iff_eq] at found
    simp [h l (List.mem_append_right _ (List.mem_of_find?_eq_some hl)) found.1]
  · rfl

theorem State.readAt_home {s : State} (h : Claims.NoDirty s) {l : Loc} (hl : l.isLocal = false) (hd : l.dev = s.dev.devnum) (n : Nat) :
    (s.readAt 3 true l n).1 = s.mem.bytes l.pa n := by
  unfold State.readAt Memory.bytes
  dsimp only
  rw [List.map_map]
  refine List.map_congr_left fun i _ => ?_
  show (s.readByte 3 true l.isLocal l.dev (l.pa + i)).1 = _
  have none : s.placeByte 3 l.isLocal l.dev (l.pa + i) = none := by simp [State.placeByte, hl, rankOf]
  have home : s.homeByte s.dev.devnum (l.pa + i) = s.mem.read (l.pa + i) := if_pos rfl
  rw [State.readByte, none, hl, hd]
  simp [rankOf, State.byteD, State.ckSupply_of_noDirty h, home]

/-- After a read the wave has seen its bytes, and the core may hold the line, clean. -/
theorem State.notes_afterRead (s : State) (lvl : Nat) (fresh : Bool) (l : Loc) (n : Nat) :
    ∃ floors, (s.seen floors).Notes (s.afterRead lvl fresh l n) := by
  unfold State.afterRead
  dsimp only
  obtain ⟨floors, e⟩ := Wave.foldl_saw_eq Prod.fst Prod.snd l.dev ((s.bytesFromD lvl l n).map fun pa =>
    (pa, (((if 4 ≤ rankOf lvl then none else s.ckSupply fresh l.dev pa).map (·.at_)).getD s.turn))) s.w
  refine ⟨floors, ?_⟩
  rw [e]
  split
  · exact State.notes_takeLine (s.seen floors) ..
  · exact .refl _

/-! ### Atomics at D, lane after lane (08/R232, R241) -/

theorem atomicHere_home {a : Mem} {s : State} {ln : Lane} {l : Loc} {op : AtomicOp} (h : Claims.AtHome a s [(ln, l)]) (hb : op.bytes = a.bytes)
    (hp : s.parts = []) (hs : s.snaps = []) (hd : Claims.NoDirty s) (hn : s.NothingBelow 3 l) : ∃ t floors,
    atomicHere 3 l op s = .ok (s.mem.value l.pa op.bytes, t) ∧ t.frame = (s.seen floors).frame ∧ Claims.NoDirty t ∧
      t.mem = s.mem.writeAll (placed l.pa (leBytes op.bytes (op.apply (s.mem.value l.pa op.bytes)))) := by
  obtain ⟨global, coherent, here, -, -⟩ := h _ List.mem_cons_self
  dsimp only at global coherent here
  obtain ⟨floors, notes⟩ := s.notes_afterRead 3 true l op.bytes
  have clean := notes.noDirty hd
  obtain ⟨t, more, write, wrote⟩ := writeAt_home (atHome_of_frame notes.frame h)
    ((leBytes_length _ (op.apply (s.mem.value l.pa op.bytes))).trans hb)
    ((State.frame_keeps State.parts (fun _ => rfl) notes.frame).trans hp) ((State.frame_keeps State.snaps (fun _ => rfl) notes.frame).trans hs)
    (State.makeRoom_of_noDirty clean l.dev (lineOf l.pa))
  refine ⟨t.seen more, more, ?_, State.frame_seen (wrote.frame.trans notes.frame) more, wrote.noDirty clean, ?_⟩
  · unfold atomicHere
    rw [Act.bind_ok _ _ _ _ _ (liftOwn_of_nothingBelow (lvl := 3) hn _)]
    simp only [coherent, Bool.not_true, Bool.and_false, Bool.false_eq_true, if_false, get_bind]
    rw [show decide (3 ≤ rankOf 3) = true from rfl, State.readAt_home hd global here]
    refine (Act.bind_ok _ _ _ _ _ (Act.modify_run ..)).trans ?_
    exact Act.bind_ok _ _ _ _ _ write
  · show t.mem = _
    rw [wrote.mem, notes.mem]
    rfl

/-- An atomic at D of which the lanes `rest` are still to perform. -/
structure HomeAtomicLeft (m : Mem) (o : MemOps) (u : State) (p rest : List (Lane × Loc)) (t : State) : Prop where
  home : Claims.AtHome m u rest
  clean : Claims.NoDirty t
  kept : ∃ floors, t.frame = (u.seen floors).frame
  mem : Claims.atomicMemory m o u t.mem rest = Claims.atomicMemory m o u u.mem p

theorem Mem.asksPeer_of_here {m : Mem} {s : State} {l : Loc} (h : l.dev = s.dev.devnum) : m.asksPeer s l = false := by
  simp [Mem.asksPeer, h]

section
variable {m : Mem} {o : MemOps} {u : State} {p : List (Lane × Loc)}

/-- What a lane of an atomic at D leaves. -/
theorem Mem.lane_atomicAtHome {s : State} {x : Lane × Loc} (hk : m.kind = .atomic) (hl : m.lvl = 3) (hw : o.FitsWidth m.bytes)
    (h : Claims.AtHome m s [x]) (hp : s.parts = []) (hs : s.snaps = []) (hd : Claims.NoDirty s) (hn : s.NothingBelow 3 x.2) : ∃ t floors,
    m.lane o x.1 x.2 s = .ok (some (s.mem.value x.2.pa m.bytes), t) ∧ t.frame = (s.seen floors).frame ∧ Claims.NoDirty t ∧
      t.mem = Claims.atomicMemory m o s s.mem [x] := by
  obtain ⟨bytes, apply⟩ := Mem.op_apply (m := m) hw s x.1.lane (s.mem.value x.2.pa m.bytes)
  obtain ⟨t, floors, act, kept, clean, mem⟩ := atomicHere_home (op := m.op o s x.1.lane) h bytes hp hs hd hn
  rw [bytes] at act mem
  rw [apply] at mem
  have here : x.2.dev = s.dev.devnum := (h x List.mem_cons_self).2.2.1
  rw [← hl] at act
  exact ⟨t, floors, Mem.lane_atomic hk (Mem.goesFar_of_here here) (Mem.asksPeer_of_here here) act, kept, clean, mem⟩

theorem atomicMemory_congr {s : State} (hx : o.x s = o.x u) (hc : o.c s = o.c u) (mem : Memory) :
    Claims.atomicMemory m o s mem p = Claims.atomicMemory m o u mem p := by
  induction p generalizing mem with
  | nil => rfl
  | cons x p ih => simp only [Claims.atomicMemory, hx, hc, ih]

theorem nothingBelow_of_noLines {s : State} (h : Claims.NoLines s) (rank : Nat) (l : Loc) : s.NothingBelow rank l :=
  State.nothingBelow_iff.mpr ⟨fun _ => h.1, fun _ => h.2.1, fun _ => h.2.2⟩

theorem Mem.perform_homeAtomic (hk : m.kind = .atomic) (hl : m.lvl = 3) (ho : o.ReadsRegs) (hw : o.FitsWidth m.bytes)
    (hp : u.parts = []) (hs : u.snaps = []) (hd : Claims.NoDirty u) (hn : Claims.NoLines u) (ha : Claims.AtHome m u p) :
    ∃ vals t floors, m.perform o p [] u = .ok ((vals, []), t) ∧ t.frame = (u.seen floors).frame ∧ t.mem = Claims.atomicMemory m o u u.mem p ∧
      ∀ ln l, p = [(ln, l)] → vals = [(ln.lane, u.mem.value l.pa m.bytes)] := by
  have step (x : Lane × Loc) (rest : List (Lane × Loc)) (t : State) (h : HomeAtomicLeft m o u p (x :: rest) t) :
      ∃ v t', m.lane o x.1 x.2 t = .ok (some v, t') ∧ HomeAtomicLeft m o u p rest t' := by
    obtain ⟨home, clean, ⟨floors, kept⟩, mem⟩ := h
    have parts : t.parts = [] := (State.frame_keeps State.parts (fun _ => rfl) kept).trans hp
    have snaps : t.snaps = [] := (State.frame_keeps State.snaps (fun _ => rfl) kept).trans hs
    have here : Claims.AtHome m t [x] := atHome_of_frame kept fun y hy => home y (List.mem_singleton.mp hy ▸ List.mem_cons_self)
    have below : t.NothingBelow 3 x.2 :=
      (State.frame_keeps (fun s => s.NothingBelow 3 x.2) (fun _ => rfl) kept).mpr (nothingBelow_of_noLines hn 3 x.2)
    obtain ⟨w, more, lane, wkept, wclean, wmem⟩ := Mem.lane_atomicAtHome hk hl hw here parts snaps clean below
    obtain ⟨hx, hc⟩ := ho.of_frame kept
    refine ⟨_, w, lane, fun y hy => home y (List.mem_cons_of_mem _ hy), wclean, ⟨more, wkept.trans (State.frame_seen kept more)⟩, ?_⟩
    rw [wmem, atomicMemory_congr hx hc]
    exact mem
  obtain ⟨vals, t, perform, -, -, ⟨floors, kept⟩, mem⟩ := Mem.perform_ok (HomeAtomicLeft m o u p) step p ⟨ha, hd, ⟨u.w.floors, rfl⟩, rfl⟩
  refine ⟨vals, t, floors, perform, kept, mem, ?_⟩
  rintro ln l rfl
  obtain ⟨w, _, lane, -⟩ := Mem.lane_atomicAtHome (o := o) hk hl hw ha hp hs hd (nothingBelow_of_noLines hn 3 l)
  have one := (Mem.perform_cons (x := (ln, l)) lane (Mem.perform_nil ..)).symm.trans perform
  simp only [Except.ok.injEq, Prod.mk.injEq] at one
  exact one.1.1.symm

end

/-! ### Results of an atomic -/

/-- The state with other scalar, or vector, registers. -/
def State.withSregs (s : State) (x : Vector Word 64) : State := { s with w := { s.w with sregs := x } }
@[inherit_doc State.withSregs] def State.withVregs (s : State) (x : Vector VReg 256) : State := { s with w := { s.w with vregs := x } }

/-- A scalar atomic writes sd, or the pair, and nothing else; with V = 0 nothing at all. -/
theorem putScalar_sregs (m : MS) (vals : LaneVals) (w : State) : ∃ v sregs,
    (if m.v = 1#1 then putScalar m.sd (2 ^ m.width.toNat) false vals else pure ()) w = .ok ((), v) ∧
      v = w.withSregs sregs ∧ (m.v = 0 → sregs = w.w.sregs) ∧ ∀ x, vals = [x] → v = answered m x.2 w := by
  rcases BitVec.eq_zero_or_eq_one m.v with hv | hv
  · rw [if_neg (by rw [hv]; decide)]
    refine ⟨w, w.w.sregs, rfl, rfl, fun _ => rfl, fun x _ => ?_⟩
    simp only [answered, hv]
    rfl
  · rw [if_pos hv]
    cases vals with
    | nil => exact ⟨w, w.w.sregs, rfl, rfl, fun _ => rfl, fun x hx => nomatch hx⟩
    | cons y vals =>
      obtain ⟨sregs, e, keeps, -⟩ := answered_eq m y.2 w
      refine ⟨answered m y.2 w, sregs, ?_, e, keeps, fun x hx => by cases hx; rfl⟩
      have first : putScalar m.sd (2 ^ m.width.toNat) false (y :: vals) = putScalar m.sd (2 ^ m.width.toNat) false [y] := rfl
      rw [first, putScalar_one, extended_false]
      simp only [answered, hv]
      rfl

theorem foldl_lanePut_eq (ks ls : List Nat) (n : Nat) (val : Nat → Nat → Word) (w : State) :
    ∃ vregs, (ks.foldl (init := w) fun x k => Claims.lanePut x (n + k) ls none (val k)) = w.withVregs vregs := by
  induction ks generalizing w with
  | nil => exact ⟨w.w.vregs, rfl⟩
  | cons k ks ih =>
    obtain ⟨vregs, h⟩ := ih (Claims.lanePut w (n + k) ls none (val k))
    exact ⟨vregs, h⟩

theorem writeLanes_vregs {m : MX} {vals : LaneVals} {w : State} (hp : m.v = 1 → ∀ k ∈ Claims.runOf m, (w.vreg k).pend = false) : ∃ vregs,
    (if m.v = 1#1 ∧ vals ≠ [] then writeLanes m.vt.toNat (wordsOf (2 ^ m.width.toNat)) none vals else pure ()) w =
      .ok ((), w.withVregs vregs) ∧ (m.v = 0 → vregs = w.w.vregs) := by
  by_cases h : m.v = 1#1 ∧ vals ≠ []
  · rw [if_pos h]
    have pend (k : Nat) (hk : k < wordsOf (2 ^ m.width.toNat)) : (w.vreg (m.vt.toNat + k)).pend = false :=
      hp h.1 _ (List.mem_map.mpr ⟨k, List.mem_range.mpr hk, rfl⟩)
    obtain ⟨vregs, e⟩ := foldl_lanePut_eq (List.range (wordsOf (2 ^ m.width.toNat))) (vals.map (·.1)) m.vt.toNat
      (fun k l => BitVec.ofNat 32 ((LaneVals.at_ vals l).getD 0 / 2 ^ (32 * k))) w
    exact ⟨vregs, (writeLanes_vals pend).trans (congrArg (fun x => Except.ok ((), x)) e), fun h0 => absurd (h0 ▸ h.1) (by decide)⟩
  · rw [if_neg h]
    exact ⟨w.w.vregs, rfl, fun _ => rfl⟩

end Sys2Proof.Machine

namespace Sys2Proof.Claims
open Sys2Proof.Machine

theorem atomicKind_of_value {aop : BitVec 5} (h : updateOnly aop = false) : atomicKind aop = .atomic := if_neg (by rw [h]; exact Bool.false_ne_true)

theorem atomicsAtHome : AtomicsAtHome := by
  intro i off len s b u p hw out
  constructor
  · intro m h hup a hlvl _ hr hu hn ha hp hs hd hwf
    obtain ⟨width, -⟩ := memWordOk_atomic (scalarAtomic_wordOk h hw)
    obtain ⟨vals, z, floors, perform, kept, mem, single⟩ := Mem.perform_homeAtomic (m := a) rfl hlvl (atomicOps_readsRegs m off)
      (atomicOps_fitsWidth off width) hp hs hd hn ha
    obtain ⟨v, sregs, put, rfl, keeps, answer⟩ := putScalar_sregs m vals z
    have next := @scalarAtomic_next i off len s b u z (z.withSregs sregs) p vals m h hw
    rw [atomicKind_of_value hup] at next
    have ends := next hr hu perform put
    obtain ⟨cores, old, acq⟩ := acquired_eq a (z.withSregs sregs)
    have w : z.w = (u.seen floors).w := State.frame_w kept
    have zs : z.w.sregs = u.w.sregs := (congrArg Wave.sregs w :)
    rw [acq] at ends
    refine ⟨_, ends, fun x => congrArg (Memory.read · x) mem, (State.frame_keeps State.blk (fun _ => rfl) kept :),
      (State.frame_keeps State.gang (fun _ => rfl) kept :), (congrArg Wave.status w :), (congrArg (fun w => w.pc + BitVec.ofNat 64 len) w :),
      (congrArg Wave.vregs w :), fun hv => (keeps hv).trans zs, ?_⟩
    intro ln l hpl hv value
    have res := answer _ (single ln l hpl)
    obtain ⟨-, -, -, gives⟩ := answered_eq m value z
    obtain ⟨result, others⟩ := gives hv
    rw [← res] at result others
    refine ⟨result, fun r h0 h1 => (others r h0 h1).trans ?_⟩
    show pick z.w.sregs r = pick u.w.sregs r
    rw [zs]
  · intro m h hup hoff hvt hpend hlvl _ hr hu hn ha hp hs hd hwf
    obtain ⟨width, -⟩ := memWordOk_atomic (vectorAtomic_wordOk h hw)
    obtain ⟨vals, z, floors, perform, kept, mem, -⟩ := Mem.perform_homeAtomic (m := mxMem m .atomic) rfl hlvl (vatomicOps_readsRegs m off)
      (vatomicOps_fitsWidth off width) hp hs hd hn ha
    have w : z.w = (u.seen floors).w := State.frame_w kept
    have pend : m.v = 1 → ∀ k ∈ runOf m, (z.vreg k).pend = false := fun hv k hk =>
      (congrArg VReg.pend (State.frame_keeps (fun s => s.vreg k) (fun _ => rfl) kept)).trans (hpend hv k hk)
    obtain ⟨vregs, put, keeps⟩ := writeLanes_vregs (vals := vals) pend
    have next := @vectorAtomic_next i off len s b u z (z.withVregs vregs) p vals m h hw hoff (by rwa [ite_mul, one_mul] at hvt)
    rw [atomicKind_of_value hup] at next
    have ends := next hr hu perform put
    obtain ⟨cores, old, acq⟩ := acquired_eq (mxMem m .atomic) (z.withVregs vregs)
    rw [acq] at ends
    exact ⟨_, ends, fun x => congrArg (Memory.read · x) mem, (State.frame_keeps State.blk (fun _ => rfl) kept :),
      (State.frame_keeps State.gang (fun _ => rfl) kept :), (congrArg Wave.status w :), (congrArg (fun w => w.pc + BitVec.ofNat 64 len) w :),
      (congrArg Wave.sregs w :), fun hv => (keeps hv).trans (congrArg Wave.vregs w :)⟩

/-- Settles O33: lanes that read and write one place, one after another; on the scratchpad, at the home, and the operations by their values. -/
theorem atomics : Obligations.Atomics := ⟨atomicsComplete, localAtomics, atomicsAtHome, atomicOperations⟩

end Sys2Proof.Claims
end

section
/-! SUPPORT for the places of the levels: a line put into a place, and the bytes that the place holds then. -/

namespace Sys2Proof.Machine

/-! ### A line put into a place that has room for it (07/R197, R205) -/

/-- The place with a line merged into the one that it holds, or with a new one. -/
def Place.take (p : Place) (b : BLine) : Place := (p.mergeIn b).getD (p.add b)

/-- A line merged into those of its key. -/
def BLine.into (b o : BLine) : BLine := if o.holds b.isLocal b.dev b.line && o.sent.isNone then o.merge b else o

theorem Place.mergeIn_of_none {p : Place} {b : BLine} (h : p.find b.isLocal b.dev b.line = none) : p.mergeIn b = none := by
  simp only [Place.mergeIn, h]

theorem Place.mergeIn_of_some {p : Place} {b : BLine} (h : (p.find b.isLocal b.dev b.line).isSome = true) :
    p.mergeIn b = some { p with lines := p.lines.map b.into } := by
  obtain ⟨o, ho⟩ := Option.isSome_iff_exists.mp h
  simp only [Place.mergeIn, ho]
  rfl

theorem Place.take_of_none {p : Place} {b : BLine} (h : p.find b.isLocal b.dev b.line = none) : p.take b = p.add b := by
  rw [Place.take, Place.mergeIn_of_none h]; rfl

theorem Place.take_of_some {p : Place} {b : BLine} (h : (p.find b.isLocal b.dev b.line).isSome = true) :
    p.take b = { p with lines := p.lines.map b.into } := by
  rw [Place.take, Place.mergeIn_of_some h]; rfl

theorem BLine.holds_iff {b : BLine} {loc : Bool} {dev line : Nat} : b.holds loc dev line = true ↔ b.isLocal = loc ∧ b.dev = dev ∧ b.line = line := by
  simp [BLine.holds, and_assoc]

theorem BLine.into_keeps (b o : BLine) : (b.into o).holds = o.holds ∧ (b.into o).sent = o.sent ∧ (b.into o).held = o.held := by
  unfold BLine.into
  split <;> exact ⟨rfl, rfl, rfl⟩

theorem Place.find_isSome {p : Place} {loc : Bool} {dev line : Nat} :
    (p.find loc dev line).isSome = true ↔ ∃ b ∈ p.lines, b.holds loc dev line = true ∧ b.sent = none := by
  simp [Place.find, List.find?_isSome]

/-- A place finds the lines that it found before, and the one it has taken. -/
theorem Place.find_take {p : Place} {b : BLine} (hs : b.sent = none) {loc : Bool} {dev line : Nat} :
    ((p.take b).find loc dev line).isSome = true ↔ (p.find loc dev line).isSome = true ∨ b.holds loc dev line = true := by
  by_cases h : (p.find b.isLocal b.dev b.line).isSome = true
  · have same : ((p.take b).find loc dev line).isSome = true ↔ (p.find loc dev line).isSome = true := by
      rw [Place.take_of_some h, Place.find_isSome, Place.find_isSome]
      simp only [List.mem_map, exists_exists_and_eq_and, BLine.into_keeps]
    rw [same]
    refine ⟨.inl, fun c => c.elim id fun e => ?_⟩
    obtain ⟨rfl, rfl, rfl⟩ := BLine.holds_iff.mp e
    exact h
  · rw [Place.take_of_none (Option.not_isSome_iff_eq_none.mp h), Place.find_isSome, Place.find_isSome]
    simp [Place.add, or_and_right, exists_or, hs]

theorem Place.used_take {p : Place} {b : BLine} (hh : b.held = .place) :
    (p.take b).used = if (p.find b.isLocal b.dev b.line).isSome then p.used else p.used + 1 := by
  split
  · next h =>
    rw [Place.take_of_some h]
    unfold Place.used
    rw [List.countP_map]
    exact List.countP_congr fun o _ => by rw [Function.comp, (b.into_keeps o).2.2]
  · next h =>
    rw [Place.take_of_none (by simpa using h)]
    simp [Place.used, Place.add, hh]

theorem Place.clean_take {p : Place} {b : BLine} (hp : ∀ o ∈ p.lines, o.sent = none) (hb : b.sent = none) : ∀ o ∈ (p.take b).lines, o.sent = none := by
  by_cases h : (p.find b.isLocal b.dev b.line).isSome = true
  · rw [Place.take_of_some h]
    intro o ho
    obtain ⟨x, hx, rfl⟩ := List.mem_map.mp ho
    rw [(b.into_keeps x).2.1]
    exact hp x hx
  · rw [Place.take_of_none (Option.not_isSome_iff_eq_none.mp h)]
    intro o ho
    rcases List.mem_append.mp ho with ho | ho
    · exact hp o ho
    · exact List.mem_singleton.mp ho ▸ hb

/-! #### The byte that a place holds -/

/-- The byte that a line holds at an address. -/
def BLine.byteAt (loc : Bool) (dev pa : Nat) (b : BLine) : Option Byte :=
  if b.holds loc dev (lineOf pa) then (b.bytes.find? fun x => x.1 == pa % 64).map (·.2) else none

theorem Place.byte_fst (p : Place) (loc : Bool) (dev pa : Nat) : (p.byte loc dev pa).map (·.1) = p.lines.reverse.findSome? (BLine.byteAt loc dev pa) := by
  unfold Place.byte
  rw [List.map_findSome?]
  refine congrArg (List.findSome? · _) (funext fun b => ?_)
  unfold BLine.byteAt
  simp only [Function.comp]
  split
  · rw [Option.map_map]; rfl
  · rfl

theorem find?_merged (old new : List (Nat × Byte)) (k : Nat) : ((old.filter fun o => !(new.any (·.1 == o.1))) ++ new).find? (·.1 == k) =
    (new.find? (·.1 == k)).orElse fun _ => old.find? (·.1 == k) := by
  rw [List.find?_append, List.find?_filter]
  simp only [Bool.decide_and, Bool.decide_eq_true]
  cases hn : new.find? (·.1 == k) with
  | some v =>
    have hv : v.1 = k := by simpa using List.find?_some hn
    have gone : (old.find? fun o => !(new.any (·.1 == o.1)) && o.1 == k) = none := by
      refine List.find?_eq_none.mpr fun x _ => ?_
      simp only [Bool.and_eq_true, Bool.not_eq_true', List.any_eq_false, beq_iff_eq, not_and]
      exact fun none e => none v (List.mem_of_find?_eq_some hn) (hv.trans e.symm)
    rw [gone]
    rfl
  | none =>
    have absent := List.find?_eq_none.mp hn
    have same : (old.find? fun o => !(new.any (·.1 == o.1)) && o.1 == k) = old.find? (·.1 == k) := by
      refine List.find?_congr fun x _ => ?_
      by_cases e : x.1 = k
      · have : new.any (·.1 == x.1) = false := List.any_eq_false.mpr fun y hy => e ▸ absent y hy
        rw [this]
        rfl
      · simp [e]
    rw [same]
    cases old.find? (·.1 == k) <;> rfl

/-- A line with the bytes of a newer one over it: the newer bytes stand. -/
theorem BLine.byteAt_into {b o : BLine} (ho : o.sent = none) (loc : Bool) (dev pa : Nat) :
    (b.into o).byteAt loc dev pa = if o.holds b.isLocal b.dev b.line then (b.byteAt loc dev pa).orElse fun _ => o.byteAt loc dev pa
      else o.byteAt loc dev pa := by
  unfold BLine.into
  by_cases h : o.holds b.isLocal b.dev b.line = true
  · obtain ⟨hl, hd, hn⟩ := BLine.holds_iff.mp h
    have same : o.holds loc dev (lineOf pa) = b.holds loc dev (lineOf pa) := by simp only [BLine.holds, hl, hd, hn]
    have merged : (o.merge b).holds loc dev (lineOf pa) = o.holds loc dev (lineOf pa) := rfl
    rw [if_pos h, if_pos (by rw [h, ho]; rfl)]
    unfold BLine.byteAt
    rw [merged, same]
    split
    · show (((o.bytes.filter fun x => !(b.bytes.any (·.1 == x.1))) ++ b.bytes).find? (·.1 == pa % 64)).map (·.2) = _
      rw [find?_merged]
      cases b.bytes.find? (·.1 == pa % 64) <;> rfl
    · rfl
  · rw [if_neg h, if_neg (fun c => h (Bool.and_eq_true_iff.mp c).1)]

/-- A search whose only answer is one value finds it, where it is given. -/
theorem findSome?_of_only {α β : Type} {f : α → Option β} {l : List α} {v : β} (some_ : ∃ x ∈ l, f x = some v)
    (only : ∀ x ∈ l, f x = none ∨ f x = some v) : l.findSome? f = some v := by
  cases h : l.findSome? f with
  | none =>
    obtain ⟨x, hx, e⟩ := some_
    exact absurd (List.findSome?_eq_none_iff.mp h x hx) (by rw [e]; simp)
  | some w =>
    obtain ⟨x, hx, e⟩ := List.exists_of_findSome?_eq_some h
    rcases only x hx with n | s
    · exact absurd (e.symm.trans n) (by simp)
    · exact e.symm.trans s

theorem findSome?_congr_mem {α β : Type} {f g : α → Option β} {l : List α} (h : ∀ x ∈ l, f x = g x) : l.findSome? f = l.findSome? g := by
  induction l with
  | nil => rfl
  | cons x l ih => rw [List.findSome?_cons, List.findSome?_cons, h x List.mem_cons_self, ih fun y hy => h y (List.mem_cons_of_mem _ hy)]

/-- A place that has taken a line holds its bytes, and over them nothing; elsewhere what it held. -/
theorem Place.byte_take {p : Place} {b : BLine} (hp : ∀ o ∈ p.lines, o.sent = none) (loc : Bool) (dev pa : Nat) :
    ((p.take b).byte loc dev pa).map (·.1) = (b.byteAt loc dev pa).orElse fun _ => (p.byte loc dev pa).map (·.1) := by
  rw [Place.byte_fst, Place.byte_fst]
  by_cases h : (p.find b.isLocal b.dev b.line).isSome = true
  · rw [Place.take_of_some h]
    show (p.lines.map b.into).reverse.findSome? _ = _
    rw [← List.map_reverse, List.findSome?_map]
    cases hb : b.byteAt loc dev pa with
    | none =>
      refine findSome?_congr_mem fun o ho => ?_
      rw [Function.comp, BLine.byteAt_into (hp o (List.mem_reverse.mp ho)), hb]
      split <;> rfl
    | some v =>
      have holds : b.holds loc dev (lineOf pa) = true := by
        by_contra c
        rw [BLine.byteAt, if_neg c] at hb
        cases hb
      obtain ⟨rfl, rfl, hn⟩ := BLine.holds_iff.mp holds
      obtain ⟨o, ho, key, -⟩ := Place.find_isSome.mp h
      have merged (x : BLine) (hx : x ∈ p.lines.reverse) : (BLine.byteAt b.isLocal b.dev pa ∘ b.into) x =
          if x.holds b.isLocal b.dev b.line then some v else none := by
        rw [Function.comp, BLine.byteAt_into (hp x (List.mem_reverse.mp hx)), hb]
        split
        · rfl
        · next c => exact if_neg (hn ▸ c)
      refine findSome?_of_only ⟨o, List.mem_reverse.mpr ho, ?_⟩ fun x hx => ?_
      · rw [merged o (List.mem_reverse.mpr ho), if_pos key]
      · rw [merged x hx]
        split
        · exact .inr rfl
        · exact .inl rfl
  · rw [Place.take_of_none (Option.not_isSome_iff_eq_none.mp h)]
    show (p.lines ++ [b]).reverse.findSome? _ = _
    rw [List.reverse_append, List.reverse_singleton, List.singleton_append, List.findSome?_cons]
    cases b.byteAt loc dev pa <;> rfl

end Sys2Proof.Machine
end

section
/-! SUPPORT for writes into the places: room for the lines of an access, and the W, block and gang buffers. -/

namespace Sys2Proof.Machine

/-- The key of the line of an access. -/
def Loc.key (l : Loc) : Bool × Nat × Nat := (l.isLocal, l.dev, lineOf l.pa)

/-! #### Room for the lines of an access -/

/-- The lines of some keys that a place does not hold. -/
def Place.missing (p : Place) (ks : List (Bool × Nat × Nat)) : Finset (Bool × Nat × Nat) :=
  ks.toFinset.filter fun k => (p.find k.1 k.2.1 k.2.2).isSome = false

/-- A place of a capacity has room for the lines of some keys. -/
def Place.Room (p : Place) (cap : Nat) (ks : List (Bool × Nat × Nat)) : Prop := p.used + (p.missing ks).card ≤ cap

theorem Place.room_of_lines {p : Place} {cap : Nat} {ks : List (Bool × Nat × Nat)} (h : p.used + ks.dedup.length ≤ cap) : p.Room cap ks := by
  rw [← List.card_toFinset] at h
  exact (Nat.add_le_add_left (Finset.card_filter_le _ _) _).trans h

/-- The first of the keys finds room, and the place that has taken its line has room for the others. -/
theorem Place.Room.take {p : Place} {b : BLine} {cap : Nat} {ks : List (Bool × Nat × Nat)} (h : p.Room cap ((b.isLocal, b.dev, b.line) :: ks))
    (hs : b.sent = none) (hh : b.held = .place) :
    ((p.find b.isLocal b.dev b.line).isSome = true ∨ p.used < cap) ∧ (p.take b).Room cap ks := by
  have fewer : (p.take b).missing ks ⊆ p.missing ((b.isLocal, b.dev, b.line) :: ks) := by
    intro k hk
    obtain ⟨hm, hf⟩ := Finset.mem_filter.mp hk
    refine Finset.mem_filter.mpr ⟨List.mem_toFinset.mpr (List.mem_cons_of_mem _ (List.mem_toFinset.mp hm)), ?_⟩
    exact Bool.eq_false_iff.mpr fun c => Bool.eq_false_iff.mp hf (Place.find_take hs |>.mpr (.inl c))
  unfold Place.Room at h ⊢
  rw [Place.used_take hh]
  by_cases hf : (p.find b.isLocal b.dev b.line).isSome = true
  · rw [if_pos hf]
    exact ⟨.inl hf, (Nat.add_le_add_left (Finset.card_le_card fewer) _).trans h⟩
  · rw [if_neg hf]
    have first : (b.isLocal, b.dev, b.line) ∈ p.missing ((b.isLocal, b.dev, b.line) :: ks) :=
      Finset.mem_filter.mpr ⟨List.mem_toFinset.mpr List.mem_cons_self, Bool.eq_false_iff.mpr hf⟩
    have taken : (b.isLocal, b.dev, b.line) ∉ (p.take b).missing ks := fun c =>
      Bool.eq_false_iff.mp (Finset.mem_filter.mp c).2 ((Place.find_take hs).mpr (.inr (BLine.holds_iff.mpr ⟨rfl, rfl, rfl⟩)))
    have less := Finset.card_lt_card ((Finset.ssubset_iff_of_subset fewer).mpr ⟨_, first, taken⟩)
    omega

/-! #### Lines of an access -/

theorem find?_zipIdx (bs : List Byte) (c k o : Nat) :
    (((bs.zipIdx k).map fun b => (c + b.2, b.1)).find? fun x => x.1 == o).map (·.2) = if c + k ≤ o then bs[o - (c + k)]? else none := by
  induction bs generalizing k with
  | nil => simp
  | cons b bs ih =>
    rw [List.zipIdx_cons, List.map_cons, List.find?_cons]
    by_cases h : c + k = o
    · simp [h]
    · have e : (c + k == o) = false := by simpa using h
      simp only [e, ih]
      by_cases hk : c + k ≤ o
      · have next : o - (c + k) = o - (c + (k + 1)) + 1 := by omega
        rw [if_pos (by omega), if_pos hk, next, List.getElem?_cons_succ]
      · rw [if_neg (by omega), if_neg hk]

/-- The bytes of an access within one line stand at its addresses. -/
theorem Loc.byteAt_toLine {l : Loc} {bs : List Byte} (h : l.pa % 64 + bs.length ≤ 64) (loc : Bool) (dev pa : Nat) :
    (l.toLine bs).byteAt loc dev pa =
      if l.isLocal = loc ∧ l.dev = dev ∧ l.pa ≤ pa ∧ pa < l.pa + bs.length then bs[pa - l.pa]? else none := by
  unfold BLine.byteAt
  have bytes : ((l.toLine bs).bytes.find? fun x => x.1 == pa % 64).map (·.2) = if l.pa % 64 ≤ pa % 64 then bs[pa % 64 - l.pa % 64]? else none :=
    find?_zipIdx bs (l.pa % 64) 0 (pa % 64)
  rw [bytes]
  by_cases hk : (l.toLine bs).holds loc dev (lineOf pa) = true
  · obtain ⟨hl, hd, hn⟩ := BLine.holds_iff.mp hk
    have line : l.pa / 64 = pa / 64 := hn
    rw [if_pos hk]
    by_cases hr : l.pa ≤ pa ∧ pa < l.pa + bs.length
    · rw [if_pos (by omega), if_pos ⟨hl, hd, hr⟩, show pa % 64 - l.pa % 64 = pa - l.pa by omega]
    · have none : ¬ (l.isLocal = loc ∧ l.dev = dev ∧ l.pa ≤ pa ∧ pa < l.pa + bs.length) := fun c => hr c.2.2
      rw [if_neg none]
      split
      · exact List.getElem?_eq_none (by omega)
      · rfl
  · rw [if_neg hk, if_neg]
    rintro ⟨hl, hd, low, high⟩
    exact hk (BLine.holds_iff.mpr ⟨hl, hd, show l.pa / 64 = pa / 64 by omega⟩)

/-! #### Writes into the places (07/R197, R199, R200) -/

theorem putW_ok {s : State} {b : BLine} (h : (s.w.wbuf.find b.isLocal b.dev b.line).isSome = true ∨ s.w.wbuf.used < 64) :
    putW b s = .ok ((), s.setW (s.w.wbuf.take b)) := by
  unfold putW
  rw [get_bind]
  by_cases hf : (s.w.wbuf.find b.isLocal b.dev b.line).isSome = true
  · rw [Place.take_of_some hf]
    simp only [Place.mergeIn_of_some hf]
    rfl
  · have none := Option.not_isSome_iff_eq_none.mp hf
    rw [Place.take_of_none none]
    simp only [Place.mergeIn_of_none none]
    exact congrFun (if_pos (h.resolve_left hf)) s

theorem putB_ok {s : State} {b : BLine} (hh : b.held = .place) (h : (s.blk.place.find b.isLocal b.dev b.line).isSome = true ∨ s.blk.place.used < s.blk.bcap) :
    putB b s = .ok ((), (s.noteB false b.dev b.line).setB (s.blk.place.take b)) := by
  have same : { b with held := .place } = b := by rw [← hh]
  unfold putB
  rw [Act.bind_ok _ _ _ _ _ (Act.modify_run ..), get_bind, s.noteB_blk]
  by_cases hf : (s.blk.place.find b.isLocal b.dev b.line).isSome = true
  · rw [Place.take_of_some hf]
    simp only [Place.mergeIn_of_some hf]
    rfl
  · have none := Option.not_isSome_iff_eq_none.mp hf
    rw [Place.take_of_none none]
    simp only [Place.mergeIn_of_none none]
    rw [if_pos (h.resolve_left hf), same]
    rfl

/-- A line as the gang buffer takes it: it may be poisoned by a fenced vault (17/R430). -/
theorem State.inVault_eq (s : State) (h : Held) (b : BLine) : ∃ bad, s.inVault h b = { b with poison := bad } := by
  unfold State.inVault
  split
  · exact ⟨true, rfl⟩
  · exact ⟨b.poison, rfl⟩

theorem putG_ok {s : State} {b : BLine} (hh : b.held = .place) (h : (s.gang.place.find b.isLocal b.dev b.line).isSome = true ∨ s.gang.place.used < s.gang.gcap) :
    ∃ bad, putG b s = .ok ((), s.setG (s.gang.place.take { b with poison := bad })) := by
  have same : { b with held := .place } = b := by rw [← hh]
  unfold putG
  rw [get_bind]
  by_cases hf : (s.gang.place.find b.isLocal b.dev b.line).isSome = true
  · obtain ⟨bad, e⟩ := s.inVault_eq (((s.gang.place.find b.isLocal b.dev b.line).map (·.held)).getD .pool) b
    refine ⟨bad, ?_⟩
    have hf' : (s.gang.place.find ({ b with poison := bad } : BLine).isLocal ({ b with poison := bad } : BLine).dev ({ b with poison := bad } : BLine).line).isSome = true := hf
    rw [Place.take_of_some hf']
    simp only [e, Place.mergeIn_of_some hf']
    rfl
  · obtain ⟨bad', e'⟩ := s.inVault_eq (((s.gang.place.find b.isLocal b.dev b.line).map (·.held)).getD .pool) b
    obtain ⟨bad, e⟩ := s.inVault_eq .place b
    refine ⟨bad, ?_⟩
    have none (x : Bool) : s.gang.place.find ({ b with poison := x } : BLine).isLocal ({ b with poison := x } : BLine).dev ({ b with poison := x } : BLine).line = none :=
      Option.not_isSome_iff_eq_none.mp hf
    rw [Place.take_of_none (none bad)]
    simp only [e', Place.mergeIn_of_none (none bad')]
    rw [if_pos (h.resolve_left hf), same, e]
    rfl

/-- The state with another W buffer, block buffer or gang buffer, and other notes of what the wave has written below D. -/
def State.inW (s : State) (p : Place) (wrote : List (Nat × Nat)) : State := { s with w := { s.w with wbuf := p, wrote := wrote } }
@[inherit_doc State.inW] def State.inB (s : State) (p : Place) (wrote : List (Nat × Nat)) (ws : List Wave) : State :=
  { s with blk := { s.blk with place := p }, w := { s.w with wrote := wrote }, waves := ws }
@[inherit_doc State.inW] def State.inG (s : State) (p : Place) (wrote : List (Nat × Nat)) : State :=
  { s with gang := { s.gang with place := p }, w := { s.w with wrote := wrote } }

section
variable {s : State} {l : Loc} (bs : List Byte)

theorem writeAt_W (h : (s.w.wbuf.find l.isLocal l.dev (lineOf l.pa)).isSome = true ∨ s.w.wbuf.used < 64) :
    ∃ wrote, writeAt 0 l bs s = .ok ((), s.inW (s.w.wbuf.take (l.toLine bs)) wrote) := by
  have put : putW (l.toLine bs) s = _ := putW_ok h
  unfold writeAt
  cases hl : l.isLocal with
  | true => exact ⟨s.w.wrote, put⟩
  | false => exact ⟨_, (Act.bind_ok _ _ _ _ _ put).trans rfl⟩

theorem writeAt_B (hl : l.isLocal = false) (h : (s.blk.place.find l.isLocal l.dev (lineOf l.pa)).isSome = true ∨ s.blk.place.used < s.blk.bcap) :
    ∃ wrote ws, writeAt 1 l bs s = .ok ((), s.inB (s.blk.place.take (l.toLine bs)) wrote ws) := by
  have put : putB (l.toLine bs) s = _ := putB_ok rfl h
  obtain ⟨ws, e⟩ := s.noteB_eq false l.dev (lineOf l.pa)
  rw [show s.noteB false (l.toLine bs).dev (l.toLine bs).line = _ from e] at put
  unfold writeAt
  rw [hl]
  exact ⟨_, ws, (Act.bind_ok _ _ _ _ _ put).trans rfl⟩

theorem writeAt_G (hl : l.isLocal = false) (h : (s.gang.place.find l.isLocal l.dev (lineOf l.pa)).isSome = true ∨ s.gang.place.used < s.gang.gcap) :
    ∃ bad wrote, writeAt 2 l bs s = .ok ((), s.inG (s.gang.place.take { l.toLine bs with poison := bad }) wrote) := by
  obtain ⟨bad, put⟩ := putG_ok (s := s) (b := l.toLine bs) rfl h
  unfold writeAt
  rw [hl]
  exact ⟨bad, _, (Act.bind_ok _ _ _ _ _ put).trans rfl⟩

end

end Sys2Proof.Machine
end

section
/-! PROOF of O32: stores into the places lane after lane, and at D. -/

namespace Sys2Proof.Machine

/-! ### Stores into a place, lane after lane (08/R232, R237) -/

/-- A store into a place of a capacity of which the lanes `rest` are still to perform: the place `y` holds the bytes of the others over those
of `x`, and has room for their lines. -/
structure PlaceLeft (m : Mem) (o : MemOps) (u : State) (p : List (Lane × Loc)) (x : Place) (cap : Nat) (rest : List (Lane × Loc)) (y : Place) : Prop where
  lines : ∀ r ∈ rest, r.2.pa % 64 + m.bytes ≤ 64
  clean : ∀ b ∈ y.lines, b.sent = none
  room : y.Room cap (rest.map (·.2.key))
  holds : ∀ z, Claims.Holds y z (Claims.storedByte m o u rest) → Claims.Holds x z (Claims.storedByte m o u p)

/-- The line of a store's lane, poisoned or not. -/
def storedLine (m : Mem) (o : MemOps) (u : State) (r : Lane × Loc) (bad : Bool) : BLine :=
  { r.2.toLine (leBytes m.bytes (o.x u r.1.lane)) with poison := bad }

section
variable {m : Mem} {o : MemOps} {u : State} {p : List (Lane × Loc)}

theorem PlaceLeft.take {x y : Place} {cap : Nat} {r : Lane × Loc} {rest : List (Lane × Loc)} (h : PlaceLeft m o u p x cap (r :: rest) y) (bad : Bool) :
    ((y.find r.2.isLocal r.2.dev (lineOf r.2.pa)).isSome = true ∨ y.used < cap) ∧ PlaceLeft m o u p x cap rest (y.take (storedLine m o u r bad)) := by
  obtain ⟨lines, clean, room, holds⟩ := h
  obtain ⟨free, left⟩ := Place.Room.take (b := storedLine m o u r bad) room rfl rfl
  refine ⟨free, fun s hs => lines s (List.mem_cons_of_mem _ hs), Place.clean_take clean rfl, left, fun z hz => holds z fun loc dev pa => ?_⟩
  have one : (storedLine m o u r bad).byteAt loc dev pa = laneByte m o u loc dev pa r := by
    refine (Loc.byteAt_toLine ?_ loc dev pa).trans ?_
    · rw [leBytes_length]
      exact lines r List.mem_cons_self
    · rw [leBytes_length]
      rfl
  rw [hz loc dev pa, Place.byte_take clean, one, storedByte_cons]
  cases Claims.storedByte m o u rest loc dev pa <;> rfl

/-- The lanes of a store that each put a line into one place leave their bytes in it. -/
theorem Mem.perform_place {x : Place} {cap : Nat} (S : Place → State → Prop)
    (step : ∀ r ∈ p, ∀ y t, S y t → ((y.find r.2.isLocal r.2.dev (lineOf r.2.pa)).isSome = true ∨ y.used < cap) →
      ∃ bad v t', m.lane o r.1 r.2 t = .ok (some v, t') ∧ S (y.take (storedLine m o u r bad)) t')
    (hl : ∀ r ∈ p, r.2.pa % 64 + m.bytes ≤ 64) (hc : ∀ b ∈ x.lines, b.sent = none) (hr : x.used + Claims.linesOf p ≤ cap) (hu : S x u) :
    ∃ vals y t, m.perform o p [] u = .ok ((vals, []), t) ∧ S y t ∧ Claims.Holds x y (Claims.storedByte m o u p) := by
  have lane (r : Lane × Loc) (rest : List (Lane × Loc)) (t : State) (h : (r :: rest ⊆ p) ∧ ∃ y, S y t ∧ PlaceLeft m o u p x cap (r :: rest) y) :
      ∃ v t', m.lane o r.1 r.2 t = .ok (some v, t') ∧ (rest ⊆ p) ∧ ∃ y, S y t' ∧ PlaceLeft m o u p x cap rest y := by
    obtain ⟨sub, y, hy, left⟩ := h
    obtain ⟨bad, v, t', act, ht⟩ := step r (sub List.mem_cons_self) y t hy (left.take false).1
    exact ⟨v, t', act, fun s hs => sub (List.mem_cons_of_mem _ hs), _, ht, (left.take bad).2⟩
  obtain ⟨vals, t, perform, -, y, hy, left⟩ := Mem.perform_ok (fun rest t => (rest ⊆ p) ∧ ∃ y, S y t ∧ PlaceLeft m o u p x cap rest y) lane p
    ⟨fun _ h => h, x, hu, hl, hc, Place.room_of_lines hr, fun _ h => h⟩
  exact ⟨vals, y, t, perform, hy, left.holds y fun _ _ _ => rfl⟩

/-- A level at which a write stays in its place. -/
theorem Mem.goesFar_of_low {s : State} (h : rankOf (s.landsAt m.lvl) < 3) (l : Loc) : m.goesFar s l = false := by
  simp [Mem.goesFar, Nat.not_le.mpr h]

theorem Mem.goesFar_W (h : m.lvl = 0) (s : State) (l : Loc) : m.goesFar s l = false := by
  refine Mem.goesFar_of_low ?_ l
  rw [h]
  exact Nat.zero_lt_succ _

theorem Mem.goesFar_B (h : m.lvl = 1) {s : State} (hb : 0 < s.blk.bcap) (l : Loc) : m.goesFar s l = false := by
  refine Mem.goesFar_of_low ?_ l
  have stays : s.passesB = false := by simp [State.passesB, Nat.ne_of_gt hb]
  simp [State.landsAt, h, stays, rankOf]

theorem Mem.goesFar_G (h : m.lvl = 2) {s : State} (hg : 0 < s.gang.gcap) (l : Loc) : m.goesFar s l = false := by
  refine Mem.goesFar_of_low ?_ l
  have stays : s.passesG = false := by simp [State.passesG, Nat.ne_of_gt hg]
  simp [State.landsAt, h, stays, rankOf]

section
variable (hk : m.kind = .store) (ho : o.ReadsRegs) (hl : ∀ r ∈ p, r.2.pa % 64 + m.bytes ≤ 64)
include hk ho hl

theorem Mem.perform_storeW (h : m.lvl = 0) (hc : ∀ b ∈ u.w.wbuf.lines, b.sent = none) (hr : u.w.wbuf.used + Claims.linesOf p ≤ 64) :
    ∃ vals y wrote, m.perform o p [] (m.post o p [] u) = .ok ((vals, []), u.inW y wrote) ∧ Claims.Holds u.w.wbuf y (Claims.storedByte m o u p) := by
  rw [Mem.post_of_near o fun r _ => Mem.goesFar_W h u r.2]
  obtain ⟨vals, y, t, perform, ⟨wrote, rfl⟩, holds⟩ := Mem.perform_place (m := m) (o := o) (fun y t => ∃ wrote, t = u.inW y wrote) (fun r _ y t ht room => by
    obtain ⟨wrote, rfl⟩ := ht
    obtain ⟨more, put⟩ := writeAt_W (s := u.inW y wrote) (leBytes m.bytes (o.x u r.1.lane)) room
    rw [← (ho u (u.inW y wrote) rfl rfl rfl rfl).1, ← h] at put
    refine ⟨false, 0, _, Mem.lane_store hk (Mem.goesFar_W h _ _) put, more, ?_⟩
    rw [(ho u (u.inW y wrote) rfl rfl rfl rfl).1]
    rfl) hl hc hr ⟨u.w.wrote, rfl⟩
  exact ⟨vals, y, wrote, perform, holds⟩

theorem Mem.perform_storeB (h : m.lvl = 1) (hb : 0 < u.blk.bcap) (hg : ∀ r ∈ p, r.2.isLocal = false) (hc : ∀ b ∈ u.blk.place.lines, b.sent = none)
    (hr : u.blk.place.used + Claims.linesOf p ≤ u.blk.bcap) :
    ∃ vals y wrote ws, m.perform o p [] (m.post o p [] u) = .ok ((vals, []), u.inB y wrote ws) ∧ Claims.Holds u.blk.place y (Claims.storedByte m o u p) := by
  rw [Mem.post_of_near o fun r _ => Mem.goesFar_B h hb r.2]
  obtain ⟨vals, y, t, perform, ⟨wrote, ws, rfl⟩, holds⟩ := Mem.perform_place (m := m) (o := o) (fun y t => ∃ wrote ws, t = u.inB y wrote ws) (fun r hr y t ht room => by
    obtain ⟨wrote, ws, rfl⟩ := ht
    obtain ⟨more, notes, put⟩ := writeAt_B (s := u.inB y wrote ws) (leBytes m.bytes (o.x u r.1.lane)) (hg r hr) room
    rw [← (ho u (u.inB y wrote ws) rfl rfl rfl rfl).1, ← h] at put
    refine ⟨false, 0, _, Mem.lane_store hk (Mem.goesFar_B h (s := u.inB y wrote ws) hb _) put, more, notes, ?_⟩
    rw [(ho u (u.inB y wrote ws) rfl rfl rfl rfl).1]
    rfl) hl hc hr ⟨u.w.wrote, u.waves, rfl⟩
  exact ⟨vals, y, wrote, ws, perform, holds⟩

theorem Mem.perform_storeG (h : m.lvl = 2) (hb : 0 < u.gang.gcap) (hg : ∀ r ∈ p, r.2.isLocal = false) (hc : ∀ b ∈ u.gang.place.lines, b.sent = none)
    (hr : u.gang.place.used + Claims.linesOf p ≤ u.gang.gcap) :
    ∃ vals y wrote, m.perform o p [] (m.post o p [] u) = .ok ((vals, []), u.inG y wrote) ∧ Claims.Holds u.gang.place y (Claims.storedByte m o u p) := by
  rw [Mem.post_of_near o fun r _ => Mem.goesFar_G h hb r.2]
  obtain ⟨vals, y, t, perform, ⟨wrote, rfl⟩, holds⟩ := Mem.perform_place (m := m) (o := o) (fun y t => ∃ wrote, t = u.inG y wrote) (fun r hr y t ht room => by
    obtain ⟨wrote, rfl⟩ := ht
    obtain ⟨bad, more, put⟩ := writeAt_G (s := u.inG y wrote) (leBytes m.bytes (o.x u r.1.lane)) (hg r hr) room
    rw [← (ho u (u.inG y wrote) rfl rfl rfl rfl).1, ← h] at put
    refine ⟨bad, 0, _, Mem.lane_store hk (Mem.goesFar_G h (s := u.inG y wrote) hb _) put, more, ?_⟩
    rw [(ho u (u.inG y wrote) rfl rfl rfl rfl).1]
    rfl) hl hc hr ⟨u.w.wrote, rfl⟩
  exact ⟨vals, y, wrote, perform, holds⟩

end
end

end Sys2Proof.Machine

namespace Sys2Proof.Claims
open Sys2Proof.Machine

theorem storesInPlaces : StoresInPlaces := by
  intro i off len s b u p hw out
  have leaves {a : Mem} {o : MemOps} (hk : a.kind = .store) (ho : o.ReadsRegs)
      (next : ∀ vals w, a.perform o p [] (a.post o p [] u) = .ok ((vals, []), w) → Ready a o [] s b p → Prepared a o [] b p u →
        exec i s = .next ((acquired a w).retire len)) : out a o := by
    intro hr hu hl hf
    refine ⟨fun hlvl hc => ?_, fun hloc hlvl hb hc => ?_, fun hloc hlvl hg hc => ?_⟩
    · obtain ⟨vals, y, wrote, perform, holds⟩ := Mem.perform_storeW hk ho hl hlvl hc (hf.1 hlvl)
      obtain ⟨cores, old, e⟩ := acquired_eq a (u.inW y wrote)
      have ends := next vals _ perform hr hu
      rw [e] at ends
      exact ⟨_, ends, holds, rfl, rfl, fun _ => rfl, rfl, rfl, rfl, rfl, rfl, rfl, rfl, rfl⟩
    · have global : ∀ r ∈ p, r.2.isLocal = false := fun r h => (Mem.isLocal_of_checks hr.2.checks r h).trans hloc
      obtain ⟨vals, y, wrote, ws, perform, holds⟩ := Mem.perform_storeB hk ho hl hlvl hb global hc (hf.2.1 hloc hlvl)
      obtain ⟨cores, old, e⟩ := acquired_eq a (u.inB y wrote ws)
      have ends := next vals _ perform hr hu
      rw [e] at ends
      exact ⟨_, ends, holds, rfl, rfl, rfl, fun _ => rfl, rfl, rfl, rfl, rfl, rfl, rfl, rfl, rfl⟩
    · have global : ∀ r ∈ p, r.2.isLocal = false := fun r h => (Mem.isLocal_of_checks hr.2.checks r h).trans hloc
      obtain ⟨vals, y, wrote, perform, holds⟩ := Mem.perform_storeG hk ho hl hlvl hg global hc (hf.2.2 hloc hlvl)
      obtain ⟨cores, old, e⟩ := acquired_eq a (u.inG y wrote)
      have ends := next vals _ perform hr hu
      rw [e] at ends
      exact ⟨_, ends, holds, rfl, rfl, rfl, fun _ => rfl, rfl, rfl, rfl, rfl, rfl, rfl, rfl, rfl⟩
  exact ⟨fun m h => leaves rfl (storeOps_readsRegs m off) fun vals w hp hr hu => scalarStore_next h hw hr hu hp,
    fun m h hoff hvt => leaves rfl (vstoreOps_readsRegs m off) fun vals w hp hr hu => vectorStore_next h hw hoff hvt hr hu hp⟩

theorem storesAtW : StoresAtW := by
  intro i m off len s b u ln l h hw hlvl a o hr hu hl hc room
  have lvl : a.lvl = 0 := congrArg BitVec.toNat hlvl
  obtain ⟨wrote, put⟩ := writeAt_W (leBytes a.bytes (o.x u ln.lane)) room
  rw [← lvl] at put
  have lane := Mem.lane_store (m := a) (o := o) (ln := ln) rfl (Mem.goesFar_W lvl u l) put
  have perform := Mem.perform_cons (x := (ln, l)) lane (Mem.perform_nil ..)
  have near : a.post o [(ln, l)] [] u = u := Mem.post_of_near o fun r _ => Mem.goesFar_W lvl u r.2
  obtain ⟨cores, old, e⟩ := acquired_eq a (u.inW (u.w.wbuf.take (l.toLine (leBytes a.bytes (o.x u ln.lane)))) wrote)
  have ends := scalarStore_next h hw hr hu ((congrArg _ near).trans perform)
  rw [e] at ends
  have byte (loc : Bool) (dev pa : Nat) := (Place.byte_take (b := l.toLine (leBytes a.bytes (o.x u ln.lane))) hc loc dev pa).trans
    (congrArg (Option.orElse · _) (Loc.byteAt_toLine (by rwa [leBytes_length]) loc dev pa))
  rw [leBytes_length] at byte
  refine ⟨_, ends, fun k hk => ?_, fun loc dev pa none => ?_, fun _ => rfl, rfl, rfl, rfl, rfl, rfl, rfl⟩
  · refine (byte ..).trans ?_
    rw [if_pos ⟨rfl, rfl, Nat.le_add_right .., by omega⟩, Nat.add_sub_cancel_left]
    have some_ : k < (leBytes a.bytes (o.x u ln.lane)).length := by rwa [leBytes_length]
    rw [List.getElem?_eq_getElem some_]
    exact (List.getElem?_eq_getElem some_).symm
  · refine (byte ..).trans ?_
    rw [if_neg fun c => none ⟨c.1.symm, c.2.1.symm, c.2.2⟩]
    rfl

/-- Settles O32: each lane puts one line into the place of its level, or writes its bytes at the home; of the lanes that cover a byte the last
stands. -/
theorem storesByLevel : Obligations.StoresByLevel := ⟨storesAtW, storesAtD, storesInPlaces, storesAtHome⟩

end Sys2Proof.Claims
end

section
/-! SUPPORT for accesses that complete: what the spills, the commit of a release order and the stamp leave, from the checks to the first lane. -/

namespace Sys2Proof.Machine

/-! ### What no access changes until it retires -/

/-- A core that keeps its clock leaves the bounds as the wave sees them (02/R89). -/
theorem State.bounds_congr {s t : State} (hw : t.w = s.w) (hc : t.ctxs = s.ctxs) (ht : t.turn = s.turn)
    (hk : ∀ c, (t.core c).cycle = (s.core c).cycle) : t.bounds = s.bounds := by
  have word (i : Nat) (x : Word) : t.seenWord i x = s.seenWord i x := by
    unfold State.seenWord
    simp only [hw, ht, hk]
  unfold State.bounds State.cx State.ctxOf
  simp only [hw, hc, word]

/-- What of the state an instruction that completes goes by: where it goes on, its registers, the bounds, its device, and the capacities of
its buffers. -/
structure Still where
  pc : DWord
  seqno : DWord
  errinj : Word
  vregs : Vector VReg 256
  rot : Nat
  valloc : Nat
  bounds : Ctx
  devnum : Nat
  bcap : Nat
  gcap : Nat

@[inherit_doc Still] def State.still (s : State) : Still :=
  ⟨s.w.pc, s.w.seqno, s.w.errinj, s.w.vregs, s.w.rot, s.w.valloc, s.bounds, s.dev.devnum, s.blk.bcap, s.gang.gcap⟩

theorem State.still_apart (s : State) : s.apart.still = s.still := by
  have bounds : s.apart.bounds = s.bounds :=
    State.bounds_congr rfl rfl rfl fun c => by simp [State.core, State.apart, State.frame, Core.bare, pick]
  unfold State.still
  rw [bounds]
  rfl

theorem State.still_of_apart {s t : State} (h : t.apart = s.apart) : t.still = s.still := by
  rw [← t.still_apart, h, s.still_apart]

theorem State.still_of_frame {s t : State} {floors : List (Nat × Nat × Nat)} (h : t.frame = (s.seen floors).frame) : t.still = s.still :=
  (State.still_of_apart (State.apart_of_frame h)).trans rfl

theorem State.still_setCo {s : State} {x : Core} (h : x.cycle = s.co.cycle) : (s.setCo x).still = s.still := by
  have bounds : (s.setCo x).bounds = s.bounds := by
    refine State.bounds_congr rfl rfl rfl fun c => ?_
    show (pick (put s.cores s.w.core x) c).cycle = _
    rw [pick_put]
    split
    · next e => rw [h, ← e]; rfl
    · rfl
  unfold State.still
  rw [bounds]
  rfl

theorem State.still_stampOnce (s : State) : s.stampOnce.still = s.still := by
  unfold State.stampOnce
  split
  · rfl
  · exact State.still_setCo (s := { s with dev := { s.dev with scLast := max (s.dev.scLast + 1) s.co.scClock } }) rfl

/-! ### From the checks to the first lane (07/R218, 08/R232) -/

/-- What the spills, the commit of a release order and the stamp leave of a state whose places hold no line, where nothing stands between
it and memory. -/
def State.Quiet (s t : State) : Prop := Claims.NoLines t ∧ Claims.Clear t ∧ t.still = s.still

theorem State.Quiet.trans {s t u : State} (h : s.Quiet t) (k : t.Quiet u) : s.Quiet u := ⟨k.1, k.2.1, k.2.2.trans h.2.2⟩

/-- A translation register translated again is all that changes. -/
theorem fresh_eq (m : Mem) (s : State) : ∃ xts, Claims.fresh m s = { s with w := { s.w with xts := xts } } := by
  unfold Claims.fresh State.freshXt
  split
  · split
    · exact ⟨s.w.xts, rfl⟩
    · exact ⟨_, rfl⟩
  · exact ⟨s.w.xts, rfl⟩

section
variable {s : State} (hn : Claims.NoLines s) (hc : Claims.Clear s)
include hn hc

theorem State.quiet_fresh (m : Mem) : s.Quiet (Claims.fresh m s) := by
  obtain ⟨xts, h⟩ := fresh_eq m s
  rw [h]
  exact ⟨hn, hc, rfl⟩

theorem State.quiet_emptiedTo (rank : Nat) : s.Quiet (Claims.emptiedTo rank s) := by
  have w : s.Quiet (if 1 ≤ rank then s.setW Place.empty else s) := by
    split
    · exact ⟨⟨rfl, hn.2⟩, hc, rfl⟩
    · exact ⟨hn, hc, rfl⟩
  have b {t : State} (h : s.Quiet t) : s.Quiet (if 2 ≤ rank then t.setB Place.empty else t) := by
    split
    · exact ⟨⟨h.1.1, rfl, h.1.2.2⟩, h.2.1, h.2.2⟩
    · exact h
  have g {t : State} (h : s.Quiet t) : s.Quiet (if 3 ≤ rank then t.setG Place.empty else t) := by
    split
    · exact ⟨⟨h.1.1, h.1.2.1, rfl⟩, h.2.1, h.2.2⟩
    · exact h
  exact g (b w)

theorem State.quiet_afterRelease (m : Mem) : s.Quiet (Claims.afterRelease m s) := by
  unfold Claims.afterRelease
  split
  · exact State.quiet_emptiedTo hn hc _
  · exact ⟨hn, hc, rfl⟩

theorem State.quiet_stampOnce : s.Quiet s.stampOnce := by
  refine ⟨?_, ?_, s.still_stampOnce⟩
  · unfold State.stampOnce
    split <;> exact hn
  · unfold State.stampOnce
    split <;> exact hc

end

/-- With no partial anywhere no access has a line to recall. -/
theorem Mem.recalls_ok {s : State} (h : s.parts = []) (m : Mem) (o : MemOps) (p : List (Lane × Loc)) : m.recalls o p s = .ok ((), s) := by
  refine Act.forM_same fun x _ => ?_
  rw [get_bind]
  split
  · simp [recallAct, h]
  · rfl

theorem State.still_vreg {s t : State} (h : t.still = s.still) (n : Nat) : t.vreg n = s.vreg n :=
  State.vreg_congr (congrArg Still.vregs h) (congrArg Still.rot h) (congrArg Still.valloc h) n

/-- An access whose checks pass, in a state whose places hold no line, comes to its first lane in such a state. -/
theorem Mem.ready_ok {m : Mem} {o : MemOps} {dest : List Nat} {s : State} {p : List (Lane × Loc)} (hn : Claims.NoLines s) (hc : Claims.Clear s)
    (hr : rankOf m.lvl ≤ 4) (hd : ∀ k ∈ dest, (s.vreg k).pend = false) (hp : Claims.Passes m o s p) :
    ∃ b u, Claims.Ready m o dest s b p ∧ Claims.Prepared m o dest b p u ∧ s.Quiet u := by
  obtain ⟨checked, first⟩ := hp
  have spills {t : State} (h : s.Quiet t) : dest.forM spill t = .ok ((), t) :=
    Act.forM_same fun k hk => spill_none (by rw [State.still_vreg h.2.2]; exact hd k hk)
  have fresh := State.quiet_fresh hn hc m
  have released := fresh.trans (State.quiet_afterRelease fresh.1 fresh.2.1 m)
  have stamped : s.Quiet (if m.isSc then (Claims.afterRelease m (Claims.fresh m s)).stampOnce else Claims.afterRelease m (Claims.fresh m s)) := by
    split
    · exact released.trans (State.quiet_stampOnce released.1 released.2.1)
    · exact released
  refine ⟨_, _, ⟨?_, checked⟩, ⟨_, ?_, Mem.recalls_ok stamped.2.1.1 m o p⟩, stamped⟩
  · obtain ⟨xts, same⟩ := fresh_eq m s
    unfold Claims.Released Claims.afterRelease
    split
    · next c =>
      obtain ⟨checks, clean⟩ := first c.1 (by rw [same] at c; exact c.2)
      refine ⟨_, Claims.fresh m s, _, checks, ?_, commitTo_of_noLines fresh.1 fun h4 => ?_, rfl⟩
      · split
        · rfl
        · exact spills fresh
      · rw [same]
        exact clean (Nat.le_antisymm hr h4)
    · rfl
  · split
    · rfl
    · exact spills released

end Sys2Proof.Machine
end

section
/-! SUPPORT for accesses that complete: the lanes that are still to perform find their homes here and room in the place that they write. -/

namespace Sys2Proof.Machine

/-! ### Lanes that find their homes here, and room in the place that they write (07/R197 to R201) -/

/-- Of the lanes still to perform each is local, as the access is, or homed here; the places below its level hold no line, and the place that
a store or an atomic writes has room for their lines. -/
def NearLeft (m : Mem) (rest : List (Lane × Loc)) (s : State) : Prop :=
  s.restores = [] ∧
  (∀ r ∈ rest, r.2.isLocal = m.loc ∧ (r.2.isLocal = true ∨ r.2.dev = s.dev.devnum) ∧ s.NothingBelow (rankOf m.lvl) r.2) ∧
  (m.kind ≠ .load → (m.lvl = 0 → s.w.wbuf.Room 64 (rest.map (·.2.key))) ∧
    (m.loc = false → m.lvl = 1 → s.blk.place.Room s.blk.bcap (rest.map (·.2.key))) ∧
    (m.loc = false → m.lvl = 2 → s.gang.place.Room s.gang.gcap (rest.map (·.2.key))))

/-- An access begun in `u` of which the lanes `rest` are still to perform. Its own update-only lanes leave partials. -/
def AccessLeft (m : Mem) (u : State) (rest : List (Lane × Loc)) (s : State) : Prop :=
  (s.snaps = [] ∧ (m.kind ≠ .update → s.parts = [])) ∧ NearLeft m rest s ∧ s.still = u.still

theorem Place.Room.tail {p : Place} {cap : Nat} {k : Bool × Nat × Nat} {ks : List (Bool × Nat × Nat)} (h : p.Room cap (k :: ks)) : p.Room cap ks := by
  refine (Nat.add_le_add_left (Finset.card_le_card ?_) _).trans h
  exact Finset.filter_subset_filter _ fun x hx => List.mem_toFinset.mpr (List.mem_cons_of_mem _ (List.mem_toFinset.mp hx))

theorem NearLeft.tail {m : Mem} {r : Lane × Loc} {rest : List (Lane × Loc)} {s : State} (h : NearLeft m (r :: rest) s) : NearLeft m rest s := by
  obtain ⟨restores, lanes, room⟩ := h
  refine ⟨restores, fun x hx => lanes x (List.mem_cons_of_mem _ hx), fun hk => ?_⟩
  obtain ⟨w, b, g⟩ := room hk
  exact ⟨fun h => (w h).tail, fun hl h => (b hl h).tail, fun hl h => (g hl h).tail⟩

/-- What the device's own writes leave alone of the state. -/
theorem State.apart_keeps {α : Type} (f : State → α) (hf : ∀ s : State, f s.apart = f s) {s t : State} (h : t.apart = s.apart) : f t = f s := by
  rw [← hf t, h, hf]

section
variable {m : Mem} {o : MemOps} {u s t : State} {r : Lane × Loc} {rest : List (Lane × Loc)}

theorem AccessLeft.tail (h : AccessLeft m u (r :: rest) s) : AccessLeft m u rest s := ⟨h.1, h.2.1.tail, h.2.2⟩

theorem AccessLeft.of_frame {floors : List (Nat × Nat × Nat)} (h : AccessLeft m u rest s) (hf : t.frame = (s.seen floors).frame) :
    AccessLeft m u rest t := by
  obtain ⟨free, near, still⟩ := h
  exact ⟨(State.frame_keeps (fun x => x.snaps = [] ∧ (m.kind ≠ .update → x.parts = [])) (fun _ => rfl) hf).mpr free,
    (State.frame_keeps (NearLeft m rest) (fun _ => rfl) hf).mpr near, (State.still_of_frame hf).trans still⟩

theorem AccessLeft.clear (h : AccessLeft m u rest s) (hk : m.kind ≠ .update) : Claims.Clear s := by
  obtain ⟨⟨snaps, parts⟩, ⟨restores, -⟩, -⟩ := h
  exact ⟨parts hk, snaps, restores⟩

/-- A lane that is still to perform. -/
theorem AccessLeft.lane (h : AccessLeft m u rest s) (hr : r ∈ rest) :
    r.2.isLocal = m.loc ∧ (r.2.isLocal = true ∨ r.2.dev = s.dev.devnum) ∧ s.NothingBelow (rankOf m.lvl) r.2 := by
  obtain ⟨-, ⟨-, lanes, -⟩, -⟩ := h
  exact lanes r hr

/-- It needs no peer. -/
theorem AccessLeft.near (h : AccessLeft m u rest s) (hr : r ∈ rest) : m.goesFar s r.2 = false ∧ m.asksPeer s r.2 = false := by
  obtain ⟨-, hl | hd, -⟩ := h.lane hr
  · exact ⟨Mem.goesFar_of_local hl, Mem.asksPeer_of_local hl⟩
  · exact ⟨Mem.goesFar_of_here hd, Mem.asksPeer_of_here hd⟩

/-! #### Writes -/

theorem lvl_cases (lvl : Nat) : lvl = 0 ∨ lvl = 1 ∨ lvl = 2 ∨ 3 ≤ rankOf lvl := by
  unfold rankOf
  split_ifs <;> omega

theorem one_le_rankOf {lvl : Nat} (h : lvl = 1 ∨ lvl = 2 ∨ 3 ≤ rankOf lvl) : 1 ≤ rankOf lvl := by
  rcases h with rfl | rfl | h
  · exact Nat.le_refl 1
  · exact Nat.le_succ 1
  · omega

theorem State.writeX_of_clear (hc : Claims.Clear s) (line : Nat) (coh : Bool) (bs : List (Nat × Byte)) : s.GoesHome (s.writeX line coh bs) := by
  cases coh with
  | true =>
    refine .bind (State.beforeWrite_of_clear hc ..) fun t _ => .pure ?_
    refine (State.frame_foldl (fun s line => s.frame_setReg ..) _ _).trans ?_
    rw [State.frame_registerAll, State.frame_putBytes]
  | false =>
    refine .bind (State.writeBack_of_clear hc ..) fun t ft => ?_
    obtain ⟨v, hv, fv⟩ := State.homeWrite_of_clear (State.clear_of_frame (t.frame_dropLine ..) (State.clear_of_frame ft hc)) none none line bs
    exact ⟨v, hv, fv.trans (t.frame_dropLine ..)⟩

/-- A write at D or above goes through where nothing stands between it and memory. -/
theorem writeAt_high {lvl : Nat} {l : Loc} (bs : List Byte) (hc : Claims.Clear s) (hl : l.isLocal = false) (hr : 3 ≤ rankOf lvl) :
    ∃ t floors, writeAt lvl l bs s = .ok ((), t) ∧ t.frame = (s.seen floors).frame := by
  have ends {f : State → Except CtxId State} (hf : s.GoesHome (f s)) : ∃ t floors,
      (atHome (l.toLine bs).line (l.toLine bs).at_ f (l.toLine bs).va 1 >>= fun _ =>
        modify fun s => s.sawNow l.dev ((l.toLine bs).at_.map (·.1)) : Act Unit) s = .ok ((), t) ∧ t.frame = (s.seen floors).frame := by
    obtain ⟨t, home, ft⟩ := atHome_of_clear hc hf (l.toLine bs).line (l.toLine bs).at_ (l.toLine bs).va 1
    obtain ⟨floors, saw⟩ := t.sawNow_eq l.dev ((l.toLine bs).at_.map (·.1))
    refine ⟨t.seen floors, floors, (Act.bind_ok _ _ _ _ _ home).trans ?_, State.frame_seen ft floors⟩
    rw [Act.modify_run, saw]
  have streams : s.GoesHome (if lvl = 5 then s.writeX (lineOf l.pa) l.coh (l.toLine bs).at_ else s.writeD (lineOf l.pa) l.coh (l.toLine bs).at_ l.lineVa) := by
    split
    · exact State.writeX_of_clear hc ..
    · exact State.writeD_of_clear hc ..
  obtain ⟨k, hk⟩ := Nat.exists_eq_add_of_le' hr
  unfold writeAt
  rw [hl, hk]
  cases k with
  | zero => exact ends streams
  | succ k => exact ends (State.writeX_of_clear hc ..)

/-- The lane writes its bytes at its level, and the others still can. -/
theorem AccessLeft.writeAt (h : AccessLeft m u (r :: rest) s) (hk : m.kind ≠ .load) (hu : m.kind ≠ .update) (bs : List Byte) :
    ∃ t, writeAt m.lvl r.2 bs s = .ok ((), t) ∧ AccessLeft m u rest t := by
  have clear := h.clear hu
  obtain ⟨free, near, still⟩ := h
  have kept := near.tail
  obtain ⟨restores, lanes, room⟩ := near
  obtain ⟨w, b, g⟩ := room hk
  obtain ⟨loc, home, -⟩ := lanes r List.mem_cons_self
  have others := fun x hx => lanes x (List.mem_cons_of_mem r hx)
  rcases lvl_cases m.lvl with h0 | hl
  · obtain ⟨fits, left⟩ := Place.Room.take (b := r.2.toLine bs) (w h0) rfl rfl
    obtain ⟨wrote, put⟩ := writeAt_W bs fits
    rw [← h0] at put
    refine ⟨_, put, free, ⟨restores, fun x hx => ?_, fun _ => ⟨fun _ => left, fun _ h1 => ?_, fun _ h2 => ?_⟩⟩, still⟩
    · exact ⟨(others x hx).1, (others x hx).2.1, by rw [h0]; exact fun p hp => nomatch hp⟩
    · omega
    · omega
  · cases hloc : m.loc with
    | true =>
      obtain ⟨ws, put⟩ := s.putScratch_eq (placed r.2.pa bs)
      refine ⟨_, writeAt_local bs (loc.trans hloc) (one_le_rankOf hl) s, ?_⟩
      rw [put]
      exact ⟨free, kept, still⟩
    | false =>
      have global := loc.trans hloc
      rcases hl with h1 | h2 | h3
      · obtain ⟨fits, left⟩ := Place.Room.take (b := r.2.toLine bs) (b hloc h1) rfl rfl
        obtain ⟨wrote, ws, put⟩ := writeAt_B bs global fits
        rw [← h1] at put
        refine ⟨_, put, free, ⟨restores, fun x hx => ?_, fun _ => ⟨fun h0 => ?_, fun _ _ => left, fun _ h2 => ?_⟩⟩, still⟩
        · refine ⟨(others x hx).1, (others x hx).2.1, ?_⟩
          have := (others x hx).2.2
          rw [h1] at this ⊢
          exact this
        · omega
        · omega
      · obtain ⟨bad, wrote, put⟩ := writeAt_G bs global (Place.Room.take (b := r.2.toLine bs) (g hloc h2) rfl rfl).1
        have left := (Place.Room.take (b := { r.2.toLine bs with poison := bad }) (g hloc h2) rfl rfl).2
        rw [← h2] at put
        refine ⟨_, put, free, ⟨restores, fun x hx => ?_, fun _ => ⟨fun h0 => ?_, fun _ h1 => ?_, fun _ _ => left⟩⟩, still⟩
        · refine ⟨(others x hx).1, (others x hx).2.1, ?_⟩
          have := (others x hx).2.2
          rw [h2] at this ⊢
          exact this
        · omega
        · omega
      · obtain ⟨t, floors, put, frame⟩ := writeAt_high bs clear global h3
        exact ⟨t, put, AccessLeft.of_frame ⟨free, kept, still⟩ frame⟩

end

end Sys2Proof.Machine
end

section
/-! SUPPORT for accesses that complete: a lane of each kind performs, and the others still can. -/

namespace Sys2Proof.Machine

section
variable {m : Mem} {o : MemOps} {u s : State} {r : Lane × Loc} {rest : List (Lane × Loc)}

/-! #### Lanes that load and store (08/R236, R237) -/

theorem AccessLeft.noteRead (h : AccessLeft m u rest s) (l : Loc) : AccessLeft m u rest (if rankOf m.lvl ≤ 1 then s.noteRead l else s) := by
  split
  · unfold State.noteRead
    dsimp only
    split
    · exact h
    · exact h
  · exact h

/-- A lane of a load that needs no peer. -/
theorem Mem.lane_load {t : State} {ln : Lane} {l : Loc} (hk : m.kind = .load) (hs : m.asksPeer s l = false) (ht : m.asksPeer t l = false)
    (e : (if rankOf m.lvl ≤ 1 then s.noteRead l else s) = t) : ∃ v, m.lane o ln l s = .ok (some v, t.afterRead m.lvl m.isSc l m.bytes) := by
  refine ⟨ofLE (s.readAt m.lvl m.isSc l m.bytes).1, ?_⟩
  have noted : (if rankOf m.lvl ≤ 1 then modify fun s => s.noteRead l else pure () : Act Unit) s = .ok ((), t) := by
    rw [← e]
    split <;> rfl
  unfold Mem.lane
  simp only [get_bind, hk, hs, Bool.false_and, Bool.false_eq_true, if_false]
  refine (congrFun Act.when_bind s).trans ((Act.bind_ok _ _ _ _ _ noted).trans ((Act.bind_ok _ _ _ _ _ (Act.modify_run ..)).trans ?_))
  rw [ht]
  rfl

theorem AccessLeft.load (h : AccessLeft m u (r :: rest) s) (hk : m.kind = .load) :
    ∃ v t, m.lane o r.1 r.2 s = .ok (some v, t) ∧ AccessLeft m u rest t := by
  have noted := h.noteRead r.2
  obtain ⟨v, lane⟩ := Mem.lane_load (o := o) (ln := r.1) hk (h.near List.mem_cons_self).2 (noted.near List.mem_cons_self).2 rfl
  obtain ⟨floors, notes⟩ := State.notes_afterRead (if rankOf m.lvl ≤ 1 then s.noteRead r.2 else s) m.lvl m.isSc r.2 m.bytes
  exact ⟨v, _, lane, noted.tail.of_frame notes.frame⟩

theorem AccessLeft.store (h : AccessLeft m u (r :: rest) s) (hk : m.kind = .store) :
    ∃ v t, m.lane o r.1 r.2 s = .ok (some v, t) ∧ AccessLeft m u rest t := by
  obtain ⟨t, put, left⟩ := h.writeAt (by rw [hk]; decide) (by rw [hk]; decide) (leBytes m.bytes (o.x s r.1.lane))
  exact ⟨0, t, Mem.lane_store hk (h.near List.mem_cons_self).1 put, left⟩

/-! #### Atomic lanes (08/R241, 13/R452) -/

/-- On a software-managed page an atomic at D or X performs at the home. -/
theorem atomicHere_uncached {lvl : Nat} {l : Loc} (op : AtomicOp) (hc : Claims.Clear s) (hr : 3 ≤ rankOf lvl) (hl : l.isLocal = false)
    (hcoh : l.coh = false) (hb : s.NothingBelow (rankOf lvl) l) : ∃ v t floors, atomicHere lvl l op s = .ok (v, t) ∧ t.frame = (s.seen floors).frame := by
  obtain ⟨x, back, fx⟩ := State.writeBack_of_clear hc s.w.core (lineOf l.pa)
  have fd : (x.dropLine x.w.core l.dev (lineOf l.pa)).frame = s.frame := (State.frame_dropLine ..).trans fx
  obtain ⟨y, write, fy⟩ := State.homeWrite_of_clear (State.clear_of_frame fd hc) none none (lineOf l.pa)
    (placed l.pa (leBytes op.bytes (op.apply ((x.dropLine x.w.core l.dev (lineOf l.pa)).mem.value l.pa op.bytes))))
  obtain ⟨floors, saw⟩ := y.sawNow_eq l.dev ((List.range op.bytes).map (l.pa + ·))
  refine ⟨(x.dropLine x.w.core l.dev (lineOf l.pa)).mem.value l.pa op.bytes, y.seen floors, floors, ?_, State.frame_seen (fy.trans fd) floors⟩
  unfold atomicHere
  rw [Act.bind_ok _ _ _ _ _ (liftOwn_of_nothingBelow hb _)]
  have home : (decide (3 ≤ rankOf lvl) && !l.isLocal && !l.coh) = true := by simp [hr, hl, hcoh]
  rw [if_pos home]
  refine (Act.bind_ok _ _ _ _ _ (withPool_eq_ok.mpr back)).trans ((Act.bind_ok _ _ _ _ _ (Act.modify_run ..)).trans ?_)
  rw [get_bind]
  refine (Act.bind_ok _ _ _ _ _ (withPool_eq_ok.mpr write)).trans ((Act.bind_ok _ _ _ _ _ (Act.modify_run ..)).trans ?_)
  rw [saw]
  rfl

/-- Elsewhere it reads the old value and writes the new one at its level. -/
theorem atomicHere_cached {lvl : Nat} {l : Loc} (op : AtomicOp) (hb : s.NothingBelow (rankOf lvl) l)
    (hh : (decide (3 ≤ rankOf lvl) && !l.isLocal && !l.coh) = false) : ∃ v bs, ∀ t,
      writeAt lvl l bs (s.afterRead lvl (decide (3 ≤ rankOf lvl)) l op.bytes) = .ok ((), t) → atomicHere lvl l op s = .ok (v, t) := by
  refine ⟨ofLE (s.readAt lvl (decide (3 ≤ rankOf lvl)) l op.bytes).1,
    leBytes op.bytes (op.apply (ofLE (s.readAt lvl (decide (3 ≤ rankOf lvl)) l op.bytes).1)), fun t write => ?_⟩
  unfold atomicHere
  rw [Act.bind_ok _ _ _ _ _ (liftOwn_of_nothingBelow hb _)]
  simp only [hh, Bool.false_eq_true, if_false, get_bind]
  exact (Act.bind_ok _ _ _ _ _ (Act.modify_run ..)).trans (Act.bind_ok _ _ _ _ _ write)

theorem AccessLeft.atomic (h : AccessLeft m u (r :: rest) s) (hk : m.kind = .atomic) :
    ∃ v t, m.lane o r.1 r.2 s = .ok (some v, t) ∧ AccessLeft m u rest t := by
  obtain ⟨-, -, below⟩ := h.lane List.mem_cons_self
  have act : ∃ v t, atomicHere m.lvl r.2 (m.op o s r.1.lane) s = .ok (v, t) ∧ AccessLeft m u rest t := by
    cases hh : (decide (3 ≤ rankOf m.lvl) && !r.2.isLocal && !r.2.coh) with
    | true =>
      simp only [Bool.and_eq_true, decide_eq_true_eq, Bool.not_eq_true'] at hh
      obtain ⟨v, t, floors, act, frame⟩ := atomicHere_uncached (m.op o s r.1.lane) (h.clear (by rw [hk]; decide)) hh.1.1 hh.1.2 hh.2 below
      exact ⟨v, t, act, h.tail.of_frame frame⟩
    | false =>
      obtain ⟨floors, notes⟩ := s.notes_afterRead m.lvl (decide (3 ≤ rankOf m.lvl)) r.2 (m.op o s r.1.lane).bytes
      obtain ⟨v, bs, act⟩ := atomicHere_cached (m.op o s r.1.lane) below hh
      obtain ⟨t, write, left⟩ := (h.of_frame notes.frame).writeAt (by rw [hk]; decide) (by rw [hk]; decide) bs
      exact ⟨v, t, act t write, left⟩
  obtain ⟨v, t, act, left⟩ := act
  obtain ⟨near, here⟩ := h.near List.mem_cons_self
  exact ⟨v, t, Mem.lane_atomic hk near here act, left⟩

/-! #### Update-only lanes (08/R244) -/

theorem State.recallWhere_of_noSnaps (hs : s.snaps = []) (who : Partial → Bool) (line : Nat) :
    ∃ t, s.recallWhere who s.dev.devnum line = .ok t ∧ t.snaps = [] := by
  have copies : s.copyOnWrite none line = .ok s := by
    simp only [State.copyOnWrite, State.deepest, hs]
    rfl
  unfold State.recallWhere
  simp only [if_true, copies]
  split
  · exact ⟨s, rfl, hs⟩
  · split
    · exact ⟨_, rfl, hs⟩
    · refine ⟨_, rfl, ?_⟩
      exact (State.frame_keeps State.snaps (fun _ => rfl) (State.frame_registerAll ..)).trans hs

/-- A core's dirty bytes go home where no snapshot takes a copy of them, with the partials of their line. -/
theorem State.writeBack_of_noSnaps (hs : s.snaps = []) (c : CoreId) (line : Nat) : ∃ t, s.writeBack c line = .ok t ∧ t.snaps = [] := by
  have recalled : ∃ t, s.recallLine s.dev.devnum line = .ok t ∧ t.snaps = [] := by
    unfold State.recallLine
    split
    · exact ⟨s, rfl, hs⟩
    · exact State.recallWhere_of_noSnaps hs _ line
  obtain ⟨t, recall_, ht⟩ := recalled
  have before : s.beforeWrite none line = .ok t := by
    unfold State.beforeWrite
    rw [recall_]
    show t.copyOnWrite none line = _
    simp only [State.copyOnWrite, State.deepest, ht]
    rfl
  unfold State.writeBack
  dsimp only
  split
  · exact ⟨s, rfl, hs⟩
  · rw [before]
    exact ⟨_, rfl, (State.frame_keeps State.snaps (fun _ => rfl) (State.frame_putDirty ..)).trans ht⟩

theorem State.addPartial_eq (s : State) (l : Loc) (op : AtomicOp) : ∃ ps, s.addPartial l op = { s with parts := ps } := by
  unfold State.addPartial State.gather
  dsimp only
  split <;> exact ⟨_, rfl⟩

theorem AccessLeft.update (h : AccessLeft m u (r :: rest) s) (hk : m.kind = .update) (hloc : m.loc = false) (hr : 3 ≤ rankOf m.lvl) :
    ∃ v t, m.lane o r.1 r.2 s = .ok (some v, t) ∧ AccessLeft m u rest t := by
  obtain ⟨local_, home, below⟩ := h.lane List.mem_cons_self
  obtain ⟨⟨snaps, -⟩, near, still⟩ := h
  have here : r.2.dev = s.dev.devnum := home.resolve_left (by rw [local_, hloc]; exact Bool.false_ne_true)
  have below3 : s.NothingBelow (rankOf 3) r.2 := by
    rw [State.nothingBelow_iff] at below ⊢
    exact ⟨fun _ => below.1 (by omega), fun x => below.2.1 ⟨by omega, x.2⟩, fun x => below.2.2 ⟨by omega, x.2⟩⟩
  obtain ⟨t, back, ht⟩ := State.writeBack_of_noSnaps snaps s.w.core (lineOf r.2.pa)
  have apart := State.apart_writeBack back
  obtain ⟨ps, gather⟩ := t.addPartial_eq r.2 (m.op o s r.1.lane)
  refine ⟨0, { t with parts := ps }, ?_, ⟨ht, fun c => absurd hk c⟩, ?_, ?_⟩
  · unfold Mem.lane
    simp only [get_bind, hk, here, if_true]
    refine (Act.bind_ok _ _ _ _ _ (liftOwn_of_nothingBelow below3 _)).trans ((Act.bind_ok _ _ _ _ _ (withPool_eq_ok.mpr back)).trans ?_)
    refine (Act.bind_ok _ _ _ _ _ (Act.modify_run ..)).trans ?_
    rw [gather]
    rfl
  · exact (State.apart_keeps (NearLeft m rest) (fun _ => rfl) apart).mpr near.tail
  · exact (State.still_of_apart apart).trans still

end

end Sys2Proof.Machine
end

section
/-! SUPPORT for accesses that complete: results in registers that nothing holds up, and all lanes of an access. -/

namespace Sys2Proof.Machine

/-! ### Results of a load (08/R236, R238) -/

theorem putScalar_withSregs (r : SReg) (n : Nat) (sx : Bool) (vals : LaneVals) (w : State) :
    ∃ sregs, putScalar r n sx vals w = .ok ((), w.withSregs sregs) := by
  cases vals with
  | nil => exact ⟨w.w.sregs, rfl⟩
  | cons v vals =>
    by_cases h : n = 8
    · subst h
      exact ⟨_, rfl⟩
    · refine ⟨_, (congrArg (fun x => Except.ok ((), x)) (if_neg h) : _).trans rfl⟩

/-- Under no bound a load's values pass as they are, and no bit of BNDST is set. -/
theorem State.loadBound_off {s : State} {vt : Nat} {units : List (Nat × Nat)} (h : ∀ x ∈ units, Claims.Unbound s (s.vreg (vt + x.1)).bnd)
    (vals : LaneVals) : ∃ out, s.loadBound vt units vals = .ok (out, []) := by
  induction units with
  | nil => exact ⟨vals, rfl⟩
  | cons x units ih =>
    obtain ⟨out, rest⟩ := ih fun y hy => h y (List.mem_cons_of_mem _ hy)
    unfold State.loadBound
    simp only [boundCheck_off _ _ (h x List.mem_cons_self), rest]
    exact ⟨_, rfl⟩

theorem State.boundUnits_lt {s : State} {vt words : Nat} {x : Nat × Nat} (h : x ∈ s.boundUnits vt words) : x.1 < words := by
  obtain ⟨k, hk, e⟩ := List.mem_filterMap.mp h
  have lt := List.mem_range.mp hk
  split_ifs at e <;> cases e <;> exact lt

theorem putLoad_withVregs {vt n : Nat} {s : State} (sx : Bool) (vals : LaneVals) (h : ∀ k, k < wordsOf n → (s.vreg (vt + k)).pend = false ∧
    Claims.Unbound s (s.vreg (vt + k)).bnd) : ∃ vregs, putLoad vt n sx vals s = .ok ((), s.withVregs vregs) := by
  obtain ⟨out, bound⟩ := State.loadBound_off (vt := vt) (units := s.boundUnits vt (wordsOf n)) (fun x hx => (h x.1 (State.boundUnits_lt hx)).2)
    (vals.map fun v => (v.1, extended sx n v.2))
  unfold putLoad
  simp only [get_bind, bound]
  split
  · obtain ⟨vregs, e⟩ := foldl_lanePut_eq (List.range (wordsOf n)) (out.map (·.1)) vt
      (fun k l => BitVec.ofNat 32 ((LaneVals.at_ out l).getD 0 / 2 ^ (32 * k))) s
    refine ⟨vregs, (Act.bind_ok _ _ _ _ _ (writeLanes_vals fun k hk => (h k hk).1)).trans ?_⟩
    rw [e]
    rfl
  · exact ⟨s.w.vregs, rfl⟩

/-! ### All lanes of an access (08/R232) -/

/-- An update-only access is global and at D or X (08/R243). -/
def Mem.UpdatesHigh (m : Mem) : Prop := m.kind = .update → m.loc = false ∧ 3 ≤ rankOf m.lvl

theorem Mem.perform_left {m : Mem} {u : State} {p : List (Lane × Loc)} (o : MemOps) (h : AccessLeft m u p u) (hu : m.UpdatesHigh) :
    ∃ vals t, m.perform o p [] (m.post o p [] u) = .ok ((vals, []), t) ∧ t.still = u.still := by
  have lane (r : Lane × Loc) (rest : List (Lane × Loc)) (s : State) (h : AccessLeft m u (r :: rest) s) :
      ∃ v t, m.lane o r.1 r.2 s = .ok (some v, t) ∧ AccessLeft m u rest t := by
    cases hk : m.kind with
    | load => exact h.load hk
    | store => exact h.store hk
    | atomic => exact h.atomic hk
    | update => exact h.update hk (hu hk).1 (hu hk).2
  have near : m.post o p [] u = u := Mem.post_of_near o fun x hx => (h.near hx).1
  obtain ⟨vals, t, perform, -, -, still⟩ := Mem.perform_ok (AccessLeft m u) lane p h
  exact ⟨vals, t, (congrArg _ near).trans perform, still⟩

theorem Place.used_of_empty {p : Place} (h : p.lines = []) : p.used = 0 := by simp [Place.used, h]

theorem AccessLeft.start {m : Mem} {s u : State} {p : List (Lane × Loc)} (hq : s.Quiet u) (hn : Claims.NoLines s) (hh : Claims.HomedHere s p)
    (hl : ∀ x ∈ p, x.2.isLocal = m.loc) (hf : m.kind ≠ .load → Claims.Fits m s p) : AccessLeft m u p u := by
  obtain ⟨lines, ⟨parts, snaps, restores⟩, still⟩ := hq
  have devnum : u.dev.devnum = s.dev.devnum := congrArg Still.devnum still
  have bcap : u.blk.bcap = s.blk.bcap := congrArg Still.bcap still
  have gcap : u.gang.gcap = s.gang.gcap := congrArg Still.gcap still
  have room {x y : Place} {cap : Nat} (hx : x.lines = []) (hy : y.lines = []) (h : x.used + Claims.linesOf p ≤ cap) : y.Room cap (p.map (·.2.key)) := by
    refine Place.room_of_lines ?_
    rw [Place.used_of_empty hy, ← Place.used_of_empty hx]
    exact h
  refine ⟨⟨snaps, fun _ => parts⟩, ⟨restores, fun x hx => ⟨hl x hx, ?_, nothingBelow_of_noLines lines _ _⟩, fun hk => ?_⟩, rfl⟩
  · rw [devnum]
    exact hh x hx
  · obtain ⟨w, b, g⟩ := hf hk
    rw [bcap, gcap]
    exact ⟨fun h => room hn.1 lines.1 (w h), fun hl h => room hn.2.1 lines.2.1 (b hl h), fun hl h => room hn.2.2 lines.2.2 (g hl h)⟩

theorem rankOf_le_four {lvl : BitVec 3} (h : lvl ≠ 7) : rankOf lvl.toNat ≤ 4 := by
  revert lvl
  decide

end Sys2Proof.Machine

namespace Sys2Proof.Claims
open Sys2Proof.Machine

/-- An instruction that leaves a state at its pc, acquired or not, completes. -/
theorem completes_of_next {i : Instr} {len : Nat} {s v : State} {a : Mem} (h : exec i s = .next ((acquired a v).retire len))
    (hp : v.w.pc = s.w.pc) (hs : v.w.seqno = s.w.seqno) : Completes i len s := by
  obtain ⟨cores, old, e⟩ := acquired_eq a v
  refine ⟨_, h, ?_, ?_⟩
  · rw [e, ← hp]
    rfl
  · rw [e, ← hs]
    rfl

section
variable {s : State} {p : List (Lane × Loc)} (hn : NoLines s) (hc : Clear s) (hh : HomedHere s p)
include hn hc hh

/-- The lanes of an access that passes its checks all perform (08/R232). -/
theorem access_performs {a : Mem} {o : MemOps} {dest : List Nat} (hr : rankOf a.lvl ≤ 4) (hu : a.UpdatesHigh) (hd : ∀ k ∈ dest, (s.vreg k).pend = false)
    (hf : a.kind ≠ .load → Fits a s p) (hp : Passes a o s p) : ∃ b u vals z, Ready a o dest s b p ∧ Prepared a o dest b p u ∧
      a.perform o p [] (a.post o p [] u) = .ok ((vals, []), z) ∧ z.still = s.still := by
  obtain ⟨b, u, ready, prepared, quiet⟩ := Mem.ready_ok hn hc hr hd hp
  obtain ⟨vals, z, perform, still⟩ := Mem.perform_left o (AccessLeft.start quiet hn hh (Mem.isLocal_of_checks ready.2.checks) hf) hu
  exact ⟨b, u, vals, z, ready, prepared, perform, still.trans quiet.2.2⟩

end

end Sys2Proof.Claims
end

section
/-! PROOF of O31: the six forms of access go on, from the checks through the lanes to the result registers. -/

namespace Sys2Proof.Machine

theorem updateOnly_of_kind {aop : BitVec 5} (h : atomicKind aop = .update) : updateOnly aop = true := by
  unfold atomicKind at h
  split at h
  · assumption
  · cases h

/-- The word of an update-only atomic names a global place at D or X (08/R243). -/
theorem updatesHigh_of_wordOk {a : Mem} {as : BitVec 2} {v : BitVec 1} {aop : BitVec 5} {order : BitVec 3} {sx : BitVec 1} {lvl width : BitVec 3}
    (h : memWordOk .atomic as v aop order sx lvl width = true) (hk : a.kind = atomicKind aop) (hloc : a.loc = decide (as = 1#2))
    (hl : a.lvl = lvl.toNat) : a.UpdatesHigh := by
  intro hu
  obtain ⟨-, has, lvl34⟩ := (memWordOk_atomic h).2 (updateOnly_of_kind (hk.symm.trans hu))
  rw [hloc, hl, has]
  refine ⟨rfl, ?_⟩
  rcases lvl34 with rfl | rfl <;> decide

/-- What completes an instruction stands in a state that no lane has changed in it. -/
theorem State.still_goesOn {s z : State} (h : z.still = s.still) : z.w.pc = s.w.pc ∧ z.w.seqno = s.w.seqno ∧ z.w.errinj = s.w.errinj :=
  ⟨congrArg Still.pc h, congrArg Still.seqno h, congrArg Still.errinj h⟩

theorem State.still_unbound {s z : State} (h : z.still = s.still) {b : BitVec 4} (hb : Claims.Unbound s b) : Claims.Unbound z b := by
  have bounds : z.bounds = s.bounds := congrArg Still.bounds h
  unfold Claims.Unbound
  rwa [bounds]

end Sys2Proof.Machine

namespace Sys2Proof.Claims
open Sys2Proof.Machine

/-- A load whose act answers completes: ERRINJ.ARM is clear before and after. -/
theorem load_completes {i : Instr} {len : Nat} {s : State} {p : List (Lane × Loc)} {a : Mem} {o : MemOps} {dest : List Nat}
    {put : LaneVals → Act PUnit} {claim : Claim} {window : Act Unit} {b u v z : State} {vals : LaneVals} (hw : i.wellFormed = true) (hs : Calm s)
    (he : exec i s = run i claim (window >>= fun _ => a.body { o with put := put } dest) s) (hsize : i.size = len)
    (hwin : window s = .ok ((), s)) (hr : Ready a o dest s b p) (hu : Prepared a o dest b p u)
    (hp : a.perform o p [] (a.post o p [] u) = .ok ((vals, []), z)) (hv : put vals z = .ok ((), v))
    (hz : v.w.pc = s.w.pc ∧ v.w.seqno = s.w.seqno ∧ v.w.errinj = s.w.errinj) : Completes i len s := by
  obtain ⟨cores, old, e⟩ := acquired_eq a v
  have calm : injArm (acquired a v).w.errinj = false := by
    rw [e]
    show injArm v.w.errinj = false
    rw [hz.2.2]
    exact hs
  refine completes_of_next (a := a) (v := v) ?_ hz.1 hz.2.1
  rw [he, ← hsize]
  exact run_next i claim _ s _ hw ((Act.bind_ok _ _ _ _ _ hwin).trans (Mem.body_ok hr hu hp hv)) calm

section
variable {i : Instr} {off : DWord} {len : Nat} {s : State} {p : List (Lane × Loc)} (hw : i.wellFormed = true) (hn : NoLines s) (hc : Clear s)
  (hh : HomedHere s p)
include hw hn hc hh

theorem scalarLoad_completes {m : MS} (hs : Calm s) (h : scalarLoad i = some (m, off, len)) (hp : Passes (msMem m .load) (loadOps m off) s p) :
    Completes i len s := by
  obtain ⟨b, u, vals, z, ready, prepared, perform, still⟩ := access_performs hn hc hh (a := msMem m .load) (dest := [])
    (rankOf_le_four (memWordOk_lvl (scalarLoad_wordOk h hw))) (fun e => nomatch e) (fun k hk => nomatch hk) (fun e => absurd rfl e) hp
  obtain ⟨sregs, put⟩ := putScalar_withSregs m.sd (2 ^ m.width.toNat) (m.sx == 1#1) vals z
  obtain ⟨he, hsize⟩ := exec_scalarLoad h s
  exact load_completes hw (window := pure ()) hs he hsize rfl ready prepared perform put (State.still_goesOn still)

theorem vectorLoad_completes {m : MX} (hs : Calm s) (h : vectorLoad i = some (m, off, len)) (hoff : m.voff.toNat < s.w.valloc)
    (hvt : m.vt.toNat + wordsOf (mxMem m .load).bytes ≤ s.w.valloc)
    (hd : ∀ k ∈ runOf m, (s.vreg k).pend = false ∧ Unbound s (s.vreg k).bnd) (hp : Passes (mxMem m .load) (vloadOps m off) s p) :
    Completes i len s := by
  obtain ⟨b, u, vals, z, ready, prepared, perform, still⟩ := access_performs hn hc hh (a := mxMem m .load) (dest := runOf m)
    (rankOf_le_four (memWordOk_lvl (vectorLoad_wordOk h hw))) (fun e => nomatch e) (fun k hk => (hd k hk).1) (fun e => absurd rfl e) hp
  obtain ⟨vregs, put⟩ := putLoad_withVregs (s := z) (vt := m.vt.toNat) (n := 2 ^ m.width.toNat) (m.sx == 1#1) vals fun k hk => by
    rw [State.still_vreg still]
    obtain ⟨pend, unbound⟩ := hd _ (List.mem_map.mpr ⟨k, List.mem_range.mpr hk, rfl⟩)
    exact ⟨pend, State.still_unbound still unbound⟩
  obtain ⟨he, hsize⟩ := exec_vectorLoad h s
  have goesOn := State.still_goesOn still
  exact load_completes hw hs he hsize (mxWindow_ok (atomic := false) hoff hvt) ready prepared perform put goesOn

theorem scalarStore_completes {m : MS} (h : scalarStore i = some (m, off, len)) (hf : Fits (msMem m .store) s p)
    (hp : Passes (msMem m .store) (storeOps m off) s p) : Completes i len s := by
  obtain ⟨b, u, vals, z, ready, prepared, perform, still⟩ := access_performs hn hc hh (a := msMem m .store) (dest := [])
    (rankOf_le_four (memWordOk_lvl (scalarStore_wordOk h hw))) (fun e => nomatch e) (fun k hk => nomatch hk) (fun _ => hf) hp
  obtain ⟨pc, seqno, -⟩ := State.still_goesOn still
  exact completes_of_next (scalarStore_next h hw ready prepared perform) pc seqno

theorem vectorStore_completes {m : MX} (h : vectorStore i = some (m, off, len)) (hoff : m.voff.toNat < s.w.valloc)
    (hvt : m.vt.toNat + wordsOf (mxMem m .store).bytes ≤ s.w.valloc) (hf : Fits (mxMem m .store) s p)
    (hp : Passes (mxMem m .store) (vstoreOps m off) s p) : Completes i len s := by
  obtain ⟨b, u, vals, z, ready, prepared, perform, still⟩ := access_performs hn hc hh (a := mxMem m .store) (dest := [])
    (rankOf_le_four (memWordOk_lvl (vectorStore_wordOk h hw))) (fun e => nomatch e) (fun k hk => nomatch hk) (fun _ => hf) hp
  obtain ⟨pc, seqno, -⟩ := State.still_goesOn still
  exact completes_of_next (vectorStore_next h hw hoff hvt ready prepared perform) pc seqno

theorem scalarAtomic_completes {m : MS} (h : scalarAtomic i = some (m, off, len)) (hf : Fits (msMem m (atomicKind m.aop)) s p)
    (hp : Passes (msMem m (atomicKind m.aop)) (atomicOps m off) s p) : Completes i len s := by
  have word := scalarAtomic_wordOk h hw
  obtain ⟨b, u, vals, z, ready, prepared, perform, still⟩ := access_performs hn hc hh (a := msMem m (atomicKind m.aop)) (dest := [])
    (rankOf_le_four (memWordOk_lvl word)) (updatesHigh_of_wordOk word rfl rfl rfl) (fun k hk => nomatch hk) (fun _ => hf) hp
  rw [Mem.post_of_not_store (atomicKind_ne_store _)] at perform
  obtain ⟨v, sregs, put, rfl, -⟩ := putScalar_sregs m vals z
  obtain ⟨pc, seqno, -⟩ := State.still_goesOn still
  exact completes_of_next (scalarAtomic_next h hw ready prepared perform put) pc seqno

theorem vectorAtomic_completes {m : MX} (h : vectorAtomic i = some (m, off, len)) (hoff : m.voff.toNat < s.w.valloc)
    (hvt : m.vt.toNat + (if isCas m.aop then 2 * wordsOf (mxMem m (atomicKind m.aop)).bytes else wordsOf (mxMem m (atomicKind m.aop)).bytes) ≤ s.w.valloc)
    (hd : ∀ k ∈ runOf m, (s.vreg k).pend = false) (hf : Fits (mxMem m (atomicKind m.aop)) s p)
    (hp : Passes (mxMem m (atomicKind m.aop)) (vatomicOps m off) s p) : Completes i len s := by
  have word := vectorAtomic_wordOk h hw
  obtain ⟨b, u, vals, z, ready, prepared, perform, still⟩ := access_performs hn hc hh (a := mxMem m (atomicKind m.aop))
    (dest := if m.v = 1 then runOf m else [])
    (rankOf_le_four (memWordOk_lvl word)) (updatesHigh_of_wordOk word rfl rfl rfl) (fun k hk => hd k (by
      split at hk
      · exact hk
      · cases hk)) (fun _ => hf) hp
  rw [Mem.post_of_not_store (atomicKind_ne_store _)] at perform
  obtain ⟨vregs, put, -⟩ := writeLanes_vregs (m := m) (vals := vals) (w := z) fun _ k hk => by
    rw [State.still_vreg still]
    exact hd k hk
  obtain ⟨pc, seqno, -⟩ := State.still_goesOn still
  exact completes_of_next (vectorAtomic_next h hw hoff hvt ready prepared perform put) pc seqno

end

theorem accessesComplete : AccessesComplete := by
  intro i off len s p hw hs hn hc hh
  exact ⟨fun m h => scalarLoad_completes hw hn hc hh hs h, fun m h => scalarStore_completes hw hn hc hh h,
    fun m h => scalarAtomic_completes hw hn hc hh h, fun m h => vectorLoad_completes hw hn hc hh hs h,
    fun m h => vectorStore_completes hw hn hc hh h, fun m h => vectorAtomic_completes hw hn hc hh h⟩

/-- Settles O31: from the checks on, each lane leaves a state in which the others still find their homes here and room, and the results go to
registers that nothing holds up; a local store is its lanes' bytes, one after another. -/
theorem stores : Obligations.Stores := ⟨storesComplete, localStores, accessesComplete⟩

end Sys2Proof.Claims
end
